-- ==== Sys2Proof/Word.lean ====
section
/-! DEFINITION. The word types of the panel and their plainest arithmetic (R3: bit 0 is the least significant bit). -/

namespace Sys2Proof

/-- One byte of a memory. -/
abbrev Byte := BitVec 8

/-- A 64-bit register or panel word. -/
abbrev Word := BitVec 64

/-- A schedule word (R31). -/
abbrev SchedWord := BitVec 256

/-- A sparse map: pairs of key and value, keys strictly rising, no pair whose value is the default. -/
abbrev SMap (β : Type) := List (Nat × β)

end Sys2Proof
end

