-- ==== Sys2Proof/Syntax.lean ====
section
/-! DEFINITION. The commands of the panel: one constructor of `Instr` per row of spec/opcode_table.json, and the operand types they carry. -/

namespace Sys2Proof

/-- A core of a die: the site of the die and the core on the die, 0-47 (R68). -/
structure CoreRef where
  site : Nat
  core : Nat
  deriving DecidableEq, Repr

/-- A cluster of a die: the site and the cluster on the die, 0-1 (R170). -/
structure CluRef where
  site : Nat
  clu : Nat
  deriving DecidableEq, Repr

/-- A fetch thread: its core and its number 0-47 (R202). -/
structure ThreadRef where
  site : Nat
  core : Nat
  thread : Nat
  deriving DecidableEq, Repr

/-- A stream message (R190): CELL, CLOSE or CREDIT by the row that carries it. -/
structure StreamMsg where
  kind : Nat
  epoch : Nat
  ddie : Nat
  dclu : Nat
  ring : Bool
  dring : Nat
  dindex : Nat
  dcore : Nat
  first : Bool
  poison : BitVec 8
  count : Nat
  data : List Byte
  deriving DecidableEq, Repr

/-- A hub request (R241). `opc` is the OP field; the row that carries the request fixes it. -/
structure HubReq where
  opc : Nat
  epoch : Nat
  spanel : Nat
  ssite : Nat
  sunit : Nat
  tag : Nat
  addr : Nat
  opid : Nat
  param : Nat
  order : Nat
  group : Nat
  poison : BitVec 32
  length : Nat
  reserved : Nat
  data : List Byte
  deriving DecidableEq, Repr

/-- A hub or port reply (R242). -/
structure HubRep where
  status : Nat
  epoch : Nat
  dpanel : Nat
  dsite : Nat
  dunit : Nat
  tag : Nat
  opid : Nat
  poison : BitVec 32
  data : List Byte
  deriving DecidableEq, Repr

/-- A mesh packet (R268, R269): header fields, multicast extension and payload length. -/
structure Packet where
  cls : Nat
  mcast : Bool
  lane : Nat
  mcopy : Bool
  plen : Nat
  toDie : Bool
  dest : Nat
  dsite : Nat
  msite : Nat
  dunit : Nat
  ssite : Nat
  sunit : Nat
  hops : Nat
  mcid : Nat
  dld : Nat
  mask : BitVec 144
  expect : Nat
  payload : List Byte
  deriving DecidableEq, Repr

/-- The control word of a sub-link (R263), with what the flit carries and whether its parity holds (R261, R265). -/
structure FlitIn where
  valid : Bool
  cls : Nat
  lane : Nat
  head : Bool
  tail : Bool
  seq : Nat
  rpl : Bool
  ackv : Bool
  ackpos : Nat
  nakv : Bool
  naksub : Nat
  nakpos : Nat
  retire : Bool
  crv : Bool
  crvc : Nat
  crcount : Nat
  parityOk : Bool
  eccOk : Bool
  data : BitVec 512
  deriving DecidableEq, Repr

/-- A Jorzen frame (R295) as it arrives on a lane. `ok` is 0 for a failed frame. -/
structure Frame where
  typ : Nat
  vc : Nat
  plen : Nat
  seq : Nat
  spanel : Nat
  dpanel : Nat
  hops : Nat
  replay : Bool
  failover : Bool
  hostcmd : Bool
  teamcast : Bool
  ack : Nat
  ok : Bool
  words : Nat
  /-- The hub operation of a REQ frame (R313); 255 for any other frame. -/
  hubOp : Nat
  payload : List Byte
  deriving DecidableEq, Repr

/-- The header of a command packet (R356) as the control die receives it, with the bridging marks of R317. -/
structure CmdHdr where
  port : Nat
  opcode : Nat
  tag : Nat
  length : Nat
  received : Nat
  seq : Nat
  tmo : Nat
  reserved : Nat
  bridged : Bool
  spanel : Nat
  deriving DecidableEq, Repr

/-- The signed authorisation of LIFECYCLE and DEBUG_UNLOCK (R465). -/
structure Auth where
  kind : Nat
  target : Nat
  signer : Nat
  reserved : Nat
  challenge : Nat
  device : Nat
  arg : Nat
  pubkey : Nat
  signature : Nat
  deriving DecidableEq, Repr

/-- One reading of a hot-spot site: diodes A and B and the ring oscillator, in 0.01 degC (R427). -/
structure Reading where
  a : Int
  b : Int
  ro : Int
  deriving DecidableEq, Repr

/-- A notice record on its way to the control die, without its SEQ (R478). -/
structure Notice where
  typ : Nat
  cls : Nat
  loss : Bool
  time : Nat
  site : Nat
  unit : Nat
  squad : Nat
  squadValid : Bool
  arg0 : Nat
  arg1 : Nat
  deriving DecidableEq, Repr

/-- The tables a FABRIC_TIMEOUT supplies (R365). -/
structure TimeoutTables where
  force : Bool
  l2s : Option (List Nat)
  alive : Option (List Nat)
  fenced : Option (List Nat)
  ilvFirst : Nat
  ilv : Option (List (BitVec 32))
  deriving DecidableEq, Repr

/-- The commands of the panel (spec/opcode_table.json): a host command packet, an issued slot, a fetch instruction, an arriving
message, or an event. Every row is whole and indivisible (95_what_each_step_holds). -/
inductive Instr where
  -- slots of the schedule word (02): the slot's own bits, guard included; the row fixes the operation field
  | loop (c : CoreRef) (w : BitVec 24)
  | pset (c : CoreRef) (w : BitVec 24)
  | ploop (c : CoreRef) (w : BitVec 24)
  | plogic (c : CoreRef) (w : BitVec 24)
  | ldcnt (c : CoreRef) (w : BitVec 24)
  | endSched (c : CoreRef) (w : BitVec 24)
  | counterWait (c : CoreRef) (w : BitVec 24)
  | queueWait (c : CoreRef) (w : BitVec 24)
  | arriveAndWait (c : CoreRef) (w : BitVec 24)
  | arriveOnly (c : CoreRef) (w : BitVec 24)
  | waitOnly (c : CoreRef) (w : BitVec 24)
  | start (c : CoreRef) (channel : Nat) (w : BitVec 24)
  | moveComplete (c : CoreRef) (channel : Nat)
  | push (c : CoreRef) (w : BitVec 32)
  | pop (c : CoreRef) (w : BitVec 32)
  | openPkt (c : CoreRef) (w : BitVec 32)
  | closePkt (c : CoreRef) (w : BitVec 32)
  | markQ (c : CoreRef) (w : BitVec 32)
  | rewindQ (c : CoreRef) (w : BitVec 32)
  | releaseQ (c : CoreRef) (w : BitVec 32)
  | mac (c : CoreRef) (w : BitVec 64)
  | emit (c : CoreRef) (w : BitVec 64)
  | spill (c : CoreRef) (w : BitVec 64)
  | zeroSlot (c : CoreRef) (w : BitVec 64)
  | run (c : CoreRef) (w : BitVec 64)
  | stepWord (c : CoreRef)
  | continueCore (c : CoreRef)
  | dbgDataRead (h : CmdHdr) (c : CoreRef)
  | corePaused (c : CoreRef)
  | coreEnded (c : CoreRef)
  | whistleDriven (line : Nat)
  | huddleComplete (line : Nat)
  | shotClock (site : Nat)
  | sramPatrolRead (site : Nat) (unit : Nat) (line : Nat)
  | clearComplete (site : Nat)
  | inboxDelivery (m : StreamMsg)
  | cell (m : StreamMsg)
  | closeMessage (m : StreamMsg)
  | credit (m : StreamMsg)
  | queueSweepDone (q : CluRef) (queue : Nat)
  -- fetch-thread instructions (08): the 32-bit word; the row fixes OP
  | nop (t : ThreadRef) (w : BitVec 32)
  | add (t : ThreadRef) (w : BitVec 32)
  | sub (t : ThreadRef) (w : BitVec 32)
  | addi (t : ThreadRef) (w : BitVec 32)
  | and (t : ThreadRef) (w : BitVec 32)
  | or (t : ThreadRef) (w : BitVec 32)
  | xor (t : ThreadRef) (w : BitVec 32)
  | shli (t : ThreadRef) (w : BitVec 32)
  | shri (t : ThreadRef) (w : BitVec 32)
  | muli (t : ThreadRef) (w : BitVec 32)
  | shin (t : ThreadRef) (w : BitVec 32)
  | beq (t : ThreadRef) (w : BitVec 32)
  | bne (t : ThreadRef) (w : BitVec 32)
  | blt (t : ThreadRef) (w : BitVec 32)
  | bge (t : ThreadRef) (w : BitVec 32)
  | bnzd (t : ThreadRef) (w : BitVec 32)
  | jmp (t : ThreadRef) (w : BitVec 32)
  | waitc (t : ThreadRef) (w : BitVec 32)
  | threadStop (t : ThreadRef) (w : BitVec 32)
  | cinc (t : ThreadRef) (w : BitVec 32)
  | stat (t : ThreadRef) (w : BitVec 32)
  | fence (t : ThreadRef) (w : BitVec 32)
  | ld (t : ThreadRef) (w : BitVec 32)
  | lds (t : ThreadRef) (w : BitVec 32)
  | str (t : ThreadRef) (w : BitVec 32)
  | twalk (t : ThreadRef) (w : BitVec 32)
  | gather (t : ThreadRef) (w : BitVec 32)
  | storeT (t : ThreadRef) (w : BitVec 32)
  | atom (t : ThreadRef) (w : BitVec 32)
  | red (t : ThreadRef) (w : BitVec 32)
  | fetchDrainBound (c : CoreRef)
  | hubReply (m : HubRep)
  -- hubs (09): the stack that performs the request
  | hubRead (stack : Nat) (r : HubReq)
  | read8 (stack : Nat) (r : HubReq)
  | hubWrite (stack : Nat) (r : HubReq)
  | write8 (stack : Nat) (r : HubReq)
  | hubAtom (stack : Nat) (r : HubReq)
  | hubRed (stack : Nat) (r : HubReq)
  | gatherC (stack : Nat) (r : HubReq)
  | storeC (stack : Nat) (r : HubReq)
  | partRead (stack : Nat) (r : HubReq)
  | partWrite (stack : Nat) (r : HubReq)
  | recordTimeout (stack : Nat) (unitAddr : Nat)
  | dedupWindowIdle (stack : Nat) (panel : Nat)
  | hbmPatrolRead (stack : Nat) (unitAddr : Nat)
  | zeroScrubDone (stack : Nat)
  | channelErrors (stack : Nat) (channel : Nat)
  | retrain (h : CmdHdr) (stack : Nat) (value : Word)
  | channelRetrainDone (stack : Nat) (channel : Nat) (ok : Bool)
  | acceptAtom (h : CmdHdr) (stack : Nat) (value : Word)
  | hubDrainBound (stack : Nat)
  | hbmRailFault (block : Nat)
  -- mesh (10): the site of the router; ports 0 north, 1 east, 2 south, 3 west
  | packetInject (site : Nat) (p : Packet)
  | flit (site : Nat) (port : Nat) (sub : Nat) (f : FlitIn)
  | nakRepeat (site : Nat) (port : Nat) (sub : Nat)
  | multicastAck (mcid : Nat) (ssite : Nat) (ldie : Nat) (status : Nat)
  | fencedReply (ldie : Nat)
  | timeoutDrainDone
  | timeoutDrainLimit (notEmpty : List Nat)
  | routerNoAnswer (site : Nat) (notEmpty : List Nat)
  -- Jorzen ports (11)
  | pkt (port : Nat) (lane : Nat) (f : Frame)
  | ctrl (port : Nat) (f : Frame) (nak : Bool) (freed : List Nat)
  | ctrlTimer (port : Nat)
  | rto (port : Nat)
  | retire (port : Nat) (sets : BitVec 4)
  | confirm (port : Nat) (sets : BitVec 4) (base : Nat)
  | down (port : Nat)
  | drain (port : Nat)
  | mgmtRepeat (port : Nat)
  | laneFailure (port : Nat) (lane : Nat)
  | fecWindow (port : Nat) (lane : Nat) (rxpow : Int) (bias : Nat) (prefec : Nat) (uncorr : Nat) (lock : Bool)
  | replyTimeout (port : Nat) (entry : Nat)
  | autoRetrain (port : Nat)
  | portDrainBound (port : Nat)
  | portTrained (port : Nat) (txSets : BitVec 4) (rxSets : BitVec 4) (misplaced : Nat)
  | timeExchange (port : Nat)
  | sync (port : Nat) (exch : Nat)
  | followUp (port : Nat) (exch : Nat) (t1 : Nat)
  | delayReq (port : Nat) (exch : Nat)
  | delayResp (port : Nat) (exch : Nat) (t4 : Nat)
  -- host commands (13): the header, then the parameters; `rsv` gathers the reserved parameter bytes (R9)
  | commandBadcrc (port : Nat)
  | unknownOpcode (h : CmdHdr)
  | identify (h : CmdHdr)
  | getStatus (h : CmdHdr)
  | readCsr (h : CmdHdr) (addr : Nat) (count : Nat) (rsv : Nat)
  | writeCsr (h : CmdHdr) (addr : Nat) (value : Word)
  | echo (h : CmdHdr) (bytes : List Byte)
  | setPowerCap (h : CmdHdr) (cap : Nat) (rsv : Nat)
  | setBlockLimits (h : CmdHdr) (limits : List Nat)
  | setCoolant (h : CmdHdr) (inlet : Int) (flow : Nat) (rsv : Nat)
  | getPowerThermal (h : CmdHdr)
  | getRoster (h : CmdHdr)
  | fenceDie (h : CmdHdr) (site : Nat) (rsv : Nat)
  | substitute (h : CmdHdr) (ldie : Nat) (bench : Nat) (mode : Nat) (rsv : Nat)
  | retireDie (h : CmdHdr) (site : Nat) (rsv : Nat)
  | rollCall (h : CmdHdr) (block : Nat) (rsv : Nat)
  | loadImage (h : CmdHdr) (base : Nat) (length : Nat) (digest : Nat)
  | configure (h : CmdHdr) (squads : BitVec 16) (rsv : Nat)
  | kickoff (h : CmdHdr) (squads : BitVec 16) (rsv : Nat)
  | pause (h : CmdHdr) (squads : BitVec 16) (limit : Nat) (rsv : Nat)
  | halfTime (h : CmdHdr) (squads : BitVec 16) (limit : Nat) (rsv : Nat)
  | resume (h : CmdHdr) (squads : BitVec 16) (restore : Bool) (rsv : Nat)
  | stop (h : CmdHdr) (squads : BitVec 16) (teardown : Bool) (rsv : Nat)
  | scrub (h : CmdHdr) (squads : BitVec 16) (scope : Nat) (rsv : Nat)
  | abort (h : CmdHdr) (port : Nat) (tag : Nat) (rsv : Nat)
  | dataOpen (h : CmdHdr) (addr : Nat) (length : Nat) (dir : Nat) (burst : Nat) (ports : BitVec 8) (rsv : Nat)
  | dataClose (h : CmdHdr) (window : Nat) (rsv : Nat)
  | fill (h : CmdHdr) (addr : Nat) (length : Nat) (pattern : Word)
  | setPortRoutes (h : CmdHdr) (flags : BitVec 8) (port : Nat) (panel : Nat) (captain : Nat) (first : Nat)
      (team : List Nat) (routes : List (BitVec 32)) (rsv : Nat)
  | portControl (h : CmdHdr) (port : Nat) (action : Nat) (role : Nat) (rsv : Nat)
  | fabricTimeout (h : CmdHdr) (tables : TimeoutTables) (rsv : Nat)
  | timeSync (h : CmdHdr) (refpanel : Nat) (upstream : Nat) (rsv : Nat)
  | setTime (h : CmdHdr) (time : Word)
  | attest (h : CmdHdr) (nonce : Nat)
  | lifecycle (h : CmdHdr) (target : Nat) (auth : Auth) (rsv : Nat)
  | debugUnlock (h : CmdHdr) (action : Nat) (auth : Auth) (rsv : Nat)
  | fwUpdate (h : CmdHdr) (addr : Nat) (length : Nat)
  | readNotices (h : CmdHdr) (max : Nat) (peek : Bool) (rsv : Nat)
  | readCounters (h : CmdHdr) (addrs : List Nat)
  | marginScan (h : CmdHdr) (kind : Nat) (site : Nat) (rsv : Nat)
  | scanAccess (h : CmdHdr) (site : Nat) (chain : Nat) (op : Nat) (bits : Nat) (data : List Byte) (rsv : Nat)
  | cmdTmo (port : Nat) (tag : Nat)
  -- events of runs (12)
  | loadImageHashed
  | configureDrainEnd
  | configureDone
  | squadPaused (squad : Nat)
  | pauseLimit (squads : BitVec 16)
  | halfTimeSaved
  | restoreDone
  | scrubDone
  | squadStopped (squad : Nat)
  | squadComplete (squad : Nat)
  -- admission, self-test, substitution (14, 16)
  | admissionGranted (block : Nat)
  | admissionRetry (block : Nat)
  | admissionDeferred (block : Nat)
  | selfTestDone (site : Nat) (ok : Bool)
  | bulkCopyDone
  | copyStall
  | dieDead (site : Nat)
  -- data windows (13)
  | data (port : Nat) (window : Nat) (offset : Nat) (dlen : Nat) (poison : Nat) (last : Bool) (rsv : Nat) (bytes : List Byte)
  | ack (port : Nat) (window : Nat) (offset : Nat)
  | windowDrainBound (port : Nat) (window : Nat)
  | marginScanDone
  | flashWriteDone (readBackOk : Bool)
  -- power (16)
  | powerSample (site : Nat) (volts : List Nat) (amps : List Nat)
  | vinUndervolt (site : Nat) (corner : Nat) (mv : Nat)
  | vaonOvercurrent (site : Nat)
  | phaseFail (site : Nat) (phase : Nat)
  | islandCellFail (site : Nat) (cell : Nat)
  | pathSample (site : Nat) (corner : Nat) (base : Nat) (now : Nat) (persistent : Bool)
  | budgetUpdate
  | ceilingControl (site : Nat) (avg1us : Nat) (avg1ms : Nat)
  | pwrgoodFall (block : Nat)
  | pwrgoodAssert (block : Nat)
  | rollCallLimit (block : Nat)
  | siteCheckDone (site : Nat) (vin : Nat) (amps : Nat)
  -- thermal (17)
  | sensorSample (site : Nat) (readings : List Reading)
  | lidSample (inlet : Int) (outlet : Int)
  | flowCheck (held10s : Bool)
  | flowLoss (byRate : Bool)
  | hbmHoldExpiry
  | flowRestored
  | thermtrip (site : Nat)
  -- clocks (15)
  | marginWarning (site : Nat) (core : Nat) (mon : Nat) (slack : Nat)
  | codeRise (site : Nat)
  | clockFloor (site : Nat) (core : Nat)
  | clockUnlock (site : Nat) (gen : Nat)
  | refclkLoss (quadrant : Nat)
  | correctionEdge (site : Nat) (count : Nat)
  | timeUpdate (site : Nat) (step : Bool) (value : Nat) (neg : Bool) (edge : Nat)
  | minReset (h : CmdHdr) (site : Nat)
  | slackMinReset (h : CmdHdr) (site : Nat)
  | peakReset (h : CmdHdr) (site : Nat)
  -- contacts and bring-up (12, 18, 20, 21)
  | haltNAssert
  | haltNRelease
  | resetNAssert
  | resetNRelease (ctlsel : Bool) (flowOk : Bool)
  | controlDieBooted (ok : Bool)
  | firmwareVerified (image : List Byte)
  | meshWaveDone (wave : Nat) (failed : List Nat) (aligns : List (Nat × Int))
  | blkEnRaise (block : Nat)
  | pwrgoodTimeout (block : Nat)
  | hbmTrained (stack : Nat) (failed : List Nat)
  | rosterBuild
  | computeReset (h : CmdHdr) (value : Word)
  | squadReset (h : CmdHdr) (value : Word)
  | dieComputeReset (h : CmdHdr) (value : Word)
  | portRetrain (h : CmdHdr) (value : Word)
  | resetDone (result : Nat)
  | tamper (cause : Nat)
  -- IEEE 1149.1 port of a control die (19, 21)
  | bypass (die : Nat)
  | idcode (die : Nat)
  | samplePreload (die : Nat) (drive : Nat)
  | extest (die : Nat)
  | faultRead (die : Nat)
  | jtagRefused (die : Nat)
  -- I3C (21), notices (20), fuses (19)
  | i3cStart (h : CmdHdr) (value : Word)
  | i3cDone (nack : Bool) (rdata : BitVec 32)
  | privateInstruction (die : Nat) (code : Nat)
  | noticeRecord (site : Nat)
  | marginCheck (slacks : List (Nat × Nat × Nat))
  | grade (h : CmdHdr) (value : Word)
  | hostport (h : CmdHdr) (value : Word)
  -- events without operands
  | noticePush
  | fwUpdateVerified
  | thmSaveCut
  | heartbeatLoss
  | watchdog
  | thetaUpdate
  | thermalCapUpdate
  deriving DecidableEq, Repr

end Sys2Proof
end

