-- ==== Sys2Proof/Machine/State.lean ====
section
/-! DEFINITION. What the panel holds: registers, memories, queues, messages on their way, and the state after reset. -/

namespace Sys2Proof.Machine

/-- Access code of a register field (R7); `int` marks a field of no register: state of the spec that software cannot address. -/
inductive Acc where
  | ro | rw | wo | w1c | fl | int
  deriving DecidableEq, Repr

/-- A field: its offset (below 2^24 a CSR-window offset, above it state outside the registers), its lowest bit, its width, its reset
value and its access code. -/
structure Fld where
  off : Nat
  lo : Nat
  width : Nat
  reset : Nat
  acc : Acc
  deriving DecidableEq, Repr

/-- The units that hold registers. -/
inductive RegUnit where
  | core | cluster | hub | router | port | panel | die
  deriving DecidableEq, Repr

/-- A cell held by a stream queue (R176): its number in the pool, which holds its data, and its link entry. `popped` marks a cell that a
consumer has popped (R181); `reset` a marker that records a queue reset (R196). -/
structure QCell where
  cellNo : Nat
  kind : Nat
  len : Nat
  epoch : Nat
  popped : Bool
  reset : Bool
  deriving DecidableEq, Repr

/-- A stream queue: its cells in queue order from HEAD; RPTR and MARK as counts of cells from HEAD (R183); the cells linked of the open
packet, if one is open (R186); the pending drop count (R181); the cells dropped during a sweep (R196); pointers whose two copies differ, as
a mask of HEAD, TAIL, RPTR, MARK, link entry (R194). -/
structure QueueSt where
  cells : List QCell
  rptr : Nat
  mark : Nat
  openPkt : Option Nat
  pendDrops : Nat
  sweepDrops : Nat
  mismatch : Nat
  deriving DecidableEq, Repr

/-- A queue that holds nothing. -/
def QueueSt.empty : QueueSt := ⟨[], 0, 0, none, 0, 0, 0⟩

/-- A beat of a move that has been read and not yet written (R55). -/
structure Beat where
  site : Nat
  core : Nat
  channel : Nat
  left : Nat
  space : Nat
  other : Bool
  addr : Nat
  data : List Byte
  poison : Nat
  last : Bool
  counter : Nat
  countEn : Bool
  /-- Word address and issue number of the `START` (R151). -/
  word : Nat
  order : Nat
  /-- Operand-buffer halves its move fills, as a mask A0 A1 B0 B1 (R102). -/
  fill : Nat
  deriving DecidableEq, Repr

/-- What an operation of the engines that has issued does in a later cycle: a read or a write of a tile buffer (R128), engine reads or
writes of scratchpad lines (R151), a finished-tile entry that becomes visible (R100) or whose place becomes free (R103, R127), or the write of
a predicate (R138). -/
inductive Flight where
  | tileRead (buf : Nat)
  | tileWrite (buf : Nat)
  | spRead (lines : List Nat)
  | spWrite (lines : List Nat)
  | ftqEntry
  | ftqPlace
  | pred (p : Nat) (v : Bool)
  deriving DecidableEq, Repr

/-- One of these, `left` non-slip cycles after the next one, with the word address and the issue number of the operation (R151). -/
structure EngineUse where
  site : Nat
  core : Nat
  left : Nat
  what : Flight
  word : Nat
  order : Nat
  deriving DecidableEq, Repr

/-- A record in the notice queue of the control die (R478, R480). -/
structure Queued where
  seq : Nat
  note : Notice
  deriving DecidableEq, Repr

/-- A fetch request that has been issued (R205, R216, R218): outstanding, or withdrawn at a pause and kept as a reissue record (R224).
`op` is the instruction's opcode, `tw` the offset a table walk adds (R212), `width` the bytes of a returned old value (R215). -/
structure FetchReq where
  site : Nat
  core : Nat
  thread : Nat
  op : Nat
  pc : Nat
  ctrEn : Bool
  ctr : Nat
  dreg : Nat
  tw : Option Nat
  lspace : Nat
  laddr : Nat
  width : Nat
  remote : Bool
  req : HubReq
  deriving DecidableEq, Repr

/-- An open ordered reduction of a hub (R247), keyed by its stack and unit address; `count` is COUNT, `held` the contributions by rank. -/
structure HubRecord where
  stack : Nat
  unitAddr : Nat
  gid : Nat
  count : Nat
  rtype : Nat
  replace : Bool
  next : Nat
  bitmap : Nat
  held : List (Nat × HubReq)
  deriving DecidableEq, Repr

/-- An entry of a deduplication window (R251, R253): the operation, whether it has been performed, the data of its reply, and the
duplicates that wait for it. -/
structure DedupEntry where
  opid : Nat
  epoch : Nat
  performed : Bool
  data : List Byte
  waiting : List HubReq
  deriving DecidableEq, Repr

/-- A deduplication window of a hub for a source panel, its entries in the order of acceptance (R251). -/
structure DedupWindow where
  stack : Nat
  panel : Nat
  entries : List DedupEntry
  deriving DecidableEq, Repr

/-- A request that waits at a hub (R235): in the queue of a retraining channel, or, with no channel, at the router behind a full queue. -/
structure HubWait where
  stack : Nat
  channel : Option (Nat × Nat)
  req : HubReq
  deriving DecidableEq, Repr

/-- A flit of a link's stream (R264): its position, class, lane, packet bounds and 64 bytes; `bad` where the buffer that holds it has an
uncorrectable error (R286). -/
structure MeshFlit where
  pos : Nat
  cls : Nat
  lane : Nat
  head : Bool
  tail : Bool
  data : List Byte
  bad : Bool
  deriving DecidableEq, Repr

/-- A flit in a sub-link's replay buffer (R264). -/
structure TxFlit where
  site : Nat
  port : Nat
  sub : Nat
  flit : MeshFlit
  deriving DecidableEq, Repr

/-- A flit in a receive buffer (R264): ahead of a missing one, or accepted and part of a packet whose tail has not come. -/
structure RxFlit where
  site : Nat
  port : Nat
  sub : Nat
  accepted : Bool
  flit : MeshFlit
  deriving DecidableEq, Repr

/-- A packet held by a router for one output, 4 being local (R272). Copies of one packet share a group; the input buffer is freed with the
last of them (R282). -/
structure HeldPacket where
  site : Nat
  inPort : Nat
  inLane : Nat
  outPort : Nat
  group : Nat
  packet : Packet
  deriving DecidableEq, Repr

/-- A packet at a site: handed to a local unit, or waiting in its unit while a timeout limits injection (R288). -/
structure SitePacket where
  site : Nat
  packet : Packet
  deriving DecidableEq, Repr

/-- A multicast of a sender (R283): the destinations that have not acknowledged, and the two sets of its completion. -/
structure Mcast where
  ssite : Nat
  mcid : Nat
  expect : Nat
  left : BitVec 144
  fenced : BitVec 144
  unreachable : BitVec 144
  deriving DecidableEq, Repr

/-- A reply of the control die (R356): its port, the fields copied from the command, status, FINAL, the result words, and the panel it
answers with HOSTCMD as in the command (R317). -/
structure Reply where
  port : Nat
  opcode : Nat
  tag : Nat
  seq : Nat
  status : Nat
  final : Bool
  words : List Nat
  dpanel : Nat
  hostcmd : Bool
  deriving DecidableEq, Repr

/-- A deferred command that is outstanding (R359, R360): its final-status slot (R367), the command itself, the step it has reached, an
amount of work done, and a mask of squads or members it keeps; `dpanel` and `hostcmd` address its final reply. -/
structure Deferred where
  port : Nat
  opcode : Nat
  tag : Nat
  seq : Nat
  dpanel : Nat
  hostcmd : Bool
  slot : Option Nat
  cmd : Instr
  step : Nat
  amount : Nat
  mask : Nat
  deriving DecidableEq, Repr

/-- A teamcast of the captain (R318, R366): its members with their final statuses. -/
structure Teamcast where
  port : Nat
  opcode : Nat
  tag : Nat
  seq : Nat
  members : List (Nat × Option Nat)
  deriving DecidableEq, Repr

/-- A PKT frame to be sent on a port, or held in its retry buffer once it has been sent (R299, R300). `doubt` is the class of R312:
false for UNDELIVERED; `cmd` the OPCODE, TAG and SEQ of the command packet a frame of the captain belongs to (R314). -/
structure TxFrame where
  port : Nat
  sent : Bool
  doubt : Bool
  cmd : Option (Nat × Nat × Nat)
  frame : Frame
  deriving DecidableEq, Repr

/-- A PKT frame that has arrived on a port: ahead of the expected one (R300), or accepted and kept in the receive buffer while the panel
is in timeout (R310). -/
structure RxFrame where
  port : Nat
  lane : Nat
  accepted : Bool
  frame : Frame
  deriving DecidableEq, Repr

/-- An entry of a home port's outstanding table (R308): its index, the request as it came, and the port its request left by. -/
structure ProxyEntry where
  port : Nat
  index : Nat
  via : Nat
  req : HubReq
  deriving DecidableEq, Repr

/-- What a port sends besides PKT frames (R296, R319). -/
inductive PortMsg where
  | ctrl (ack : Nat) (nak : Bool) (freed : List Nat)
  | mgmt (kind sets base : Nat)
  | time (kind exch t : Nat)
  deriving DecidableEq, Repr

/-- A memory request of a data window that has not been answered: its tag, the offset of its bytes in the window and their count. -/
structure WindowReq where
  tag : Nat
  offset : Nat
  len : Nat
  deriving DecidableEq, Repr

/-- Bytes of a read window that have been fetched and not yet sent, with the poison of their 32-byte units (R370). -/
structure WindowPart where
  offset : Nat
  data : List Byte
  poison : List Bool
  deriving DecidableEq, Repr

/-- A data window (R369–R373), opened by the outstanding `DATA_OPEN` of its arrival port and tag. `next` holds, by named port, the offset
of the next byte expected or sent there, `issued` that of the next byte to be read from memory; `closing` the final status of a window that
is closing, with its third result word; `closers` the `DATA_CLOSE` commands that wait for it. -/
structure Window where
  number : Nat
  arrival : Nat
  ports : List Nat
  tag : Nat
  read : Bool
  burst : Nat
  addr : Nat
  length : Nat
  next : List Nat
  issued : List Nat
  reqs : List WindowReq
  parts : List WindowPart
  done : Nat
  poisoned : Nat
  closing : Option (Nat × Nat)
  closers : List Reply
  deriving DecidableEq, Repr

/-- A timeout in progress (R287, R289), or one that waits for another to end: why it runs (0 a command, 1 a substitution, 2 a bridge, 3 the
roster, 4 the return of dies to service), the site concerned and the tables it supplies. -/
structure TimeoutRun where
  kind : Nat
  site : Nat
  tables : TimeoutTables
  deriving DecidableEq, Repr

/-- A die that is being powered up (R411, R412): its site, why (0 bring-up, 1 a substitution, 2 a roll call, 3 a reset scope, 4 recovery), and
how far it is (0 waiting for admission, 1 soft start and what follows, 2 the self-test after a roll call's check). -/
structure PowerUp where
  site : Nat
  why : Nat
  phase : Nat
  deriving DecidableEq, Repr

/-- A substitution in progress (R384, R385): whether the control die makes it on its own account (R382), whether it is live, the logical
die, the bench site and the old site, whether the squad was RUNNING at acceptance, and the step. -/
structure Subst where
  own : Bool
  live : Bool
  ldie : Nat
  bench : Nat
  old : Nat
  running : Bool
  step : Nat
  deriving DecidableEq, Repr

/-- An update of panel time (R400): on its way to a die, or a step that waits in it for its apply edge. -/
structure TimeUpdate where
  site : Nat
  step : Bool
  value : Nat
  neg : Bool
  edge : Nat
  deriving DecidableEq, Repr

/-- The scan records of a logical die saved at half-time (R346): the fields and queues of its site, its moves' beats and its reissue
records. -/
structure Snapshot where
  ldie : Nat
  site : Nat
  fld : SMap Nat
  queues : SMap QueueSt
  beats : List Beat
  reissue : List FetchReq
  deriving DecidableEq, Repr, Inhabited

/-- The panel. -/
structure State where
  fld : SMap Nat
  sram : List Host.Cell
  sramPoison : SMap Nat
  sramUpset : SMap Nat
  hbm : List Host.Cell
  hbmPoison : SMap Nat
  hbmUpset : SMap Nat
  queues : SMap QueueSt
  streamOut : List StreamMsg
  beats : List Beat
  /-- What operations that have issued do in later cycles. -/
  flights : List EngineUse
  outstanding : List FetchReq
  reissue : List FetchReq
  hubReqs : List HubReq
  hubReps : List HubRep
  hubRecords : List HubRecord
  dedup : List DedupWindow
  hubWaits : List HubWait
  txFlits : List TxFlit
  rxFlits : List RxFlit
  held : List HeldPacket
  meshWait : List SitePacket
  delivered : List SitePacket
  mcasts : List Mcast
  replies : List Reply
  stored : List Reply
  deferred : List Deferred
  teamcasts : List Teamcast
  txFrames : List TxFrame
  rxFrames : List RxFrame
  arrived : List RxFrame
  proxies : List ProxyEntry
  proxyWait : List (Nat × HubReq)
  bootBuf : List Host.Cell
  portOut : List (Nat × PortMsg)
  windows : List Window
  timeout : Option TimeoutRun
  waitTimeouts : List TimeoutRun
  powerUps : List PowerUp
  substs : List Subst
  /-- Sites that power delivery or thermal control fence, and that wait for their squad to stop (R382). -/
  ownFences : List Nat
  /-- What the panel has written to its boot flash (R463). -/
  flash : List Host.Cell
  snapshots : List Snapshot
  immediates : List Deferred
  timeOut : List TimeUpdate
  timeSteps : List TimeUpdate
  noticeBuf : List Notice
  noticeQueue : List Queued
  /-- Copies of records that are to be pushed to the host (R483). -/
  pushes : List Queued
  fresh : Nat
  pending : List Instr
  deriving DecidableEq, Repr

/-- Why the panel stops: no command of the spec stops it. -/
inductive Fault where
  /-- Never raised. Safe. -/
  | none
  deriving DecidableEq, Repr

/-- Why a command is turned away. -/
inductive Refusal where
  /-- Raised by an arm of `exec` that has no meaning yet. Safe. -/
  | notModelled (mnemonic : String)
  deriving DecidableEq, Repr

/-- The panel with `RESET_N` asserted and no command waiting. -/
def State.reset : State :=
  { fld := [], sram := [], sramPoison := [], sramUpset := [], hbm := [], hbmPoison := [], hbmUpset := [],
    queues := [], streamOut := [], beats := [], flights := [],
    outstanding := [], reissue := [], hubReqs := [], hubReps := [], hubRecords := [], dedup := [], hubWaits := [], txFlits := [], rxFlits := [], held := [], meshWait := [], delivered := [],
    mcasts := [], replies := [], stored := [], deferred := [], teamcasts := [], txFrames := [], rxFrames := [], arrived := [],
    proxies := [], proxyWait := [], bootBuf := [], portOut := [], windows := [], timeout := none, waitTimeouts := [], powerUps := [], substs := [], ownFences := [], flash := [], snapshots := [], immediates := [], timeOut := [],
    timeSteps := [], noticeBuf := [], noticeQueue := [], pushes := [], fresh := 0, pending := [] }

end Sys2Proof.Machine
end

