-- ==== Sys2Proof/Config.lean ====
section
/-! DEFINITION. What the spec leaves open: constants without a value, of which nothing can be proved. -/

namespace Sys2Proof.Config

/-- The stream of free values: the n-th value drawn. Where the spec says that a value is not defined, a step draws the next one. -/
opaque freeValue : Nat → Nat

/-- The fixed functions of the vector engine's FUNC stage: function code and FP32 argument to FP32 result (R132). The spec gives the
exact cases, the special inputs and an error bound; the bits inside the bound are open. -/
opaque func : Nat → Nat → Nat

/-- The channel, modulo 32, that a hub keeps a 256-byte unit of its stack in: stack and unit number to channel (R230: the mapping is not
architectural). -/
opaque hbmChannel : Nat → Nat → Nat

/-- SHA-512 (FIPS 180-4, which the spec names and does not state) of a list of bytes. -/
opaque sha512 : List Byte → Nat

/-- Byte i of what half-time writes for the scan records, link entries and queue tables of a die (R346 names the items, not their bytes). -/
opaque scanByte : Machine.Snapshot → Nat → Nat

/-- The scan records that other bytes spell: those of a save made on another panel (R349). -/
opaque scanRead : List Byte → Machine.Snapshot

/-- ECDSA over P-521 with SHA-512 (FIPS 186-5, which R460 names and does not state): whether a signature of 132 bytes over a message is good
under a public key of 133 bytes. -/
opaque ecdsaVerify : List Byte → List Byte → List Byte → Bool

/-- A signature of 132 bytes over a message under a private key; the last argument stands for what the signer draws at random. -/
opaque ecdsaSign : Nat → List Byte → Nat → List Byte

/-- Order of the curve P-521 (R469). -/
opaque p521Order : Nat

/-- The 133 bytes of the public key of a private key (R460). -/
opaque p521Public : Nat → List Byte

/-- The identification word that a control die's IEEE 1149.1 port shifts out (R502). -/
opaque idcode : Nat → Nat

end Sys2Proof.Config
end

