-- ==== Sys2Proof/Machine/Panel.lean ====
section
/-! DEFINITION. The site grid of the panel (01_panel): blocks, die kinds, stacks, ports, logical dies and their home sites. -/

namespace Sys2Proof.Machine

/-- Row of a site (R12). -/
def siteRow (site : Nat) : Nat := site / 16
/-- Column of a site (R12). -/
def siteCol (site : Nat) : Nat := site % 16
/-- Block of a site (R13). -/
def siteBlock (site : Nat) : Nat := (siteRow site / 4) * 4 + siteCol site / 4
/-- Position of a site in its block, as row × 4 + column (R13). -/
def sitePos (site : Nat) : Nat := (siteRow site % 4) * 4 + siteCol site % 4
/-- The site of a block at a position (R12, R13). -/
def siteAt (block pos : Nat) : Nat := ((block / 4) * 4 + pos / 4) * 16 + (block % 4) * 4 + pos % 4

/-- The kinds of die (R17). -/
inductive DieKind where
  | compute | hub | link | control | capacitor
  deriving DecidableEq, Repr

/-- Blocks whose X site at (1,3) holds a link die, in ascending order: port p is the p-th (R14, R15). -/
def linkBlocks : List Nat := [1, 2, 4, 7, 8, 11, 13, 14]

/-- The die a site holds (R13, R14). -/
def dieKind (site : Nat) : DieKind :=
  if 256 ≤ site then .capacitor
  else if sitePos site = 7 then (if linkBlocks.contains (siteBlock site) then .link else .capacitor)
  else if sitePos site = 13 then
    (if siteBlock site = 13 ∨ siteBlock site = 14 then .control else .capacitor)
  else if sitePos site = 1 ∨ sitePos site = 6 ∨ sitePos site = 8 ∨ sitePos site = 14 then .hub
  else .compute

/-- Whether the site is one of the 160 compute sites. -/
def isCompute (site : Nat) : Bool := dieKind site == .compute
/-- Every die but a capacitor die has a router (R17). -/
def hasRouter (site : Nat) : Bool := dieKind site != .capacitor
/-- The KIND code of CTL_ROSTER_SITE (R389). -/
def kindCode (site : Nat) : Nat :=
  match dieKind site with
  | .compute => 0 | .hub => 1 | .link => 2 | .control => 3 | .capacitor => 4

/-- Stack number of a hub site (R16). -/
def stackOfSite (site : Nat) : Nat :=
  siteBlock site * 4 + (if sitePos site = 1 then 0 else if sitePos site = 6 then 1 else if sitePos site = 8 then 2 else 3)
/-- Site of a stack (R16). -/
def siteOfStack (stack : Nat) : Nat :=
  siteAt (stack / 4) (if stack % 4 = 0 then 1 else if stack % 4 = 1 then 6 else if stack % 4 = 2 then 8 else 14)
/-- Site of the link die of a port (R15). -/
def siteOfPort (port : Nat) : Nat := siteAt (linkBlocks.getD port 1) 7
/-- Port number of a link-die site (R15). -/
def portOfSite (site : Nat) : Nat := linkBlocks.findIdx (· == siteBlock site)
/-- The control die of block 13 or 14 (R15): sites 245 and 249. -/
def siteOfControl (die : Nat) : Nat := if die = 0 then 245 else 249

/-- Position in the block of a slot's home (R19). -/
def homePos (slot : Nat) : Nat := [0, 2, 3, 4, 5, 9, 10, 12, 15].getD slot 11
/-- Home site of a logical die (R18, R19). -/
def homeSite (ldie : Nat) : Nat := siteAt (ldie / 9) (homePos (ldie % 9))
/-- The default bench site of a block (R19). -/
def benchSite (block : Nat) : Nat := siteAt block 11

/-- The reset interleave: entry r is spread with SHARE r (R237, R239). -/
def ilvReset (r : Nat) : Nat := r * 32

/-- Mesh neighbours of a site, by port 0 north, 1 east, 2 south, 3 west. -/
def neighbour (site port : Nat) : Option Nat :=
  match port with
  | 0 => if siteRow site = 0 then none else some (site - 16)
  | 1 => if siteCol site = 15 then none else some (site + 1)
  | 2 => if siteRow site = 15 then none else some (site + 16)
  | _ => if siteCol site = 0 then none else some (site - 1)

/-- The pseudo-site under which the panel's single copies stand: the registers of the active control die and the mesh tables,
which every router holds alike. -/
def panelSite : Nat := 256

end Sys2Proof.Machine
end

