-- ==== Sys2Proof/Machine/Regs.lean ====
section
/-! DEFINITION. The register tables of the spec: one `Fld` per field of every register, with its offset in the CSR window, its
bits, its reset value and its access code (R7, R8), and the register map that a CSR read or write goes through. Offsets of core and
cluster registers are those of core 0 and cluster 0 of the die; `Fld.nth` moves them to another one (R68, R170). Registers whose
value is fixed by the site or computed from other state (HUB_ID, MESH_ID, PORT_ID, MESH_ROUTE) are in Csr.lean. -/

namespace Sys2Proof.Machine
namespace Reg

/-- CORE_SCHED_CTL (02 R68). -/
def CORE_SCHED_CTL.STEP : Fld := ⟨0x100000, 0, 1, 0, .wo⟩
def CORE_SCHED_CTL.BREAK_EN : Fld := ⟨0x100000, 1, 1, 0, .rw⟩
def CORE_SCHED_CTL.BREAK_ADDR : Fld := ⟨0x100000, 2, 11, 0, .rw⟩
def CORE_SCHED_CTL.CONTINUE : Fld := ⟨0x100000, 13, 1, 0, .wo⟩

/-- CORE_SCHED_STATUS (02 R68). -/
def CORE_SCHED_STATUS.STATE : Fld := ⟨0x100008, 0, 3, 0, .ro⟩
def CORE_SCHED_STATUS.ADDR : Fld := ⟨0x100008, 3, 11, 0, .ro⟩
def CORE_SCHED_STATUS.SLIP_CAUSE : Fld := ⟨0x100008, 14, 3, 0, .ro⟩
def CORE_SCHED_STATUS.OPEN_LOOPS : Fld := ⟨0x100008, 17, 3, 0, .ro⟩
def CORE_SCHED_STATUS.PRED_COLLIDE : Fld := ⟨0x100008, 20, 1, 0, .w1c⟩
def CORE_SCHED_STATUS.POISON_SEEN : Fld := ⟨0x100008, 21, 1, 0, .w1c⟩
def CORE_SCHED_STATUS.EPOCH : Fld := ⟨0x100008, 22, 8, 0, .ro⟩
def CORE_SCHED_STATUS.FAULT_CODE : Fld := ⟨0x100008, 30, 8, 0, .ro⟩

/-- CORE_ISSUE_COUNT (02 R68). -/
def CORE_ISSUE_COUNT.COUNT : Fld := ⟨0x100010, 0, 48, 0, .ro⟩

/-- CORE_SLIP_WAIT (02 R68). -/
def CORE_SLIP_WAIT.COUNT : Fld := ⟨0x100018, 0, 48, 0, .ro⟩

/-- CORE_SLIP_BANK (02 R68). -/
def CORE_SLIP_BANK.COUNT : Fld := ⟨0x100020, 0, 48, 0, .ro⟩

/-- CORE_PRED, element `i` (02 R68). -/
def CORE_PRED.P (i : Nat) : Fld := ⟨0x100028 + 8 * (i / 16), 1 * (i % 16) + 0, 1, 0, .ro⟩

/-- CORE_POISON_CTL (02 R68). -/
def CORE_POISON_CTL.POLICY : Fld := ⟨0x100030, 0, 2, 1, .ro⟩
def CORE_POISON_CTL.SQUAD : Fld := ⟨0x100030, 2, 4, 0, .ro⟩
def CORE_POISON_CTL.HALT_PENDING : Fld := ⟨0x100030, 6, 1, 0, .ro⟩
def CORE_POISON_CTL.HUDDLE_MASK : Fld := ⟨0x100030, 7, 16, 0, .ro⟩

/-- CORE_CCOUNTn (02 R68). -/
def CORE_CCOUNT.VALUE (n : Nat) : Fld := ⟨0x100080 + 0x8 * n, 0, 24, 0, .ro⟩
def CORE_CCOUNT.SATURATED (n : Nat) : Fld := ⟨0x100080 + 0x8 * n, 24, 1, 0, .ro⟩

/-- CORE_LOOPCNTn (02 R68). -/
def CORE_LOOPCNT.VALUE (n : Nat) : Fld := ⟨0x100100 + 0x8 * n, 0, 24, 0, .ro⟩

/-- CORE_LOOP_STATEn (02 R68). -/
def CORE_LOOP_STATE.LEFT (n : Nat) : Fld := ⟨0x100140 + 0x8 * n, 0, 24, 0, .ro⟩
def CORE_LOOP_STATE.START (n : Nat) : Fld := ⟨0x100140 + 0x8 * n, 24, 11, 0, .ro⟩
def CORE_LOOP_STATE.END (n : Nat) : Fld := ⟨0x100140 + 0x8 * n, 35, 11, 0, .ro⟩
def CORE_LOOP_STATE.OPEN (n : Nat) : Fld := ⟨0x100140 + 0x8 * n, 46, 1, 0, .ro⟩

/-- CORE_SR_SEED (03 R90). -/
def CORE_SR_SEED.SEED : Fld := ⟨0x100200, 0, 64, 0, .ro⟩

/-- CORE_SR_COUNT (03 R90). -/
def CORE_SR_COUNT.COUNT : Fld := ⟨0x100208, 0, 48, 0, .ro⟩

/-- CORE_CONV_STATUS (03 R90). -/
def CORE_CONV_STATUS.OVERFLOW : Fld := ⟨0x100210, 0, 1, 0, .w1c⟩
def CORE_CONV_STATUS.NAN_ZERO : Fld := ⟨0x100210, 1, 1, 0, .w1c⟩
def CORE_CONV_STATUS.NAN_BLOCK : Fld := ⟨0x100210, 2, 1, 0, .w1c⟩
def CORE_CONV_STATUS.DECODE_INF : Fld := ⟨0x100210, 3, 1, 0, .w1c⟩

/-- CORE_MX_STATUS (04 R118). -/
def CORE_MX_STATUS.BUSY : Fld := ⟨0x100300, 0, 1, 0, .ro⟩
def CORE_MX_STATUS.OCC_LEFT : Fld := ⟨0x100300, 1, 8, 0, .ro⟩
def CORE_MX_STATUS.FTQ_COUNT : Fld := ⟨0x100300, 9, 4, 0, .ro⟩
def CORE_MX_STATUS.OVERFLOW : Fld := ⟨0x100300, 13, 1, 0, .w1c⟩
def CORE_MX_STATUS.INVALID : Fld := ⟨0x100300, 14, 1, 0, .w1c⟩
def CORE_MX_STATUS.NAN_INPUT : Fld := ⟨0x100300, 15, 1, 0, .w1c⟩
def CORE_MX_STATUS.POISON_OUT : Fld := ⟨0x100300, 16, 1, 0, .w1c⟩

/-- CORE_MX_GROUPS (04 R118). -/
def CORE_MX_GROUPS.COUNT : Fld := ⟨0x100308, 0, 48, 0, .ro⟩

/-- CORE_MX_EMITS (04 R118). -/
def CORE_MX_EMITS.EMITS : Fld := ⟨0x100310, 0, 32, 0, .ro⟩
def CORE_MX_EMITS.SPILLS : Fld := ⟨0x100310, 32, 32, 0, .ro⟩

/-- CORE_MX_SLOT_POISON, element `i` (04 R118). -/
def CORE_MX_SLOT_POISON.POISON (i : Nat) : Fld := ⟨0x100318 + 8 * (i / 64), 1 * (i % 64) + 0, 1, 0, .ro⟩

/-- CORE_MX_SLOT_SHAPE, element `i` (04 R118). -/
def CORE_MX_SLOT_SHAPE.SHAPE (i : Nat) : Fld := ⟨0x100320 + 8 * (i / 32), 2 * (i % 32) + 0, 2, 0, .ro⟩

/-- CORE_MX_DBG_ADDR (04 R118). -/
def CORE_MX_DBG_ADDR.SLOT : Fld := ⟨0x100340, 0, 6, 0, .rw⟩
def CORE_MX_DBG_ADDR.INDEX : Fld := ⟨0x100340, 6, 10, 0, .rw⟩
def CORE_MX_DBG_ADDR.AUTOINC : Fld := ⟨0x100340, 16, 1, 0, .rw⟩

/-- CORE_MX_DBG_DATA (04 R118). -/
def CORE_MX_DBG_DATA.ACC_LO : Fld := ⟨0x100348, 0, 32, 0, .ro⟩
def CORE_MX_DBG_DATA.ACC_HI : Fld := ⟨0x100348, 32, 32, 0, .ro⟩

/-- CORE_VX_STATUS (05 R145). -/
def CORE_VX_STATUS.BUSY : Fld := ⟨0x100400, 0, 1, 0, .ro⟩
def CORE_VX_STATUS.OCC_LEFT : Fld := ⟨0x100400, 1, 8, 0, .ro⟩
def CORE_VX_STATUS.OVERFLOW : Fld := ⟨0x100400, 9, 1, 0, .w1c⟩
def CORE_VX_STATUS.INVALID : Fld := ⟨0x100400, 10, 1, 0, .w1c⟩
def CORE_VX_STATUS.DIV_ZERO : Fld := ⟨0x100400, 11, 1, 0, .w1c⟩
def CORE_VX_STATUS.POISON_OUT : Fld := ⟨0x100400, 12, 1, 0, .w1c⟩

/-- CORE_VX_COUNTS (05 R145). -/
def CORE_VX_COUNTS.RUNS : Fld := ⟨0x100408, 0, 32, 0, .ro⟩
def CORE_VX_COUNTS.POPS : Fld := ⟨0x100408, 32, 32, 0, .ro⟩

/-- CORE_VX_CKk (05 R145). -/
def CORE_VX_CK.VALUE (n : Nat) : Fld := ⟨0x100440 + 0x8 * n, 0, 32, 0, .ro⟩

/-- CORE_VX_WBASEn (05 R145). -/
def CORE_VX_WBASE.BASE (n : Nat) : Fld := ⟨0x100500 + 0x8 * n, 0, 21, 0, .ro⟩
def CORE_VX_WBASE.SIDE (n : Nat) : Fld := ⟨0x100500 + 0x8 * n, 21, 21, 0, .ro⟩

/-- CORE_MEM_CONFLICT (06 R169). -/
def CORE_MEM_CONFLICT.CH0 : Fld := ⟨0x100600, 0, 32, 0, .ro⟩
def CORE_MEM_CONFLICT.CH1 : Fld := ⟨0x100600, 32, 32, 0, .ro⟩

/-- CORE_SP_ASYNC_WAIT (06 R169). -/
def CORE_SP_ASYNC_WAIT.CYCLES : Fld := ⟨0x100608, 0, 48, 0, .ro⟩

/-- CORE_MEM_CE (06 R169). -/
def CORE_MEM_CE.SP : Fld := ⟨0x100610, 0, 16, 0, .ro⟩
def CORE_MEM_CE.OPERAND : Fld := ⟨0x100610, 16, 16, 0, .ro⟩
def CORE_MEM_CE.TILE : Fld := ⟨0x100610, 32, 16, 0, .ro⟩
def CORE_MEM_CE.OTHER : Fld := ⟨0x100610, 48, 16, 0, .ro⟩

/-- CORE_MEM_ERR_LOG (06 R169). -/
def CORE_MEM_ERR_LOG.VALID : Fld := ⟨0x100618, 0, 1, 0, .w1c⟩
def CORE_MEM_ERR_LOG.KIND : Fld := ⟨0x100618, 1, 2, 0, .ro⟩
def CORE_MEM_ERR_LOG.MEM : Fld := ⟨0x100618, 3, 4, 0, .ro⟩
def CORE_MEM_ERR_LOG.WORD : Fld := ⟨0x100618, 7, 22, 0, .ro⟩
def CORE_MEM_ERR_LOG.SYNDROME : Fld := ⟨0x100618, 29, 8, 0, .ro⟩

/-- CLU_MEM_ERR_LOG (06 R169). -/
def CLU_MEM_ERR_LOG.VALID : Fld := ⟨0x400010, 0, 1, 0, .w1c⟩
def CLU_MEM_ERR_LOG.KIND : Fld := ⟨0x400010, 1, 2, 0, .ro⟩
def CLU_MEM_ERR_LOG.MEM : Fld := ⟨0x400010, 3, 4, 0, .ro⟩
def CLU_MEM_ERR_LOG.WORD : Fld := ⟨0x400010, 7, 22, 0, .ro⟩
def CLU_MEM_ERR_LOG.SYNDROME : Fld := ⟨0x400010, 29, 8, 0, .ro⟩

/-- CORE_MEM_CE_CTL (06 R169). -/
def CORE_MEM_CE_CTL.THRESHOLD : Fld := ⟨0x100620, 0, 16, 64, .rw⟩

/-- CORE_INBOX_DESCn (06 R169). -/
def CORE_INBOX_DESC.BASE (n : Nat) : Fld := ⟨0x100640 + 0x8 * n, 0, 15, 0, .ro⟩
def CORE_INBOX_DESC.SIZE (n : Nat) : Fld := ⟨0x100640 + 0x8 * n, 15, 13, 0, .ro⟩
def CORE_INBOX_DESC.COUNTER (n : Nat) : Fld := ⟨0x100640 + 0x8 * n, 28, 4, 0, .ro⟩
def CORE_INBOX_DESC.EN (n : Nat) : Fld := ⟨0x100640 + 0x8 * n, 32, 1, 0, .ro⟩
def CORE_INBOX_DESC.SENDER (n : Nat) : Fld := ⟨0x100640 + 0x8 * n, 33, 13, 0, .ro⟩

/-- CORE_INBOX_STATEn (06 R169). -/
def CORE_INBOX_STATE.WPTR (n : Nat) : Fld := ⟨0x100680 + 0x8 * n, 0, 13, 0, .ro⟩
def CORE_INBOX_STATE.HELD (n : Nat) : Fld := ⟨0x100680 + 0x8 * n, 13, 13, 0, .ro⟩
def CORE_INBOX_STATE.FILLED (n : Nat) : Fld := ⟨0x100680 + 0x8 * n, 26, 13, 0, .ro⟩
def CORE_INBOX_STATE.DROPS (n : Nat) : Fld := ⟨0x100680 + 0x8 * n, 39, 16, 0, .ro⟩

/-- CLU_MEM_FILL (06 R170). -/
def CLU_MEM_FILL.LOSSES : Fld := ⟨0x400000, 0, 32, 0, .ro⟩

/-- CLU_MEM_CE (06 R170). -/
def CLU_MEM_CE.CLUSTER : Fld := ⟨0x400008, 0, 32, 0, .ro⟩
def CLU_MEM_CE.QUEUE_POOL : Fld := ⟨0x400008, 32, 32, 0, .ro⟩

/-- CLU_MEM_SCRUB (06 R170). -/
def CLU_MEM_SCRUB.CM_EN : Fld := ⟨0x400018, 0, 1, 1, .rw⟩
def CLU_MEM_SCRUB.SP_EN : Fld := ⟨0x400018, 1, 1, 1, .rw⟩
def CLU_MEM_SCRUB.PASSES : Fld := ⟨0x400018, 16, 32, 0, .ro⟩

/-- CLU_QPOOL (07 R201). -/
def CLU_QPOOL.FREE : Fld := ⟨0x400100, 0, 16, 0, .ro⟩
def CLU_QPOOL.QUOTA_SUM : Fld := ⟨0x400100, 16, 16, 0, .ro⟩
def CLU_QPOOL.EPOCH : Fld := ⟨0x400100, 32, 8, 0, .ro⟩
def CLU_QPOOL.FL_BROKEN : Fld := ⟨0x400100, 40, 1, 0, .ro⟩

/-- CLU_QSTALE (07 R201). -/
def CLU_QSTALE.STALE : Fld := ⟨0x400108, 0, 32, 0, .ro⟩
def CLU_QSTALE.FLUSHED : Fld := ⟨0x400108, 32, 32, 0, .ro⟩

/-- CLU_QPTR_ERR (07 R201). -/
def CLU_QPTR_ERR.VALID : Fld := ⟨0x400110, 0, 1, 0, .w1c⟩
def CLU_QPTR_ERR.QUEUE : Fld := ⟨0x400110, 1, 10, 0, .ro⟩
def CLU_QPTR_ERR.WHICH : Fld := ⟨0x400110, 11, 3, 0, .ro⟩

/-- CLU_QPORTn (07 R201). -/
def CLU_QPORT.EN (n : Nat) : Fld := ⟨0x402000 + 0x8 * n, 0, 1, 0, .ro⟩
def CLU_QPORT.KIND (n : Nat) : Fld := ⟨0x402000 + 0x8 * n, 1, 2, 0, .ro⟩
def CLU_QPORT.OWNER (n : Nat) : Fld := ⟨0x402000 + 0x8 * n, 3, 5, 0, .ro⟩
def CLU_QPORT.QUEUE (n : Nat) : Fld := ⟨0x402000 + 0x8 * n, 8, 10, 0, .ro⟩
def CLU_QPORT.DDIE (n : Nat) : Fld := ⟨0x402000 + 0x8 * n, 18, 8, 0, .ro⟩
def CLU_QPORT.DCLU (n : Nat) : Fld := ⟨0x402000 + 0x8 * n, 26, 1, 0, .ro⟩
def CLU_QPORT.DQUEUE (n : Nat) : Fld := ⟨0x402000 + 0x8 * n, 27, 10, 0, .ro⟩
def CLU_QPORT.RING (n : Nat) : Fld := ⟨0x402000 + 0x8 * n, 37, 1, 0, .ro⟩
def CLU_QPORT.DCORE (n : Nat) : Fld := ⟨0x402000 + 0x8 * n, 38, 5, 0, .ro⟩
def CLU_QPORT.DRING (n : Nat) : Fld := ⟨0x402000 + 0x8 * n, 43, 3, 0, .ro⟩
def CLU_QPORT.LOSSY (n : Nat) : Fld := ⟨0x402000 + 0x8 * n, 46, 1, 0, .ro⟩

/-- CLU_QPSTATEn (07 R201). -/
def CLU_QPSTATE.CREDITS (n : Nat) : Fld := ⟨0x404000 + 0x8 * n, 0, 16, 0, .ro⟩
def CLU_QPSTATE.PKT_OPEN (n : Nat) : Fld := ⟨0x404000 + 0x8 * n, 16, 1, 0, .ro⟩
def CLU_QPSTATE.PKT_CELLS (n : Nat) : Fld := ⟨0x404000 + 0x8 * n, 17, 32, 0, .ro⟩

/-- CLU_QCFGq (07 R201). -/
def CLU_QCFG.EN (n : Nat) : Fld := ⟨0x406000 + 0x8 * n, 0, 1, 0, .ro⟩
def CLU_QCFG.MODE (n : Nat) : Fld := ⟨0x406000 + 0x8 * n, 1, 1, 0, .ro⟩
def CLU_QCFG.AUTO_REL (n : Nat) : Fld := ⟨0x406000 + 0x8 * n, 2, 1, 0, .ro⟩
def CLU_QCFG.QUOTA (n : Nat) : Fld := ⟨0x406000 + 0x8 * n, 4, 16, 0, .ro⟩
def CLU_QCFG.CUT (n : Nat) : Fld := ⟨0x406000 + 0x8 * n, 20, 12, 0, .ro⟩
def CLU_QCFG.ARR_MODE (n : Nat) : Fld := ⟨0x406000 + 0x8 * n, 32, 2, 0, .ro⟩
def CLU_QCFG.ARR_CTR (n : Nat) : Fld := ⟨0x406000 + 0x8 * n, 34, 4, 0, .ro⟩
def CLU_QCFG.GAP_EN (n : Nat) : Fld := ⟨0x406000 + 0x8 * n, 38, 1, 0, .ro⟩
def CLU_QCFG.GAP_CTR (n : Nat) : Fld := ⟨0x406000 + 0x8 * n, 39, 4, 0, .ro⟩
def CLU_QCFG.CONSUMER (n : Nat) : Fld := ⟨0x406000 + 0x8 * n, 43, 5, 0, .ro⟩

/-- CLU_QSRCq (07 R201). -/
def CLU_QSRC.PCORE (n : Nat) : Fld := ⟨0x408000 + 0x8 * n, 0, 13, 0, .ro⟩
def CLU_QSRC.PPORT (n : Nat) : Fld := ⟨0x408000 + 0x8 * n, 13, 10, 0, .ro⟩

/-- CLU_QSTATEq (07 R201). -/
def CLU_QSTATE.HELD (n : Nat) : Fld := ⟨0x40A000 + 0x8 * n, 0, 16, 0, .ro⟩
def CLU_QSTATE.UNREAD (n : Nat) : Fld := ⟨0x40A000 + 0x8 * n, 16, 16, 0, .ro⟩
def CLU_QSTATE.STATE (n : Nat) : Fld := ⟨0x40A000 + 0x8 * n, 32, 2, 0, .ro⟩
def CLU_QSTATE.PKT_OPEN (n : Nat) : Fld := ⟨0x40A000 + 0x8 * n, 34, 1, 0, .ro⟩
def CLU_QSTATE.GAPS (n : Nat) : Fld := ⟨0x40A000 + 0x8 * n, 35, 16, 0, .ro⟩
def CLU_QSTATE.RESETS (n : Nat) : Fld := ⟨0x40A000 + 0x8 * n, 51, 8, 0, .ro⟩
def CLU_QSTATE.PEND_DROPS (n : Nat) : Fld := ⟨0x40A000 + 0x8 * n, 59, 1, 0, .ro⟩

/-- CLU_QPTRq (07 R201). -/
def CLU_QPTR.HEAD (n : Nat) : Fld := ⟨0x40C000 + 0x8 * n, 0, 15, 0, .ro⟩
def CLU_QPTR.TAIL (n : Nat) : Fld := ⟨0x40C000 + 0x8 * n, 15, 15, 0, .ro⟩
def CLU_QPTR.RPTR (n : Nat) : Fld := ⟨0x40C000 + 0x8 * n, 30, 15, 0, .ro⟩
def CLU_QPTR.MARK (n : Nat) : Fld := ⟨0x40C000 + 0x8 * n, 45, 15, 0, .ro⟩
def CLU_QPTR.RPTR_END (n : Nat) : Fld := ⟨0x40C000 + 0x8 * n, 60, 1, 0, .ro⟩
def CLU_QPTR.MARK_END (n : Nat) : Fld := ⟨0x40C000 + 0x8 * n, 61, 1, 0, .ro⟩

/-- CORE_FT_UNIT (08 R228). -/
def CORE_FT_UNIT.OUTSTANDING : Fld := ⟨0x100700, 0, 10, 0, .ro⟩
def CORE_FT_UNIT.SEQ : Fld := ⟨0x100700, 10, 19, 0, .ro⟩
def CORE_FT_UNIT.RUNNING : Fld := ⟨0x100700, 29, 6, 0, .ro⟩

/-- CORE_FT_REQS (08 R228). -/
def CORE_FT_REQS.REQUESTS : Fld := ⟨0x100708, 0, 48, 0, .ro⟩

/-- CORE_FT_FAILS (08 R228). -/
def CORE_FT_FAILS.UNDELIVERED : Fld := ⟨0x100710, 0, 16, 0, .ro⟩
def CORE_FT_FAILS.IN_DOUBT : Fld := ⟨0x100710, 16, 16, 0, .ro⟩
def CORE_FT_FAILS.WITHDRAWN : Fld := ⟨0x100710, 32, 16, 0, .ro⟩
def CORE_FT_FAILS.LATE : Fld := ⟨0x100710, 48, 16, 0, .ro⟩

/-- CORE_FT_ERR_LOG (08 R228). -/
def CORE_FT_ERR_LOG.VALID : Fld := ⟨0x100718, 0, 1, 0, .w1c⟩
def CORE_FT_ERR_LOG.THREAD : Fld := ⟨0x100718, 1, 6, 0, .ro⟩
def CORE_FT_ERR_LOG.KIND : Fld := ⟨0x100718, 7, 3, 0, .ro⟩
def CORE_FT_ERR_LOG.PC : Fld := ⟨0x100718, 10, 11, 0, .ro⟩
def CORE_FT_ERR_LOG.PANEL : Fld := ⟨0x100718, 21, 12, 0, .ro⟩

/-- CORE_FT_REQDESCn (08 R228). -/
def CORE_FT_REQDESC.DESC (n : Nat) : Fld := ⟨0x100780 + 0x8 * n, 0, 64, 0, .ro⟩

/-- CORE_FT_THREADt (08 R228). -/
def CORE_FT_THREAD.EN (n : Nat) : Fld := ⟨0x100800 + 0x8 * n, 0, 1, 0, .ro⟩
def CORE_FT_THREAD.PC (n : Nat) : Fld := ⟨0x100800 + 0x8 * n, 1, 11, 0, .ro⟩
def CORE_FT_THREAD.STATE (n : Nat) : Fld := ⟨0x100800 + 0x8 * n, 12, 3, 0, .ro⟩
def CORE_FT_THREAD.OUTSTANDING (n : Nat) : Fld := ⟨0x100800 + 0x8 * n, 15, 6, 0, .ro⟩
def CORE_FT_THREAD.REISSUE (n : Nat) : Fld := ⟨0x100800 + 0x8 * n, 21, 6, 0, .ro⟩
def CORE_FT_THREAD.FAULT (n : Nat) : Fld := ⟨0x100800 + 0x8 * n, 27, 8, 0, .ro⟩
def CORE_FT_THREAD.POISONED (n : Nat) : Fld := ⟨0x100800 + 0x8 * n, 35, 16, 0, .ro⟩
def CORE_FT_THREAD.FAILS (n : Nat) : Fld := ⟨0x100800 + 0x8 * n, 51, 8, 0, .ro⟩

/-- CORE_FT_G (08 R228). -/
def CORE_FT_G.VALUE (n : Nat) : Fld := ⟨0x101000 + 0x8 * n, 0, 64, 0, .ro⟩

/-- HUB_CTL (09 R258). -/
def HUB_CTL.ACCEPT_ATOM : Fld := ⟨0x200008, 0, 1, 1, .rw⟩
def HUB_CTL.PATROL_EN : Fld := ⟨0x200008, 1, 1, 1, .rw⟩
def HUB_CTL.RTIMEOUT : Fld := ⟨0x200008, 2, 16, 10000, .rw⟩
def HUB_CTL.DEDUP_IDLE : Fld := ⟨0x200008, 18, 16, 1000, .rw⟩
def HUB_CTL.CE_THRESHOLD : Fld := ⟨0x200008, 34, 16, 64, .rw⟩

/-- HUB_STATUS (09 R258). -/
def HUB_STATUS.STATE : Fld := ⟨0x200010, 0, 2, 0, .ro⟩
def HUB_STATUS.FAILED : Fld := ⟨0x200010, 2, 6, 0, .ro⟩

/-- HUB_CHAN_STATUS, element `i` (09 R258). -/
def HUB_CHAN_STATUS.CHAN (i : Nat) : Fld := ⟨0x200018 + 8 * (i / 32), 2 * (i % 32) + 0, 2, 0, .ro⟩

/-- HUB_CHAN_CTL (09 R258). -/
def HUB_CHAN_CTL.RETRAIN : Fld := ⟨0x200020, 0, 32, 0, .wo⟩

/-- HUB_CE (09 R258). -/
def HUB_CE.CORRECTED : Fld := ⟨0x200028, 0, 32, 0, .ro⟩
def HUB_CE.UNCORRECTABLE : Fld := ⟨0x200028, 32, 16, 0, .ro⟩

/-- HUB_ERR_LOG (09 R258). -/
def HUB_ERR_LOG.VALID : Fld := ⟨0x200030, 0, 1, 0, .w1c⟩
def HUB_ERR_LOG.KIND : Fld := ⟨0x200030, 1, 2, 0, .ro⟩
def HUB_ERR_LOG.SECTOR : Fld := ⟨0x200030, 3, 31, 0, .ro⟩
def HUB_ERR_LOG.CHANNEL : Fld := ⟨0x200030, 34, 5, 0, .ro⟩
def HUB_ERR_LOG.PC : Fld := ⟨0x200030, 39, 1, 0, .ro⟩

/-- HUB_ORDERED (09 R258). -/
def HUB_ORDERED.OPEN : Fld := ⟨0x200038, 0, 12, 0, .ro⟩
def HUB_ORDERED.HELD : Fld := ⟨0x200038, 12, 14, 0, .ro⟩
def HUB_ORDERED.ABORTS : Fld := ⟨0x200038, 26, 16, 0, .ro⟩
def HUB_ORDERED.REFUSED : Fld := ⟨0x200038, 42, 16, 0, .ro⟩

/-- HUB_DEDUP (09 R258). -/
def HUB_DEDUP.WINDOWS : Fld := ⟨0x200040, 0, 8, 1, .ro⟩
def HUB_DEDUP.DUPLICATES : Fld := ⟨0x200040, 8, 32, 0, .ro⟩
def HUB_DEDUP.REFUSED : Fld := ⟨0x200040, 40, 16, 0, .ro⟩

/-- HUB_CONV_STATUS (09 R258). -/
def HUB_CONV_STATUS.OVERFLOW : Fld := ⟨0x200048, 0, 1, 0, .w1c⟩
def HUB_CONV_STATUS.NAN_ZERO : Fld := ⟨0x200048, 1, 1, 0, .w1c⟩
def HUB_CONV_STATUS.NAN_BLOCK : Fld := ⟨0x200048, 2, 1, 0, .w1c⟩
def HUB_CONV_STATUS.DECODE_INF : Fld := ⟨0x200048, 3, 1, 0, .w1c⟩
def HUB_CONV_STATUS.REGION : Fld := ⟨0x200048, 4, 1, 0, .w1c⟩

/-- HUB_SR_SEED (09 R258). -/
def HUB_SR_SEED.SEED : Fld := ⟨0x200050, 0, 64, 0, .ro⟩

/-- HUB_SCRUB (09 R258). -/
def HUB_SCRUB.ACTIVE : Fld := ⟨0x200058, 0, 1, 0, .ro⟩
def HUB_SCRUB.PASSES : Fld := ⟨0x200058, 1, 32, 0, .ro⟩
def HUB_SCRUB.ZERO_SCRUBS : Fld := ⟨0x200058, 33, 16, 0, .ro⟩

/-- HUB_CONV_ELEMn (09 R258). -/
def HUB_CONV_ELEM.BASE (n : Nat) : Fld := ⟨0x200100 + 0x8 * n, 0, 44, 0, .ro⟩
def HUB_CONV_ELEM.MFMT (n : Nat) : Fld := ⟨0x200100 + 0x8 * n, 44, 5, 0, .ro⟩
def HUB_CONV_ELEM.EN (n : Nat) : Fld := ⟨0x200100 + 0x8 * n, 49, 1, 0, .ro⟩

/-- HUB_CONV_SIDEn (09 R258). -/
def HUB_CONV_SIDE.SIDE (n : Nat) : Fld := ⟨0x200180 + 0x8 * n, 0, 44, 0, .ro⟩
def HUB_CONV_SIDE.LEN (n : Nat) : Fld := ⟨0x200180 + 0x8 * n, 44, 20, 0, .ro⟩

/-- MESH_CTL (10 R291). -/
def MESH_CTL.TIMEOUT : Fld := ⟨0x800008, 0, 1, 0, .ro⟩
def MESH_CTL.REPLAY_THRESHOLD : Fld := ⟨0x800008, 1, 16, 1024, .rw⟩

/-- MESH_STATUS (10 R291). -/
def MESH_STATUS.EMPTY : Fld := ⟨0x800010, 0, 1, 1, .ro⟩
def MESH_STATUS.LOCAL_FENCED : Fld := ⟨0x800010, 1, 1, 0, .ro⟩

/-- MESH_DROP (10 R291). -/
def MESH_DROP.FENCED : Fld := ⟨0x800018, 0, 16, 0, .ro⟩
def MESH_DROP.DOWN : Fld := ⟨0x800018, 16, 16, 0, .ro⟩
def MESH_DROP.LOST : Fld := ⟨0x800018, 32, 16, 0, .ro⟩
def MESH_DROP.UNREACH : Fld := ⟨0x800018, 48, 16, 0, .ro⟩

/-- MESH_MCAST (10 R291). -/
def MESH_MCAST.COPIES : Fld := ⟨0x800020, 0, 24, 0, .ro⟩
def MESH_MCAST.MCOPIES : Fld := ⟨0x800020, 24, 16, 0, .ro⟩
def MESH_MCAST.FACKS : Fld := ⟨0x800020, 40, 16, 0, .ro⟩

/-- MESH_PORTp (10 R291). -/
def MESH_PORT.MODE (n : Nat) : Fld := ⟨0x800040 + 0x8 * n, 0, 2, 0, .ro⟩
def MESH_PORT.STATE (n : Nat) : Fld := ⟨0x800040 + 0x8 * n, 2, 2, 0, .ro⟩
def MESH_PORT.TX_ACTIVE (n : Nat) : Fld := ⟨0x800040 + 0x8 * n, 4, 4, 0, .ro⟩
def MESH_PORT.RX_ACTIVE (n : Nat) : Fld := ⟨0x800040 + 0x8 * n, 8, 4, 0, .ro⟩
def MESH_PORT.SPAN (n : Nat) : Fld := ⟨0x800040 + 0x8 * n, 12, 4, 0, .ro⟩
def MESH_PORT.FAR (n : Nat) : Fld := ⟨0x800040 + 0x8 * n, 16, 8, 0, .ro⟩

/-- MESH_PERRp (10 R291). -/
def MESH_PERR.RXFAIL (n : Nat) : Fld := ⟨0x800060 + 0x8 * n, 0, 32, 0, .ro⟩
def MESH_PERR.REPLAYED (n : Nat) : Fld := ⟨0x800060 + 0x8 * n, 32, 24, 0, .ro⟩

/-- MESH_FWDc (10 R291). -/
def MESH_FWD.COUNT (n : Nat) : Fld := ⟨0x800080 + 0x8 * n, 0, 48, 0, .ro⟩

/-- MESH_FENCEDk, element `i` (10 R291). -/
def MESH_FENCED.FENCED (i : Nat) : Fld := ⟨0x8000C0 + 8 * (i / 64), 1 * (i % 64) + 0, 1, 1, .ro⟩

/-- MESH_L2Sk, element `i` (10 R291). -/
def MESH_L2S.SITE (i : Nat) : Fld := ⟨0x800100 + 8 * (i / 8), 8 * (i % 8) + 0, 8, homeSite i, .ro⟩

/-- MESH_ALIVEk, element `i` (10 R291). -/
def MESH_ALIVE.ALIVE (i : Nat) : Fld := ⟨0x800400 + 8 * (i / 64), 1 * (i % 64) + 0, 1, if hasRouter i then 1 else 0, .ro⟩

/-- MESH_ILVk, element `i` (10 R291). -/
def MESH_ILV.ENTRY (i : Nat) : Fld := ⟨0x804000 + 8 * (i / 2), 32 * (i % 2) + 0, 32, ilvReset i, .ro⟩

/-- PORT_CTL (11 R322). -/
def PORT_CTL.ROLE : Fld := ⟨0x300008, 0, 2, 0, .ro⟩
def PORT_CTL.HOSTPORT : Fld := ⟨0x300008, 2, 1, 0, .ro⟩
def PORT_CTL.AUTO_RETRAIN : Fld := ⟨0x300008, 3, 1, 1, .rw⟩
def PORT_CTL.RTO : Fld := ⟨0x300008, 4, 10, 20, .rw⟩
def PORT_CTL.MAX_HOPS : Fld := ⟨0x300008, 14, 4, 8, .rw⟩
def PORT_CTL.REPLY_TIMEOUT : Fld := ⟨0x300008, 18, 16, 20, .rw⟩

/-- PORT_STATUS (11 R322). -/
def PORT_STATUS.STATE : Fld := ⟨0x300010, 0, 3, 0, .ro⟩
def PORT_STATUS.TX_SETS : Fld := ⟨0x300010, 3, 4, 0, .ro⟩
def PORT_STATUS.RX_SETS : Fld := ⟨0x300010, 7, 4, 0, .ro⟩
def PORT_STATUS.PANEL : Fld := ⟨0x300010, 11, 12, 0, .ro⟩
def PORT_STATUS.PANEL_SET : Fld := ⟨0x300010, 23, 1, 0, .ro⟩
def PORT_STATUS.CAPTAIN : Fld := ⟨0x300010, 24, 12, 0, .ro⟩
def PORT_STATUS.CAPTAIN_SET : Fld := ⟨0x300010, 36, 1, 0, .ro⟩

/-- PORT_SEQ (11 R322). -/
def PORT_SEQ.TX_NEXT : Fld := ⟨0x300018, 0, 32, 0, .ro⟩
def PORT_SEQ.TX_ACKED : Fld := ⟨0x300018, 32, 32, 4294967295, .ro⟩

/-- PORT_RETRY (11 R322). -/
def PORT_RETRY.REPLAYS : Fld := ⟨0x300020, 0, 24, 0, .ro⟩
def PORT_RETRY.NAKS_SENT : Fld := ⟨0x300020, 24, 24, 0, .ro⟩
def PORT_RETRY.CONSEC : Fld := ⟨0x300020, 48, 4, 0, .ro⟩

/-- PORT_RESULTS (11 R322). -/
def PORT_RESULTS.UNDELIVERED : Fld := ⟨0x300028, 0, 16, 0, .ro⟩
def PORT_RESULTS.IN_DOUBT : Fld := ⟨0x300028, 16, 16, 0, .ro⟩
def PORT_RESULTS.FAILOVER : Fld := ⟨0x300028, 32, 16, 0, .ro⟩
def PORT_RESULTS.WITHDRAWN : Fld := ⟨0x300028, 48, 16, 0, .ro⟩

/-- PORT_DROP (11 R322). -/
def PORT_DROP.NO_ROUTE : Fld := ⟨0x300030, 0, 16, 0, .ro⟩
def PORT_DROP.HOPS : Fld := ⟨0x300030, 16, 16, 0, .ro⟩
def PORT_DROP.LATE : Fld := ⟨0x300030, 32, 16, 0, .ro⟩
def PORT_DROP.LOST_RSP : Fld := ⟨0x300030, 48, 16, 0, .ro⟩

/-- PORT_OUTSTANDING (11 R322). -/
def PORT_OUTSTANDING.ENTRIES : Fld := ⟨0x300038, 0, 17, 0, .ro⟩
def PORT_OUTSTANDING.TIMEOUTS : Fld := ⟨0x300038, 17, 31, 0, .ro⟩

/-- PORT_TIME (11 R322). -/
def PORT_TIME.OFFSET : Fld := ⟨0x300040, 0, 32, 0, .ro⟩
def PORT_TIME.DELAY : Fld := ⟨0x300040, 32, 24, 0, .ro⟩
def PORT_TIME.UPSTREAM : Fld := ⟨0x300040, 56, 1, 0, .ro⟩
def PORT_TIME.SYNCED : Fld := ⟨0x300040, 57, 1, 0, .ro⟩

/-- PORT_TIME_ASYM (11 R322). -/
def PORT_TIME_ASYM.ASYM : Fld := ⟨0x300048, 0, 16, 0, .rw⟩

/-- PORT_MARGIN_CTL (11 R322). -/
def PORT_MARGIN_CTL.RXPOW_MIN : Fld := ⟨0x300050, 0, 16, 64736, .rw⟩
def PORT_MARGIN_CTL.BIAS_MAX : Fld := ⟨0x300050, 16, 12, 1500, .rw⟩
def PORT_MARGIN_CTL.PREFEC_WARN : Fld := ⟨0x300050, 28, 18, 2125, .rw⟩

/-- PORT_TEAMk, element `i` (11 R322). -/
def PORT_TEAM.PANEL (i : Nat) : Fld := ⟨0x300080 + 8 * (i / 4), 16 * (i % 4) + 0, 12, 0, .ro⟩
/-- PORT_TEAMk, element `i` (11 R322). -/
def PORT_TEAM.VALID (i : Nat) : Fld := ⟨0x300080 + 8 * (i / 4), 16 * (i % 4) + 15, 1, 0, .ro⟩

/-- PORT_LANEl (11 R322). -/
def PORT_LANE.RXPOW (n : Nat) : Fld := ⟨0x301000 + 0x8 * n, 0, 16, 0, .ro⟩
def PORT_LANE.BIAS (n : Nat) : Fld := ⟨0x301000 + 0x8 * n, 16, 12, 0, .ro⟩
def PORT_LANE.PREFEC (n : Nat) : Fld := ⟨0x301000 + 0x8 * n, 28, 18, 0, .ro⟩
def PORT_LANE.UNCORR (n : Nat) : Fld := ⟨0x301000 + 0x8 * n, 46, 8, 0, .ro⟩
def PORT_LANE.LOCK (n : Nat) : Fld := ⟨0x301000 + 0x8 * n, 54, 1, 0, .ro⟩
def PORT_LANE.FAILED (n : Nat) : Fld := ⟨0x301000 + 0x8 * n, 55, 1, 0, .ro⟩

/-- PORT_ROUTEk, element `i` (11 R322). -/
def PORT_ROUTE.ENTRY (i : Nat) : Fld := ⟨0x308000 + 8 * (i / 2), 32 * (i % 2) + 0, 32, 0, .ro⟩

/-- SQD_PANEL (12 R353). -/
def SQD_PANEL.IMAGE_VERIFIED : Fld := ⟨0x500000, 0, 1, 0, .ro⟩
def SQD_PANEL.HBM_CLEAN : Fld := ⟨0x500000, 1, 1, 1, .ro⟩
def SQD_PANEL.LAST_EPOCH : Fld := ⟨0x500000, 2, 8, 0, .ro⟩
def SQD_PANEL.EVAC_VALID : Fld := ⟨0x500000, 10, 1, 0, .ro⟩
def SQD_PANEL.EVAC_RANGE : Fld := ⟨0x500000, 11, 12, 0, .ro⟩
def SQD_PANEL.SAVED : Fld := ⟨0x500000, 23, 16, 0, .ro⟩

/-- SQD_LINES (12 R353). -/
def SQD_LINES.WHISTLE : Fld := ⟨0x500008, 0, 17, 0, .ro⟩
def SQD_LINES.GATE : Fld := ⟨0x500008, 17, 16, 0, .ro⟩
def SQD_LINES.HALT_N : Fld := ⟨0x500008, 33, 1, 0, .ro⟩

/-- SQD_STATUSn (12 R353). -/
def SQD_STATUS.STATE (n : Nat) : Fld := ⟨0x500100 + 0x40 * n, 0, 3, 0, .ro⟩
def SQD_STATUS.PAUSE_PENDING (n : Nat) : Fld := ⟨0x500100 + 0x40 * n, 3, 1, 0, .ro⟩
def SQD_STATUS.SAVED_HALTED (n : Nat) : Fld := ⟨0x500100 + 0x40 * n, 4, 1, 0, .ro⟩
def SQD_STATUS.EPOCH (n : Nat) : Fld := ⟨0x500100 + 0x40 * n, 5, 8, 0, .ro⟩
def SQD_STATUS.CAUSE (n : Nat) : Fld := ⟨0x500100 + 0x40 * n, 13, 4, 0, .ro⟩
def SQD_STATUS.SITE (n : Nat) : Fld := ⟨0x500100 + 0x40 * n, 17, 8, 0, .ro⟩
def SQD_STATUS.HLINES (n : Nat) : Fld := ⟨0x500100 + 0x40 * n, 25, 16, 0, .ro⟩
def SQD_STATUS.POLICY (n : Nat) : Fld := ⟨0x500100 + 0x40 * n, 41, 2, 0, .ro⟩
def SQD_STATUS.SOURCE (n : Nat) : Fld := ⟨0x500100 + 0x40 * n, 43, 2, 0, .ro⟩
def SQD_STATUS.LATCHED (n : Nat) : Fld := ⟨0x500100 + 0x40 * n, 45, 1, 0, .ro⟩

/-- SQD_SHOTn (12 R353). -/
def SQD_SHOT.LIMIT (n : Nat) : Fld := ⟨0x500108 + 0x40 * n, 0, 41, 0, .ro⟩

/-- SQD_COUNTSn (12 R353). -/
def SQD_COUNTS.HUDDLES (n : Nat) : Fld := ⟨0x500110 + 0x40 * n, 0, 40, 0, .ro⟩
def SQD_COUNTS.KICKOFFS (n : Nat) : Fld := ⟨0x500110 + 0x40 * n, 40, 16, 0, .ro⟩

/-- SQD_MEMBERSnk: logical die `i` is in squad `n` (12 R353). -/
def SQD_MEMBERS.DIE (n i : Nat) : Fld := ⟨0x500118 + 0x40 * n + 8 * (i / 64), i % 64, 1, 0, .ro⟩

/-- DIE_SIDEBAND (12 R354). -/
def DIE_SIDEBAND.OBEY : Fld := ⟨0x000100, 0, 17, 0, .ro⟩
def DIE_SIDEBAND.LATCH : Fld := ⟨0x000100, 17, 17, 0, .ro⟩
def DIE_SIDEBAND.SQUAD : Fld := ⟨0x000100, 34, 4, 0, .ro⟩
def DIE_SIDEBAND.MEMBER : Fld := ⟨0x000100, 38, 1, 0, .ro⟩

/-- DIE_SHOT (12 R354). -/
def DIE_SHOT.COUNT : Fld := ⟨0x000108, 0, 41, 0, .ro⟩
def DIE_SHOT.RUN : Fld := ⟨0x000108, 41, 1, 0, .ro⟩

/-- CTL_CMD_STATUS (13 R374). -/
def CTL_CMD_STATUS.OUTSTANDING : Fld := ⟨0x600000, 0, 5, 0, .ro⟩
def CTL_CMD_STATUS.COMMANDS : Fld := ⟨0x600000, 5, 32, 0, .ro⟩
def CTL_CMD_STATUS.BADCRC : Fld := ⟨0x600000, 37, 16, 0, .ro⟩

/-- CTL_CMD_PORTp (13 R374). -/
def CTL_CMD_PORT.LAST_SEQ (n : Nat) : Fld := ⟨0x600040 + 0x8 * n, 0, 32, 0, .ro⟩
def CTL_CMD_PORT.SEQ_VALID (n : Nat) : Fld := ⟨0x600040 + 0x8 * n, 32, 1, 0, .ro⟩
def CTL_CMD_PORT.SEQ_REJECTS (n : Nat) : Fld := ⟨0x600040 + 0x8 * n, 33, 16, 0, .ro⟩
def CTL_CMD_PORT.STORED (n : Nat) : Fld := ⟨0x600040 + 0x8 * n, 49, 5, 0, .ro⟩

/-- PORT_DATA_WINw (13 R375). -/
def PORT_DATA_WIN.OPEN (n : Nat) : Fld := ⟨0x300100 + 0x8 * n, 0, 1, 0, .ro⟩
def PORT_DATA_WIN.DIR (n : Nat) : Fld := ⟨0x300100 + 0x8 * n, 1, 1, 0, .ro⟩
def PORT_DATA_WIN.BURST (n : Nat) : Fld := ⟨0x300100 + 0x8 * n, 2, 4, 0, .ro⟩
def PORT_DATA_WIN.PORTS (n : Nat) : Fld := ⟨0x300100 + 0x8 * n, 6, 8, 0, .ro⟩
def PORT_DATA_WIN.TAG (n : Nat) : Fld := ⟨0x300100 + 0x8 * n, 48, 16, 0, .ro⟩

/-- PORT_DATA_DONEw (13 R375). -/
def PORT_DATA_DONE.DONE (n : Nat) : Fld := ⟨0x300120 + 0x8 * n, 0, 43, 0, .ro⟩

/-- CTL_ROSTER_STATUS (14 R389). -/
def CTL_ROSTER_STATUS.RETIRED_USED : Fld := ⟨0x700000, 0, 6, 0, .ro⟩
def CTL_ROSTER_STATUS.BENCH : Fld := ⟨0x700000, 6, 5, 0, .ro⟩
def CTL_ROSTER_STATUS.UNPLACED : Fld := ⟨0x700000, 11, 8, 144, .ro⟩
def CTL_ROSTER_STATUS.SUB_ACTIVE : Fld := ⟨0x700000, 19, 1, 0, .ro⟩
def CTL_ROSTER_STATUS.SUB_LIVE : Fld := ⟨0x700000, 20, 1, 0, .ro⟩
def CTL_ROSTER_STATUS.SUB_LDIE : Fld := ⟨0x700000, 21, 8, 0, .ro⟩
def CTL_ROSTER_STATUS.SUB_BENCH : Fld := ⟨0x700000, 29, 8, 0, .ro⟩
def CTL_ROSTER_STATUS.SUB_STEP : Fld := ⟨0x700000, 37, 3, 0, .ro⟩

/-- CTL_ROSTER_LDIEk, element `i` (14 R389). -/
def CTL_ROSTER_LDIE.SITE (i : Nat) : Fld := ⟨0x700100 + 8 * (i / 4), 16 * (i % 4) + 0, 8, homeSite i, .ro⟩
/-- CTL_ROSTER_LDIEk, element `i` (14 R389). -/
def CTL_ROSTER_LDIE.PLACED (i : Nat) : Fld := ⟨0x700100 + 8 * (i / 4), 16 * (i % 4) + 8, 1, 0, .ro⟩
/-- CTL_ROSTER_LDIEk, element `i` (14 R389). -/
def CTL_ROSTER_LDIE.FENCED (i : Nat) : Fld := ⟨0x700100 + 8 * (i / 4), 16 * (i % 4) + 9, 1, 0, .ro⟩

/-- CTL_ROSTER_SITEk, element `i` (14 R389). -/
def CTL_ROSTER_SITE.STATE (i : Nat) : Fld := ⟨0x700300 + 8 * (i / 8), 8 * (i % 8) + 0, 3, if isCompute i then 2 else 5, .ro⟩
/-- CTL_ROSTER_SITEk, element `i` (14 R389). -/
def CTL_ROSTER_SITE.ALIVE (i : Nat) : Fld := ⟨0x700300 + 8 * (i / 8), 8 * (i % 8) + 3, 1, if hasRouter i then 1 else 0, .ro⟩
/-- CTL_ROSTER_SITEk, element `i` (14 R389). -/
def CTL_ROSTER_SITE.KIND (i : Nat) : Fld := ⟨0x700300 + 8 * (i / 8), 8 * (i % 8) + 4, 3, kindCode i, .ro⟩

/-- CTL_ROSTER_FUSEk, element `i` (14 R389). -/
def CTL_ROSTER_FUSE.SITE (i : Nat) : Fld := ⟨0x700400 + 8 * (i / 4), 16 * (i % 4) + 0, 8, 0, .fl⟩
/-- CTL_ROSTER_FUSEk, element `i` (14 R389). -/
def CTL_ROSTER_FUSE.ROUTER_DEAD (i : Nat) : Fld := ⟨0x700400 + 8 * (i / 4), 16 * (i % 4) + 8, 1, 0, .fl⟩
/-- CTL_ROSTER_FUSEk, element `i` (14 R389). -/
def CTL_ROSTER_FUSE.VALID (i : Nat) : Fld := ⟨0x700400 + 8 * (i / 4), 16 * (i % 4) + 9, 1, 0, .fl⟩

/-- CLK_FABRIC (15 R402). -/
def CLK_FABRIC.FAB_LOCK : Fld := ⟨0x900000, 0, 1, 0, .ro⟩
def CLK_FABRIC.AUX_LOCK : Fld := ⟨0x900000, 1, 1, 0, .ro⟩
def CLK_FABRIC.SERDES_LOCK : Fld := ⟨0x900000, 2, 8, 0, .ro⟩
def CLK_FABRIC.UNLOCKS : Fld := ⟨0x900000, 10, 16, 0, .ro⟩

/-- CLK_CORE_CTL (15 R402). -/
def CLK_CORE_CTL.LIMIT : Fld := ⟨0x900008, 0, 7, 72, .rw⟩
def CLK_CORE_CTL.CEILING : Fld := ⟨0x900008, 7, 7, 72, .ro⟩
def CLK_CORE_CTL.FLOOR : Fld := ⟨0x900008, 14, 7, 0, .ro⟩

/-- CLK_CORE_STATUS (15 R402). -/
def CLK_CORE_STATUS.FREQ : Fld := ⟨0x900010, 0, 7, 0, .ro⟩
def CLK_CORE_STATUS.CORE_LOCK : Fld := ⟨0x900010, 7, 1, 0, .ro⟩
def CLK_CORE_STATUS.MIN_CODE : Fld := ⟨0x900010, 8, 7, 0, .ro⟩
def CLK_CORE_STATUS.DOWN_STEPS : Fld := ⟨0x900010, 15, 32, 0, .ro⟩
def CLK_CORE_STATUS.FLOORS : Fld := ⟨0x900010, 47, 16, 0, .ro⟩
def CLK_CORE_STATUS.MIN_RESET : Fld := ⟨0x900010, 63, 1, 0, .wo⟩

/-- CLK_MARGIN (15 R402). -/
def CLK_MARGIN.MIN_SLACK : Fld := ⟨0x900018, 0, 8, 255, .ro⟩
def CLK_MARGIN.MIN_CORE : Fld := ⟨0x900018, 8, 6, 0, .ro⟩
def CLK_MARGIN.MIN_MON : Fld := ⟨0x900018, 14, 1, 0, .ro⟩
def CLK_MARGIN.WARNINGS : Fld := ⟨0x900018, 15, 32, 0, .ro⟩
def CLK_MARGIN.MIN_RESET : Fld := ⟨0x900018, 47, 1, 0, .wo⟩

/-- CLK_PT (15 R402). -/
def CLK_PT.TIME : Fld := ⟨0x900020, 0, 64, 0, .ro⟩

/-- CLK_PT_STATUS (15 R402). -/
def CLK_PT_STATUS.ALIGN : Fld := ⟨0x900028, 0, 8, 0, .ro⟩
def CLK_PT_STATUS.ALIGNED : Fld := ⟨0x900028, 8, 1, 0, .ro⟩
def CLK_PT_STATUS.SLIPS : Fld := ⟨0x900028, 9, 16, 0, .ro⟩
def CLK_PT_STATUS.LATE : Fld := ⟨0x900028, 25, 16, 0, .ro⟩
def CLK_PT_STATUS.PENDING : Fld := ⟨0x900028, 41, 16, 0, .ro⟩
def CLK_PT_STATUS.PEND_SIGN : Fld := ⟨0x900028, 57, 1, 0, .ro⟩

/-- CLK_TICK (15 R402). -/
def CLK_TICK.TICKS : Fld := ⟨0x900030, 0, 48, 0, .ro⟩

/-- PWR_DIE_STATUS (16 R422). -/
def PWR_DIE_STATUS.VIN_SW : Fld := ⟨0xA00000, 0, 1, 0, .ro⟩
def PWR_DIE_STATUS.VAON_SW : Fld := ⟨0xA00000, 1, 1, 1, .ro⟩
def PWR_DIE_STATUS.PHASE_OK : Fld := ⟨0xA00000, 2, 8, 0, .ro⟩
def PWR_DIE_STATUS.ISLAND_OK : Fld := ⟨0xA00000, 10, 2, 3, .ro⟩
def PWR_DIE_STATUS.CAP : Fld := ⟨0xA00000, 12, 7, 82, .ro⟩
def PWR_DIE_STATUS.CLK_LIMIT : Fld := ⟨0xA00000, 19, 7, 72, .ro⟩
def PWR_DIE_STATUS.FENCE_CAUSE : Fld := ⟨0xA00000, 26, 3, 0, .ro⟩

/-- PWR_DIE_MEAS (16 R422). -/
def PWR_DIE_MEAS.IVIN : Fld := ⟨0xA00008, 0, 16, 0, .ro⟩
def PWR_DIE_MEAS.POWER : Fld := ⟨0xA00008, 16, 11, 0, .ro⟩
def PWR_DIE_MEAS.VCORE : Fld := ⟨0xA00008, 27, 10, 0, .ro⟩
def PWR_DIE_MEAS.VIN : Fld := ⟨0xA00008, 37, 11, 0, .ro⟩

/-- PWR_DIE_BUDGET (16 R422). -/
def PWR_DIE_BUDGET.BUDGET : Fld := ⟨0xA00010, 0, 10, 0, .ro⟩
def PWR_DIE_BUDGET.AVG_1MS : Fld := ⟨0xA00010, 10, 10, 0, .ro⟩
def PWR_DIE_BUDGET.PEAK : Fld := ⟨0xA00010, 20, 10, 0, .ro⟩
def PWR_DIE_BUDGET.LIMIT_EVENTS : Fld := ⟨0xA00010, 30, 16, 0, .ro⟩
def PWR_DIE_BUDGET.PEAK_RESET : Fld := ⟨0xA00010, 46, 1, 0, .wo⟩

/-- PWR_CORNERn (16 R422). -/
def PWR_CORNER.V (n : Nat) : Fld := ⟨0xA00020 + 0x8 * n, 0, 11, 0, .ro⟩
def PWR_CORNER.I (n : Nat) : Fld := ⟨0xA00020 + 0x8 * n, 11, 12, 0, .ro⟩
def PWR_CORNER.BASE (n : Nat) : Fld := ⟨0xA00020 + 0x8 * n, 23, 10, 0, .ro⟩
def PWR_CORNER.NOW (n : Nat) : Fld := ⟨0xA00020 + 0x8 * n, 33, 10, 0, .ro⟩

/-- PWR_DIE_EVENTS (16 R422). -/
def PWR_DIE_EVENTS.PHASE_FAILS : Fld := ⟨0xA00040, 0, 8, 0, .ro⟩
def PWR_DIE_EVENTS.ISLAND_FAILS : Fld := ⟨0xA00040, 8, 8, 0, .ro⟩
def PWR_DIE_EVENTS.UV_EVENTS : Fld := ⟨0xA00040, 16, 16, 0, .ro⟩
def PWR_DIE_EVENTS.PATH_NOTICES : Fld := ⟨0xA00040, 32, 16, 0, .ro⟩

/-- PWR_PANEL (16 R423). -/
def PWR_PANEL.HOST_CAP : Fld := ⟨0xA80000, 0, 14, 15000, .ro⟩
def PWR_PANEL.THERMAL_CAP : Fld := ⟨0xA80000, 14, 14, 15000, .ro⟩
def PWR_PANEL.IN_FORCE : Fld := ⟨0xA80000, 28, 14, 15000, .ro⟩
def PWR_PANEL.POWER : Fld := ⟨0xA80000, 42, 14, 0, .ro⟩

/-- PWR_GRADE (16 R423). -/
def PWR_GRADE.GRADE : Fld := ⟨0xA80008, 0, 2, 0, .fl⟩

/-- PWR_BLOCKb (16 R423). -/
def PWR_BLOCK.LIMIT (n : Nat) : Fld := ⟨0xA80100 + 0x8 * n, 0, 10, 300, .ro⟩
def PWR_BLOCK.DRAW (n : Nat) : Fld := ⟨0xA80100 + 0x8 * n, 10, 14, 0, .ro⟩
def PWR_BLOCK.EN (n : Nat) : Fld := ⟨0xA80100 + 0x8 * n, 24, 1, 0, .ro⟩
def PWR_BLOCK.PWRGOOD (n : Nat) : Fld := ⟨0xA80100 + 0x8 * n, 25, 1, 0, .ro⟩
def PWR_BLOCK.STATE (n : Nat) : Fld := ⟨0xA80100 + 0x8 * n, 26, 2, 0, .ro⟩
def PWR_BLOCK.BUDGET (n : Nat) : Fld := ⟨0xA80100 + 0x8 * n, 28, 11, 0, .ro⟩
def PWR_BLOCK.ADMIT_BUSY (n : Nat) : Fld := ⟨0xA80100 + 0x8 * n, 39, 1, 0, .ro⟩
def PWR_BLOCK.DEFERRALS (n : Nat) : Fld := ⟨0xA80100 + 0x8 * n, 40, 16, 0, .ro⟩

/-- THM_DIE_STATUS (17 R438). -/
def THM_DIE_STATUS.TJ : Fld := ⟨0xB00000, 0, 16, 0, .ro⟩
def THM_DIE_STATUS.HOT_SITE : Fld := ⟨0xB00000, 16, 4, 0, .ro⟩
def THM_DIE_STATUS.T_CEIL : Fld := ⟨0xB00000, 20, 7, 72, .ro⟩
def THM_DIE_STATUS.LEVEL : Fld := ⟨0xB00000, 27, 2, 0, .ro⟩
def THM_DIE_STATUS.TRIP : Fld := ⟨0xB00000, 29, 1, 0, .ro⟩

/-- THM_DIE_THETA (17 R438). -/
def THM_DIE_THETA.THETA : Fld := ⟨0xB00008, 0, 16, 3500, .ro⟩
def THM_DIE_THETA.P_TH : Fld := ⟨0xB00008, 16, 10, 820, .ro⟩

/-- THM_DIE_EVENTS (17 R438). -/
def THM_DIE_EVENTS.THROTTLES : Fld := ⟨0xB00010, 0, 16, 0, .ro⟩
def THM_DIE_EVENTS.SENSOR_NOTICES : Fld := ⟨0xB00010, 16, 16, 0, .ro⟩
def THM_DIE_EVENTS.OVERTEMPS : Fld := ⟨0xB00010, 32, 8, 0, .ro⟩

/-- THM_SITEk (17 R438). -/
def THM_SITE.A (n : Nat) : Fld := ⟨0xB00040 + 0x8 * n, 0, 16, 0, .ro⟩
def THM_SITE.B (n : Nat) : Fld := ⟨0xB00040 + 0x8 * n, 16, 16, 0, .ro⟩
def THM_SITE.RO_T (n : Nat) : Fld := ⟨0xB00040 + 0x8 * n, 32, 16, 0, .ro⟩
def THM_SITE.A_BAD (n : Nat) : Fld := ⟨0xB00040 + 0x8 * n, 48, 1, 0, .ro⟩
def THM_SITE.B_BAD (n : Nat) : Fld := ⟨0xB00040 + 0x8 * n, 49, 1, 0, .ro⟩
def THM_SITE.SPLIT (n : Nat) : Fld := ⟨0xB00040 + 0x8 * n, 50, 1, 0, .ro⟩

/-- THM_PANEL (17 R439). -/
def THM_PANEL.AIR : Fld := ⟨0xB80000, 0, 1, 0, .ro⟩
def THM_PANEL.STATE : Fld := ⟨0xB80000, 1, 2, 0, .ro⟩
def THM_PANEL.INLET : Fld := ⟨0xB80000, 3, 16, 0, .ro⟩
def THM_PANEL.OUTLET : Fld := ⟨0xB80000, 19, 16, 0, .ro⟩
def THM_PANEL.FLOW_OK : Fld := ⟨0xB80000, 35, 1, 0, .ro⟩
def THM_PANEL.HOLD_MS : Fld := ⟨0xB80000, 36, 16, 0, .ro⟩

/-- THM_CTL (17 R439). -/
def THM_CTL.RESCUE_PORTS : Fld := ⟨0xB80008, 0, 8, 1, .rw⟩
def THM_CTL.RATE_EN : Fld := ⟨0xB80008, 8, 1, 1, .rw⟩

/-- THM_COOLANT (17 R439). -/
def THM_COOLANT.HOST_INLET : Fld := ⟨0xB80010, 0, 16, 3500, .ro⟩
def THM_COOLANT.HOST_FLOW : Fld := ⟨0xB80010, 16, 16, 1600, .ro⟩
def THM_COOLANT.THETA_MAX : Fld := ⟨0xB80010, 32, 16, 3500, .ro⟩

/-- CTL_BOOT (18 R456). -/
def CTL_BOOT.STAGE : Fld := ⟨0xC00000, 0, 4, 0, .ro⟩
def CTL_BOOT.ACTIVE : Fld := ⟨0xC00000, 4, 1, 0, .ro⟩
def CTL_BOOT.FALLBACK : Fld := ⟨0xC00000, 5, 1, 0, .ro⟩
def CTL_BOOT.CTLSEL : Fld := ⟨0xC00000, 6, 1, 0, .ro⟩
def CTL_BOOT.DONE_MS : Fld := ⟨0xC00000, 7, 14, 0, .ro⟩
def CTL_BOOT.DIE_FAILS : Fld := ⟨0xC00000, 21, 8, 0, .ro⟩
def CTL_BOOT.BLOCK_FAULTS : Fld := ⟨0xC00000, 29, 16, 0, .ro⟩

/-- CTL_RESET (18 R456). -/
def CTL_RESET.SCOPE : Fld := ⟨0xC00008, 0, 3, 0, .wo⟩
def CTL_RESET.TARGET : Fld := ⟨0xC00008, 3, 16, 0, .wo⟩

/-- CTL_RESET_STATUS (18 R456). -/
def CTL_RESET_STATUS.BUSY : Fld := ⟨0xC00010, 0, 1, 0, .ro⟩
def CTL_RESET_STATUS.SCOPE : Fld := ⟨0xC00010, 1, 3, 0, .ro⟩
def CTL_RESET_STATUS.RESULT : Fld := ⟨0xC00010, 4, 8, 0, .ro⟩
def CTL_RESET_STATUS.REJECTS : Fld := ⟨0xC00010, 12, 16, 0, .ro⟩
def CTL_RESET_STATUS.COUNT : Fld := ⟨0xC00010, 28, 16, 0, .ro⟩

/-- SEC_STATUS (19 R474). -/
def SEC_STATUS.LCS : Fld := ⟨0xD00000, 0, 3, 0, .ro⟩
def SEC_STATUS.DEBUG : Fld := ⟨0xD00000, 3, 1, 0, .ro⟩
def SEC_STATUS.RECOVERY : Fld := ⟨0xD00000, 4, 1, 0, .ro⟩
def SEC_STATUS.OWNER_SET : Fld := ⟨0xD00000, 5, 1, 0, .ro⟩
def SEC_STATUS.TAMPER : Fld := ⟨0xD00000, 6, 1, 0, .ro⟩
def SEC_STATUS.FW_SVN : Fld := ⟨0xD00000, 7, 16, 0, .ro⟩
def SEC_STATUS.SVN_MIN : Fld := ⟨0xD00000, 23, 16, 0, .ro⟩
def SEC_STATUS.SVN_ROWS : Fld := ⟨0xD00000, 39, 7, 0, .ro⟩
def SEC_STATUS.ORDER_LB : Fld := ⟨0xD00000, 46, 1, 0, .ro⟩

/-- SEC_KEYS (19 R474). -/
def SEC_KEYS.SLOT_VALID : Fld := ⟨0xD00008, 0, 4, 15, .ro⟩
def SEC_KEYS.REVOKED : Fld := ⟨0xD00008, 4, 4, 0, .ro⟩
def SEC_KEYS.ACTIVE_SLOT : Fld := ⟨0xD00008, 8, 2, 0, .ro⟩

/-- SEC_PROVISION (19 R474). -/
def SEC_PROVISION.HOSTPORT : Fld := ⟨0xD00010, 0, 3, 0, .fl⟩
def SEC_PROVISION.HOSTPORT_SET : Fld := ⟨0xD00010, 3, 1, 0, .ro⟩
def SEC_PROVISION.HOSTPORT_ROWS : Fld := ⟨0xD00010, 4, 4, 0, .ro⟩

/-- SEC_CHALLENGE (19 R474). -/
def SEC_CHALLENGE.CHALLENGE : Fld := ⟨0xD00018, 0, 64, 0, .ro⟩

/-- SEC_TAMPER (19 R474). -/
def SEC_TAMPER.VALID : Fld := ⟨0xD00020, 0, 1, 0, .w1c⟩
def SEC_TAMPER.CAUSE : Fld := ⟨0xD00020, 1, 2, 0, .ro⟩
def SEC_TAMPER.COUNT : Fld := ⟨0xD00020, 3, 16, 0, .ro⟩
def SEC_TAMPER.JTAG_REFUSED : Fld := ⟨0xD00020, 19, 16, 0, .ro⟩

/-- CTL_NOTICE_STATUS (20 R488). -/
def CTL_NOTICE_STATUS.HELD : Fld := ⟨0xE00000, 0, 19, 0, .ro⟩
def CTL_NOTICE_STATUS.LOST_TOTAL : Fld := ⟨0xE00000, 19, 32, 0, .ro⟩

/-- CTL_NOTICE_SEQ (20 R488). -/
def CTL_NOTICE_SEQ.NEXT_SEQ : Fld := ⟨0xE00008, 0, 32, 0, .ro⟩
def CTL_NOTICE_SEQ.LOST_SINCE_READ : Fld := ⟨0xE00008, 32, 32, 0, .ro⟩

/-- CTL_NOTICE_CTL (20 R488). -/
def CTL_NOTICE_CTL.PUSH_EN : Fld := ⟨0xE00010, 0, 1, 0, .rw⟩
def CTL_NOTICE_CTL.PUSH_MIN : Fld := ⟨0xE00010, 1, 3, 3, .rw⟩
def CTL_NOTICE_CTL.PUSH_LOST : Fld := ⟨0xE00010, 16, 32, 0, .ro⟩

/-- CTL_FAULT (20 R488). -/
def CTL_FAULT.FAULT : Fld := ⟨0xE00018, 0, 1, 0, .ro⟩
def CTL_FAULT.CAUSE : Fld := ⟨0xE00018, 1, 3, 0, .ro⟩

/-- CTL_MARGIN_CTL (20 R488). -/
def CTL_MARGIN_CTL.SLACK_WARN : Fld := ⟨0xE00020, 0, 8, 20, .rw⟩

/-- DIE_NOTICE (20 R488). -/
def DIE_NOTICE.BUFFERED : Fld := ⟨0x000110, 0, 5, 0, .ro⟩
def DIE_NOTICE.RAISED : Fld := ⟨0x000110, 5, 32, 0, .ro⟩
def DIE_NOTICE.LOST : Fld := ⟨0x000110, 37, 16, 0, .ro⟩

/-- CTL_I3C_XFER (21 R501). -/
def CTL_I3C_XFER.ADDR : Fld := ⟨0xF00000, 0, 7, 0, .rw⟩
def CTL_I3C_XFER.READ : Fld := ⟨0xF00000, 7, 1, 0, .rw⟩
def CTL_I3C_XFER.LEN_M1 : Fld := ⟨0xF00000, 8, 2, 0, .rw⟩
def CTL_I3C_XFER.START : Fld := ⟨0xF00000, 10, 1, 0, .wo⟩
def CTL_I3C_XFER.WDATA : Fld := ⟨0xF00000, 16, 32, 0, .rw⟩

/-- CTL_I3C_STATUS (21 R501). -/
def CTL_I3C_STATUS.BUSY : Fld := ⟨0xF00008, 0, 1, 0, .ro⟩
def CTL_I3C_STATUS.NACK : Fld := ⟨0xF00008, 1, 1, 0, .w1c⟩
def CTL_I3C_STATUS.DONE : Fld := ⟨0xF00008, 2, 1, 0, .w1c⟩
def CTL_I3C_STATUS.RDATA : Fld := ⟨0xF00008, 3, 32, 0, .ro⟩
def CTL_I3C_STATUS.TARGETS : Fld := ⟨0xF00008, 35, 7, 0, .ro⟩
def CTL_I3C_STATUS.OVERRUN : Fld := ⟨0xF00008, 42, 1, 0, .w1c⟩

end Reg

/-- The rows of the register map: which unit holds the register, the offset of its first element, how many elements the array has,
their stride, and the fields of element `k`. -/
structure RegRow where
  unit : RegUnit
  off : Nat
  count : Nat
  stride : Nat
  fields : Nat → List Fld

/-- Registers of the unit kind core. -/
def regRows_core : List RegRow := [
  ⟨.core, 0x100000, 1, 0x8, fun _ => [Reg.CORE_SCHED_CTL.STEP, Reg.CORE_SCHED_CTL.BREAK_EN, Reg.CORE_SCHED_CTL.BREAK_ADDR, Reg.CORE_SCHED_CTL.CONTINUE]⟩,
  ⟨.core, 0x100008, 1, 0x8, fun _ => [Reg.CORE_SCHED_STATUS.STATE, Reg.CORE_SCHED_STATUS.ADDR, Reg.CORE_SCHED_STATUS.SLIP_CAUSE, Reg.CORE_SCHED_STATUS.OPEN_LOOPS, Reg.CORE_SCHED_STATUS.PRED_COLLIDE, Reg.CORE_SCHED_STATUS.POISON_SEEN, Reg.CORE_SCHED_STATUS.EPOCH, Reg.CORE_SCHED_STATUS.FAULT_CODE]⟩,
  ⟨.core, 0x100010, 1, 0x8, fun _ => [Reg.CORE_ISSUE_COUNT.COUNT]⟩,
  ⟨.core, 0x100018, 1, 0x8, fun _ => [Reg.CORE_SLIP_WAIT.COUNT]⟩,
  ⟨.core, 0x100020, 1, 0x8, fun _ => [Reg.CORE_SLIP_BANK.COUNT]⟩,
  ⟨.core, 0x100028, 1, 0x8, fun k => ((List.range 16).map (16 * k + ·)).flatMap fun i => [Reg.CORE_PRED.P i]⟩,
  ⟨.core, 0x100030, 1, 0x8, fun _ => [Reg.CORE_POISON_CTL.POLICY, Reg.CORE_POISON_CTL.SQUAD, Reg.CORE_POISON_CTL.HALT_PENDING, Reg.CORE_POISON_CTL.HUDDLE_MASK]⟩,
  ⟨.core, 0x100080, 16, 0x8, fun k => [Reg.CORE_CCOUNT.VALUE k, Reg.CORE_CCOUNT.SATURATED k]⟩,
  ⟨.core, 0x100100, 8, 0x8, fun k => [Reg.CORE_LOOPCNT.VALUE k]⟩,
  ⟨.core, 0x100140, 4, 0x8, fun k => [Reg.CORE_LOOP_STATE.LEFT k, Reg.CORE_LOOP_STATE.START k, Reg.CORE_LOOP_STATE.END k, Reg.CORE_LOOP_STATE.OPEN k]⟩,
  ⟨.core, 0x100200, 1, 0x8, fun _ => [Reg.CORE_SR_SEED.SEED]⟩,
  ⟨.core, 0x100208, 1, 0x8, fun _ => [Reg.CORE_SR_COUNT.COUNT]⟩,
  ⟨.core, 0x100210, 1, 0x8, fun _ => [Reg.CORE_CONV_STATUS.OVERFLOW, Reg.CORE_CONV_STATUS.NAN_ZERO, Reg.CORE_CONV_STATUS.NAN_BLOCK, Reg.CORE_CONV_STATUS.DECODE_INF]⟩,
  ⟨.core, 0x100300, 1, 0x8, fun _ => [Reg.CORE_MX_STATUS.BUSY, Reg.CORE_MX_STATUS.OCC_LEFT, Reg.CORE_MX_STATUS.FTQ_COUNT, Reg.CORE_MX_STATUS.OVERFLOW, Reg.CORE_MX_STATUS.INVALID, Reg.CORE_MX_STATUS.NAN_INPUT, Reg.CORE_MX_STATUS.POISON_OUT]⟩,
  ⟨.core, 0x100308, 1, 0x8, fun _ => [Reg.CORE_MX_GROUPS.COUNT]⟩,
  ⟨.core, 0x100310, 1, 0x8, fun _ => [Reg.CORE_MX_EMITS.EMITS, Reg.CORE_MX_EMITS.SPILLS]⟩,
  ⟨.core, 0x100318, 1, 0x8, fun k => ((List.range 64).map (64 * k + ·)).flatMap fun i => [Reg.CORE_MX_SLOT_POISON.POISON i]⟩,
  ⟨.core, 0x100320, 2, 0x8, fun k => ((List.range 32).map (32 * k + ·)).flatMap fun i => [Reg.CORE_MX_SLOT_SHAPE.SHAPE i]⟩,
  ⟨.core, 0x100340, 1, 0x8, fun _ => [Reg.CORE_MX_DBG_ADDR.SLOT, Reg.CORE_MX_DBG_ADDR.INDEX, Reg.CORE_MX_DBG_ADDR.AUTOINC]⟩,
  ⟨.core, 0x100348, 1, 0x8, fun _ => [Reg.CORE_MX_DBG_DATA.ACC_LO, Reg.CORE_MX_DBG_DATA.ACC_HI]⟩,
  ⟨.core, 0x100400, 1, 0x8, fun _ => [Reg.CORE_VX_STATUS.BUSY, Reg.CORE_VX_STATUS.OCC_LEFT, Reg.CORE_VX_STATUS.OVERFLOW, Reg.CORE_VX_STATUS.INVALID, Reg.CORE_VX_STATUS.DIV_ZERO, Reg.CORE_VX_STATUS.POISON_OUT]⟩,
  ⟨.core, 0x100408, 1, 0x8, fun _ => [Reg.CORE_VX_COUNTS.RUNS, Reg.CORE_VX_COUNTS.POPS]⟩,
  ⟨.core, 0x100440, 16, 0x8, fun k => [Reg.CORE_VX_CK.VALUE k]⟩,
  ⟨.core, 0x100500, 32, 0x8, fun k => [Reg.CORE_VX_WBASE.BASE k, Reg.CORE_VX_WBASE.SIDE k]⟩,
  ⟨.core, 0x100600, 1, 0x8, fun _ => [Reg.CORE_MEM_CONFLICT.CH0, Reg.CORE_MEM_CONFLICT.CH1]⟩,
  ⟨.core, 0x100608, 1, 0x8, fun _ => [Reg.CORE_SP_ASYNC_WAIT.CYCLES]⟩,
  ⟨.core, 0x100610, 1, 0x8, fun _ => [Reg.CORE_MEM_CE.SP, Reg.CORE_MEM_CE.OPERAND, Reg.CORE_MEM_CE.TILE, Reg.CORE_MEM_CE.OTHER]⟩,
  ⟨.core, 0x100618, 1, 0x8, fun _ => [Reg.CORE_MEM_ERR_LOG.VALID, Reg.CORE_MEM_ERR_LOG.KIND, Reg.CORE_MEM_ERR_LOG.MEM, Reg.CORE_MEM_ERR_LOG.WORD, Reg.CORE_MEM_ERR_LOG.SYNDROME]⟩,
  ⟨.core, 0x100620, 1, 0x8, fun _ => [Reg.CORE_MEM_CE_CTL.THRESHOLD]⟩,
  ⟨.core, 0x100640, 8, 0x8, fun k => [Reg.CORE_INBOX_DESC.BASE k, Reg.CORE_INBOX_DESC.SIZE k, Reg.CORE_INBOX_DESC.COUNTER k, Reg.CORE_INBOX_DESC.EN k, Reg.CORE_INBOX_DESC.SENDER k]⟩,
  ⟨.core, 0x100680, 8, 0x8, fun k => [Reg.CORE_INBOX_STATE.WPTR k, Reg.CORE_INBOX_STATE.HELD k, Reg.CORE_INBOX_STATE.FILLED k, Reg.CORE_INBOX_STATE.DROPS k]⟩,
  ⟨.core, 0x100700, 1, 0x8, fun _ => [Reg.CORE_FT_UNIT.OUTSTANDING, Reg.CORE_FT_UNIT.SEQ, Reg.CORE_FT_UNIT.RUNNING]⟩,
  ⟨.core, 0x100708, 1, 0x8, fun _ => [Reg.CORE_FT_REQS.REQUESTS]⟩,
  ⟨.core, 0x100710, 1, 0x8, fun _ => [Reg.CORE_FT_FAILS.UNDELIVERED, Reg.CORE_FT_FAILS.IN_DOUBT, Reg.CORE_FT_FAILS.WITHDRAWN, Reg.CORE_FT_FAILS.LATE]⟩,
  ⟨.core, 0x100718, 1, 0x8, fun _ => [Reg.CORE_FT_ERR_LOG.VALID, Reg.CORE_FT_ERR_LOG.THREAD, Reg.CORE_FT_ERR_LOG.KIND, Reg.CORE_FT_ERR_LOG.PC, Reg.CORE_FT_ERR_LOG.PANEL]⟩,
  ⟨.core, 0x100780, 16, 0x8, fun k => [Reg.CORE_FT_REQDESC.DESC k]⟩,
  ⟨.core, 0x100800, 48, 0x8, fun k => [Reg.CORE_FT_THREAD.EN k, Reg.CORE_FT_THREAD.PC k, Reg.CORE_FT_THREAD.STATE k, Reg.CORE_FT_THREAD.OUTSTANDING k, Reg.CORE_FT_THREAD.REISSUE k, Reg.CORE_FT_THREAD.FAULT k, Reg.CORE_FT_THREAD.POISONED k, Reg.CORE_FT_THREAD.FAILS k]⟩,
  ⟨.core, 0x101000, 768, 0x8, fun k => [Reg.CORE_FT_G.VALUE k]⟩]

/-- Registers of the unit kind cluster. -/
def regRows_cluster : List RegRow := [
  ⟨.cluster, 0x400010, 1, 0x8, fun _ => [Reg.CLU_MEM_ERR_LOG.VALID, Reg.CLU_MEM_ERR_LOG.KIND, Reg.CLU_MEM_ERR_LOG.MEM, Reg.CLU_MEM_ERR_LOG.WORD, Reg.CLU_MEM_ERR_LOG.SYNDROME]⟩,
  ⟨.cluster, 0x400000, 1, 0x8, fun _ => [Reg.CLU_MEM_FILL.LOSSES]⟩,
  ⟨.cluster, 0x400008, 1, 0x8, fun _ => [Reg.CLU_MEM_CE.CLUSTER, Reg.CLU_MEM_CE.QUEUE_POOL]⟩,
  ⟨.cluster, 0x400018, 1, 0x8, fun _ => [Reg.CLU_MEM_SCRUB.CM_EN, Reg.CLU_MEM_SCRUB.SP_EN, Reg.CLU_MEM_SCRUB.PASSES]⟩,
  ⟨.cluster, 0x400100, 1, 0x8, fun _ => [Reg.CLU_QPOOL.FREE, Reg.CLU_QPOOL.QUOTA_SUM, Reg.CLU_QPOOL.EPOCH, Reg.CLU_QPOOL.FL_BROKEN]⟩,
  ⟨.cluster, 0x400108, 1, 0x8, fun _ => [Reg.CLU_QSTALE.STALE, Reg.CLU_QSTALE.FLUSHED]⟩,
  ⟨.cluster, 0x400110, 1, 0x8, fun _ => [Reg.CLU_QPTR_ERR.VALID, Reg.CLU_QPTR_ERR.QUEUE, Reg.CLU_QPTR_ERR.WHICH]⟩,
  ⟨.cluster, 0x402000, 1024, 0x8, fun k => [Reg.CLU_QPORT.EN k, Reg.CLU_QPORT.KIND k, Reg.CLU_QPORT.OWNER k, Reg.CLU_QPORT.QUEUE k, Reg.CLU_QPORT.DDIE k, Reg.CLU_QPORT.DCLU k, Reg.CLU_QPORT.DQUEUE k, Reg.CLU_QPORT.RING k, Reg.CLU_QPORT.DCORE k, Reg.CLU_QPORT.DRING k, Reg.CLU_QPORT.LOSSY k]⟩,
  ⟨.cluster, 0x404000, 1024, 0x8, fun k => [Reg.CLU_QPSTATE.CREDITS k, Reg.CLU_QPSTATE.PKT_OPEN k, Reg.CLU_QPSTATE.PKT_CELLS k]⟩,
  ⟨.cluster, 0x406000, 1024, 0x8, fun k => [Reg.CLU_QCFG.EN k, Reg.CLU_QCFG.MODE k, Reg.CLU_QCFG.AUTO_REL k, Reg.CLU_QCFG.QUOTA k, Reg.CLU_QCFG.CUT k, Reg.CLU_QCFG.ARR_MODE k, Reg.CLU_QCFG.ARR_CTR k, Reg.CLU_QCFG.GAP_EN k, Reg.CLU_QCFG.GAP_CTR k, Reg.CLU_QCFG.CONSUMER k]⟩,
  ⟨.cluster, 0x408000, 1024, 0x8, fun k => [Reg.CLU_QSRC.PCORE k, Reg.CLU_QSRC.PPORT k]⟩,
  ⟨.cluster, 0x40A000, 1024, 0x8, fun k => [Reg.CLU_QSTATE.HELD k, Reg.CLU_QSTATE.UNREAD k, Reg.CLU_QSTATE.STATE k, Reg.CLU_QSTATE.PKT_OPEN k, Reg.CLU_QSTATE.GAPS k, Reg.CLU_QSTATE.RESETS k, Reg.CLU_QSTATE.PEND_DROPS k]⟩,
  ⟨.cluster, 0x40C000, 1024, 0x8, fun k => [Reg.CLU_QPTR.HEAD k, Reg.CLU_QPTR.TAIL k, Reg.CLU_QPTR.RPTR k, Reg.CLU_QPTR.MARK k, Reg.CLU_QPTR.RPTR_END k, Reg.CLU_QPTR.MARK_END k]⟩]

/-- Registers of the unit kind hub. -/
def regRows_hub : List RegRow := [
  ⟨.hub, 0x200008, 1, 0x8, fun _ => [Reg.HUB_CTL.ACCEPT_ATOM, Reg.HUB_CTL.PATROL_EN, Reg.HUB_CTL.RTIMEOUT, Reg.HUB_CTL.DEDUP_IDLE, Reg.HUB_CTL.CE_THRESHOLD]⟩,
  ⟨.hub, 0x200010, 1, 0x8, fun _ => [Reg.HUB_STATUS.STATE, Reg.HUB_STATUS.FAILED]⟩,
  ⟨.hub, 0x200018, 1, 0x8, fun k => ((List.range 32).map (32 * k + ·)).flatMap fun i => [Reg.HUB_CHAN_STATUS.CHAN i]⟩,
  ⟨.hub, 0x200020, 1, 0x8, fun _ => [Reg.HUB_CHAN_CTL.RETRAIN]⟩,
  ⟨.hub, 0x200028, 1, 0x8, fun _ => [Reg.HUB_CE.CORRECTED, Reg.HUB_CE.UNCORRECTABLE]⟩,
  ⟨.hub, 0x200030, 1, 0x8, fun _ => [Reg.HUB_ERR_LOG.VALID, Reg.HUB_ERR_LOG.KIND, Reg.HUB_ERR_LOG.SECTOR, Reg.HUB_ERR_LOG.CHANNEL, Reg.HUB_ERR_LOG.PC]⟩,
  ⟨.hub, 0x200038, 1, 0x8, fun _ => [Reg.HUB_ORDERED.OPEN, Reg.HUB_ORDERED.HELD, Reg.HUB_ORDERED.ABORTS, Reg.HUB_ORDERED.REFUSED]⟩,
  ⟨.hub, 0x200040, 1, 0x8, fun _ => [Reg.HUB_DEDUP.WINDOWS, Reg.HUB_DEDUP.DUPLICATES, Reg.HUB_DEDUP.REFUSED]⟩,
  ⟨.hub, 0x200048, 1, 0x8, fun _ => [Reg.HUB_CONV_STATUS.OVERFLOW, Reg.HUB_CONV_STATUS.NAN_ZERO, Reg.HUB_CONV_STATUS.NAN_BLOCK, Reg.HUB_CONV_STATUS.DECODE_INF, Reg.HUB_CONV_STATUS.REGION]⟩,
  ⟨.hub, 0x200050, 1, 0x8, fun _ => [Reg.HUB_SR_SEED.SEED]⟩,
  ⟨.hub, 0x200058, 1, 0x8, fun _ => [Reg.HUB_SCRUB.ACTIVE, Reg.HUB_SCRUB.PASSES, Reg.HUB_SCRUB.ZERO_SCRUBS]⟩,
  ⟨.hub, 0x200100, 16, 0x8, fun k => [Reg.HUB_CONV_ELEM.BASE k, Reg.HUB_CONV_ELEM.MFMT k, Reg.HUB_CONV_ELEM.EN k]⟩,
  ⟨.hub, 0x200180, 16, 0x8, fun k => [Reg.HUB_CONV_SIDE.SIDE k, Reg.HUB_CONV_SIDE.LEN k]⟩]

/-- Registers of the unit kind router. -/
def regRows_router : List RegRow := [
  ⟨.router, 0x800008, 1, 0x8, fun _ => [Reg.MESH_CTL.TIMEOUT, Reg.MESH_CTL.REPLAY_THRESHOLD]⟩,
  ⟨.router, 0x800010, 1, 0x8, fun _ => [Reg.MESH_STATUS.EMPTY, Reg.MESH_STATUS.LOCAL_FENCED]⟩,
  ⟨.router, 0x800018, 1, 0x8, fun _ => [Reg.MESH_DROP.FENCED, Reg.MESH_DROP.DOWN, Reg.MESH_DROP.LOST, Reg.MESH_DROP.UNREACH]⟩,
  ⟨.router, 0x800020, 1, 0x8, fun _ => [Reg.MESH_MCAST.COPIES, Reg.MESH_MCAST.MCOPIES, Reg.MESH_MCAST.FACKS]⟩,
  ⟨.router, 0x800040, 4, 0x8, fun k => [Reg.MESH_PORT.MODE k, Reg.MESH_PORT.STATE k, Reg.MESH_PORT.TX_ACTIVE k, Reg.MESH_PORT.RX_ACTIVE k, Reg.MESH_PORT.SPAN k, Reg.MESH_PORT.FAR k]⟩,
  ⟨.router, 0x800060, 4, 0x8, fun k => [Reg.MESH_PERR.RXFAIL k, Reg.MESH_PERR.REPLAYED k]⟩,
  ⟨.router, 0x800080, 5, 0x8, fun k => [Reg.MESH_FWD.COUNT k]⟩,
  ⟨.router, 0x8000C0, 3, 0x8, fun k => ((List.range 64).map (64 * k + ·)).flatMap fun i => if i < 144 then [Reg.MESH_FENCED.FENCED i] else []⟩,
  ⟨.router, 0x800100, 18, 0x8, fun k => ((List.range 8).map (8 * k + ·)).flatMap fun i => [Reg.MESH_L2S.SITE i]⟩,
  ⟨.router, 0x800400, 4, 0x8, fun k => ((List.range 64).map (64 * k + ·)).flatMap fun i => [Reg.MESH_ALIVE.ALIVE i]⟩,
  ⟨.router, 0x804000, 2048, 0x8, fun k => ((List.range 2).map (2 * k + ·)).flatMap fun i => [Reg.MESH_ILV.ENTRY i]⟩]

/-- Registers of the unit kind port. -/
def regRows_port : List RegRow := [
  ⟨.port, 0x300008, 1, 0x8, fun _ => [Reg.PORT_CTL.ROLE, Reg.PORT_CTL.HOSTPORT, Reg.PORT_CTL.AUTO_RETRAIN, Reg.PORT_CTL.RTO, Reg.PORT_CTL.MAX_HOPS, Reg.PORT_CTL.REPLY_TIMEOUT]⟩,
  ⟨.port, 0x300010, 1, 0x8, fun _ => [Reg.PORT_STATUS.STATE, Reg.PORT_STATUS.TX_SETS, Reg.PORT_STATUS.RX_SETS, Reg.PORT_STATUS.PANEL, Reg.PORT_STATUS.PANEL_SET, Reg.PORT_STATUS.CAPTAIN, Reg.PORT_STATUS.CAPTAIN_SET]⟩,
  ⟨.port, 0x300018, 1, 0x8, fun _ => [Reg.PORT_SEQ.TX_NEXT, Reg.PORT_SEQ.TX_ACKED]⟩,
  ⟨.port, 0x300020, 1, 0x8, fun _ => [Reg.PORT_RETRY.REPLAYS, Reg.PORT_RETRY.NAKS_SENT, Reg.PORT_RETRY.CONSEC]⟩,
  ⟨.port, 0x300028, 1, 0x8, fun _ => [Reg.PORT_RESULTS.UNDELIVERED, Reg.PORT_RESULTS.IN_DOUBT, Reg.PORT_RESULTS.FAILOVER, Reg.PORT_RESULTS.WITHDRAWN]⟩,
  ⟨.port, 0x300030, 1, 0x8, fun _ => [Reg.PORT_DROP.NO_ROUTE, Reg.PORT_DROP.HOPS, Reg.PORT_DROP.LATE, Reg.PORT_DROP.LOST_RSP]⟩,
  ⟨.port, 0x300038, 1, 0x8, fun _ => [Reg.PORT_OUTSTANDING.ENTRIES, Reg.PORT_OUTSTANDING.TIMEOUTS]⟩,
  ⟨.port, 0x300040, 1, 0x8, fun _ => [Reg.PORT_TIME.OFFSET, Reg.PORT_TIME.DELAY, Reg.PORT_TIME.UPSTREAM, Reg.PORT_TIME.SYNCED]⟩,
  ⟨.port, 0x300048, 1, 0x8, fun _ => [Reg.PORT_TIME_ASYM.ASYM]⟩,
  ⟨.port, 0x300050, 1, 0x8, fun _ => [Reg.PORT_MARGIN_CTL.RXPOW_MIN, Reg.PORT_MARGIN_CTL.BIAS_MAX, Reg.PORT_MARGIN_CTL.PREFEC_WARN]⟩,
  ⟨.port, 0x300080, 8, 0x8, fun k => ((List.range 4).map (4 * k + ·)).flatMap fun i => [Reg.PORT_TEAM.PANEL i, Reg.PORT_TEAM.VALID i]⟩,
  ⟨.port, 0x301000, 64, 0x8, fun k => [Reg.PORT_LANE.RXPOW k, Reg.PORT_LANE.BIAS k, Reg.PORT_LANE.PREFEC k, Reg.PORT_LANE.UNCORR k, Reg.PORT_LANE.LOCK k, Reg.PORT_LANE.FAILED k]⟩,
  ⟨.port, 0x308000, 2048, 0x8, fun k => ((List.range 2).map (2 * k + ·)).flatMap fun i => [Reg.PORT_ROUTE.ENTRY i]⟩,
  ⟨.port, 0x300100, 4, 0x8, fun k => [Reg.PORT_DATA_WIN.OPEN k, Reg.PORT_DATA_WIN.DIR k, Reg.PORT_DATA_WIN.BURST k, Reg.PORT_DATA_WIN.PORTS k, Reg.PORT_DATA_WIN.TAG k]⟩,
  ⟨.port, 0x300120, 4, 0x8, fun k => [Reg.PORT_DATA_DONE.DONE k]⟩]

/-- Registers of the unit kind panel. -/
def regRows_panel : List RegRow := [
  ⟨.panel, 0x500000, 1, 0x8, fun _ => [Reg.SQD_PANEL.IMAGE_VERIFIED, Reg.SQD_PANEL.HBM_CLEAN, Reg.SQD_PANEL.LAST_EPOCH, Reg.SQD_PANEL.EVAC_VALID, Reg.SQD_PANEL.EVAC_RANGE, Reg.SQD_PANEL.SAVED]⟩,
  ⟨.panel, 0x500008, 1, 0x8, fun _ => [Reg.SQD_LINES.WHISTLE, Reg.SQD_LINES.GATE, Reg.SQD_LINES.HALT_N]⟩,
  ⟨.panel, 0x500100, 16, 0x40, fun k => [Reg.SQD_STATUS.STATE k, Reg.SQD_STATUS.PAUSE_PENDING k, Reg.SQD_STATUS.SAVED_HALTED k, Reg.SQD_STATUS.EPOCH k, Reg.SQD_STATUS.CAUSE k, Reg.SQD_STATUS.SITE k, Reg.SQD_STATUS.HLINES k, Reg.SQD_STATUS.POLICY k, Reg.SQD_STATUS.SOURCE k, Reg.SQD_STATUS.LATCHED k]⟩,
  ⟨.panel, 0x500108, 16, 0x40, fun k => [Reg.SQD_SHOT.LIMIT k]⟩,
  ⟨.panel, 0x500110, 16, 0x40, fun k => [Reg.SQD_COUNTS.HUDDLES k, Reg.SQD_COUNTS.KICKOFFS k]⟩,
  ⟨.panel, 0x500118, 16, 0x40, fun k => (List.range 64).map fun i => Reg.SQD_MEMBERS.DIE k (0 + i)⟩,
  ⟨.panel, 0x500120, 16, 0x40, fun k => (List.range 64).map fun i => Reg.SQD_MEMBERS.DIE k (64 + i)⟩,
  ⟨.panel, 0x500128, 16, 0x40, fun k => (List.range 16).map fun i => Reg.SQD_MEMBERS.DIE k (128 + i)⟩,
  ⟨.panel, 0x600000, 1, 0x8, fun _ => [Reg.CTL_CMD_STATUS.OUTSTANDING, Reg.CTL_CMD_STATUS.COMMANDS, Reg.CTL_CMD_STATUS.BADCRC]⟩,
  ⟨.panel, 0x600040, 8, 0x8, fun k => [Reg.CTL_CMD_PORT.LAST_SEQ k, Reg.CTL_CMD_PORT.SEQ_VALID k, Reg.CTL_CMD_PORT.SEQ_REJECTS k, Reg.CTL_CMD_PORT.STORED k]⟩,
  ⟨.panel, 0x700000, 1, 0x8, fun _ => [Reg.CTL_ROSTER_STATUS.RETIRED_USED, Reg.CTL_ROSTER_STATUS.BENCH, Reg.CTL_ROSTER_STATUS.UNPLACED, Reg.CTL_ROSTER_STATUS.SUB_ACTIVE, Reg.CTL_ROSTER_STATUS.SUB_LIVE, Reg.CTL_ROSTER_STATUS.SUB_LDIE, Reg.CTL_ROSTER_STATUS.SUB_BENCH, Reg.CTL_ROSTER_STATUS.SUB_STEP]⟩,
  ⟨.panel, 0x700100, 36, 0x8, fun k => ((List.range 4).map (4 * k + ·)).flatMap fun i => [Reg.CTL_ROSTER_LDIE.SITE i, Reg.CTL_ROSTER_LDIE.PLACED i, Reg.CTL_ROSTER_LDIE.FENCED i]⟩,
  ⟨.panel, 0x700300, 32, 0x8, fun k => ((List.range 8).map (8 * k + ·)).flatMap fun i => [Reg.CTL_ROSTER_SITE.STATE i, Reg.CTL_ROSTER_SITE.ALIVE i, Reg.CTL_ROSTER_SITE.KIND i]⟩,
  ⟨.panel, 0x700400, 12, 0x8, fun k => ((List.range 4).map (4 * k + ·)).flatMap fun i => [Reg.CTL_ROSTER_FUSE.SITE i, Reg.CTL_ROSTER_FUSE.ROUTER_DEAD i, Reg.CTL_ROSTER_FUSE.VALID i]⟩,
  ⟨.panel, 0xA80000, 1, 0x8, fun _ => [Reg.PWR_PANEL.HOST_CAP, Reg.PWR_PANEL.THERMAL_CAP, Reg.PWR_PANEL.IN_FORCE, Reg.PWR_PANEL.POWER]⟩,
  ⟨.panel, 0xA80008, 1, 0x8, fun _ => [Reg.PWR_GRADE.GRADE]⟩,
  ⟨.panel, 0xA80100, 16, 0x8, fun k => [Reg.PWR_BLOCK.LIMIT k, Reg.PWR_BLOCK.DRAW k, Reg.PWR_BLOCK.EN k, Reg.PWR_BLOCK.PWRGOOD k, Reg.PWR_BLOCK.STATE k, Reg.PWR_BLOCK.BUDGET k, Reg.PWR_BLOCK.ADMIT_BUSY k, Reg.PWR_BLOCK.DEFERRALS k]⟩,
  ⟨.panel, 0xB80000, 1, 0x8, fun _ => [Reg.THM_PANEL.AIR, Reg.THM_PANEL.STATE, Reg.THM_PANEL.INLET, Reg.THM_PANEL.OUTLET, Reg.THM_PANEL.FLOW_OK, Reg.THM_PANEL.HOLD_MS]⟩,
  ⟨.panel, 0xB80008, 1, 0x8, fun _ => [Reg.THM_CTL.RESCUE_PORTS, Reg.THM_CTL.RATE_EN]⟩,
  ⟨.panel, 0xB80010, 1, 0x8, fun _ => [Reg.THM_COOLANT.HOST_INLET, Reg.THM_COOLANT.HOST_FLOW, Reg.THM_COOLANT.THETA_MAX]⟩,
  ⟨.panel, 0xC00000, 1, 0x8, fun _ => [Reg.CTL_BOOT.STAGE, Reg.CTL_BOOT.ACTIVE, Reg.CTL_BOOT.FALLBACK, Reg.CTL_BOOT.CTLSEL, Reg.CTL_BOOT.DONE_MS, Reg.CTL_BOOT.DIE_FAILS, Reg.CTL_BOOT.BLOCK_FAULTS]⟩,
  ⟨.panel, 0xC00008, 1, 0x8, fun _ => [Reg.CTL_RESET.SCOPE, Reg.CTL_RESET.TARGET]⟩,
  ⟨.panel, 0xC00010, 1, 0x8, fun _ => [Reg.CTL_RESET_STATUS.BUSY, Reg.CTL_RESET_STATUS.SCOPE, Reg.CTL_RESET_STATUS.RESULT, Reg.CTL_RESET_STATUS.REJECTS, Reg.CTL_RESET_STATUS.COUNT]⟩,
  ⟨.panel, 0xD00000, 1, 0x8, fun _ => [Reg.SEC_STATUS.LCS, Reg.SEC_STATUS.DEBUG, Reg.SEC_STATUS.RECOVERY, Reg.SEC_STATUS.OWNER_SET, Reg.SEC_STATUS.TAMPER, Reg.SEC_STATUS.FW_SVN, Reg.SEC_STATUS.SVN_MIN, Reg.SEC_STATUS.SVN_ROWS, Reg.SEC_STATUS.ORDER_LB]⟩,
  ⟨.panel, 0xD00008, 1, 0x8, fun _ => [Reg.SEC_KEYS.SLOT_VALID, Reg.SEC_KEYS.REVOKED, Reg.SEC_KEYS.ACTIVE_SLOT]⟩,
  ⟨.panel, 0xD00010, 1, 0x8, fun _ => [Reg.SEC_PROVISION.HOSTPORT, Reg.SEC_PROVISION.HOSTPORT_SET, Reg.SEC_PROVISION.HOSTPORT_ROWS]⟩,
  ⟨.panel, 0xD00018, 1, 0x8, fun _ => [Reg.SEC_CHALLENGE.CHALLENGE]⟩,
  ⟨.panel, 0xD00020, 1, 0x8, fun _ => [Reg.SEC_TAMPER.VALID, Reg.SEC_TAMPER.CAUSE, Reg.SEC_TAMPER.COUNT, Reg.SEC_TAMPER.JTAG_REFUSED]⟩,
  ⟨.panel, 0xE00000, 1, 0x8, fun _ => [Reg.CTL_NOTICE_STATUS.HELD, Reg.CTL_NOTICE_STATUS.LOST_TOTAL]⟩,
  ⟨.panel, 0xE00008, 1, 0x8, fun _ => [Reg.CTL_NOTICE_SEQ.NEXT_SEQ, Reg.CTL_NOTICE_SEQ.LOST_SINCE_READ]⟩,
  ⟨.panel, 0xE00010, 1, 0x8, fun _ => [Reg.CTL_NOTICE_CTL.PUSH_EN, Reg.CTL_NOTICE_CTL.PUSH_MIN, Reg.CTL_NOTICE_CTL.PUSH_LOST]⟩,
  ⟨.panel, 0xE00020, 1, 0x8, fun _ => [Reg.CTL_MARGIN_CTL.SLACK_WARN]⟩,
  ⟨.panel, 0xF00000, 1, 0x8, fun _ => [Reg.CTL_I3C_XFER.ADDR, Reg.CTL_I3C_XFER.READ, Reg.CTL_I3C_XFER.LEN_M1, Reg.CTL_I3C_XFER.START, Reg.CTL_I3C_XFER.WDATA]⟩,
  ⟨.panel, 0xF00008, 1, 0x8, fun _ => [Reg.CTL_I3C_STATUS.BUSY, Reg.CTL_I3C_STATUS.NACK, Reg.CTL_I3C_STATUS.DONE, Reg.CTL_I3C_STATUS.RDATA, Reg.CTL_I3C_STATUS.TARGETS, Reg.CTL_I3C_STATUS.OVERRUN]⟩]

/-- Registers of the unit kind die. -/
def regRows_die : List RegRow := [
  ⟨.die, 0x000100, 1, 0x8, fun _ => [Reg.DIE_SIDEBAND.OBEY, Reg.DIE_SIDEBAND.LATCH, Reg.DIE_SIDEBAND.SQUAD, Reg.DIE_SIDEBAND.MEMBER]⟩,
  ⟨.die, 0x000108, 1, 0x8, fun _ => [Reg.DIE_SHOT.COUNT, Reg.DIE_SHOT.RUN]⟩,
  ⟨.die, 0x900000, 1, 0x8, fun _ => [Reg.CLK_FABRIC.FAB_LOCK, Reg.CLK_FABRIC.AUX_LOCK, Reg.CLK_FABRIC.SERDES_LOCK, Reg.CLK_FABRIC.UNLOCKS]⟩,
  ⟨.die, 0x900008, 1, 0x8, fun _ => [Reg.CLK_CORE_CTL.LIMIT, Reg.CLK_CORE_CTL.CEILING, Reg.CLK_CORE_CTL.FLOOR]⟩,
  ⟨.die, 0x900010, 1, 0x8, fun _ => [Reg.CLK_CORE_STATUS.FREQ, Reg.CLK_CORE_STATUS.CORE_LOCK, Reg.CLK_CORE_STATUS.MIN_CODE, Reg.CLK_CORE_STATUS.DOWN_STEPS, Reg.CLK_CORE_STATUS.FLOORS, Reg.CLK_CORE_STATUS.MIN_RESET]⟩,
  ⟨.die, 0x900018, 1, 0x8, fun _ => [Reg.CLK_MARGIN.MIN_SLACK, Reg.CLK_MARGIN.MIN_CORE, Reg.CLK_MARGIN.MIN_MON, Reg.CLK_MARGIN.WARNINGS, Reg.CLK_MARGIN.MIN_RESET]⟩,
  ⟨.die, 0x900020, 1, 0x8, fun _ => [Reg.CLK_PT.TIME]⟩,
  ⟨.die, 0x900028, 1, 0x8, fun _ => [Reg.CLK_PT_STATUS.ALIGN, Reg.CLK_PT_STATUS.ALIGNED, Reg.CLK_PT_STATUS.SLIPS, Reg.CLK_PT_STATUS.LATE, Reg.CLK_PT_STATUS.PENDING, Reg.CLK_PT_STATUS.PEND_SIGN]⟩,
  ⟨.die, 0x900030, 1, 0x8, fun _ => [Reg.CLK_TICK.TICKS]⟩,
  ⟨.die, 0xA00000, 1, 0x8, fun _ => [Reg.PWR_DIE_STATUS.VIN_SW, Reg.PWR_DIE_STATUS.VAON_SW, Reg.PWR_DIE_STATUS.PHASE_OK, Reg.PWR_DIE_STATUS.ISLAND_OK, Reg.PWR_DIE_STATUS.CAP, Reg.PWR_DIE_STATUS.CLK_LIMIT, Reg.PWR_DIE_STATUS.FENCE_CAUSE]⟩,
  ⟨.die, 0xA00008, 1, 0x8, fun _ => [Reg.PWR_DIE_MEAS.IVIN, Reg.PWR_DIE_MEAS.POWER, Reg.PWR_DIE_MEAS.VCORE, Reg.PWR_DIE_MEAS.VIN]⟩,
  ⟨.die, 0xA00010, 1, 0x8, fun _ => [Reg.PWR_DIE_BUDGET.BUDGET, Reg.PWR_DIE_BUDGET.AVG_1MS, Reg.PWR_DIE_BUDGET.PEAK, Reg.PWR_DIE_BUDGET.LIMIT_EVENTS, Reg.PWR_DIE_BUDGET.PEAK_RESET]⟩,
  ⟨.die, 0xA00020, 4, 0x8, fun k => [Reg.PWR_CORNER.V k, Reg.PWR_CORNER.I k, Reg.PWR_CORNER.BASE k, Reg.PWR_CORNER.NOW k]⟩,
  ⟨.die, 0xA00040, 1, 0x8, fun _ => [Reg.PWR_DIE_EVENTS.PHASE_FAILS, Reg.PWR_DIE_EVENTS.ISLAND_FAILS, Reg.PWR_DIE_EVENTS.UV_EVENTS, Reg.PWR_DIE_EVENTS.PATH_NOTICES]⟩,
  ⟨.die, 0xB00000, 1, 0x8, fun _ => [Reg.THM_DIE_STATUS.TJ, Reg.THM_DIE_STATUS.HOT_SITE, Reg.THM_DIE_STATUS.T_CEIL, Reg.THM_DIE_STATUS.LEVEL, Reg.THM_DIE_STATUS.TRIP]⟩,
  ⟨.die, 0xB00008, 1, 0x8, fun _ => [Reg.THM_DIE_THETA.THETA, Reg.THM_DIE_THETA.P_TH]⟩,
  ⟨.die, 0xB00010, 1, 0x8, fun _ => [Reg.THM_DIE_EVENTS.THROTTLES, Reg.THM_DIE_EVENTS.SENSOR_NOTICES, Reg.THM_DIE_EVENTS.OVERTEMPS]⟩,
  ⟨.die, 0xB00040, 16, 0x8, fun k => [Reg.THM_SITE.A k, Reg.THM_SITE.B k, Reg.THM_SITE.RO_T k, Reg.THM_SITE.A_BAD k, Reg.THM_SITE.B_BAD k, Reg.THM_SITE.SPLIT k]⟩,
  ⟨.die, 0xE00018, 1, 0x8, fun _ => [Reg.CTL_FAULT.FAULT, Reg.CTL_FAULT.CAUSE]⟩,
  ⟨.die, 0x000110, 1, 0x8, fun _ => [Reg.DIE_NOTICE.BUFFERED, Reg.DIE_NOTICE.RAISED, Reg.DIE_NOTICE.LOST]⟩]

/-- The whole register map. -/
def regRows : List RegRow :=
  regRows_core ++ regRows_cluster ++ regRows_hub ++ regRows_router ++ regRows_port ++ regRows_panel ++ regRows_die

end Sys2Proof.Machine
end

