-- ==== Sys2Proof/Machine/Maps.lean ====
section
/-! DEFINITION. Sparse maps with strictly rising keys, and the register fields and memories kept in them. -/

namespace Sys2Proof.Machine

/-- What a map holds at a key; `d` where it lists nothing. -/
def mapGet {β : Type} (d : β) : SMap β → Nat → β
  | [], _ => d
  | (k, v) :: m, key => if key = k then v else if key < k then d else mapGet d m key

/-- The map with nothing listed at a key. -/
def mapErase {β : Type} : SMap β → Nat → SMap β
  | [], _ => []
  | (k, v) :: m, key => if key = k then m else if key < k then (k, v) :: m else (k, v) :: mapErase m key

/-- The map with a value listed at a key. -/
def mapInsert {β : Type} : SMap β → Nat → β → SMap β
  | [], key, x => [(key, x)]
  | (k, v) :: m, key, x =>
    if key = k then (k, x) :: m else if key < k then (key, x) :: (k, v) :: m else (k, v) :: mapInsert m key x

/-- Write a value; writing the default removes the entry. -/
def mapSet {β : Type} [DecidableEq β] (d : β) (m : SMap β) (key : Nat) (x : β) : SMap β :=
  if x = d then mapErase m key else mapInsert m key x

/-- Keep only the entries whose key satisfies a test. -/
def mapFilter {β : Type} (p : Nat → Bool) (m : SMap β) : SMap β := m.filter (fun e => p e.1)

/-- Drop the entries with lo ≤ key < hi: they read as their defaults again. -/
def mapClear {β : Type} (lo hi : Nat) (m : SMap β) : SMap β := mapFilter (fun k => k < lo || hi ≤ k) m

/-- The entries with lo ≤ key < hi. -/
def mapRange {β : Type} (lo hi : Nat) (m : SMap β) : SMap β := mapFilter (fun k => lo ≤ k && k < hi) m

/-- Put back a list of entries, each as it was listed. -/
def mapPut {β : Type} (m : SMap β) (es : List (Nat × β)) : SMap β := es.foldl (fun m e => mapInsert m e.1 e.2) m

/-- Keys strictly rising from `lo`. -/
def risingFrom {β : Type} : Nat → SMap β → Bool
  | _, [] => true
  | lo, (k, _) :: m => lo ≤ k && risingFrom (k + 1) m

/-- The canonical form: keys strictly rising, no entry equal to the default. -/
def mapWf {β : Type} [DecidableEq β] (d : β) (m : SMap β) : Bool := risingFrom 0 m && m.all (fun e => e.2 != d)

/-- Offsets one core, or one cluster, further on in the die's window (R68, R170). -/
def Fld.nth (f : Fld) (k : Nat) : Fld := { f with off := f.off + k * 0x10000 }

/-- Where a field of a site stands in `State.fld`. -/
def fldKey (site : Nat) (f : Fld) : Nat := (site * 2 ^ 26 + f.off) * 64 + f.lo

/-- The value of a field. -/
def State.get (s : State) (site : Nat) (f : Fld) : Nat := mapGet f.reset s.fld (fldKey site f) % 2 ^ f.width

/-- Write a field: the value is cut to the field's width. -/
def State.put (s : State) (site : Nat) (f : Fld) (v : Nat) : State :=
  { s with fld := mapSet f.reset s.fld (fldKey site f) (v % 2 ^ f.width) }

/-- Add to a count that holds at its maximum (R484). -/
def State.bump (s : State) (site : Nat) (f : Fld) (n : Nat := 1) : State :=
  s.put site f (min (s.get site f + n) (2 ^ f.width - 1))

/-- Set a field back to its reset value. -/
def State.unset (s : State) (site : Nat) (f : Fld) : State := { s with fld := mapErase s.fld (fldKey site f) }

/-- A one-bit field as a truth value. -/
def State.flag (s : State) (site : Nat) (f : Fld) : Bool := s.get site f = 1

/-- Write a truth value to a one-bit field. -/
def State.putFlag (s : State) (site : Nat) (f : Fld) (b : Bool) : State := s.put site f (if b then 1 else 0)

/-- Set every field of a site with lo ≤ offset < hi back to its reset value. -/
def State.clearFlds (s : State) (site lo hi : Nat) : State :=
  { s with fld := mapClear ((site * 2 ^ 26 + lo) * 64) ((site * 2 ^ 26 + hi) * 64) s.fld }

end Sys2Proof.Machine
end

