-- ==== Sys2Proof/Machine/Numeric.lean ====
section
/-! DEFINITION. The number formats (03_number_formats): exact values, decoding, rounding and encoding, block formats and the
stochastic-rounding generator. -/

namespace Sys2Proof.Machine

/-- A value: NaN (the panel keeps no payload, R72), an infinity, or the exact number (−1)^neg × m × 2^e. -/
inductive FVal where
  | nan
  | inf (neg : Bool)
  | fin (neg : Bool) (m : Nat) (e : Int)
  deriving DecidableEq, Repr

/-- The format codes of R69. -/
inductive Fmt where
  | fp32 | bf16 | fp16 | fp64 | e4m3 | e5m2 | int8 | int4 | fp4
  | mxe4m3 | mxe5m2 | mxe2m3 | mxe3m2 | mxfp4 | mxint8 | zb4
  deriving DecidableEq, Repr

/-- The format a 5-bit code names; a code not listed is reserved (R69). -/
def Fmt.ofCode (c : Nat) : Option Fmt :=
  match c with
  | 0x00 => some .fp32 | 0x01 => some .bf16 | 0x02 => some .fp16 | 0x03 => some .fp64
  | 0x04 => some .e4m3 | 0x05 => some .e5m2 | 0x08 => some .int8 | 0x09 => some .int4 | 0x0A => some .fp4
  | 0x10 => some .mxe4m3 | 0x11 => some .mxe5m2 | 0x12 => some .mxe2m3 | 0x13 => some .mxe3m2
  | 0x14 => some .mxfp4 | 0x15 => some .mxint8 | 0x18 => some .zb4
  | _ => none

/-- Formats of the Matrix column of R69. -/
def Fmt.matrix : Fmt → Bool
  | .fp32 => false | .fp64 => false | _ => true
/-- Formats of the Decode and Encode columns of R69. -/
def Fmt.codec : Fmt → Bool
  | .fp64 => false | _ => true
/-- Block-scaled formats (R74, R77). -/
def Fmt.block : Fmt → Bool
  | .mxe4m3 | .mxe5m2 | .mxe2m3 | .mxe3m2 | .mxfp4 | .mxint8 | .zb4 => true
  | _ => false
/-- Width of one element in bits (R69, R70). -/
def Fmt.bits : Fmt → Nat
  | .fp32 => 32 | .bf16 => 16 | .fp16 => 16 | .fp64 => 64
  | .e4m3 => 8 | .e5m2 => 8 | .int8 => 8 | .int4 => 4 | .fp4 => 4
  | .mxe4m3 => 8 | .mxe5m2 => 8 | .mxe2m3 => 6 | .mxe3m2 => 6 | .mxfp4 => 4 | .mxint8 => 8 | .zb4 => 4
/-- Bytes of the side array per block: 1 for MX, 4 for ZB4, none otherwise (R76). -/
def Fmt.sideBytes (f : Fmt) : Nat := if f = .zb4 then 4 else if f.block then 1 else 0

/-- A floating-point element format (R70): exponent and mantissa widths, bias, the largest finite code without sign, whether it has
infinities, and its canonical NaN if it has NaN (R72). -/
structure FloatFmt where
  exp : Nat
  man : Nat
  bias : Nat
  maxCode : Nat
  hasInf : Bool
  nan : Option Nat

def ffE2M1 : FloatFmt := ⟨2, 1, 1, 0x7, false, none⟩
def ffE2M3 : FloatFmt := ⟨2, 3, 1, 0x1F, false, none⟩
def ffE3M2 : FloatFmt := ⟨3, 2, 3, 0x1F, false, none⟩
def ffE4M3 : FloatFmt := ⟨4, 3, 7, 0x7E, false, some 0x7F⟩
def ffE5M2 : FloatFmt := ⟨5, 2, 15, 0x7B, true, some 0x7E⟩
def ffFP16 : FloatFmt := ⟨5, 10, 15, 0x7BFF, true, some 0x7E00⟩
def ffBF16 : FloatFmt := ⟨8, 7, 127, 0x7F7F, true, some 0x7FC0⟩
def ffFP32 : FloatFmt := ⟨8, 23, 127, 0x7F7F_FFFF, true, some 0x7FC0_0000⟩
def ffFP64 : FloatFmt := ⟨11, 52, 1023, 0x7FEF_FFFF_FFFF_FFFF, true, some 0x7FF8_0000_0000_0000⟩

/-- How a format codes one element: a floating-point layout, or two's complement of `bits` bits in units of 2^`frac`. -/
inductive ElemKind where
  | float (f : FloatFmt)
  | int (bits : Nat) (frac : Int)

/-- The element kind of a format (R69, R73); ZB4's ordinary elements are E2M1 (R77). -/
def Fmt.elem : Fmt → ElemKind
  | .fp32 => .float ffFP32 | .bf16 => .float ffBF16 | .fp16 => .float ffFP16 | .fp64 => .float ffFP64
  | .e4m3 => .float ffE4M3 | .e5m2 => .float ffE5M2 | .int8 => .int 8 0 | .int4 => .int 4 0 | .fp4 => .float ffE2M1
  | .mxe4m3 => .float ffE4M3 | .mxe5m2 => .float ffE5M2 | .mxe2m3 => .float ffE2M3 | .mxe3m2 => .float ffE3M2
  | .mxfp4 => .float ffE2M1 | .mxint8 => .int 8 (-6) | .zb4 => .float ffE2M1

/-- The value of a floating-point code (R70, R72). -/
def FloatFmt.decode (f : FloatFmt) (code : Nat) : FVal :=
  let neg := code.testBit (f.exp + f.man)
  let mag := code % 2 ^ (f.exp + f.man)
  let e := mag / 2 ^ f.man
  let m := mag % 2 ^ f.man
  if f.maxCode < mag then
    (if f.hasInf ∧ m = 0 then .inf neg else .nan)
  else if e = 0 then .fin neg m (1 - f.bias - f.man)
  else .fin neg (2 ^ f.man + m) ((e : Int) - f.bias - f.man)

/-- Two's complement value of a `bits`-bit code. -/
def signedOf (bits code : Nat) : Int :=
  if 2 ^ (bits - 1) ≤ code % 2 ^ bits then (code % 2 ^ bits : Int) - 2 ^ bits else (code % 2 ^ bits : Int)

/-- An integer as a value. -/
def FVal.ofInt (i : Int) (e : Int := 0) : FVal := .fin (i < 0) i.natAbs e

/-- The value of one element code (R70, R73). -/
def ElemKind.decode (k : ElemKind) (code : Nat) : FVal :=
  match k with
  | .float f => f.decode code
  | .int b frac => FVal.ofInt (signedOf b code) frac

/-- A value times 2^k, exactly. -/
def FVal.scale (v : FVal) (k : Int) : FVal :=
  match v with
  | .fin n m e => .fin n m (e + k)
  | v => v

/-- Rounding modes (R80). -/
inductive RMode where
  | rne | rtz | rup | rdn | sr
  deriving DecidableEq, Repr

/-- The mode a 3-bit code names; 5 to 7 are reserved (R80). -/
def RMode.ofCode : Nat → Option RMode
  | 0 => some .rne | 1 => some .rtz | 2 => some .rup | 3 => some .rdn | 4 => some .sr | _ => none

/-- m × 2^e as a multiple of 2^q, rounded (R80); under SR a remainder counts in units of 2^-16 of the quantum and `u` is the random
draw (R86). -/
def roundTo (rm : RMode) (neg : Bool) (u : Nat) (m : Nat) (e q : Int) : Nat :=
  if q ≤ e then m * 2 ^ (e - q).toNat
  else
    let sh := (q - e).toNat
    let t := m / 2 ^ sh
    let r := m % 2 ^ sh
    match rm with
    | .rne => if 2 ^ sh < 2 * r ∨ (2 * r = 2 ^ sh ∧ t % 2 = 1) then t + 1 else t
    | .rtz => t
    | .rup => if r ≠ 0 ∧ !neg then t + 1 else t
    | .rdn => if r ≠ 0 ∧ neg then t + 1 else t
    | .sr => if u < r * 65536 / 2 ^ sh then t + 1 else t

/-- floor(log2) of m × 2^e, for m ≠ 0. -/
def floorLog2 (m : Nat) (e : Int) : Int := (Nat.log2 m : Int) + e

/-- What an encode reports: OVERFLOW (R81), NAN_ZERO (R82), NAN_BLOCK (R83), DECODE_INF (R79). -/
structure ConvFlags where
  overflow : Bool := false
  nanZero : Bool := false
  nanBlock : Bool := false
  decodeInf : Bool := false
  deriving DecidableEq, Repr

/-- Two reports together. -/
def ConvFlags.or (a b : ConvFlags) : ConvFlags :=
  ⟨a.overflow || b.overflow, a.nanZero || b.nanZero, a.nanBlock || b.nanBlock, a.decodeInf || b.decodeInf⟩

/-- The magnitude code of m × 2^e rounded once; it may exceed the largest finite code (R80, R86: above the largest finite the spacing
is that of the top binade). -/
def FloatFmt.magCode (f : FloatFmt) (rm : RMode) (neg : Bool) (u m : Nat) (e : Int) : Nat :=
  if m = 0 then 0
  else
    let qmin : Int := 1 - f.bias - f.man
    let qtop : Int := qmin + (f.maxCode / 2 ^ f.man - 1 : Nat)
    let q := min qtop (max qmin (floorLog2 m e - f.man))
    (q - qmin).toNat * 2 ^ f.man + roundTo rm neg u m e q

/-- Encode into an unscaled floating-point format (R80–R82); `sat` is the overflow mode SAT. -/
def FloatFmt.encode (f : FloatFmt) (rm : RMode) (sat : Bool) (u : Nat) (v : FVal) : Nat × ConvFlags :=
  let sgn (neg : Bool) : Nat := if neg then 2 ^ (f.exp + f.man) else 0
  let ovf (neg : Bool) : Nat :=
    if sat then sgn neg + f.maxCode
    else if f.hasInf then
      sgn neg + (if rm = .rtz ∨ (rm = .rup ∧ neg) ∨ (rm = .rdn ∧ !neg) then f.maxCode else f.maxCode + 1)
    else match f.nan with
      | some n => n
      | none => sgn neg + f.maxCode
  match v with
  | .nan => match f.nan with
    | some n => (n, {})
    | none => (0, { nanZero := true })
  | .inf neg => if f.hasInf then (sgn neg + f.maxCode + 1, {}) else (ovf neg, { overflow := true })
  | .fin neg m e =>
    let c := f.magCode rm neg u m e
    if f.maxCode < c then (ovf neg, { overflow := true }) else (sgn neg + c, {})

/-- Encode into a two's-complement format in units of 2^frac with the limits lo and hi (R73, R81, R82). -/
def encodeInt (bits : Nat) (frac lo hi : Int) (rm : RMode) (u : Nat) (v : FVal) : Nat × ConvFlags :=
  let put (i : Int) : Nat := (i % 2 ^ bits).toNat
  match v with
  | .nan => (0, { nanZero := true })
  | .inf neg => (put (if neg then lo else hi), { overflow := true })
  | .fin neg m e =>
    let n : Int := roundTo rm neg u m e frac
    let i := if neg then -n else n
    if hi < i then (put hi, { overflow := true })
    else if i < lo then (put lo, { overflow := true })
    else (put i, {})

/-- Encode one element of a format that has no block, or one element of a block already scaled (R80–R82). -/
def Fmt.encodeElem (f : Fmt) (rm : RMode) (sat : Bool) (u : Nat) (v : FVal) : Nat × ConvFlags :=
  match f with
  | .int8 => encodeInt 8 0 (-128) 127 rm u v
  | .int4 => encodeInt 4 0 (-8) 7 rm u v
  | .mxint8 => encodeInt 8 (-6) (-127) 127 rm u v
  | f => match f.elem with
    | .float ff => ff.encode rm sat u v
    | .int b frac => encodeInt b frac (-(2 ^ (b - 1))) (2 ^ (b - 1) - 1) rm u v

/-- FP32 bits of a value, rounded to nearest even with IEEE overflow. -/
def toFP32 (v : FVal) : Nat := (ffFP32.encode .rne false 0 v).1
/-- The value of FP32 bits. -/
def ofFP32 (b : Nat) : FVal := ffFP32.decode (b % 2 ^ 32)
/-- FP64 bits of a value, rounded to nearest even. -/
def toFP64 (v : FVal) : Nat := (ffFP64.encode .rne false 0 v).1
/-- The value of FP64 bits. -/
def ofFP64 (b : Nat) : FVal := ffFP64.decode (b % 2 ^ 64)

/-- Whether the rounding of a finite value to FP32 left the FP32 range. -/
def overflowsFP32 (v : FVal) : Bool := (ffFP32.encode .rne false 0 v).2.overflow

/-- Exact sum of two finite numbers; a zero sum of unlike signs is +0, of like signs keeps the sign. -/
def addFin (n1 : Bool) (m1 : Nat) (e1 : Int) (n2 : Bool) (m2 : Nat) (e2 : Int) : FVal :=
  let e := min e1 e2
  let a : Int := (m1 * 2 ^ (e1 - e).toNat : Nat)
  let b : Int := (m2 * 2 ^ (e2 - e).toNat : Nat)
  let t := (if n1 then -a else a) + (if n2 then -b else b)
  if t = 0 then .fin (n1 && n2) 0 e else .fin (t < 0) t.natAbs e

/-- Exact sum: ∞ − ∞ is NaN. -/
def FVal.add (a b : FVal) : FVal :=
  match a, b with
  | .nan, _ => .nan
  | _, .nan => .nan
  | .inf x, .inf y => if x = y then .inf x else .nan
  | .inf x, .fin _ _ _ => .inf x
  | .fin _ _ _, .inf y => .inf y
  | .fin n1 m1 e1, .fin n2 m2 e2 => addFin n1 m1 e1 n2 m2 e2

/-- The negative of a value. -/
def FVal.neg : FVal → FVal
  | .nan => .nan
  | .inf n => .inf (!n)
  | .fin n m e => .fin (!n) m e

/-- Exact product: 0 × ∞ is NaN. -/
def FVal.mul (a b : FVal) : FVal :=
  match a, b with
  | .nan, _ => .nan
  | _, .nan => .nan
  | .inf x, .inf y => .inf (x != y)
  | .inf x, .fin n m _ => if m = 0 then .nan else .inf (x != n)
  | .fin n m _, .inf y => if m = 0 then .nan else .inf (n != y)
  | .fin n1 m1 e1, .fin n2 m2 e2 => .fin (n1 != n2) (m1 * m2) (e1 + e2)

/-- Whether a value is NaN. -/
def FVal.isNan (v : FVal) : Bool := match v with | .nan => true | _ => false
/-- Whether a value is an infinity. -/
def FVal.isInf (v : FVal) : Bool := match v with | .inf _ => true | _ => false
/-- Whether a value is a zero. -/
def FVal.isZero (v : FVal) : Bool := match v with | .fin _ 0 _ => true | _ => false
/-- The sign bit of a value; NaN has sign 0 (R72). -/
def FVal.sign (v : FVal) : Bool := match v with | .nan => false | .inf n => n | .fin n _ _ => n

/-- Exact comparison of m1 × 2^e1 with m2 × 2^e2. -/
def magLt (m1 : Nat) (e1 : Int) (m2 : Nat) (e2 : Int) : Bool :=
  let e := min e1 e2
  m1 * 2 ^ (e1 - e).toNat < m2 * 2 ^ (e2 - e).toNat

/-- a < b as numbers; −0 is not less than +0, and nothing compares with NaN. -/
def FVal.lt (a b : FVal) : Bool :=
  match a, b with
  | .nan, _ => false
  | _, .nan => false
  | .inf x, .inf y => x && !y
  | .inf x, .fin _ _ _ => x
  | .fin _ _ _, .inf y => !y
  | .fin n1 m1 e1, .fin n2 m2 e2 =>
    match n1, n2 with
    | false, false => magLt m1 e1 m2 e2
    | true, true => magLt m2 e2 m1 e1
    | true, false => !(m1 = 0 && m2 = 0)
    | false, true => false

/-- a = b as numbers: +0 = −0. -/
def FVal.eq (a b : FVal) : Bool :=
  match a, b with
  | .nan, _ => false
  | _, .nan => false
  | .inf x, .inf y => x == y
  | .fin _ _ _, .fin _ _ _ => !(a.lt b) && !(b.lt a)
  | _, _ => false

/-- The magnitude of a value. -/
def FVal.abs : FVal → FVal
  | .nan => .nan
  | .inf _ => .inf false
  | .fin _ m e => .fin false m e

/-- The exponent of an E8M0 scale code below 0xFF (R74). -/
def scaleExp (code : Nat) : Int := (code : Int) - 127

/-- A ZB4 side word (R77). -/
structure ZbSide where
  scale : Nat
  idx0 : Nat
  valid0 : Bool
  hi0 : Nat
  idx1 : Nat
  valid1 : Bool
  hi1 : Nat
  malformed : Bool
  deriving DecidableEq, Repr

/-- Bits hi..lo of a number. -/
def bitsOf (w hi lo : Nat) : Nat := w / 2 ^ lo % 2 ^ (hi + 1 - lo)

/-- The fields of a ZB4 side word (R77); a non-zero reserved field makes it malformed (R78). -/
def zbSide (w : Nat) : ZbSide :=
  { scale := bitsOf w 7 0, idx0 := bitsOf w 12 8, valid0 := w.testBit 13, hi0 := bitsOf w 17 14,
    idx1 := bitsOf w 24 20, valid1 := w.testBit 25, hi1 := bitsOf w 29 26,
    malformed := bitsOf w 19 18 ≠ 0 || bitsOf w 31 30 ≠ 0 }

/-- The side word of a ZB4 block (R77). -/
def zbWord (s : ZbSide) : Nat :=
  s.scale + s.idx0 * 2 ^ 8 + (if s.valid0 then 2 ^ 13 else 0) + s.hi0 * 2 ^ 14
    + s.idx1 * 2 ^ 20 + (if s.valid1 then 2 ^ 25 else 0) + s.hi1 * 2 ^ 26

/-- Element e of a ZB4 block, from its 4-bit field (R78); a malformed block is left to the unit that reads it. -/
def zbElem (s : ZbSide) (e field : Nat) : FVal :=
  if s.scale = 0xFF then .nan
  else if s.valid0 ∧ s.idx0 = e then (ffE4M3.decode (s.hi0 * 16 + field)).scale (scaleExp s.scale)
  else if s.valid1 ∧ s.idx1 = e then (ffE4M3.decode (s.hi1 * 16 + field)).scale (scaleExp s.scale)
  else (ffE2M1.decode field).scale (scaleExp s.scale)

/-- Whether element e of a ZB4 block is an outlier (R77). -/
def zbOutlier (s : ZbSide) (e : Nat) : Bool := (s.valid0 && s.idx0 == e) || (s.valid1 && s.idx1 == e)

/-- The exact value of an element code under its block's side value (R70–R78): scale times element, NaN for scale code 0xFF, and a NaN
block for a malformed ZB4 block. `e` is the element's index in its block. -/
def Fmt.decodeElem (f : Fmt) (e code side : Nat) : FVal :=
  if f = .zb4 then
    (if (zbSide side).malformed then .nan else zbElem (zbSide side) e code)
  else if f.block then
    (if side % 256 = 0xFF then .nan else (f.elem.decode code).scale (scaleExp (side % 256)))
  else f.elem.decode code

/-- Decode to FP32 (R79): exact, but a scaled element beyond the FP32 range is an infinity and sets DECODE_INF. -/
def decodeFP32 (v : FVal) : FVal × Bool :=
  match v with
  | .fin neg m e =>
    if m ≠ 0 ∧ (128 : Int) ≤ floorLog2 m e then (.inf neg, true) else (v, false)
  | v => (v, false)

/-- emax of R83 step 3. -/
def Fmt.emax : Fmt → Int
  | .mxe4m3 => 8 | .mxe5m2 => 15 | .mxe2m3 => 2 | .mxe3m2 => 4 | .mxfp4 => 2 | _ => 0

/-- The larger of two magnitudes, as finite values. -/
def magMax (a b : Nat × Int) : Nat × Int := if magLt a.1 a.2 b.1 b.2 then b else a

/-- The magnitude of a value; NaN and infinities do not reach here (R83 step 1). -/
def FVal.mag (v : FVal) : Nat × Int := match v with | .fin _ m e => (m, e) | _ => (0, 0)

/-- Encode 32 values as one MX block: element codes, scale code, report (R83). `us` are the random draws. -/
def encodeMX (f : Fmt) (rm : RMode) (us : List Nat) (vs : List FVal) : List Nat × Nat × ConvFlags :=
  if vs.any (fun v => v.isNan || v.isInf) then (vs.map (fun _ => 0), 0xFF, { nanBlock := true })
  else
    let a := (vs.map FVal.mag).foldl magMax (0, 0)
    let k : Int := if a.1 = 0 then 0 else max (-127) (min 127 (floorLog2 a.1 a.2 - f.emax))
    let es := (vs.zip us).map fun p => f.encodeElem rm true p.2 (p.1.scale (-k))
    (es.map (·.1), (k + 127).toNat, es.foldl (fun acc p => acc.or p.2) {})

/-- Index of the first value of the greatest magnitude among those whose index is not `skip` (R84 step 2). -/
def argMax (ms : List (Nat × Int)) (skip : List Nat) : Nat :=
  ((List.range ms.length).foldl (fun (best : Option Nat) i =>
    if skip.contains i then best
    else match best with
      | none => some i
      | some b => if magLt (ms.getD b (0, 0)).1 (ms.getD b (0, 0)).2 (ms.getD i (0, 0)).1 (ms.getD i (0, 0)).2
          then some i else best) none).getD 0

/-- Encode 32 values as one ZB4 block: element fields, side word, report (R84). -/
def encodeZB (rm : RMode) (us : List Nat) (vs : List FVal) : List Nat × Nat × ConvFlags :=
  if vs.any (fun v => v.isNan || v.isInf) then (vs.map (fun _ => 0), 0xFF, { nanBlock := true })
  else
    let ms := vs.map FVal.mag
    let i0 := argMax ms []
    let i1 := argMax ms [i0]
    let i2 := argMax ms [i0, i1]
    let m1 := ms.getD i0 (0, 0)
    let m2 := ms.getD i1 (0, 0)
    let m3 := ms.getD i2 (0, 0)
    let k0 : Int :=
      if m1.1 = 0 then 0
      else if m3.1 = 0 then floorLog2 m1.1 m1.2 - 7
      else max (floorLog2 m3.1 m3.2 - 2) (floorLog2 m1.1 m1.2 - 7)
    let k := max (-127) (min 127 k0)
    let v0 := m1.1 ≠ 0
    let v1 := m2.1 ≠ 0
    let enc (i : Nat) : Nat × ConvFlags :=
      let v := (vs.getD i (.fin false 0 0)).scale (-k)
      let u := us.getD i 0
      if (v0 ∧ i = i0) ∨ (v1 ∧ i = i1) then ffE4M3.encode rm true u v else ffE2M1.encode rm true u v
    let es := (List.range 32).map enc
    let c0 := (enc i0).1
    let c1 := (enc i1).1
    let side := zbWord
      { scale := (k + 127).toNat, idx0 := if v0 then i0 else 0, valid0 := v0, hi0 := if v0 then c0 / 16 else 0,
        idx1 := if v1 then i1 else 0, valid1 := v1, hi1 := if v1 then c1 / 16 else 0, malformed := false }
    (es.map (fun p => p.1 % 16), side, es.foldl (fun acc p => acc.or p.2) {})

/-- Encode one block of a block format. -/
def encodeBlock (f : Fmt) (rm : RMode) (us : List Nat) (vs : List FVal) : List Nat × Nat × ConvFlags :=
  if f = .zb4 then encodeZB rm us vs else encodeMX f rm us vs

/-- The random value of R87. -/
def srHash (seed key : Nat) : Nat :=
  let x0 : BitVec 64 := BitVec.ofNat 64 seed ^^^ BitVec.ofNat 64 key
  let x1 := (x0 ^^^ (x0 >>> 30)) * 0xBF58476D1CE4E5B9#64
  let x2 := (x1 ^^^ (x1 >>> 27)) * 0x94D049BB133111EB#64
  let x3 := x2 ^^^ (x2 >>> 31)
  (x3 >>> 48).toNat

/-- Key of a core's PACK: logical core × 2^48 + count (R87). -/
def srCoreKey (core count : Nat) : Nat := core * 2 ^ 48 + count % 2 ^ 48
/-- Key of a hub converter: global address of the destination sector / 32, and the element in it (R87). -/
def srHubKey (g e : Nat) : Nat := 2 ^ 63 + g * 64 + e

/-- Little-endian number of a list of bytes (R3). -/
def leNat : List Byte → Nat
  | [] => 0
  | b :: bs => b.toNat + 256 * leNat bs

/-- The n little-endian bytes of a number (R3). -/
def leBytes : Nat → Nat → List Byte
  | 0, _ => []
  | n + 1, v => BitVec.ofNat 8 v :: leBytes n (v / 256)

/-- Codes of `bits` bits each, packed from a little-endian number (R76). -/
def unpackCodes (bits n v : Nat) : List Nat := (List.range n).map fun i => v / 2 ^ (bits * i) % 2 ^ bits

/-- Pack codes of `bits` bits each into a little-endian number (R76). -/
def packCodes (bits : Nat) : List Nat → Nat
  | [] => 0
  | c :: cs => c + 2 ^ bits * packCodes bits cs

end Sys2Proof.Machine
end

