-- ==== Sys2Proof/Machine/Func.lean ====
section
/-! DEFINITION. The FUNC stage of the vector engine (R132): exact and special cases, and a free value inside the stated error bound. The
exact value is approximated by integers scaled by 2^256; an error of that size cannot be told from the exact value at FP32's precision. -/

namespace Sys2Proof.Machine

/-- Fixed-point one. -/
def fxOne : Int := 2 ^ 256

/-- Product of fixed-point numbers, toward −∞. -/
def fxMul (a b : Int) : Int := a * b / fxOne
/-- Quotient of fixed-point numbers, toward −∞. -/
def fxDiv (a b : Int) : Int := a * fxOne / b

/-- A dyadic number as fixed point, toward −∞. -/
def fxOf (m : Int) (e : Int) : Int := if 0 ≤ e + 256 then m * 2 ^ (e + 256).toNat else m / 2 ^ (-(e + 256)).toNat

/-- Σ of `n` terms of a series whose next term is computed from the last. -/
def fxSeries : Nat → Nat → Int → Int → (Nat → Int → Int) → Int
  | 0, _, _, acc, _ => acc
  | n + 1, k, t, acc, next => fxSeries n (k + 1) (next k t) (acc + t) next

/-- e^t for a fixed-point t of magnitude at most 1. -/
def fxExp (t : Int) : Int := fxSeries 70 0 fxOne 0 (fun k u => fxMul u t / (k + 1))
/-- ln((1+u)/(1−u)) for a fixed-point u of magnitude at most 1/3. -/
def fxLnRatio (u : Int) : Int :=
  2 * (List.range 90).foldl (fun (p : Int × Int) k => (p.1 + p.2 / (2 * k + 1), fxMul (fxMul p.2 u) u)) (0, u) |>.1
/-- ln 2. -/
def fxLn2 : Int := fxLnRatio (fxOne / 3)
/-- arctan(1/q). -/
def fxAtanInv (q : Nat) : Int :=
  (List.range 200).foldl (fun (p : Int × Int) k =>
    (p.1 + (if k % 2 = 0 then p.2 else -p.2) / (2 * k + 1), p.2 / (q * q))) (0, fxOne / q) |>.1
/-- π. -/
def fxPi : Int := 16 * fxAtanInv 5 - 4 * fxAtanInv 239
/-- Square root of a fixed-point number. -/
def fxSqrt (a : Int) : Int := (Nat.sqrt (a * fxOne).toNat : Int)

/-- 2^x for a fixed-point x, as a mantissa and an exponent. -/
def exp2Of (x : Int) : Int × Int :=
  let n := x / fxOne
  (fxExp (fxMul (x - n * fxOne) fxLn2), n - 256)

/-- e^x for a fixed-point x. -/
def expOf (x : Int) : Int × Int := exp2Of (fxDiv x fxLn2)

/-- A quotient of positive dyadics to 256 bits. -/
def divDyadic (a b : Int × Int) : Int × Int := (a.1 * 2 ^ 512 / b.1, a.2 - b.2 - 512)

/-- Sum of non-negative dyadics. -/
def addDyadic (a b : Int × Int) : Int × Int :=
  let e := min a.2 b.2
  (a.1 * 2 ^ (a.2 - e).toNat + b.1 * 2 ^ (b.2 - e).toNat, e)

/-- Φ(x) = (1 + erf(x/√2))/2 for a fixed-point x of magnitude at most 16. -/
def fxPhi (x : Int) : Int :=
  let series := ((List.range 700).foldl (fun (p : Int × Int) k =>
    (p.1 + p.2 / (2 * k + 1), -(fxMul (fxMul p.2 x) x) / (2 * (k + 1)))) (0, x)).1
  fxOne / 2 + fxDiv series (fxSqrt (2 * fxPi))

/-- A value from a mantissa and an exponent. -/
def ofDyadic (p : Int × Int) : FVal := .fin (p.1 < 0) p.1.natAbs p.2

/-- The function of code `fc` at the finite number (−1)^neg × m × 2^e, to far beyond FP32's precision (R132). -/
def funcApprox (fc : Nat) (neg : Bool) (m : Nat) (e : Int) : FVal :=
  let sm : Int := if neg then -(m : Int) else m
  let x := fxOf sm e
  match fc with
  | 1 => ofDyadic (exp2Of x)
  | 2 =>
    let k := floorLog2 m e
    let z := fxOf m (e - k)
    ofDyadic (k * fxOne + fxDiv (fxLnRatio (fxDiv (z - fxOne) (z + fxOne))) fxLn2, -256)
  | 3 => FVal.fin neg (2 ^ 320 / m) (-320 - e)
  | 4 =>
    let odd := e % 2
    let mm := if odd = 0 then m else 2 * m
    let ee := if odd = 0 then e else e - 1
    .fin false (Nat.sqrt (2 ^ 640 / mm)) (-320 - ee / 2)
  | 5 =>
    if floorLog2 m e < -20 then
      let x2 := fxMul x x
      let f := fxOne - x2 / 3 + 2 * fxMul x2 x2 / 15
      .fin neg (m * f.toNat) (e - 256)
    else if 100 * fxOne < |x| then .fin neg 1 0
    else
      let a := expOf (2 * |x|)
      let n := addDyadic a (-1, 0)
      let r := divDyadic n (addDyadic a (1, 0))
      .fin neg r.1.natAbs r.2
  | 6 =>
    if 200 * fxOne < x then .fin false 1 0
    else if x < -200 * fxOne then .fin false 0 0
    else
      let a := expOf x
      ofDyadic (divDyadic a (addDyadic a (1, 0)))
  | _ =>
    if 16 * fxOne < x then .fin false m e
    else if x < -16 * fxOne then .fin true 0 0
    else FVal.fin neg (m * (fxPhi x).toNat) (e - 256)

/-- ulp of R132 at a value, as an exponent. -/
def ulpExp (v : FVal) : Int :=
  match v with
  | .fin _ m e => if m = 0 then -149 else max (floorLog2 m e) (-126) - 23
  | _ => -149

/-- Error bound of each function, in ulp (R132). -/
def funcBound (fc : Nat) : Nat := if fc = 1 ∨ fc = 3 ∨ fc = 4 then 1 else 2

/-- Whether a result lies inside the bound around the exact value (R132). -/
def withinBound (fc : Nat) (exact computed : FVal) : Bool :=
  match computed with
  | .fin _ _ _ => !((FVal.fin false (funcBound fc) (ulpExp exact)).lt ((computed.add exact.neg).abs))
  | _ => false

/-- Status bits of the FUNC stage and the A stages (R145). -/
structure VxFlags where
  overflow : Bool := false
  invalid : Bool := false
  divZero : Bool := false
  deriving DecidableEq, Repr

/-- Both reports together. -/
def VxFlags.or (a b : VxFlags) : VxFlags := ⟨a.overflow || b.overflow, a.invalid || b.invalid, a.divZero || b.divZero⟩

/-- A finite argument of no exact and no special case: the free value of the fixed function where it lies inside the bound, and the
rounded exact value where it does not; a value beyond the FP32 range is an infinity with OVERFLOW. -/
def funcGeneral (fc bits : Nat) (neg : Bool) (m : Nat) (e : Int) : FVal × VxFlags :=
  let exact := funcApprox fc neg m e
  if overflowsFP32 exact then (.inf exact.sign, { overflow := true })
  else
    let free := ofFP32 (Config.func fc bits)
    if withinBound fc exact free then (free, {}) else (ofFP32 (toFP32 exact), {})

/-- Whether m × 2^e is 2^k, and k. -/
def powerOfTwo (m : Nat) (e : Int) : Option Int := if m = 2 ^ Nat.log2 m then some (floorLog2 m e) else none

/-- Whether m × 2^e is the integer it names. -/
def asInt (neg : Bool) (m : Nat) (e : Int) : Option Int :=
  let a : Option Nat := if 0 ≤ e then some (m * 2 ^ e.toNat) else if m % 2 ^ (-e).toNat = 0 then some (m / 2 ^ (-e).toNat) else none
  a.map fun n => if neg then -(n : Int) else n

/-- FUNC applied to an FP32 value (R132). -/
def funcStage (fc : Nat) (v : FVal) : FVal × VxFlags :=
  if fc = 0 then (v, {})
  else
    let bits := toFP32 v
    match v with
    | .nan => (.nan, {})
    | .inf neg =>
      match fc with
      | 1 => if neg then (.fin false 0 0, {}) else (.inf false, {})
      | 2 => if neg then (.nan, { invalid := true }) else (.inf false, {})
      | 3 => (.fin neg 0 0, {})
      | 4 => if neg then (.nan, { invalid := true }) else (.fin false 0 0, {})
      | 5 => (.fin neg 1 0, {})
      | 6 => if neg then (.fin false 0 0, {}) else (.fin false 1 0, {})
      | _ => if neg then (.fin true 0 0, {}) else (.inf false, {})
    | .fin neg m e =>
      if m = 0 then
        match fc with
        | 1 => (.fin false 1 0, {})
        | 2 => (.inf true, { divZero := true })
        | 3 => (.inf neg, { divZero := true })
        | 4 => (.inf neg, { divZero := true })
        | 6 => (.fin false 1 (-1), {})
        | _ => (.fin neg 0 0, {})
      else
        match fc with
        | 1 =>
          if !neg ∧ 7 ≤ floorLog2 m e then (.inf false, { overflow := true })
          else if neg ∧ !(magLt m e 150 0) then (.fin false 0 0, {})
          else match asInt neg m e with
            | some n => if -149 ≤ n ∧ n ≤ 127 then (.fin false 1 n, {}) else funcGeneral fc bits neg m e
            | none => funcGeneral fc bits neg m e
        | 2 =>
          if neg then (.nan, { invalid := true })
          else match powerOfTwo m e with
            | some k => (FVal.ofInt k, {})
            | none => funcGeneral fc bits neg m e
        | 3 =>
          match powerOfTwo m e with
          | some k => if -126 ≤ k ∧ k ≤ 127 then (.fin neg 1 (-k), {}) else funcGeneral fc bits neg m e
          | none => funcGeneral fc bits neg m e
        | 4 =>
          if neg then (.nan, { invalid := true })
          else match powerOfTwo m e with
            | some k => if k % 2 = 0 then (.fin false 1 (-(k / 2)), {}) else funcGeneral fc bits neg m e
            | none => funcGeneral fc bits neg m e
        | _ => funcGeneral fc bits neg m e

end Sys2Proof.Machine
end

