-- ==== Sys2Proof/Machine/Ops.lean ====
section
/-! DEFINITION. The shared operations: memories of the dies with their poison marks, notices, the sideband lines, poison events and
the counts of memory errors. -/

namespace Sys2Proof.Machine

/-! ### Ranges of a memory -/

/-- The values at keys lo, lo+1, …, of which a map lists only those that differ from `d`; `m` starts at or after lo. -/
def expand {β : Type} (d : β) : Nat → Nat → SMap β → List β
  | 0, _, _ => []
  | n + 1, lo, m =>
    match m with
    | [] => d :: expand d n (lo + 1) []
    | (k, v) :: r => if k = lo then v :: expand d n (lo + 1) r else d :: expand d n (lo + 1) ((k, v) :: r)

/-- The n values from key lo on. -/
def mapRead {β : Type} (d : β) (m : SMap β) (lo n : Nat) : List β := expand d n lo (mapRange lo (lo + n) m)

/-- The entries that list the values of a range: those that differ from `d`. -/
def entriesOf {β : Type} [DecidableEq β] (d : β) : Nat → List β → SMap β
  | _, [] => []
  | lo, v :: vs => if v = d then entriesOf d (lo + 1) vs else (lo, v) :: entriesOf d (lo + 1) vs

/-- Write a run of values from key lo on. -/
def mapWrite {β : Type} [DecidableEq β] (d : β) (m : SMap β) (lo : Nat) (vs : List β) : SMap β :=
  mapFilter (fun k => k < lo) m ++ entriesOf d lo vs ++ mapFilter (fun k => lo + vs.length ≤ k) m

/-- Copy the n entries from key `src` on over those from key `dst` on. -/
def mapCopy {β : Type} (m : SMap β) (src dst n : Nat) : SMap β :=
  mapFilter (fun k => k < dst) m ++ (mapRange src (src + n) m).map (fun e => (e.1 - src + dst, e.2))
    ++ mapFilter (fun k => dst + n ≤ k) m

/-- Change a value of a list of records, or leave the list as it is. -/
def updFirst {α : Type} (p : α → Bool) (f : α → α) : List α → List α
  | [] => []
  | x :: xs => if p x then f x :: xs else x :: updFirst p f xs

/-- Remove the first record that satisfies a test. -/
def dropFirst {α : Type} (p : α → Bool) : List α → List α
  | [] => []
  | x :: xs => if p x then xs else x :: dropFirst p xs

/-! ### Cores, clusters and their state -/

/-- The value of a core's field. -/
def State.cget (s : State) (c : CoreRef) (f : Fld) : Nat := s.get c.site (f.nth c.core)
/-- Write a core's field. -/
def State.cput (s : State) (c : CoreRef) (f : Fld) (v : Nat) : State := s.put c.site (f.nth c.core) v
/-- Add to a core's count. -/
def State.cbump (s : State) (c : CoreRef) (f : Fld) (n : Nat := 1) : State := s.bump c.site (f.nth c.core) n
/-- A core's one-bit field. -/
def State.cflag (s : State) (c : CoreRef) (f : Fld) : Bool := s.flag c.site (f.nth c.core)
/-- Set a core's one-bit field. -/
def State.cset (s : State) (c : CoreRef) (f : Fld) (b : Bool) : State := s.putFlag c.site (f.nth c.core) b

/-- The value of a cluster's field. -/
def State.qget (s : State) (q : CluRef) (f : Fld) : Nat := s.get q.site (f.nth q.clu)
/-- Write a cluster's field. -/
def State.qput (s : State) (q : CluRef) (f : Fld) (v : Nat) : State := s.put q.site (f.nth q.clu) v
/-- Add to a cluster's count. -/
def State.qbump (s : State) (q : CluRef) (f : Fld) (n : Nat := 1) : State := s.bump q.site (f.nth q.clu) n

/-- The cluster a core belongs to (R68). -/
def cluOf (c : CoreRef) : CluRef := ⟨c.site, c.core / 24⟩
/-- The core's number in its cluster (R23). -/
def inCluster (c : CoreRef) : Nat := c.core % 24
/-- The cores of a die. -/
def coresOf (site : Nat) : List CoreRef := (List.range 48).map fun k => ⟨site, k⟩
/-- The 160 compute sites. -/
def computeSites : List Nat := (List.range 256).filter isCompute

/-! State of a core beside its registers: fields of no register (R47, R54, R64, R67, R102, R116, R166). -/

/-- Stop pending at the sequencer: 0 none, 1 pausing after a huddle word (R64), 2 `END` issued (R66). -/
def Core.STOPPING : Fld := ⟨0x1100000, 0, 2, 0, .int⟩
/-- The huddle line, plus one, on which an arrive-and-wait has signalled and waits; 0 none (R47). -/
def Core.WAITLINE : Fld := ⟨0x1100000, 2, 5, 0, .int⟩
/-- The next word would lie beyond word 2,047 (R63). -/
def Core.PAST : Fld := ⟨0x1100000, 7, 1, 0, .int⟩
/-- A `CONTINUE` lets the word at BREAK_ADDR issue (R68). -/
def Core.BRK_PASS : Fld := ⟨0x1100000, 8, 1, 0, .int⟩
/-- A `STEP` is under way: after the next issue the core returns to `BREAK` (R68). -/
def Core.STEPPING : Fld := ⟨0x1100000, 9, 1, 0, .int⟩
/-- The queue port, plus one, that the unmet queue wait or queue-port operation names; 0 none (R199). -/
def Core.WAITPORT : Fld := ⟨0x1100000, 10, 11, 0, .int⟩
/-- Arrival state of a huddle line: 0 NONE, 1 OUTSTANDING, 2 COMPLETED (R47). -/
def Core.HUDDLE (n : Nat) : Fld := ⟨0x1100008, 2 * n, 2, 0, .int⟩
/-- The iteration count a loop was opened with (R67). -/
def Core.LOOPCOUNT (n : Nat) : Fld := ⟨0x1100010 + 8 * n, 0, 24, 0, .int⟩
/-- Working source address of a move descriptor (R54). -/
def Core.MOVE_SRC (n : Nat) : Fld := ⟨0x1100040 + 8 * n, 0, 20, 0, .int⟩
/-- Working destination address of a move descriptor (R54). -/
def Core.MOVE_DST (n : Nat) : Fld := ⟨0x1100040 + 8 * n, 20, 20, 0, .int⟩
/-- Move channel: beats are still to be read (R55, R67). -/
def Core.CH_BUSY (n : Nat) : Fld := ⟨0x1100140 + 32 * n, 0, 1, 0, .int⟩
/-- Move channel: held at a beat boundary by a pause (R64). -/
def Core.CH_SUSP (n : Nat) : Fld := ⟨0x1100140 + 32 * n, 1, 1, 0, .int⟩
/-- Move channel: descriptor of the move. -/
def Core.CH_DESC (n : Nat) : Fld := ⟨0x1100140 + 32 * n, 2, 5, 0, .int⟩
/-- Move channel: counter named by the `START`. -/
def Core.CH_COUNTER (n : Nat) : Fld := ⟨0x1100140 + 32 * n, 7, 4, 0, .int⟩
/-- Move channel: COUNT_EN of the `START`. -/
def Core.CH_COUNT_EN (n : Nat) : Fld := ⟨0x1100140 + 32 * n, 11, 1, 0, .int⟩
/-- Move channel: operand-buffer halves being filled, A0 A1 B0 B1 (R102). -/
def Core.CH_FILL (n : Nat) : Fld := ⟨0x1100140 + 32 * n, 12, 4, 0, .int⟩
/-- Move channel: beat within the row of the next beat to read. -/
def Core.CH_BEAT (n : Nat) : Fld := ⟨0x1100148 + 32 * n, 0, 12, 0, .int⟩
/-- Move channel: rows left, the present one included. -/
def Core.CH_ROWS (n : Nat) : Fld := ⟨0x1100148 + 32 * n, 12, 16, 0, .int⟩
/-- Move channel: source address of the next beat. -/
def Core.CH_SRC (n : Nat) : Fld := ⟨0x1100150 + 32 * n, 0, 20, 0, .int⟩
/-- Move channel: destination address of the next beat. -/
def Core.CH_DST (n : Nat) : Fld := ⟨0x1100150 + 32 * n, 20, 20, 0, .int⟩
/-- Move channel: word address of the `START`, which a port collision names (R151). -/
def Core.CH_WORD (n : Nat) : Fld := ⟨0x1100158 + 32 * n, 0, 11, 0, .int⟩
/-- Move channel: the issue count at the `START`, which orders moves (R151). -/
def Core.CH_ORDER (n : Nat) : Fld := ⟨0x1100158 + 32 * n, 11, 48, 0, .int⟩
/-- Operand-buffer halves the occupying `MAC` drains, A0 A1 B0 B1 (R102). -/
def Core.MX_DRAIN : Fld := ⟨0x1100180, 0, 4, 0, .int⟩
/-- Index of the oldest entry of the finished-tile queue (R116). -/
def Core.FTQ_HEAD : Fld := ⟨0x1100180, 4, 3, 0, .int⟩
/-- Corrected errors since the last notice, per memory (R166). -/
def Core.CE_SINCE (mem : Nat) : Fld := ⟨0x1100188 + 8 * mem, 0, 32, 0, .int⟩

/-- Fetch thread: registers whose PENDING bit is set (R217). -/
def Thread.PENDING (t : Nat) : Fld := ⟨0x1100400 + 8 * t, 0, 16, 0, .int⟩
/-- Fetch unit: the last tag given to a request. -/
def Core.FT_TAG : Fld := ⟨0x1100600, 0, 16, 0, .int⟩
/-- Why the fetch threads are stopped: 0 not, 1 a pause, 2 a whistle (R224). -/
def Core.FT_STOP : Fld := ⟨0x1100600, 16, 2, 0, .int⟩

/-- The panel's own number, and whether it is set (R240, R304): the copies of every link die agree. -/
def Panel.NUMBER : Fld := ⟨0x1300000, 0, 12, 0, .int⟩
def Panel.NUMBER_SET : Fld := ⟨0x1300000, 12, 1, 0, .int⟩
/-- The captain of the panel's team, and whether it is set. -/
def Panel.CAPTAIN : Fld := ⟨0x1300000, 13, 12, 0, .int⟩
def Panel.CAPTAIN_SET : Fld := ⟨0x1300000, 25, 1, 0, .int⟩

/-- The logical die a site carries, from the roster (R18, R377). -/
def State.ldieOf (s : State) (site : Nat) : Option Nat :=
  (List.range 144).find? fun d =>
    s.flag panelSite (Reg.CTL_ROSTER_LDIE.PLACED d) && s.get panelSite (Reg.CTL_ROSTER_LDIE.SITE d) == site
/-- The site that carries a logical die in the routers' table (R20). -/
def State.siteOf (s : State) (ldie : Nat) : Nat := s.get panelSite (Reg.MESH_L2S.SITE ldie)
/-- The logical core number of a core (R23). -/
def State.logicalCore (s : State) (c : CoreRef) : Nat := (s.ldieOf c.site).getD 0 * 48 + c.core
/-- The core with a logical number (R23). -/
def State.coreOf (s : State) (n : Nat) : CoreRef := ⟨s.siteOf (n / 48), n % 48⟩

/-! ### Notices (R478–R480) -/

/-- The last record of the die was dropped, so the next one buffered carries LOSS (R479). -/
def Die.LOSS : Fld := ⟨0x1000110, 0, 1, 0, .int⟩

/-- Class and whether a squad is named are the caller's; the raising die buffers the record (R479). -/
def State.raise (s : State) (n : Notice) : State :=
  let s1 := s.bump n.site Reg.DIE_NOTICE.RAISED
  if 16 ≤ s1.get n.site Reg.DIE_NOTICE.BUFFERED then
    (s1.bump n.site Reg.DIE_NOTICE.LOST).putFlag n.site Die.LOSS true
  else
    let s2 := (s1.put n.site Reg.DIE_NOTICE.BUFFERED (s1.get n.site Reg.DIE_NOTICE.BUFFERED + 1)).putFlag n.site Die.LOSS false
    { s2 with noticeBuf := s2.noticeBuf ++ [{ n with loss := s1.flag n.site Die.LOSS, time := s1.get n.site Reg.CLK_PT.TIME }] }

/-- A notice of a die: its squad is named where the die belongs to one (R487). -/
def State.notify (s : State) (site unit typ cls arg0 arg1 : Nat) : State :=
  s.raise { typ := typ, cls := cls, loss := false, time := 0, site := site, unit := unit,
            squad := if s.flag site Reg.DIE_SIDEBAND.MEMBER then s.get site Reg.DIE_SIDEBAND.SQUAD else 0,
            squadValid := s.flag site Reg.DIE_SIDEBAND.MEMBER, arg0 := arg0, arg1 := arg1 }

/-- `RESET_N` is released. -/
def Boot.RELEASED : Fld := ⟨0x1500100, 0, 1, 0, .int⟩
/-- While `RESET_N` is asserted, `HALT_N`, `FLOW_OK` and every `PWRGOOD` are ignored (R494). -/
def State.ifReleased (s t : State) : State := if s.flag panelSite Boot.RELEASED then t else s

/-- The site of the active control die (R24, R441). -/
def State.controlSite (s : State) : Nat := siteOfControl (s.get panelSite Reg.CTL_BOOT.ACTIVE)

/-- A notice the control die raises (R478), naming a squad or none. -/
def State.notifyCtl (s : State) (typ cls : Nat) (squad : Option Nat) (arg0 arg1 : Nat) : State :=
  s.raise { typ := typ, cls := cls, loss := false, time := 0, site := s.controlSite, unit := 63,
            squad := squad.getD 0, squadValid := squad.isSome, arg0 := arg0, arg1 := arg1 }

/-! ### Sideband lines (R335–R337) -/

/-- States of a squad (R329). -/
def Squad.IDLE : Nat := 0
def Squad.LOADED : Nat := 1
def Squad.RUNNING : Nat := 2
def Squad.PAUSED : Nat := 3
def Squad.STOPPED : Nat := 4
def Squad.SCRUBBED : Nat := 5

/-- The squads a line stops: its own, or every one for WP (R335, R339). -/
def squadsOfLine (line : Nat) : List Nat := if line = 16 then List.range 16 else [line]

/-- The line of a squad was driven: its cause and source are kept if none is (R337, R341). -/
def State.noteCause (s : State) (n cause source site : Nat) : State :=
  if (s.get panelSite (Reg.SQD_STATUS.STATE n) = Squad.RUNNING ∨ s.get panelSite (Reg.SQD_STATUS.STATE n) = Squad.LOADED)
      ∧ s.get panelSite (Reg.SQD_STATUS.CAUSE n) = 0 then
    ((s.put panelSite (Reg.SQD_STATUS.CAUSE n) cause).put panelSite (Reg.SQD_STATUS.SOURCE n) source).put panelSite
      (Reg.SQD_STATUS.SITE n) (if source = 1 then site else 0)
  else s

/-- Set a bit of a mask field. -/
def State.setBit (s : State) (site : Nat) (f : Fld) (i : Nat) : State := s.put site f (s.get site f ||| 2 ^ i)
/-- Clear a bit of a mask field. -/
def State.clrBit (s : State) (site : Nat) (f : Fld) (i : Nat) : State :=
  if (s.get site f).testBit i then s.put site f (s.get site f - 2 ^ i) else s

/-- Drive a whistle line: the level rises and the squads concerned keep the cause and source of the first drive (R335, R337). -/
def State.driveLine (s : State) (line cause source site : Nat) : State :=
  (squadsOfLine line).foldl (fun s n => s.noteCause n cause source site) (s.setBit panelSite Reg.SQD_LINES.WHISTLE line)

/-- A die drives its squad's line (R335); a die of no squad drives none. -/
def State.whistle (s : State) (site cause : Nat) : State :=
  if s.flag site Reg.DIE_SIDEBAND.MEMBER then s.driveLine (s.get site Reg.DIE_SIDEBAND.SQUAD) cause 1 site else s

/-- The lines a die obeys: its squad's, and WP for every compute die (R336). -/
def State.obey (s : State) (site : Nat) : Nat :=
  s.get site Reg.DIE_SIDEBAND.OBEY ||| (if isCompute site then 2 ^ 16 else 0)

/-- Causes of SQD_STATUSn. -/
def Cause.COMPLETE : Nat := 1
def Cause.STOP : Nat := 2
def Cause.SHOT_CLOCK : Nat := 3
def Cause.POISON : Nat := 4
def Cause.SCHED_FAULT : Nat := 5
def Cause.FETCH_FAULT : Nat := 6
def Cause.QUEUE : Nat := 7
def Cause.PANEL : Nat := 8
def Cause.HALT_N : Nat := 9
def Cause.FORCE : Nat := 10
def Cause.ROSTER : Nat := 11

/-- A poison event in a core (R60, R61): a notice, the mark in the status register, and the squad's policy. -/
def State.poisonEvent (s : State) (c : CoreRef) (mem word : Nat) : State :=
  let s1 := (s.notify c.site c.core 0x0101 3 mem word).cset c Reg.CORE_SCHED_STATUS.POISON_SEEN true
  match s1.cget c Reg.CORE_POISON_CTL.POLICY with
  | 0 => s1.whistle c.site Cause.POISON
  | 1 => s1.cset c Reg.CORE_POISON_CTL.HALT_PENDING true
  | _ => s1

/-! ### Memories of a compute die -/

/-- Memories, coded as MEM of CORE_MEM_ERR_LOG (R169). -/
def Mem.SP : Nat := 0
def Mem.OPA : Nat := 1
def Mem.OPB : Nat := 2
def Mem.TILE : Nat := 3
def Mem.ACC : Nat := 4
def Mem.FTQ : Nat := 5
def Mem.SCHED : Nat := 6
def Mem.FETCH : Nat := 7
def Mem.DESC : Nat := 8
def Mem.CLUSTER : Nat := 9
def Mem.POOL : Nat := 10

/-- Where byte `off` of a memory stands; unit 0-47 is a core, 48 and 49 the clusters. Every memory starts at a multiple of 2^25. -/
def sramKey (site unit mem off : Nat) : Nat := ((site * 64 + unit) * 16 + mem) * 2 ^ 25 + off
/-- A byte of one of a core's memories. -/
def coreKey (c : CoreRef) (mem off : Nat) : Nat := sramKey c.site c.core mem off
/-- A byte of one of a cluster's memories. -/
def cluKey (q : CluRef) (mem off : Nat) : Nat := sramKey q.site (48 + q.clu) mem off
/-- The memory a key lies in. -/
def keyMem (k : Nat) : Nat := k / 2 ^ 25 % 16
/-- The unit a key lies in. -/
def keyUnit (k : Nat) : Nat := k / 2 ^ 29 % 64
/-- The site a key lies in. -/
def keySite (k : Nat) : Nat := k / 2 ^ 35
/-- The 8-byte word index of a key within its memory (R169). -/
def keyWord (k : Nat) : Nat := k % 2 ^ 25 / 8

/-- Bytes as stored. -/
def State.rd (s : State) (k n : Nat) : List Byte := mapRead 0 s.sram k n
/-- A little-endian number as stored. -/
def State.rdNat (s : State) (k n : Nat) : Nat := leNat (s.rd k n)

/-- An 8-byte word reads uncorrectable: two bit errors, or any bit error on a word stored with poison (R164). -/
def State.wordBad (s : State) (w : Nat) : Bool :=
  mapGet 0 s.sramUpset w ≥ 2 || (mapGet 0 s.sramUpset w = 1 && mapGet 0 s.sramPoison w = 1)
/-- A read delivers the word with poison (R164). -/
def State.wordPoison (s : State) (w : Nat) : Bool := mapGet 0 s.sramPoison w = 1 || s.wordBad w
/-- Whether any byte of a range is delivered with poison (R165). -/
def State.rangePoison (s : State) (k n : Nat) : Bool :=
  n ≠ 0 && (!(mapRange (k / 8) ((k + n - 1) / 8 + 1) s.sramPoison).isEmpty
    || (mapRange (k / 8) ((k + n - 1) / 8 + 1) s.sramUpset).any (fun e => s.wordBad e.1))
/-- The poison mark of each byte of a range (R165). -/
def State.bytePoison (s : State) (k n : Nat) : List Bool := (List.range n).map fun i => s.wordPoison ((k + i) / 8)
/-- Bytes with their poison marks. -/
def State.rdP (s : State) (k n : Nat) : List (Byte × Bool) := (s.rd k n).zip (s.bytePoison k n)

/-- The poison mark of a word after a write of the bytes from key k on (R165). -/
def markAfter (s : State) (k : Nat) (ps : List Bool) (w : Nat) : Nat :=
  let lo := max k (8 * w)
  let hi := min (k + ps.length) (8 * w + 8)
  let touched := (ps.drop (lo - k)).take (hi - lo)
  if touched.any id || (hi - lo < 8 && s.wordPoison w) then 1 else 0

/-- Write bytes with their poison marks: a word wholly covered takes the new mark, a merged word that is poisoned or reads
uncorrectable stays poisoned, and the words written carry valid check bits again (R153, R165). -/
def State.wrP (s : State) (k : Nat) (bs : List (Byte × Bool)) : State :=
  if bs.isEmpty then s
  else
    let ps := bs.map (·.2)
    let w0 := k / 8
    let n := (k + bs.length - 1) / 8 + 1 - w0
    { s with
      sram := mapWrite 0 s.sram k (bs.map (·.1))
      sramPoison := mapWrite 0 s.sramPoison w0 ((List.range n).map fun i => markAfter s k ps (w0 + i))
      sramUpset := mapClear w0 (w0 + n) s.sramUpset }

/-- Write bytes without poison. -/
def State.wr (s : State) (k : Nat) (bs : List Byte) : State := s.wrP k (bs.map fun b => (b, false))

/-- Set a range of bytes to zero, with no poison and valid check bits (R168). -/
def State.clearSram (s : State) (lo hi : Nat) : State :=
  { s with sram := mapClear lo hi s.sram, sramPoison := mapClear (lo / 8) (hi / 8) s.sramPoison,
           sramUpset := mapClear (lo / 8) (hi / 8) s.sramUpset }

/-- The count of CORE_MEM_CE or CLU_MEM_CE that a memory's corrected errors go to (R169, R170). -/
def ceField (mem : Nat) : Fld :=
  if mem = Mem.SP then Reg.CORE_MEM_CE.SP
  else if mem = Mem.OPA ∨ mem = Mem.OPB then Reg.CORE_MEM_CE.OPERAND
  else if mem = Mem.TILE ∨ mem = Mem.FTQ then Reg.CORE_MEM_CE.TILE
  else if mem = Mem.CLUSTER then Reg.CLU_MEM_CE.CLUSTER
  else if mem = Mem.POOL then Reg.CLU_MEM_CE.QUEUE_POOL
  else Reg.CORE_MEM_CE.OTHER

/-- Capture an error in a log (R169): the first after VALID is cleared; an uncorrectable one replaces a corrected one. The syndrome
is 0xFF for poison and otherwise a free value: the spec gives the code's properties and not the code. -/
def State.logMem (s : State) (core : Bool) (site unit mem word kind syndrome : Nat) : State :=
  let g (f g : Fld) : Fld := if core then f.nth unit else g.nth (unit - 48)
  let valid := g Reg.CORE_MEM_ERR_LOG.VALID Reg.CLU_MEM_ERR_LOG.VALID
  let kindF := g Reg.CORE_MEM_ERR_LOG.KIND Reg.CLU_MEM_ERR_LOG.KIND
  if s.flag site valid ∧ ¬ (kind = 2 ∧ s.get site kindF = 1) then s
  else
    ((((s.putFlag site valid true).put site kindF kind).put site (g Reg.CORE_MEM_ERR_LOG.MEM Reg.CLU_MEM_ERR_LOG.MEM) mem).put site
      (g Reg.CORE_MEM_ERR_LOG.WORD Reg.CLU_MEM_ERR_LOG.WORD) word).put site
      (g Reg.CORE_MEM_ERR_LOG.SYNDROME Reg.CLU_MEM_ERR_LOG.SYNDROME) syndrome

/-- A free value of a register: the next one of the stream that Config leaves open. -/
def State.free (s : State) : Nat × State := (Config.freeValue s.fresh, { s with fresh := s.fresh + 1 })

/-- The memory of a core with the most corrected errors since the last notice (R166). -/
def State.worstMem (s : State) (c : CoreRef) : Nat :=
  (List.range 9).foldl (fun b m => if s.cget c (Core.CE_SINCE b) < s.cget c (Core.CE_SINCE m) then m else b) 0

/-- A core's read corrected an error: counts, log and the MEM_CORRECTED notice at the threshold (R166). -/
def State.coreCorrected (s : State) (c : CoreRef) (mem : Nat) : State :=
  let s1 := (s.cbump c (ceField mem)).cbump c (Core.CE_SINCE mem)
  let total := (List.range 9).foldl (fun t m => t + s1.cget c (Core.CE_SINCE m)) 0
  let thr := s1.cget c Reg.CORE_MEM_CE_CTL.THRESHOLD
  if thr ≠ 0 ∧ thr ≤ total then
    (List.range 9).foldl (fun s m => s.cput c (Core.CE_SINCE m) 0)
      (s1.notify c.site c.core 0x0103 1 (s1.worstMem c) total)
  else s1

/-- What the check bits of one word do at a read (R164, R166): a corrected error is counted and logged, an uncorrectable one logged. -/
def State.checkWord (s : State) (w : Nat) : State :=
  let k := 8 * w
  let unit := keyUnit k
  let core := unit < 48
  if s.wordBad w then
    let (syn, s0) := s.free
    s0.logMem core (keySite k) unit (keyMem k) (keyWord k) 2 syn
  else if mapGet 0 s.sramUpset w = 1 then
    let (syn, s0) := s.free
    let s1 := s0.logMem core (keySite k) unit (keyMem k) (keyWord k) 1 syn
    if core then s1.coreCorrected ⟨keySite k, unit⟩ (keyMem k)
    else s1.bump (keySite k) ((ceField (keyMem k)).nth (unit - 48))
  else s

/-- The 8-byte words a range touches that satisfy a test, from the marks a map lists. -/
def wordsIn (m : SMap Nat) (k n : Nat) : List Nat :=
  if n = 0 then [] else (mapRange (k / 8) ((k + n - 1) / 8 + 1) m).map (·.1)

/-- The check bits of every word of a range at a read. -/
def State.checkRange (s : State) (k n : Nat) : State := (wordsIn s.sramUpset k n).foldl State.checkWord s

/-- The first word of a range that reads uncorrectable. -/
def State.firstBad (s : State) (k n : Nat) : Option Nat := (wordsIn s.sramUpset k n).find? s.wordBad

/-- The first word of a range that is delivered with poison. -/
def State.firstPoison (s : State) (k n : Nat) : Option Nat :=
  match (wordsIn s.sramPoison k n).head?, s.firstBad k n with
  | some a, some b => some (min a b)
  | some a, none => some a
  | none, b => b

/-- A core's engine reads a range as an operand: check bits, and one poison event if any of it is delivered with poison (R60). -/
def State.operandRead (s : State) (c : CoreRef) (k n : Nat) : State :=
  match s.firstPoison k n with
  | some w => (s.checkRange k n).poisonEvent c (keyMem (8 * w)) (keyWord (8 * w))
  | none => s.checkRange k n

/-- A core's read path copies a range, or reads it for the engine's own use: check bits, and a poison event only if a word reads
uncorrectable (R60). -/
def State.pathRead (s : State) (c : CoreRef) (k n : Nat) : State :=
  match s.firstBad k n with
  | some w => (s.checkRange k n).poisonEvent c (keyMem (8 * w)) (keyWord (8 * w))
  | none => s.checkRange k n

/-- A core's engine writes poison: a capture of kind 3 (R169). -/
def State.logPoisonWrite (s : State) (c : CoreRef) (k : Nat) : State :=
  s.logMem true c.site c.core (keyMem k) (keyWord k) 3 0xFF

/-- Write a core engine's results with their poison, and capture the first poisoned word (R169). -/
def State.engineWrite (s : State) (c : CoreRef) (k : Nat) (bs : List (Byte × Bool)) : State :=
  let s1 := s.wrP k bs
  match bs.findIdx? (·.2) with
  | some i => s1.logPoisonWrite c (k + i)
  | none => s1

/-! ### Operations of the engines that are under way -/

/-- The core whose engine makes a use. -/
def EngineUse.owner (u : EngineUse) : CoreRef := ⟨u.site, u.core⟩

/-- Uses that an operation issuing now makes, each `n` cycles after its issue cycle. -/
def State.usesAt (s : State) (c : CoreRef) (us : List (Nat × Flight)) : List EngineUse :=
  us.map fun u => ⟨c.site, c.core, u.1, u.2, s.cget c Reg.CORE_SCHED_STATUS.ADDR, s.cget c Reg.CORE_ISSUE_COUNT.COUNT⟩

/-- An operation issues: its uses follow. -/
def State.addFlights (s : State) (c : CoreRef) (us : List (Nat × Flight)) : State := { s with flights := s.flights ++ s.usesAt c us }

/-- How many uses of a kind a core's operations still have before them. -/
def State.inFlight (s : State) (c : CoreRef) (k : Flight) : Nat := (s.flights.filter fun u => u.owner == c && u.what == k).length

/-- A use of core `c` comes one non-slip cycle nearer. -/
def EngineUse.age (u : EngineUse) (c : CoreRef) : EngineUse := if u.owner = c then { u with left := u.left - 1 } else u

/-- The predicates whose write by the vector engine falls into this cycle (R138). -/
def State.predsDue (s : State) (c : CoreRef) : List (Nat × Bool) :=
  s.flights.filterMap fun u => match u.what with
    | .pred p v => if u.owner = c ∧ u.left = 0 then some (p, v) else none
    | _ => none

/-- The uses of one cycle are over; predicates that fall into it are written. -/
def State.ageFlights (s : State) (c : CoreRef) : State :=
  (s.predsDue c).foldl (fun (s : State) p => s.cset c (Reg.CORE_PRED.P p.1) p.2)
    { s with flights := (s.flights.filter fun u => !(u.owner == c && u.left == 0)).map fun u => u.age c }

/-- Every use of a core's operations is over, and every predicate written (R64, R66). -/
def State.endFlights (s : State) (c : CoreRef) : State :=
  (s.flights.filter fun u => u.owner == c).foldl (fun (s : State) u => match u.what with
    | .pred p v => s.cset c (Reg.CORE_PRED.P p) v
    | _ => s) { s with flights := s.flights.filter fun u => u.owner != c }

/-! ### Schedule faults and completion counters -/

/-- A schedule fault (R63): the core issues nothing more, a notice names the word and the code, and the die whistles its squad. A core
that has faulted or is halted reports no further fault. -/
def State.schedFault (s : State) (c : CoreRef) (code addr : Nat) : State :=
  if s.cget c Reg.CORE_SCHED_STATUS.STATE = 6 ∨ s.cget c Reg.CORE_SCHED_STATUS.STATE = 5 then s else
  let s1 := (((s.cput c Reg.CORE_SCHED_STATUS.STATE 6).cput c Reg.CORE_SCHED_STATUS.SLIP_CAUSE 0).cput c
    Reg.CORE_SCHED_STATUS.FAULT_CODE code).cput c Reg.CORE_SCHED_STATUS.ADDR addr
  (s1.notify c.site c.core 0x0102 3 code addr).whistle c.site Cause.SCHED_FAULT

/-- Add to a completion counter (R42, R43); beyond the maximum it holds, is marked, and the core faults. -/
def State.addCounter (s : State) (c : CoreRef) (n amount : Nat) : State :=
  let v := s.cget c (Reg.CORE_CCOUNT.VALUE n) + amount
  if v ≤ 0xFFFFFF then s.cput c (Reg.CORE_CCOUNT.VALUE n) v
  else
    ((s.cput c (Reg.CORE_CCOUNT.VALUE n) 0xFFFFFF).cset c (Reg.CORE_CCOUNT.SATURATED n) true).schedFault c 0x08
      (s.cget c Reg.CORE_SCHED_STATUS.ADDR)

/-- A counter bound to an enabled inbox ring of the core (R161). -/
def State.ringCounter (s : State) (c : CoreRef) (n : Nat) : Bool :=
  (List.range 8).any fun r => s.cflag c (Reg.CORE_INBOX_DESC.EN r) && s.cget c (Reg.CORE_INBOX_DESC.COUNTER r) == n

end Sys2Proof.Machine
end

