-- ==== Sys2Proof/Machine/Matrix.lean ====
section
/-! DEFINITION. The matrix engine (04_matrix_engine): operand records, exact group accumulation, slots, wide buffers and the
finished-tile queue. The functions take the 64 bits of the matrix slot as a number. -/

namespace Sys2Proof.Machine

/-- Rows of A of a shape (R91). -/
def shapeM (sh : Nat) : Nat := if sh = 1 then 32 else if sh = 2 then 16 else 8
/-- Columns of B of a shape (R91). -/
def shapeN (sh : Nat) : Nat := if sh = 1 then 64 else if sh = 2 then 128 else 256
/-- Bytes of 32 elements (R95). -/
def groupBytes (f : Fmt) : Nat := f.bits * 4
/-- Record size in 64-byte units for `lines` rows or columns (R95, R96): elements, side data, padding to 64 bytes. -/
def recordUnits (f : Fmt) (lines : Nat) : Nat := (lines * (groupBytes f + f.sideBytes) + 63) / 64

/-- Cycles one group occupies for a permitted pair (R93). -/
def pairCycles (a b : Fmt) : Option Nat :=
  if ¬ (a.matrix ∧ b.matrix) then none
  else if a.bits = 16 ∧ b.bits = 16 then some 64
  else if a.bits = 16 ∨ b.bits = 16 then none
  else if a.bits = 4 ∧ b.bits = 4 then some 16
  else some 32

/-- The fields of the matrix slot (R98). -/
structure MxSlot where
  op : Nat
  shape : Nat
  slot : Nat
  init : Bool
  merge : Bool
  wide : Nat
  tag : Nat
  afmt : Nat
  bfmt : Nat
  aaddr : Nat
  baddr : Nat
  kg : Nat

/-- Reading the fields of a matrix slot (R98). -/
def mxSlot (v : Nat) : MxSlot :=
  { op := bitsOf v 9 6, shape := bitsOf v 11 10, slot := bitsOf v 17 12, init := v.testBit 18, merge := v.testBit 19,
    wide := bitsOf v 26 20, tag := bitsOf v 32 27, afmt := bitsOf v 23 19, bfmt := bitsOf v 28 24,
    aaddr := bitsOf v 38 29, baddr := bitsOf v 49 39, kg := bitsOf v 52 50 }

/-- A non-zero bit of a word outside a mask. -/
def extraBits (v mask : Nat) : Bool := (v &&& mask) != v

/-- Bits an operation may use, guard and operation included (R98). -/
def mxMask (op : Nat) : Nat :=
  match op with
  | 0 => 0x3FF
  | 1 => 2 ^ 53 - 1
  | 2 => 2 ^ 33 - 1 - 0xC00
  | 3 => 2 ^ 27 - 1 - 0xC00 - 0x80000
  | 4 => 2 ^ 18 - 1
  | _ => 0

/-- The half of an operand buffer that units lo..hi-1 lie in, if they lie in one (R94, R97). -/
def halfOf (size lo hi : Nat) : Option Nat :=
  if lo < size / 2 then (if hi ≤ size / 2 then some 0 else none) else (if hi ≤ size then some 1 else none)

/-- The halves a `MAC` reads, as a mask A0 A1 B0 B1 (R97, R102). -/
def macHalves (m : MxSlot) (a b : Fmt) : Option Nat :=
  match halfOf 1024 m.aaddr (m.aaddr + (m.kg + 1) * recordUnits a (shapeM m.shape)),
        halfOf 2048 m.baddr (m.baddr + (m.kg + 1) * recordUnits b (shapeN m.shape)) with
  | some ha, some hb => some (2 ^ ha + 2 ^ (2 + hb))
  | _, _ => none

/-- Faults the slot's own bits decide (R63, R69, R117): checked whatever the guard. -/
def mxStatic (v : Nat) : List Nat :=
  let m := mxSlot v
  if v = 0 then []
  else if 4 < m.op ∨ extraBits v (mxMask m.op) then [0x10]
  else
    (if (m.op = 1 ∨ m.op = 4) ∧ m.shape = 0 then [0x10] else [])
      ++ (if m.op = 2 ∧ !m.merge ∧ m.wide ≠ 0 then [0x10] else [])
      ++ (if m.op = 1 ∧ ((Fmt.ofCode m.afmt).isNone ∨ (Fmt.ofCode m.bfmt).isNone) then [0x01] else [])

/-- The SHAPE of a slot. -/
def State.slotShape (s : State) (c : CoreRef) (slot : Nat) : Nat := s.cget c (Reg.CORE_MX_SLOT_SHAPE.SHAPE slot)

/-- Operand-buffer halves being filled (R102): from the issue of a `START` until its last beat is written. -/
def State.filling (s : State) (c : CoreRef) : Nat :=
  let ch (n : Nat) : Nat := if s.cflag c (Core.CH_BUSY n) then s.cget c (Core.CH_FILL n) else 0
  s.beats.foldl (fun m b => if b.site = c.site ∧ b.core = c.core then m ||| b.fill else m) (ch 0 ||| ch 1)

/-- Faults that depend on the core's state (R117): checked where the guard is true. -/
def mxDynamic (s : State) (c : CoreRef) (v : Nat) : List Nat :=
  let m := mxSlot v
  if m.op = 0 then []
  else
    (if s.cget c Reg.CORE_MX_STATUS.OCC_LEFT ≠ 0 then [0x12] else [])
      ++ (if m.op = 1 then
            match Fmt.ofCode m.afmt, Fmt.ofCode m.bfmt with
            | some a, some b =>
              (match pairCycles a b with
                | none => [0x11]
                | some cyc => if 128 < (m.kg + 1) * cyc then [0x14] else [])
                ++ (match macHalves m a b with
                  | none => [0x14]
                  | some h =>
                    if (s.filling c &&& h) ≠ 0 then [0x15] else [])
                ++ (if !m.init ∧ (s.slotShape c m.slot = 0 ∨ s.slotShape c m.slot ≠ m.shape) then [0x13] else [])
            | _, _ => []
          else [])
      ++ (if (m.op = 2 ∨ m.op = 3) ∧ s.slotShape c m.slot = 0 then [0x13] else [])
      ++ (if m.op = 2 ∧ 8 ≤ s.cget c Reg.CORE_MX_STATUS.FTQ_COUNT + s.inFlight c .ftqPlace then [0x16] else [])
      ++ (if ((m.op = 2 ∧ m.merge) ∨ m.op = 3) ∧ 95 < m.wide then [0x17] else [])

/-- Status bits an operation may set (R118). -/
structure MxFlags where
  overflow : Bool := false
  invalid : Bool := false
  nanInput : Bool := false
  deriving DecidableEq, Repr

/-- Both reports together. -/
def MxFlags.or (a b : MxFlags) : MxFlags := ⟨a.overflow || b.overflow, a.invalid || b.invalid, a.nanInput || b.nanInput⟩

/-- One row of A or column of B of a group: the unscaled element values and the scale (R104, R106). -/
structure OpLine where
  vals : List FVal
  scale : Int
  nanScale : Bool
  malformed : Bool

/-- Read row or column i of a record held as bytes (R95, R104, R105): element block first, then the side block. -/
def opLine (f : Fmt) (lines : Nat) (rec : List Byte) (i : Nat) : OpLine :=
  let e := groupBytes f
  let codes := unpackCodes f.bits 32 (leNat ((rec.drop (i * e)).take e))
  let side := leNat ((rec.drop (lines * e + i * f.sideBytes)).take f.sideBytes)
  if f = .zb4 then
    let z := zbSide side
    { vals := (List.range 32).map fun k =>
        let code := codes.getD k 0
        if z.valid0 ∧ z.idx0 = k then ffE4M3.decode (z.hi0 * 16 + code)
        else if z.valid1 ∧ z.idx1 = k then ffE4M3.decode (z.hi1 * 16 + code)
        else ffE2M1.decode code
      scale := scaleExp z.scale, nanScale := z.scale == 0xFF, malformed := z.malformed }
  else if f.block then
    { vals := codes.map f.elem.decode, scale := scaleExp side, nanScale := side == 0xFF, malformed := false }
  else { vals := codes.map f.elem.decode, scale := 0, nanScale := false, malformed := false }

/-- All lines of a record. -/
def opLines (f : Fmt) (lines : Nat) (rec : List Byte) : List OpLine := (List.range lines).map (opLine f lines rec)

/-- The result of one group for one output element (R106), as FP32. -/
def groupResult (a b : OpLine) : FVal × MxFlags :=
  if a.nanScale ∨ b.nanScale ∨ a.vals.any FVal.isNan ∨ b.vals.any FVal.isNan then (.nan, { nanInput := true })
  else
    let ps := (a.vals.zip b.vals).map fun p => p.1.mul p.2
    if ps.any FVal.isNan ∨ (ps.contains (.inf false) ∧ ps.contains (.inf true)) then (.nan, { invalid := true })
    else if ps.contains (.inf false) then (.inf false, {})
    else if ps.contains (.inf true) then (.inf true, {})
    else
      let sum := ps.foldl FVal.add (.fin false 0 0)
      if sum.isZero then (.fin false 0 0, {})
      else
        let v := sum.scale (a.scale + b.scale)
        (ofFP32 (toFP32 v), { overflow := overflowsFP32 v })

/-- A binary32 operation's exact result rounded to nearest even, with the status bits it sets (R107): INVALID for a NaN from non-NaN
inputs, OVERFLOW for a finite result beyond the range. -/
def round32 (nanIn : Bool) (v : FVal) : FVal × MxFlags :=
  (ofFP32 (toFP32 v), { overflow := overflowsFP32 v, invalid := v.isNan && !nanIn })

/-- One binary32 addition (R107). -/
def add32 (a b : FVal) : FVal × MxFlags := round32 (a.isNan || b.isNan) (a.add b)
/-- One binary32 multiplication (R108). -/
def mul32 (a b : FVal) : FVal × MxFlags := round32 (a.isNan || b.isNan) (a.mul b)

/-- A tree sum of 8 products (R108). -/
def tree8 (ps : List (FVal × MxFlags)) : FVal × MxFlags :=
  let g (i : Nat) := ps.getD i (.fin false 0 0, {})
  let plus (x y : FVal × MxFlags) : FVal × MxFlags := let r := add32 x.1 y.1; (r.1, (x.2.or y.2).or r.2)
  plus (plus (plus (g 0) (g 1)) (plus (g 2) (g 3))) (plus (plus (g 4) (g 5)) (plus (g 6) (g 7)))

/-- What one group adds to an accumulator, in order: the group result, or the four trees of a 16-bit pair (R107–R109). -/
def groupTerms (wide16 : Bool) (a b : OpLine) : List (FVal × MxFlags) :=
  if wide16 then
    let nanIn : MxFlags := { nanInput := a.vals.any FVal.isNan || b.vals.any FVal.isNan }
    let ps := (a.vals.zip b.vals).map fun p => mul32 p.1 p.2
    (List.range 4).map fun t => let r := tree8 ((ps.drop (8 * t)).take 8); (r.1, r.2.or nanIn)
  else [groupResult a b]

/-- Add the terms of one group into an accumulator. -/
def accumulate (acc : FVal) (ts : List (FVal × MxFlags)) : FVal × MxFlags :=
  ts.foldl (fun a t => let r := add32 a.1 t.1; (r.1, (a.2.or t.2).or r.2)) (acc, {})

/-- Byte of accumulator 0 of a slot (R110). -/
def slotKey (c : CoreRef) (slot : Nat) : Nat := coreKey c Mem.ACC (slot * 8192)
/-- The 2,048 accumulators of a slot, as FP32 bits. -/
def State.slotBits (s : State) (c : CoreRef) (slot : Nat) : List Nat := unpackCodes 32 2048 (s.rdNat (slotKey c slot) 8192)
/-- Bytes of a list of 4-byte numbers. -/
def bytes32 (xs : List Nat) : List Byte := xs.flatMap (leBytes 4)
/-- Write a slot's accumulators. -/
def State.putSlot (s : State) (c : CoreRef) (slot : Nat) (xs : List Nat) : State := s.wr (slotKey c slot) (bytes32 xs)
/-- A slot at +0 (R98). -/
def State.zeroAcc (s : State) (c : CoreRef) (slot : Nat) : State :=
  s.clearSram (slotKey c slot) (slotKey c slot + 8192)

/-- Record the status bits of an operation (R118). -/
def State.mxFlags (s : State) (c : CoreRef) (f : MxFlags) : State :=
  let set (s : State) (b : Bool) (r : Fld) : State := if b then s.cset c r true else s
  set (set (set s f.overflow Reg.CORE_MX_STATUS.OVERFLOW) f.invalid Reg.CORE_MX_STATUS.INVALID) f.nanInput
    Reg.CORE_MX_STATUS.NAN_INPUT

/-- The engine is occupied for `n` cycles from this one (R100, R101). -/
def State.occupyMx (s : State) (c : CoreRef) (n : Nat) : State :=
  (s.cput c Reg.CORE_MX_STATUS.OCC_LEFT n).cset c Reg.CORE_MX_STATUS.BUSY (n ≠ 0)

/-- Read the slot as an engine operand: a bad word is a poison event and marks the slot (R111). -/
def State.readSlot (s : State) (c : CoreRef) (slot : Nat) : State :=
  let s1 := s.pathRead c (slotKey c slot) 8192
  if (s.firstBad (slotKey c slot) 8192).isSome then s1.cset c (Reg.CORE_MX_SLOT_POISON.POISON slot) true else s1

/-- One group of a `MAC`: operands read, every element's terms added into the slot (R104–R109, R111). A malformed ZB4 block stops the
group with fault 0x18 (R105, R117). -/
def State.macGroup (s : State) (c : CoreRef) (m : MxSlot) (a b : Fmt) (addr g : Nat) : State × Bool :=
  let mm := shapeM m.shape
  let nn := shapeN m.shape
  let ka := coreKey c Mem.OPA ((m.aaddr + g * recordUnits a mm) * 64)
  let kb := coreKey c Mem.OPB ((m.baddr + g * recordUnits b nn) * 64)
  let na := mm * (groupBytes a + a.sideBytes)
  let nb := nn * (groupBytes b + b.sideBytes)
  let rows := opLines a mm (s.rd ka na)
  let cols := opLines b nn (s.rd kb nb)
  if rows.any (·.malformed) ∨ cols.any (·.malformed) then (s.schedFault c 0x18 addr, false)
  else
    let poisoned := s.rangePoison ka na || s.rangePoison kb nb
    let s1 := (s.operandRead c ka na).operandRead c kb nb
    let s2 := if poisoned then s1.cset c (Reg.CORE_MX_SLOT_POISON.POISON m.slot) true else s1
    let s3 := s2.readSlot c m.slot
    let prods := rows.flatMap fun r => cols.map fun k => groupTerms (a.bits = 16) r k
    let res := ((s.slotBits c m.slot).zip prods).map fun p => accumulate (ofFP32 p.1) p.2
    let s4 := s3.putSlot c m.slot (res.map fun r => toFP32 r.1)
    ((s4.mxFlags c (res.foldl (fun f r => f.or r.2) {})).cbump c Reg.CORE_MX_GROUPS.COUNT, true)

/-- The groups of a `MAC`, in ascending record order, as far as the first malformed one (R109). -/
def State.macGroups (s : State) (c : CoreRef) (m : MxSlot) (a b : Fmt) (addr : Nat) : List Nat → State
  | [] => s
  | g :: gs => match s.macGroup c m a b addr g with
    | (s1, true) => s1.macGroups c m a b addr gs
    | (s1, false) => s1

/-- A slot at +0 with a SHAPE and POISON 0 (R98). -/
def State.initSlot (s : State) (c : CoreRef) (slot shape : Nat) : State :=
  ((s.zeroAcc c slot).cset c (Reg.CORE_MX_SLOT_POISON.POISON slot) false).cput c (Reg.CORE_MX_SLOT_SHAPE.SHAPE slot) shape

/-- `MAC` (R98–R109). -/
def State.mxMac (s : State) (c : CoreRef) (m : MxSlot) (addr : Nat) : State :=
  match Fmt.ofCode m.afmt, Fmt.ofCode m.bfmt with
  | some a, some b =>
    let s0 := if m.init then s.initSlot c m.slot m.shape else s
    let s1 := (s0.occupyMx c ((m.kg + 1) * (pairCycles a b).getD 0)).cput c Core.MX_DRAIN ((macHalves m a b).getD 0)
    s1.macGroups c m a b addr (List.range (m.kg + 1))
  | _, _ => s

/-- Byte 0 of wide buffer w (R113). -/
def wideKey (c : CoreRef) (w : Nat) : Nat := coreKey c Mem.SP (w * 16384)
/-- The 2,048 FP64 values of a wide buffer, as bits. -/
def State.wideBits (s : State) (c : CoreRef) (w : Nat) : List Nat := unpackCodes 64 2048 (s.rdNat (wideKey c w) 16384)
/-- Byte 0 of an entry of the finished-tile queue (R116). -/
def ftqKey (c : CoreRef) (i : Nat) : Nat := coreKey c Mem.FTQ (i * 8200)

/-- Scratchpad lines of part j of wide buffer w (R113, R150). -/
def wideLines (w j : Nat) : List Nat := List.range' (w * 256 + 16 * j) 16

/-- `EMIT` (R100, R103, R114, R116): the entry becomes visible in cycle 32. -/
def State.mxEmit (s : State) (c : CoreRef) (m : MxSlot) : State :=
  let s1 := s.readSlot c m.slot
  let wideBad := m.merge && s.rangePoison (wideKey c m.wide) 16384
  let s2 := if m.merge then s1.operandRead c (wideKey c m.wide) 16384 else s1
  let poison := s2.cflag c (Reg.CORE_MX_SLOT_POISON.POISON m.slot) || wideBad
  let vals : List (Nat × MxFlags) :=
    if m.merge then
      ((s.slotBits c m.slot).zip (s.wideBits c m.wide)).map fun p =>
        let a := ofFP32 p.1
        let w := ofFP64 p.2
        let r := round32 (a.isNan || w.isNan) (w.add a)
        (toFP32 r.1, r.2)
    else (s.slotBits c m.slot).map fun b => (b, {})
  let i := (s.cget c Core.FTQ_HEAD + s.cget c Reg.CORE_MX_STATUS.FTQ_COUNT) % 8
  let trailer : List Byte :=
    [BitVec.ofNat 8 (s.slotShape c m.slot), BitVec.ofNat 8 m.tag,
     BitVec.ofNat 8 ((if poison then 1 else 0) + (if m.merge then 2 else 0)), BitVec.ofNat 8 m.slot, 0, 0, 0, 0]
  let s3 := (s2.wr (ftqKey c i) (bytes32 (vals.map (·.1)) ++ trailer)).mxFlags c (vals.foldl (fun f r => f.or r.2) {})
  let s4 := (s3.cput c Reg.CORE_MX_STATUS.FTQ_COUNT (s3.cget c Reg.CORE_MX_STATUS.FTQ_COUNT + 1)).cbump c Reg.CORE_MX_EMITS.EMITS
  let s5 := if poison then s4.cset c Reg.CORE_MX_STATUS.POISON_OUT true else s4
  let s6 := if m.init then (s5.zeroAcc c m.slot).cset c (Reg.CORE_MX_SLOT_POISON.POISON m.slot) false else s5
  ((s6.occupyMx c 16).cput c Core.MX_DRAIN 0).addFlights c
    ((32, .ftqEntry) :: if m.merge then (List.range 16).map fun j => (14 + j, .spRead (wideLines m.wide j)) else [])

/-- `SPILL` (R113). -/
def State.mxSpill (s : State) (c : CoreRef) (m : MxSlot) : State :=
  let s1 := s.readSlot c m.slot
  let s2 := if m.init then s1 else s1.operandRead c (wideKey c m.wide) 16384
  let poison := s2.cflag c (Reg.CORE_MX_SLOT_POISON.POISON m.slot)
  let acc := s.slotBits c m.slot
  let olds := s.wideBits c m.wide
  let rs : List (Nat × MxFlags × Bool) := (List.range 2048).map fun i =>
    let a := ofFP32 (acc.getD i 0)
    if m.init then (toFP64 a, {}, poison)
    else
      let w := ofFP64 (olds.getD i 0)
      let v := w.add a
      let o := (ffFP64.encode .rne false 0 v).2.overflow
      (toFP64 v, { overflow := o, invalid := v.isNan && !(a.isNan || w.isNan) },
        poison || s.wordPoison ((wideKey c m.wide + 8 * i) / 8))
  let s3 := s2.engineWrite c (wideKey c m.wide) (rs.flatMap fun r => (leBytes 8 r.1).map fun b => (b, r.2.2))
  let s4 := s3.mxFlags c (rs.foldl (fun f r => f.or r.2.1) {})
  let s5 := ((s4.zeroAcc c m.slot).cset c (Reg.CORE_MX_SLOT_POISON.POISON m.slot) false).cbump c Reg.CORE_MX_EMITS.SPILLS
  ((s5.occupyMx c 16).cput c Core.MX_DRAIN 0).addFlights c
    ((List.range 16).flatMap fun j => [(14 + j, .spRead (wideLines m.wide j)), (16 + j, .spWrite (wideLines m.wide j))])

/-- `ZERO` (R98). -/
def State.mxZero (s : State) (c : CoreRef) (m : MxSlot) : State :=
  ((s.initSlot c m.slot m.shape).occupyMx c 1).cput c Core.MX_DRAIN 0

/-- The effect of an issued matrix slot at word address `addr`. -/
def State.mxIssue (s : State) (c : CoreRef) (v addr : Nat) : State :=
  let m := mxSlot v
  match m.op with
  | 1 => s.mxMac c m addr
  | 2 => s.mxEmit c m
  | 3 => s.mxSpill c m
  | 4 => s.mxZero c m
  | _ => s

end Sys2Proof.Machine
end

