-- ==== Sys2Proof/Machine/Vector.lean ====
section
/-! DEFINITION. The vector engine (05_vector_engine): descriptors, the stage chain, reductions, packing, and a whole pass cycle by
cycle. The functions take the 64 bits of the vector slot as a number. -/

namespace Sys2Proof.Machine

/-- Where the descriptor tables stand in a core's descriptor memory: loop, move, vector instruction and tensor tables (R37, R54, R120). -/
def Table.LOOP : Nat := 0
def Table.MOVE : Nat := 256
def Table.VINSTR : Nat := 1280
def Table.TENSOR : Nat := 2304

/-- An entry of a core's descriptor table, as a number. -/
def State.table (s : State) (c : CoreRef) (base size n : Nat) : Nat := s.rdNat (coreKey c Mem.DESC (base + size * n)) size

/-- A tensor descriptor with its working addresses (R121). -/
structure TDesc where
  space : Nat
  tbuf : Nat
  fmtCode : Nat
  bcast : Bool
  vsrc : Bool
  vreg : Nat
  rsv : Nat
  sideField : Nat
  base : Nat
  side : Nat
  size : Nat → Nat
  valid : Nat → Nat
  stride : Nat → Int
  inc : Int

/-- Reading descriptor n of a core. -/
def State.tdesc (s : State) (c : CoreRef) (n : Nat) : TDesc :=
  let w := s.table c Table.TENSOR 32 n
  { space := bitsOf w 1 0, tbuf := bitsOf w 3 2, fmtCode := bitsOf w 8 4, bcast := w.testBit 9, vsrc := w.testBit 10,
    vreg := bitsOf w 13 11, rsv := bitsOf w 15 14 + bitsOf w 63 58, sideField := bitsOf w 57 37,
    base := s.cget c (Reg.CORE_VX_WBASE.BASE n), side := s.cget c (Reg.CORE_VX_WBASE.SIDE n),
    size := fun d => match d with
      | 0 => bitsOf w 77 64 | 1 => bitsOf w 103 92 | 2 => bitsOf w 127 116 | _ => bitsOf w 151 140
    valid := fun d => match d with
      | 0 => if w.testBit 10 then min (s.cget c (Reg.CORE_LOOPCNT.VALUE (bitsOf w 13 11))) (bitsOf w 77 64) else bitsOf w 91 78
      | 1 => bitsOf w 115 104 | 2 => bitsOf w 139 128 | _ => bitsOf w 163 152
    stride := fun d => match d with
      | 1 => signedOf 24 (bitsOf w 187 164) | 2 => signedOf 24 (bitsOf w 211 188) | _ => signedOf 24 (bitsOf w 235 212)
    inc := signedOf 20 (bitsOf w 255 236) }

/-- The format of a descriptor; FP32 stands for a reserved code, which fault 0x21 keeps from running. -/
def TDesc.fmt (d : TDesc) : Fmt := (Fmt.ofCode d.fmtCode).getD .fp32

/-- One stage field (R131). -/
structure AStage where
  op : Nat
  bsel : Nat
  bk : Nat
  csel : Nat
  ck : Nat

/-- Reading a stage field (R131). -/
def aStage (w : Nat) : AStage := ⟨bitsOf w 3 0, bitsOf w 5 4, bitsOf w 9 6, bitsOf w 11 10, bitsOf w 15 12⟩

/-- Whether an operation uses b, and whether it uses c (R131). -/
def AStage.usesB (a : AStage) : Bool := (1 ≤ a.op && a.op ≤ 6) || (9 ≤ a.op && a.op ≤ 13)
def AStage.usesC (a : AStage) : Bool := a.op == 4 || a.op == 13

/-- A field of a stage that the operation does not use and that is not zero, or a reserved code (R131). -/
def AStage.badField (a : AStage) : Bool :=
  13 < a.op || (a.usesB && a.bsel == 3) || (a.usesC && a.csel == 3)
    || (!a.usesB && a.bsel != 0) || (!(a.usesB && a.bsel == 2) && a.bk != 0)
    || (!a.usesC && a.csel != 0) || (!(a.usesC && a.csel == 2) && a.ck != 0)

/-- Whether a stage reads Y. -/
def AStage.readsY (a : AStage) : Bool := (a.usesB && a.bsel == 0) || (a.usesC && a.csel == 0)

/-- An entry of the vector instruction table (R141). -/
structure VInstr where
  xd : Nat
  yd : Nat
  dd : Nat
  rd : Nat
  yEn : Bool
  dEn : Bool
  rEn : Bool
  racc : Bool
  bf16 : Bool
  pop : Bool
  maskz : Bool
  rsv : Bool
  a1 : AStage
  a2 : AStage
  func : Nat
  reduce : Nat
  pd : Nat
  rmode : Nat
  ovmode : Bool
  tagchk : Bool
  tag : Nat

/-- Reading an entry of the vector instruction table (R141). -/
def vInstr (w : Nat) : VInstr :=
  { xd := bitsOf w 4 0, yd := bitsOf w 9 5, dd := bitsOf w 14 10, rd := bitsOf w 19 15, yEn := w.testBit 20, dEn := w.testBit 21,
    rEn := w.testBit 22, racc := w.testBit 23, bf16 := w.testBit 24, pop := w.testBit 25, maskz := w.testBit 26,
    rsv := bitsOf w 31 27 ≠ 0 || bitsOf w 127 87 ≠ 0, a1 := aStage (bitsOf w 47 32), a2 := aStage (bitsOf w 63 48),
    func := bitsOf w 67 64, reduce := bitsOf w 71 68, pd := bitsOf w 75 72, rmode := bitsOf w 78 76, ovmode := w.testBit 79,
    tagchk := w.testBit 80, tag := bitsOf w 86 81 }

/-- The entry a vector slot names. -/
def State.vinstr (s : State) (c : CoreRef) (v : Nat) : VInstr := vInstr (s.table c Table.VINSTR 16 (bitsOf v 15 10))

/-- Fields of a descriptor that break its encoding (R121), in a role that it plays. -/
def TDesc.badField (d : TDesc) : Bool :=
  d.space == 3 || (d.space != 0 && d.tbuf != 0) || (!d.vsrc && d.vreg != 0) || d.rsv != 0 || (Fmt.ofCode d.fmtCode).isNone
    || (!d.fmt.block && d.sideField != 0)

/-- The descriptors an entry names, with the role: 0 X, 1 Y, 2 D, 3 R. -/
def State.roles (s : State) (c : CoreRef) (i : VInstr) : List (Nat × TDesc) :=
  [(0, s.tdesc c i.xd)] ++ (if i.yEn then [(1, s.tdesc c i.yd)] else []) ++ (if i.dEn then [(2, s.tdesc c i.dd)] else [])
    ++ (if i.rEn then [(3, s.tdesc c i.rd)] else [])

/-- Faults the slot and the entries it names decide alone (R63, R143): checked whatever the guard. -/
def vxStatic (s : State) (c : CoreRef) (v : Nat) : List Nat :=
  if v = 0 then []
  else if 1 < bitsOf v 9 6 then [0x21]
  else if bitsOf v 9 6 = 0 then (if extraBits v 0x3FF then [0x21] else [])
  else
    let i := s.vinstr c v
    let bad := extraBits v 0xFFFFF || i.rsv || i.a1.badField || i.a2.badField || 7 < i.func || 5 < i.reduce
      || (i.reduce != 4 && i.reduce != 5 && i.pd != 0) || 4 < i.rmode
      || (!i.yEn && (i.yd != 0 || i.a1.readsY || i.a2.readsY || v.testBit 17))
      || (!i.dEn && (i.dd != 0 || v.testBit 18)) || (!i.rEn && (i.rd != 0 || v.testBit 19))
      || ((i.reduce == 4 || i.reduce == 5) && i.rEn)
      || (s.roles c i).any (fun r => r.2.badField)
    if bad then [0x21] else []

/-- Bytes of one block's elements (R76). -/
def Fmt.blockBytes (f : Fmt) : Nat := f.bits * 4

/-- Size of a space in bytes (R125). -/
def spaceSize (sp : Nat) : Int := if sp = 0 then 16384 else if sp = 1 then 1572864 else 8192

/-- Byte address of the row (i1, i2, i3) (R122). -/
def TDesc.rowAddr (d : TDesc) (i1 i2 i3 : Nat) : Int := d.base + i1 * d.stride 1 + i2 * d.stride 2 + i3 * d.stride 3

/-- Bytes of a row from its start. -/
def TDesc.rowBytes (d : TDesc) : Nat :=
  if d.fmt.block then d.size 0 / 32 * d.fmt.blockBytes
  else if d.bcast then (d.fmt.bits + 7) / 8 else (d.size 0 * d.fmt.bits + 7) / 8

/-- The corner rows of the traversal: every row address lies between those of the corners. -/
def TDesc.corners (d : TDesc) : List Int :=
  [0, d.size 1 - 1].flatMap fun a => [0, d.size 2 - 1].flatMap fun b => [0, d.size 3 - 1].map fun e => d.rowAddr a b e

/-- Byte address of the side data of the block at byte offset o from BASE (R123). -/
def TDesc.sideAddr (d : TDesc) (o : Int) : Int := d.side + o / d.fmt.blockBytes * d.fmt.sideBytes

/-- Whether every position and the side array lie in the space (R125). -/
def TDesc.inSpace (d : TDesc) : Bool :=
  d.corners.all fun a =>
    0 ≤ a && a + d.rowBytes ≤ spaceSize d.space
      && (!d.fmt.block || (0 ≤ d.sideAddr (a - d.base) && d.sideAddr (a - d.base + d.rowBytes) ≤ spaceSize d.space))

/-- Breaches of R123 by a block-format descriptor. -/
def TDesc.badBlock (d : TDesc) : Bool :=
  d.fmt.block && (d.base % d.fmt.blockBytes != 0 || d.stride 1 % d.fmt.blockBytes != 0 || d.stride 2 % d.fmt.blockBytes != 0
    || d.stride 3 % d.fmt.blockBytes != 0 || d.inc % d.fmt.blockBytes != 0 || d.size 0 % 32 != 0 || d.bcast)

/-- Lanes of a pass (R137). -/
def VInstr.lanes (i : VInstr) : Nat := if i.bf16 then 128 else 64
/-- Rows of a pass. -/
def TDesc.rows (d : TDesc) : Nat := d.size 1 * d.size 2 * d.size 3
/-- Chunks of a row. -/
def rowChunks (i : VInstr) (x : TDesc) : Nat := (x.size 0 + i.lanes - 1) / i.lanes
/-- Occupancy of a pass (R137). -/
def passCycles (i : VInstr) (x : TDesc) : Nat := rowChunks i x * x.rows
/-- Row number r as (i1, i2, i3) (R122). -/
def TDesc.rowIdx (d : TDesc) (r : Nat) : Nat × Nat × Nat := (r % d.size 1, r / d.size 1 % d.size 2, r / (d.size 1 * d.size 2))
/-- Whether i1, i2 and i3 of row r are all unmasked (R124). -/
def TDesc.rowLive (d : TDesc) (r : Nat) : Bool :=
  let (a, b, e) := d.rowIdx r
  a < d.valid 1 && b < d.valid 2 && e < d.valid 3
/-- Unmasked positions of row r: a prefix of it (R124). -/
def TDesc.live (d : TDesc) (r : Nat) : Nat := if d.rowLive r then min (d.valid 0) (d.size 0) else 0

/-- Unmasked positions, from a chunk's first on, of chunk t of a pass over X. -/
def chunkLive (i : VInstr) (x : TDesc) (t : Nat) : Nat :=
  min (x.live (t / rowChunks i x) - t % rowChunks i x * i.lanes) i.lanes

/-- Byte offset in its space and count of bytes of n positions of a descriptor from the first of chunk t on (R122, R123). -/
def TDesc.span (d : TDesc) (i : VInstr) (x : TDesc) (t n : Nat) : Nat × Nat :=
  let (a, b, e) := d.rowIdx (t / rowChunks i x)
  let row := (d.rowAddr a b e).toNat
  let p := t % rowChunks i x * i.lanes
  if d.fmt.block then (row + p / 32 * d.fmt.blockBytes, (n + 31) / 32 * d.fmt.blockBytes)
  else if d.bcast then (row, (d.fmt.bits + 7) / 8) else (row + p * d.fmt.bits / 8, (n * d.fmt.bits + 7) / 8)

/-- The port that an access of some bytes of a descriptor's space takes (R128, R150); the finished-tile queue has none. -/
def TDesc.portUse (d : TDesc) (write : Bool) (b : Nat × Nat) : Option Flight :=
  let lines := List.range' (b.1 / 64) ((b.1 + b.2 + 63) / 64 - b.1 / 64)
  match d.space with
  | 0 => some (if write then .tileWrite d.tbuf else .tileRead d.tbuf)
  | 1 => some (if write then .spWrite lines else .spRead lines)
  | _ => none

/-- The port uses of a pass, each with its cycle from issue (R137, R138): X and Y of chunk t in cycle t, D in t + 20, and R, with the old
value under RACC, in t + 24 of a row's last chunk. A masked chunk reads nothing, and writes D under MASKZ only. -/
def passUses (i : VInstr) (x y d r : TDesc) : List (Nat × Flight) :=
  let rc := rowChunks i x
  (List.range (passCycles i x)).flatMap fun t =>
    let n := chunkLive i x t
    let m := if i.maskz then min i.lanes (x.size 0 - t % rc * i.lanes) else n
    let inCycle (c : Nat) (u : Option Flight) : List (Nat × Flight) := (u.map fun f => (c, f)).toList
    (if n = 0 then [] else inCycle t (x.portUse false (x.span i x t n)) ++ if i.yEn then inCycle t (y.portUse false (y.span i x t n)) else [])
      ++ (if i.dEn ∧ m ≠ 0 then inCycle (t + 20) (d.portUse true (d.span i x t m)) else [])
      ++ (if i.rEn ∧ 1 ≤ i.reduce ∧ i.reduce ≤ 3 ∧ (t + 1) % rc = 0 ∧ x.rowLive (t / rc) then
            (if i.racc then inCycle (t + 24) (r.portUse false (r.span i x t 1)) else []) ++ inCycle (t + 24) (r.portUse true (r.span i x t 1))
          else [])

/-- The cycle from issue of the last read of the finished-tile queue by a pass (R127). -/
def lastQueueRead (i : VInstr) (x : TDesc) : Nat :=
  ((List.range (passCycles i x)).filter fun t => chunkLive i x t ≠ 0).getLastD 0

/-- Faults that depend on the core's state (R143), but for the ports of the tile buffers: checked where the guard is true. -/
def vxDynamic (s : State) (c : CoreRef) (v : Nat) : List Nat :=
  if bitsOf v 9 6 ≠ 1 then []
  else
    let i := s.vinstr c v
    let x := s.tdesc c i.xd
    let y := s.tdesc c i.yd
    let d := s.tdesc c i.dd
    let rs := s.roles c i
    let usesQ := x.space == 2 || (i.yEn && y.space == 2)
    let fmt22 := rs.any (fun p => (if p.1 = 3 then (p.2.fmt != (if i.bf16 then .bf16 else .fp32)) else !p.2.fmt.codec)
        || p.2.badBlock || (p.2.space == 2 && p.2.fmt != .fp32))
      || ((i.pop || i.tagchk) && !usesQ)
      || (i.bf16 && (x.fmt != .bf16 || (i.yEn && y.fmt != .bf16) || (i.dEn && d.fmt != .bf16) || 8 < i.a1.op || 8 < i.a2.op
          || i.func != 0 || !(i.reduce == 0 || i.reduce == 2 || i.reduce == 3)))
    let size23 := rs.any (fun p => p.2.size 0 == 0 || p.2.size 1 == 0 || p.2.size 2 == 0 || p.2.size 3 == 0
        || (List.range 4).any (fun k => p.2.size k != x.size k)
        || (p.1 == 2 && p.2.bcast) || (p.1 == 3 && !p.2.bcast))
    let head := s.rd (ftqKey c (s.cget c Core.FTQ_HEAD) + 8193) 1
    (if s.cget c Reg.CORE_VX_STATUS.OCC_LEFT ≠ 0 then [0x20] else [])
      ++ (if fmt22 then [0x22] else []) ++ (if size23 then [0x23] else [])
      ++ (if 224 < passCycles i x then [0x24] else [])
      ++ (if rs.any (fun p => !p.2.inSpace || (2 ≤ p.1 && p.2.space == 2)) then [0x25] else [])
      ++ (if usesQ ∧ (s.cget c Reg.CORE_MX_STATUS.FTQ_COUNT ≤ s.inFlight c .ftqEntry ∨ (i.tagchk ∧ leNat head % 64 ≠ i.tag))
          then [0x26] else [])

/-- Round a stage's exact result to the lane format, nearest even, with OVERFLOW and INVALID (R131, R136). -/
def laneRound (bf nanIn : Bool) (v : FVal) : FVal × VxFlags :=
  let ff := if bf then ffBF16 else ffFP32
  let r := ff.encode .rne false 0 v
  (ff.decode r.1, { overflow := r.2.overflow, invalid := v.isNan && !nanIn })

/-- MAX of R131: NaN if either is, and max(+0, −0) = +0. -/
def fMax (a b : FVal) : FVal :=
  if a.isNan || b.isNan then .nan
  else if a.isZero && b.isZero then (if a.sign && b.sign then a else .fin false 0 0)
  else if a.lt b then b else a
/-- MIN of R131: NaN if either is, and min(+0, −0) = −0. -/
def fMin (a b : FVal) : FVal :=
  if a.isNan || b.isNan then .nan
  else if a.isZero && b.isZero then (if a.sign || b.sign then .fin true 0 0 else a)
  else if b.lt a then b else a

/-- 1.0 or 0.0. -/
def fBool (b : Bool) : FVal := .fin false (if b then 1 else 0) 0

/-- Non-zero and not NaN (R131, R133). -/
def fTrue (v : FVal) : Bool := !v.isNan && !v.isZero

/-- An A stage's operation (R131). -/
def aOp (bf : Bool) (op : Nat) (a b c : FVal) : FVal × VxFlags :=
  match op with
  | 0 => (a, {})
  | 1 => laneRound bf (a.isNan || b.isNan) (a.add b)
  | 2 => laneRound bf (a.isNan || b.isNan) (a.add b.neg)
  | 3 => laneRound bf (a.isNan || b.isNan) (a.mul b)
  | 4 => laneRound bf (a.isNan || b.isNan || c.isNan) ((a.mul b).add c)
  | 5 => (fMax a b, {})
  | 6 => (fMin a b, {})
  | 7 => (a.abs, {})
  | 8 => (a.neg, {})
  | 9 => (fBool (a.eq b), {})
  | 10 => (fBool (a.lt b), {})
  | 11 => (fBool (a.lt b || a.eq b), {})
  | 12 => (fBool (!a.eq b), {})
  | _ => (if fTrue c then a else b, {})

/-- The source of b or c (R131); a constant is rounded to BF16 in BF16 lane mode (R136). -/
def stageSrc (s : State) (c : CoreRef) (bf : Bool) (sel k : Nat) (x y : FVal) : FVal :=
  match sel with
  | 0 => y
  | 1 => x
  | _ =>
    let v := ofFP32 (s.cget c (Reg.CORE_VX_CK.VALUE k))
    if bf then (laneRound true false v).1 else v

/-- A1, A2 and FUNC at one position (R131, R132). -/
def lane (s : State) (c : CoreRef) (i : VInstr) (x y : FVal) : FVal × VxFlags :=
  let src := stageSrc s c i.bf16
  let r1 := aOp i.bf16 i.a1.op x (src i.a1.bsel i.a1.bk x y) (src i.a1.csel i.a1.ck x y)
  let r2 := aOp i.bf16 i.a2.op r1.1 (src i.a2.bsel i.a2.bk x y) (src i.a2.csel i.a2.ck x y)
  let r3 := funcStage i.func r2.1
  (r3.1, (r1.2.or r2.2).or r3.2)

/-- Byte 0 of the space of a descriptor. -/
def State.spaceKey (s : State) (c : CoreRef) (d : TDesc) : Nat :=
  if d.space = 0 then coreKey c Mem.TILE (d.tbuf * 16384)
  else if d.space = 1 then coreKey c Mem.SP 0
  else ftqKey c (s.cget c Core.FTQ_HEAD)

/-- The first `n` positions from position p of a row, decoded, each with its poison mark; and what the decode reports (R130, R79, R78).
Block formats: p is a multiple of 32. -/
def State.readElems (s : State) (c : CoreRef) (d : TDesc) (row : Int) (p n : Nat) : List (FVal × Bool) × ConvFlags :=
  let k := s.spaceKey c d + row.toNat
  let f := d.fmt
  if n = 0 then ([], {})
  else if f.block then
    let bb := f.blockBytes
    (List.range ((n + 31) / 32)).foldl (fun (acc : List (FVal × Bool) × ConvFlags) j =>
      let o := (p / 32 + j) * bb
      let sk := s.spaceKey c d + (d.sideAddr (row - d.base + o)).toNat
      let codes := unpackCodes f.bits 32 (s.rdNat (k + o) bb)
      let side := s.rdNat sk f.sideBytes
      let bad := f = .zb4 && (zbSide side).malformed
      let sp := s.rangePoison sk f.sideBytes
      let cnt := min 32 (n - 32 * j)
      let vs := (List.range cnt).map fun e =>
        let v := decodeFP32 (f.decodeElem e (codes.getD e 0) side)
        (v, sp || s.rangePoison (k + o + e * f.bits / 8) ((e * f.bits + f.bits + 7) / 8 - e * f.bits / 8))
      (acc.1 ++ vs.map (fun v => (v.1.1, v.2)),
        acc.2.or { nanBlock := bad, decodeInf := vs.any (fun v => v.1.2) })) ([], {})
  else if d.bcast then
    let v := f.decodeElem 0 (s.rdNat k ((f.bits + 7) / 8) % 2 ^ f.bits) 0
    (List.replicate n (v, s.rangePoison k ((f.bits + 7) / 8)), {})
  else
    let o := p * f.bits / 8
    let codes := unpackCodes f.bits n (s.rdNat (k + o) ((n * f.bits + 7) / 8))
    ((List.range n).map fun e =>
      (f.decodeElem 0 (codes.getD e 0) 0, s.rangePoison (k + o + e * f.bits / 8) ((e * f.bits + f.bits + 7) / 8 - e * f.bits / 8)), {})

/-- A stream's read of a chunk as an operand: check bits and poison event (R60, R142). A head entry marked POISON poisons what is read
from it (R127). -/
def State.chunkRead (s : State) (c : CoreRef) (d : TDesc) (row : Int) (p n : Nat) : State :=
  if n = 0 then s
  else
    let k := s.spaceKey c d + row.toNat
    let f := d.fmt
    if d.space = 2 ∧ (leNat (s.rd (s.spaceKey c d + 8194) 1)).testBit 0 then
      (s.checkRange (k + p * 4) (n * 4)).poisonEvent c Mem.FTQ (keyWord (k + p * 4))
    else if f.block then
      let s1 := s.operandRead c (k + p / 32 * f.blockBytes) ((n * f.bits + 7) / 8)
      let sk := s.spaceKey c d + (d.sideAddr (row - d.base + p / 32 * f.blockBytes)).toNat
      s1.operandRead c sk ((n + 31) / 32 * f.sideBytes)
    else if d.bcast then s.operandRead c k ((f.bits + 7) / 8)
    else s.operandRead c (k + p * f.bits / 8) ((n * f.bits + 7) / 8)

/-- What a chunk brings out of FUNC: its unmasked positions' values, their poison, and the reports. -/
structure ChunkOut where
  vals : List FVal
  poison : List Bool
  conv : ConvFlags
  flags : VxFlags

/-- Chunk t of a pass through UNPACK, A1, A2 and FUNC (R119, R130–R132). -/
def State.chunkOut (s : State) (c : CoreRef) (i : VInstr) (x y : TDesc) (t : Nat) : ChunkOut :=
  let r := t / rowChunks i x
  let p := t % rowChunks i x * i.lanes
  let n := min (x.live r - p) i.lanes
  let (a, b, e) := x.rowIdx r
  let q (d : TDesc) : Bool := d.space == 2 && (leNat (s.rd (s.spaceKey c d + 8194) 1)).testBit 0
  let xs := s.readElems c x (x.rowAddr a b e) p n
  let ys := if i.yEn then s.readElems c y (y.rowAddr a b e) p n else (List.replicate n (.fin false 0 0, false), {})
  let outs := (xs.1.zip ys.1).map fun v => lane s c i v.1.1 v.2.1
  { vals := outs.map (·.1)
    poison := (xs.1.zip ys.1).map fun v => v.1.2 || v.2.2 || q x || (i.yEn && q y)
    conv := xs.2.or ys.2
    flags := outs.foldl (fun f o => f.or o.2) {} }

/-- Record what the conversions report (R90). -/
def State.convFlags (s : State) (c : CoreRef) (f : ConvFlags) : State :=
  let set (s : State) (b : Bool) (r : Fld) : State := if b then s.cset c r true else s
  set (set (set (set s f.overflow Reg.CORE_CONV_STATUS.OVERFLOW) f.nanZero Reg.CORE_CONV_STATUS.NAN_ZERO) f.nanBlock
    Reg.CORE_CONV_STATUS.NAN_BLOCK) f.decodeInf Reg.CORE_CONV_STATUS.DECODE_INF

/-- Record what the stages report (R145). -/
def State.vxFlags (s : State) (c : CoreRef) (f : VxFlags) : State :=
  let set (s : State) (b : Bool) (r : Fld) : State := if b then s.cset c r true else s
  set (set (set s f.overflow Reg.CORE_VX_STATUS.OVERFLOW) f.invalid Reg.CORE_VX_STATUS.INVALID) f.divZero
    Reg.CORE_VX_STATUS.DIV_ZERO

/-- Note that a poisoned result was written (R145). -/
def State.poisonOut (s : State) (c : CoreRef) (p : Bool) : State := if p then s.cset c Reg.CORE_VX_STATUS.POISON_OUT true else s

/-- The random draw of the position with traversal index `ix` (R87, R88). -/
def State.draw (s : State) (c : CoreRef) (base ix : Nat) : Nat :=
  srHash (s.cget c Reg.CORE_SR_SEED.SEED) (srCoreKey (s.logicalCore c) ((base + ix) % 2 ^ 48))

/-- PACK and write of one chunk (R135, R142). `sr0` is the first count claimed. -/
def State.packChunk (s : State) (c : CoreRef) (i : VInstr) (x d : TDesc) (sr0 t : Nat) (o : ChunkOut) : State :=
  let r := t / rowChunks i x
  let p := t % rowChunks i x * i.lanes
  let total := min i.lanes (x.size 0 - p)
  let (a, b, e) := d.rowIdx r
  let row := d.rowAddr a b e
  let k := s.spaceKey c d + row.toNat
  let f := d.fmt
  let rm := if i.bf16 then .rne else (RMode.ofCode i.rmode).getD .rne
  let sat := i.bf16 || !i.ovmode
  let u (j : Nat) : Nat := if rm = .sr then s.draw c sr0 (r * x.size 0 + p + j) else 0
  let live := o.vals.length
  let zero : FVal := .fin false 0 0
  if f.block then
    let bb := f.blockBytes
    (List.range ((total + 31) / 32)).foldl (fun (s : State) j =>
      let vs := (List.range 32).map fun q => o.vals.getD (32 * j + q) zero
      if 32 * j < live ∨ i.maskz then
        let enc := encodeBlock f rm ((List.range 32).map fun q => u (32 * j + q)) vs
        let off := (p / 32 + j) * bb
        let pois := ((o.poison.drop (32 * j)).take 32).any id
        let s1 := (s.engineWrite c (k + off) ((leBytes bb (packCodes f.bits enc.1)).map fun b => (b, pois))).convFlags c enc.2.2
        (s1.wr (s.spaceKey c d + (d.sideAddr (row - d.base + off)).toNat) (leBytes f.sideBytes enc.2.1)).poisonOut c pois
      else s) s
  else
    let n := if i.maskz then total else live
    let enc := (List.range n).map fun j =>
      if j < live then f.encodeElem rm sat (u j) (o.vals.getD j zero) else (0, {})
    let codes := enc.map (·.1)
    let pois (j : Nat) : Bool := o.poison.getD j false
    let off := p * f.bits / 8
    let bytes : List (Byte × Bool) :=
      if f.bits = 4 then
        (List.range ((n + 1) / 2)).map fun j =>
          let hi : Nat := if 2 * j + 1 < n then codes.getD (2 * j + 1) 0
            else if p + 2 * j + 1 < x.size 0 then 0 else leNat (s.rd (k + off + j) 1) / 16
          (BitVec.ofNat 8 (codes.getD (2 * j) 0 + 16 * hi), pois (2 * j) || pois (2 * j + 1))
      else (List.range n).flatMap fun j => (leBytes (f.bits / 8) (codes.getD j 0)).map fun b => (b, pois j)
    ((s.engineWrite c (k + off) bytes).convFlags c (enc.foldl (fun g q => g.or q.2) {})).poisonOut c (bytes.any (·.2))

/-- The combination of REDUCE (R133). -/
def redOp (bf : Bool) (mode : Nat) (a b : FVal) : FVal × VxFlags :=
  match mode with
  | 1 => laneRound bf (a.isNan || b.isNan) (a.add b)
  | 2 => (fMax a b, {})
  | _ => (fMin a b, {})

/-- The identity of a reduction (R133). -/
def redIdentity (mode : Nat) : FVal := match mode with | 1 => .fin false 0 0 | 2 => .inf true | _ => .inf false

/-- One level of the pairwise tree (R133). -/
def treeLevel (bf : Bool) (mode : Nat) : List (FVal × VxFlags) → List (FVal × VxFlags)
  | a :: b :: r => (let q := redOp bf mode a.1 b.1; (q.1, (a.2.or b.2).or q.2)) :: treeLevel bf mode r
  | r => r

/-- The fixed pairwise tree over the lanes of a chunk (R133); levels: 6 for 64 lanes, 7 for 128. -/
def treeReduce (bf : Bool) (mode : Nat) : Nat → List (FVal × VxFlags) → List (FVal × VxFlags)
  | 0, xs => xs
  | n + 1, xs => treeReduce bf mode n (treeLevel bf mode xs)

/-- The value of a chunk (R133): masked and absent lanes hold the identity. -/
def chunkReduce (bf : Bool) (mode lanes : Nat) (vals : List FVal) : FVal × VxFlags :=
  let xs := (List.range lanes).map fun j => (vals.getD j (redIdentity mode), ({} : VxFlags))
  (treeReduce bf mode (if lanes = 128 then 7 else 6) xs).headD (redIdentity mode, {})

/-- The row result from its chunks' outputs, in ascending chunk order (R133). -/
def rowReduce (bf : Bool) (mode lanes : Nat) (chunks : List ChunkOut) : FVal × VxFlags :=
  match chunks.map fun o => chunkReduce bf mode lanes o.vals with
  | [] => (redIdentity mode, {})
  | h :: t => t.foldl (fun acc v => let q := redOp bf mode acc.1 v.1; (q.1, (acc.2.or v.2).or q.2)) h

/-- REDUCE and the write of R for one row (R133, R142). -/
def State.reduceRow (s : State) (c : CoreRef) (i : VInstr) (x r : TDesc) (k : Nat) (chunks : List ChunkOut) : State :=
  if ¬ x.rowLive k then s
  else
    let (a, b, e) := r.rowIdx k
    let key := s.spaceKey c r + (r.rowAddr a b e).toNat
    let size := if i.bf16 then 2 else 4
    let ff := if i.bf16 then ffBF16 else ffFP32
    let v := rowReduce i.bf16 i.reduce i.lanes chunks
    let old := ff.decode (s.rdNat key size)
    let w := if i.racc then (let q := redOp i.bf16 i.reduce old v.1; (q.1, v.2.or q.2)) else v
    let pois := chunks.any (fun o => o.poison.any id) || (i.racc && s.rangePoison key size)
    let s1 := if i.racc then s.operandRead c key size else s
    ((s1.engineWrite c key ((leBytes size (ff.encode .rne false 0 w.1).1).map fun b => (b, pois))).vxFlags c w.2).poisonOut c pois

/-- One cycle of a pass (R129, R137, R138): the chunk read in it, then the D write of the chunk read 20 cycles before and the R write of
the row that ended 24 cycles before. -/
def State.passCycle (s : State) (c : CoreRef) (i : VInstr) (x y d r : TDesc) (sr0 t : Nat) (outs : List ChunkOut) :
    State × List ChunkOut :=
  let occ := passCycles i x
  let rc := rowChunks i x
  let (s1, outs1) :=
    if t < occ then
      let k := t / rc
      let p := t % rc * i.lanes
      let n := min (x.live k - p) i.lanes
      let (a, b, e) := x.rowIdx k
      let sx := s.chunkRead c x (x.rowAddr a b e) p n
      let sy := if i.yEn then sx.chunkRead c y (y.rowAddr a b e) p n else sx
      let o := s.chunkOut c i x y t
      ((sy.convFlags c o.conv).vxFlags c o.flags, outs ++ [o])
    else (s, outs)
  let s2 := if i.dEn ∧ 20 ≤ t ∧ t - 20 < occ then
      match outs1[t - 20]? with
      | some o => s1.packChunk c i x d sr0 (t - 20) o
      | none => s1
    else s1
  let s3 := if i.rEn ∧ 1 ≤ i.reduce ∧ i.reduce ≤ 3 ∧ 24 ≤ t ∧ t - 24 < occ ∧ (t - 24 + 1) % rc = 0 then
      s2.reduceRow c i x r ((t - 24) / rc) ((outs1.drop ((t - 24) / rc * rc)).take rc)
    else s2
  (s3, outs1)

/-- The predicate of PANY or PALL (R133, R134); poison gives 0 (R62). -/
def predResult (mode : Nat) (outs : List ChunkOut) : Bool :=
  let vs := outs.flatMap (·.vals)
  if outs.any (fun o => o.poison.any id) then false
  else if mode = 4 then vs.any fTrue else vs.all fTrue

/-- Advance a descriptor's working addresses (R121, R123). -/
def State.advance (s : State) (c : CoreRef) (n : Nat) : State :=
  let d := s.tdesc c n
  let s1 := s.cput c (Reg.CORE_VX_WBASE.BASE n) ((d.base + d.inc) % 2 ^ 21).toNat
  if d.fmt.block then s1.cput c (Reg.CORE_VX_WBASE.SIDE n) ((d.sideAddr d.inc) % 2 ^ 21).toNat else s1

/-- A pass (R119–R145). Its data is read and written as a whole; its port uses, its predicate's write and the place of an entry that it
frees follow in their cycles (R127, R138). -/
def State.vxRun (s : State) (c : CoreRef) (v : Nat) : State :=
  let i := s.vinstr c v
  let x := s.tdesc c i.xd
  let y := s.tdesc c i.yd
  let d := s.tdesc c i.dd
  let r := s.tdesc c i.rd
  let sr0 := s.cget c Reg.CORE_SR_COUNT.COUNT
  let claims := i.dEn && i.rmode == 4 && !i.bf16
  let adv := ((if v.testBit 16 then [i.xd] else []) ++ (if v.testBit 17 then [i.yd] else [])
    ++ (if v.testBit 18 then [i.dd] else []) ++ (if v.testBit 19 then [i.rd] else [])).eraseDups
  let s1 := adv.foldl (fun s n => s.advance c n) (s.cbump c Reg.CORE_VX_COUNTS.RUNS)
  let s2 := if claims then s1.cput c Reg.CORE_SR_COUNT.COUNT (sr0 + x.size 0 * x.rows) else s1
  let s3 := (s2.cput c Reg.CORE_VX_STATUS.OCC_LEFT (passCycles i x)).cset c Reg.CORE_VX_STATUS.BUSY true
  let res := (List.range (passCycles i x + 25)).foldl
    (fun (p : State × List ChunkOut) t => p.1.passCycle c i x y d r sr0 t p.2) (s3, [])
  let s4 := if i.pop then
      ((res.1.cput c Core.FTQ_HEAD (res.1.cget c Core.FTQ_HEAD + 1)).cput c Reg.CORE_MX_STATUS.FTQ_COUNT
        (res.1.cget c Reg.CORE_MX_STATUS.FTQ_COUNT - 1)).cbump c Reg.CORE_VX_COUNTS.POPS
    else res.1
  s4.addFlights c (passUses i x y d r ++ (if i.pop then [(lastQueueRead i x, .ftqPlace)] else [])
    ++ if i.reduce = 4 ∨ i.reduce = 5 then [(passCycles i x + 23, .pred i.pd (predResult i.reduce res.2))] else [])

end Sys2Proof.Machine
end

