-- ==== Sys2Proof/Machine/Queue.lean ====
section
/-! DEFINITION. Stream queues (07_stream_queues) and inbox rings (06_core_memories): cells, credits, packets, LOSSY queues, stream
messages, pointer protection, and the queue-port slot. -/

namespace Sys2Proof.Machine

/-- Where a queue stands in `State.queues`. -/
def queueKey (q : CluRef) (n : Nat) : Nat := (q.site * 2 + q.clu) * 1024 + n

/-- A queue of a cluster. -/
def State.queue (s : State) (q : CluRef) (n : Nat) : QueueSt := mapGet QueueSt.empty s.queues (queueKey q n)

/-- Write a queue. -/
def State.setQueue (s : State) (q : CluRef) (n : Nat) (x : QueueSt) : State :=
  { s with queues := mapSet QueueSt.empty s.queues (queueKey q n) x }

/-- The free list's two copies differ (R194, R197). -/
def Clu.FL_MISMATCH : Fld := ⟨0x1400100, 0, 1, 0, .int⟩
/-- A stale token has been received since the last epoch switch (R333). -/
def Clu.STALE_SEEN : Fld := ⟨0x1400100, 1, 1, 0, .int⟩

/-- The saturated length or drop count (R181, R186). -/
def lenMax : Nat := 0xFFFFFFFF

/-- The numbers of the cells that queues of a cluster hold. -/
def State.usedCells (s : State) (q : CluRef) : List Nat :=
  (mapRange (queueKey q 0) (queueKey q 1024) s.queues).flatMap fun e => e.2.cells.map (·.cellNo)

/-- The first number from k on that a list does not hold. -/
def firstFree : Nat → Nat → List Nat → Nat
  | 0, k, _ => k
  | n + 1, k, used => if used.contains k then firstFree n (k + 1) used else k

/-- Byte 0 of a cell's data in the pool. -/
def cellKey (q : CluRef) (cellNo : Nat) : Nat := cluKey q Mem.POOL (cellNo * 64)

/-- Cells held (R177). -/
def QueueSt.held (x : QueueSt) : Nat := x.cells.length

/-- Cells from the open packet on that are not readable (R187). -/
def QueueSt.gated (x : QueueSt) (cut : Nat) : Nat :=
  match x.openPkt with
  | some n => if cut = 0 ∨ n < cut then n else 0
  | none => 0

/-- Cells from HEAD on that are readable. -/
def QueueSt.readableEnd (x : QueueSt) (cut : Nat) : Nat := x.held - x.gated cut

/-- Readable cells from RPTR on (R183). -/
def QueueSt.readable (x : QueueSt) (cut : Nat) : Nat := x.readableEnd cut - x.rptr

/-- The consumer core of a queue. -/
def State.consumer (s : State) (q : CluRef) (n : Nat) : CoreRef := ⟨q.site, q.clu * 24 + s.qget q (Reg.CLU_QCFG.CONSUMER n)⟩

/-- Arrival mode 1: count the cells that became readable (R188). -/
def State.countArrivals (s : State) (q : CluRef) (n : Nat) (old : QueueSt) : State :=
  let cut := s.qget q (Reg.CLU_QCFG.CUT n)
  let k := (s.queue q n).readableEnd cut - old.readableEnd cut
  if s.qget q (Reg.CLU_QCFG.ARR_MODE n) = 1 ∧ 0 < k then
    s.addCounter (s.consumer q n) (s.qget q (Reg.CLU_QCFG.ARR_CTR n)) k
  else s

/-- Capture a pointer mismatch and raise the notice (R194). -/
def State.ptrError (s : State) (q : CluRef) (n which : Nat) : State :=
  let s1 := s.notify q.site (48 + q.clu) 0x0201 3 (n + which * 1024) 0
  if s1.qget q Reg.CLU_QPTR_ERR.VALID = 1 then s1
  else ((s1.qput q Reg.CLU_QPTR_ERR.VALID 1).qput q Reg.CLU_QPTR_ERR.QUEUE n).qput q Reg.CLU_QPTR_ERR.WHICH which

/-- A free-list mismatch (R197): the pool accepts nothing more, and the squads with a consumer in the cluster are whistled. -/
def State.freeListError (s : State) (q : CluRef) : State :=
  ((s.ptrError q 0 4).qput q Reg.CLU_QPOOL.FL_BROKEN 1).whistle q.site Cause.QUEUE

/-- A queue mismatch (R194, R195): the queue goes to SWEEP, and a CREDITED queue whistles its consumer's squad. -/
def State.queueError (s : State) (q : CluRef) (n which : Nat) : State :=
  let s1 := (s.ptrError q n (if which = 4 then 5 else which)).qput q (Reg.CLU_QSTATE.STATE n) 2
  if s1.qget q (Reg.CLU_QCFG.MODE n) = 0 then s1.whistle q.site Cause.QUEUE else s1

/-- The first of the pointers an operation reads whose copies differ (R194). -/
def QueueSt.damaged (x : QueueSt) (ptrs : List Nat) : Option Nat := ptrs.find? (x.mismatch.testBit ·)

/-- Link a cell at the tail (R177, R178): it takes a free cell, and arrivals are counted. -/
def State.linkCell (s : State) (q : CluRef) (n kind len epoch : Nat) (reset : Bool) (data : List (Byte × Bool)) : State :=
  let used := s.usedCells q
  let k := firstFree used.length 0 used
  let x := s.queue q n
  let pkt := if kind = 1 ∧ len = lenMax then some 1 else x.openPkt.map (· + 1)
  let s1 := (s.wrP (cellKey q k) data).qput q Reg.CLU_QPOOL.FREE (s.qget q Reg.CLU_QPOOL.FREE - 1)
  let s2 := s1.setQueue q n { x with cells := x.cells ++ [⟨k, kind, len, epoch, false, reset⟩], openPkt := pkt }
  let s3 := if kind = 2 then s2.qbump q (Reg.CLU_QSTATE.GAPS n) else s2
  s3.countArrivals q n x

/-- 64 zero bytes without poison. -/
def zeroCell : List (Byte × Bool) := List.replicate 64 (0, false)

/-- Link a gap marker (R181, R196). -/
def State.linkMarker (s : State) (q : CluRef) (n drops : Nat) (reset : Bool) : State :=
  s.linkCell q n 2 (min drops lenMax) (s.qget q Reg.CLU_QPOOL.EPOCH) reset zeroCell

/-- A dropped cell of a LOSSY queue is recorded (R181). -/
def State.dropCell (s : State) (q : CluRef) (n : Nat) : State :=
  let x := s.queue q n
  if x.pendDrops ≠ 0 then s.setQueue q n { x with pendDrops := min (x.pendDrops + 1) lenMax }
  else
    match x.cells.getLast? with
    | some c =>
      if c.kind = 2 ∧ ¬ c.popped then
        s.setQueue q n { x with cells := x.cells.dropLast ++ [{ c with len := min (c.len + 1) lenMax }] }
      else if x.held < s.qget q (Reg.CLU_QCFG.QUOTA n) then s.linkMarker q n 1 false
      else s.setQueue q n { x with pendDrops := 1 }
    | none =>
      if x.held < s.qget q (Reg.CLU_QCFG.QUOTA n) then s.linkMarker q n 1 false
      else s.setQueue q n { x with pendDrops := 1 }

/-- A cell reaches a queue's tail (R177, R180, R181, R194): linked, dropped by a full LOSSY queue, or dropped during a sweep. -/
def State.arriveCell (s : State) (q : CluRef) (n : Nat) (first : Bool) (epoch : Nat) (data : List (Byte × Bool)) : State :=
  let x := s.queue q n
  if s.qget q Reg.CLU_QPOOL.FL_BROKEN = 1 ∨ s.qget q (Reg.CLU_QSTATE.STATE n) = 0 then s
  else if s.qget q (Reg.CLU_QSTATE.STATE n) = 2 then s.setQueue q n { x with sweepDrops := x.sweepDrops + 1 }
  else if s.qget q Clu.FL_MISMATCH = 1 then s.freeListError q
  else
    match x.damaged [1] with
    | some p => (s.setQueue q n { x with sweepDrops := x.sweepDrops + 1 }).queueError q n p
    | none =>
      if s.qget q (Reg.CLU_QCFG.MODE n) = 1 ∧ (x.pendDrops ≠ 0 ∨ s.qget q (Reg.CLU_QCFG.QUOTA n) < x.held + 2) then
        s.dropCell q n
      else s.linkCell q n (if first then 1 else 0) (if first then lenMax else 0) epoch false data

/-- The length slot of the open packet is written (R186–R188). -/
def State.closeLength (s : State) (q : CluRef) (n len : Nat) : State :=
  let x := s.queue q n
  if s.qget q (Reg.CLU_QSTATE.STATE n) ≠ 1 ∨ x.openPkt.isNone then s
  else
    let cells := x.cells.map fun c => if c.kind = 1 ∧ c.len = lenMax then { c with len := len } else c
    let s1 := (s.setQueue q n { x with cells := cells, openPkt := none }).countArrivals q n x
    if s1.qget q (Reg.CLU_QCFG.ARR_MODE n) = 2 then
      s1.addCounter (s1.consumer q n) (s1.qget q (Reg.CLU_QCFG.ARR_CTR n)) len
    else s1

/-- A stream message leaves a cluster (R190). -/
def State.sendStream (s : State) (m : StreamMsg) : State := { s with streamOut := s.streamOut ++ [m] }

/-- Return credits for freed cells to the producer port of a CREDITED queue (R179): at once to a local port, in a CREDIT message to a
route port. -/
def State.returnCredits (s : State) (q : CluRef) (n k : Nat) : State :=
  if k = 0 ∨ s.qget q (Reg.CLU_QCFG.MODE n) = 1 then s
  else
    let core := s.qget q (Reg.CLU_QSRC.PCORE n)
    let port := s.qget q (Reg.CLU_QSRC.PPORT n)
    if s.ldieOf q.site = some (core / 48) ∧ core % 48 / 24 = q.clu ∧ s.qget q (Reg.CLU_QPORT.KIND port) = 0 then
      s.qput q (Reg.CLU_QPSTATE.CREDITS port) (s.qget q (Reg.CLU_QPSTATE.CREDITS port) + k)
    else
      s.sendStream { kind := 2, epoch := s.qget q Reg.CLU_QPOOL.EPOCH, ddie := core / 48, dclu := core % 48 / 24, ring := false,
                     dring := 0, dindex := port, dcore := 0, first := false, poison := 0, count := k, data := [] }

/-- Free the first k cells of a queue (R179, R181, R185): they return to the free list, credits return, and a pending drop count is linked
as a marker. -/
def State.freeCells (s : State) (q : CluRef) (n k : Nat) : State :=
  let x := s.queue q n
  let k := min k x.held
  if k = 0 then s
  else
    let s1 := (s.setQueue q n { x with cells := x.cells.drop k, rptr := x.rptr - k, mark := x.mark - k }).qput q
      Reg.CLU_QPOOL.FREE (s.qget q Reg.CLU_QPOOL.FREE + k)
    let s2 := s1.returnCredits q n k
    if x.pendDrops ≠ 0 then (s2.setQueue q n { s2.queue q n with pendDrops := 0 }).linkMarker q n x.pendDrops false else s2

/-! ### The queue-port slot and the queue wait -/

/-- The fields of the queue-port slot (R56). -/
structure QpSlot where
  op : Nat
  port : Nat
  tbuf : Nat
  cell : Nat

/-- Reading the fields of a queue-port slot. -/
def qpSlot (v : Nat) : QpSlot := ⟨bitsOf v 9 6, bitsOf v 19 10, bitsOf v 21 20, bitsOf v 29 22⟩

/-- Faults the queue-port slot's own bits decide (R56, R63). -/
def qpStatic (v : Nat) : List Nat :=
  let p := qpSlot v
  if v = 0 then []
  else if 7 < p.op ∨ bitsOf v 31 30 ≠ 0 ∨ (p.op = 0 ∧ extraBits v 0x3F) ∨ (2 < p.op ∧ (p.tbuf ≠ 0 ∨ p.cell ≠ 0)) then [0x01]
  else []

/-- A field of a port table entry of a core's cluster. -/
def State.pget (s : State) (c : CoreRef) (f : Nat → Fld) (port : Nat) : Nat := s.qget (cluOf c) (f port)

/-- The port is bound to a queue of its own cluster. -/
def State.localPort (s : State) (c : CoreRef) (port : Nat) : Bool := s.pget c Reg.CLU_QPORT.KIND port < 2

/-- The port's destination is LOSSY. -/
def State.lossyPort (s : State) (c : CoreRef) (port : Nat) : Bool :=
  s.pget c Reg.CLU_QPORT.LOSSY port = 1
    || (s.localPort c port && s.qget (cluOf c) (Reg.CLU_QCFG.MODE (s.pget c Reg.CLU_QPORT.QUEUE port)) = 1)

/-- The queue of a local port. -/
def State.portQueue (s : State) (c : CoreRef) (port : Nat) : Nat := s.pget c Reg.CLU_QPORT.QUEUE port

/-- Cases common to operations and waits that are fault 0x09 (R198): not enabled, another owner, or a local queue in SWEEP. -/
def State.portBad (s : State) (c : CoreRef) (port : Nat) : Bool :=
  s.pget c Reg.CLU_QPORT.EN port = 0 || s.pget c Reg.CLU_QPORT.OWNER port != inCluster c
    || (s.localPort c port && s.qget (cluOf c) (Reg.CLU_QSTATE.STATE (s.portQueue c port)) = 2)

/-- Operation not permitted for the kind of port (R173). -/
def kindForbids (kind op : Nat) : Bool :=
  let producerOp := op == 1 || op == 3 || op == 4
  match kind with
  | 0 => !producerOp
  | 1 => producerOp
  | 2 => !producerOp
  | _ => true

/-- Fault 0x09 of a queue-port operation (R198). -/
def qpDynamic (s : State) (c : CoreRef) (v : Nat) : List Nat :=
  let p := qpSlot v
  if p.op = 0 then []
  else
    let pkt := s.pget c Reg.CLU_QPSTATE.PKT_OPEN p.port
    let cells := s.pget c Reg.CLU_QPSTATE.PKT_CELLS p.port
    let ring := s.pget c Reg.CLU_QPORT.KIND p.port = 2 ∧ s.pget c Reg.CLU_QPORT.RING p.port = 1
    if s.portBad c p.port || kindForbids (s.pget c Reg.CLU_QPORT.KIND p.port) p.op
        || (p.op == 3 && pkt == 1) || (p.op == 4 && (pkt == 0 || cells == 0))
        || (p.op == 1 && pkt == 1 && cells + 1 == lenMax)
        || ((p.op == 3 || p.op == 4) && (s.lossyPort c p.port || ring))
        || (5 ≤ p.op && s.qget (cluOf c) (Reg.CLU_QCFG.AUTO_REL (s.portQueue c p.port)) == 1) then [0x09]
    else []

/-- The implicit wait of a queue-port operation is met (R58). -/
def qpReady (s : State) (c : CoreRef) (v : Nat) : Bool :=
  let p := qpSlot v
  let n := s.portQueue c p.port
  let broken := s.qget (cluOf c) Reg.CLU_QPOOL.FL_BROKEN == 1
  match p.op with
  | 1 => !broken && (s.lossyPort c p.port || 0 < s.pget c Reg.CLU_QPSTATE.CREDITS p.port)
  | 2 => !broken && 0 < (s.queue (cluOf c) n).readable (s.qget (cluOf c) (Reg.CLU_QCFG.CUT n))
  | _ => true

/-- A queue condition holds (R183). -/
def queueCond (s : State) (c : CoreRef) (port cond m : Nat) : Bool :=
  let n := s.portQueue c port
  let x := s.queue (cluOf c) n
  let cut := s.qget (cluOf c) (Reg.CLU_QCFG.CUT n)
  let m := if m = 0 then 16 else m
  match cond with
  | 0 => m ≤ x.readable cut
  | 1 => s.lossyPort c port || m ≤ s.pget c Reg.CLU_QPSTATE.CREDITS port
  | _ =>
    match x.cells[x.rptr]? with
    | some k => 0 < x.readable cut && k.kind == 1 && k.len != lenMax
    | none => false

/-- Fault 0x09 of a queue wait (R173, R198). -/
def waitDynamic (s : State) (c : CoreRef) (port cond : Nat) : List Nat :=
  let kind := s.pget c Reg.CLU_QPORT.KIND port
  let n := s.portQueue c port
  let x := s.queue (cluOf c) n
  let kindBad := if kind = 1 then cond = 1 else cond ≠ 1
  let notFirst := cond == 2 && 0 < x.readable (s.qget (cluOf c) (Reg.CLU_QCFG.CUT n))
    && (match x.cells[x.rptr]? with | some k => k.kind != 1 | none => false)
  if s.portBad c port || kindBad || (cond == 2 && s.lossyPort c port) || notFirst then [0x09] else []

/-- Byte 0 of a cell place in a tile buffer (R56). -/
def tileCell (c : CoreRef) (tbuf cell : Nat) : Nat := coreKey c Mem.TILE (tbuf * 16384 + cell * 64)

/-- `PUSH` (R178, R179, R186): the cell is read from the tile buffer, a credit is spent, and the cell is linked or sent. -/
def State.qpPush (s : State) (c : CoreRef) (p : QpSlot) : State :=
  let q := cluOf c
  let k := tileCell c p.tbuf p.cell
  let data := s.rdP k 64
  let s0 := s.pathRead c k 64
  let pkt := s.pget c Reg.CLU_QPSTATE.PKT_OPEN p.port = 1
  let cells := s.pget c Reg.CLU_QPSTATE.PKT_CELLS p.port
  let first : Bool := pkt && cells == 0
  let s1 := if s.lossyPort c p.port then s0
    else s0.qput q (Reg.CLU_QPSTATE.CREDITS p.port) (s.pget c Reg.CLU_QPSTATE.CREDITS p.port - 1)
  let s2 := if pkt then s1.qput q (Reg.CLU_QPSTATE.PKT_CELLS p.port) (cells + 1) else s1
  let epoch := s.cget c Reg.CORE_SCHED_STATUS.EPOCH
  if s.pget c Reg.CLU_QPORT.KIND p.port = 0 then s2.arriveCell q (s.portQueue c p.port) first epoch data
  else
    let ring := s.pget c Reg.CLU_QPORT.RING p.port = 1
    s2.sendStream
      { kind := 0, epoch := epoch, ddie := s.pget c Reg.CLU_QPORT.DDIE p.port, dclu := s.pget c Reg.CLU_QPORT.DCLU p.port,
        ring := ring, dring := if ring then s.pget c Reg.CLU_QPORT.DRING p.port else 0,
        dindex := if ring then 0 else s.pget c Reg.CLU_QPORT.DQUEUE p.port,
        dcore := if ring then s.pget c Reg.CLU_QPORT.DCORE p.port else 0, first := first,
        poison := BitVec.ofNat 8 (((List.range 8).filter fun w => ((data.drop (8 * w)).take 8).any (·.2)).foldl (fun a w => a + 2 ^ w) 0),
        count := 0, data := data.map (·.1) }

/-- What a `POP` writes: the cell's data, or the body of a marker (R182). -/
def State.popBody (s : State) (q : CluRef) (x : QCell) : List (Byte × Bool) :=
  if x.kind = 2 then
    ((leBytes 4 x.len) ++ [BitVec.ofNat 8 ((if x.len = lenMax then 1 else 0) + (if x.reset then 2 else 0))]
      ++ List.replicate 59 0).map fun b => (b, false)
  else s.rdP (cellKey q x.cellNo) 64

/-- `POP` (R57, R184, R189): the tile buffer's write port is taken 4 cycles later. -/
def State.qpPop (s : State) (c : CoreRef) (p : QpSlot) : State :=
  let q := cluOf c
  let n := s.portQueue c p.port
  let x := s.queue q n
  match x.damaged [2], x.cells[x.rptr]? with
  | some d, _ => s.queueError q n d
  | none, none => s
  | none, some k =>
    let s0 := if k.kind = 2 then s else s.pathRead c (cellKey q k.cellNo) 64
    let s1 := s0.wrP (tileCell c p.tbuf p.cell) (s.popBody q k)
    let auto := s.qget q (Reg.CLU_QCFG.AUTO_REL n) = 1
    let x1 := { x with cells := x.cells.set x.rptr { k with popped := true }, rptr := x.rptr + 1,
                       mark := if auto then x.rptr + 1 else x.mark }
    let s2 := s1.setQueue q n x1
    let s3 := if auto then s2.freeCells q n (x.rptr + 1) else s2
    let s4 := s3.addFlights c [(4, .tileWrite p.tbuf)]
    if k.kind = 2 ∧ s.qget q (Reg.CLU_QCFG.GAP_EN n) = 1 then s4.addCounter c (s.qget q (Reg.CLU_QCFG.GAP_CTR n)) 1 else s4

/-- `OPEN` (R186). -/
def State.qpOpen (s : State) (c : CoreRef) (p : QpSlot) : State :=
  (s.qput (cluOf c) (Reg.CLU_QPSTATE.PKT_OPEN p.port) 1).qput (cluOf c) (Reg.CLU_QPSTATE.PKT_CELLS p.port) 0

/-- `CLOSE` (R186). -/
def State.qpClose (s : State) (c : CoreRef) (p : QpSlot) : State :=
  let len := s.pget c Reg.CLU_QPSTATE.PKT_CELLS p.port
  let s1 := (s.qput (cluOf c) (Reg.CLU_QPSTATE.PKT_OPEN p.port) 0).qput (cluOf c) (Reg.CLU_QPSTATE.PKT_CELLS p.port) 0
  if s.pget c Reg.CLU_QPORT.KIND p.port = 0 then s1.closeLength (cluOf c) (s.portQueue c p.port) len
  else
    s1.sendStream
      { kind := 1, epoch := s.cget c Reg.CORE_SCHED_STATUS.EPOCH, ddie := s.pget c Reg.CLU_QPORT.DDIE p.port,
        dclu := s.pget c Reg.CLU_QPORT.DCLU p.port, ring := false, dring := 0, dindex := s.pget c Reg.CLU_QPORT.DQUEUE p.port,
        dcore := 0, first := false, poison := 0, count := len, data := [] }

/-- `MARK` (R185). -/
def State.qpMark (s : State) (c : CoreRef) (p : QpSlot) : State :=
  let n := s.portQueue c p.port
  let x := s.queue (cluOf c) n
  match x.damaged [2] with
  | some d => s.queueError (cluOf c) n d
  | none => s.setQueue (cluOf c) n { x with mark := x.rptr }

/-- `REWIND` (R185). -/
def State.qpRewind (s : State) (c : CoreRef) (p : QpSlot) : State :=
  let n := s.portQueue c p.port
  let x := s.queue (cluOf c) n
  match x.damaged [3] with
  | some d => s.queueError (cluOf c) n d
  | none => s.setQueue (cluOf c) n { x with rptr := x.mark }

/-- `RELEASE` (R185). -/
def State.qpRelease (s : State) (c : CoreRef) (p : QpSlot) : State :=
  let n := s.portQueue c p.port
  let x := s.queue (cluOf c) n
  match x.damaged [0, 2] with
  | some d => s.queueError (cluOf c) n d
  | none =>
    if s.qget (cluOf c) Clu.FL_MISMATCH = 1 ∧ 0 < x.rptr then s.freeListError (cluOf c)
    else (s.setQueue (cluOf c) n { x with mark := x.rptr }).freeCells (cluOf c) n x.rptr

/-- The effect of an issued queue-port slot. -/
def State.qpIssue (s : State) (c : CoreRef) (v : Nat) : State :=
  let p := qpSlot v
  match p.op with
  | 1 => s.qpPush c p
  | 2 => s.qpPop c p
  | 3 => s.qpOpen c p
  | 4 => s.qpClose c p
  | 5 => s.qpMark c p
  | 6 => s.qpRewind c p
  | 7 => s.qpRelease c p
  | _ => s

/-! ### Stream messages and inbox rings -/

/-- A stale token (R192, R333): counted, and the first after an epoch switch raises a notice. `tok` is 0 message, 1 ring delivery,
2 reply. -/
def State.staleToken (s : State) (q : CluRef) (tok epoch : Nat) : State :=
  if s.qget q Clu.STALE_SEEN = 1 then s
  else (s.qput q Clu.STALE_SEEN 1).notify q.site (48 + q.clu) 0x0203 0 tok epoch

/-- The message is no longer on its way. -/
def State.takeStream (s : State) (m : StreamMsg) : State := { s with streamOut := dropFirst (· == m) s.streamOut }

/-- The bytes of a CELL message with the poison of its words (R190). -/
def cellData (m : StreamMsg) : List (Byte × Bool) :=
  (List.range 64).map fun i => (m.data.getD i 0, m.poison.toNat.testBit (i / 8))

/-- The cluster a message is for. -/
def State.destCluster (s : State) (m : StreamMsg) : CluRef := ⟨s.siteOf m.ddie, m.dclu⟩

/-- A delivery into an inbox ring (R159, R162). -/
def State.ringDelivery (s : State) (m : StreamMsg) : State :=
  let q := s.destCluster m
  let c : CoreRef := ⟨q.site, q.clu * 24 + m.dcore⟩
  let r := m.dring
  if m.epoch ≠ s.cget c Reg.CORE_SCHED_STATUS.EPOCH then (s.qbump q Reg.CLU_QSTALE.STALE).staleToken q 1 m.epoch
  else if s.cget c (Reg.CORE_INBOX_DESC.EN r) = 0 then s
  else
    let size := s.cget c (Reg.CORE_INBOX_DESC.SIZE r)
    let filled := s.cget c (Reg.CORE_INBOX_STATE.FILLED r)
    if size ≤ filled then
      let s1 := s.cbump c (Reg.CORE_INBOX_STATE.DROPS r)
      s1.notify c.site c.core 0x0104 3 r (s1.cget c (Reg.CORE_INBOX_STATE.DROPS r))
    else
      let w := s.cget c (Reg.CORE_INBOX_STATE.WPTR r)
      let s1 := s.wrP (coreKey c Mem.SP ((s.cget c (Reg.CORE_INBOX_DESC.BASE r) + w) * 64)) (cellData m)
      ((s1.cput c (Reg.CORE_INBOX_STATE.WPTR r) ((w + 1) % size)).cput c (Reg.CORE_INBOX_STATE.FILLED r) (filled + 1)).addCounter c
        (s.cget c (Reg.CORE_INBOX_DESC.COUNTER r)) 1

/-- A CELL message arrives (R190, R192). -/
def State.cellMessage (s : State) (m : StreamMsg) : State :=
  let q := s.destCluster m
  if m.ring then (s.takeStream m).ringDelivery m
  else if m.epoch ≠ s.qget q Reg.CLU_QPOOL.EPOCH then ((s.takeStream m).qbump q Reg.CLU_QSTALE.STALE).staleToken q 0 m.epoch
  else (s.takeStream m).arriveCell q m.dindex m.first m.epoch (cellData m)

/-- A CLOSE message arrives (R186, R192). -/
def State.closeArrives (s : State) (m : StreamMsg) : State :=
  let q := s.destCluster m
  if m.epoch ≠ s.qget q Reg.CLU_QPOOL.EPOCH then ((s.takeStream m).qbump q Reg.CLU_QSTALE.STALE).staleToken q 0 m.epoch
  else if s.qget q Reg.CLU_QPOOL.FL_BROKEN = 1 then s.takeStream m
  else (s.takeStream m).closeLength q m.dindex m.count

/-- A CREDIT message arrives (R179, R192). -/
def State.creditArrives (s : State) (m : StreamMsg) : State :=
  let q := s.destCluster m
  if m.epoch ≠ s.qget q Reg.CLU_QPOOL.EPOCH then ((s.takeStream m).qbump q Reg.CLU_QSTALE.STALE).staleToken q 0 m.epoch
  else if s.qget q Reg.CLU_QPOOL.FL_BROKEN = 1 then s.takeStream m
  else (s.takeStream m).qput q (Reg.CLU_QPSTATE.CREDITS m.dindex) (s.qget q (Reg.CLU_QPSTATE.CREDITS m.dindex) + m.count)

/-- The sender's route port of an inbox ring of a core (R158, R173). -/
def State.ringPort (s : State) (c : CoreRef) (r : Nat) : CluRef × Nat :=
  let sender := s.coreOf (s.cget c (Reg.CORE_INBOX_DESC.SENDER r))
  let q := cluOf sender
  let port := (List.range 1024).find? fun p =>
    s.qget q (Reg.CLU_QPORT.EN p) == 1 && s.qget q (Reg.CLU_QPORT.KIND p) == 2 && s.qget q (Reg.CLU_QPORT.RING p) == 1
      && s.ldieOf c.site == some (s.qget q (Reg.CLU_QPORT.DDIE p)) && s.qget q (Reg.CLU_QPORT.DCLU p) == c.core / 24
      && s.qget q (Reg.CLU_QPORT.DCORE p) == inCluster c && s.qget q (Reg.CLU_QPORT.DRING p) == r
  (q, port.getD 0)

/-- A counter wait of N on a ring's counter: the lines held by the wait before are released, and HELD becomes N (R160). -/
def State.ringWait (s : State) (c : CoreRef) (ctr n : Nat) : State :=
  match (List.range 8).find? (fun r => s.cget c (Reg.CORE_INBOX_DESC.EN r) == 1 && s.cget c (Reg.CORE_INBOX_DESC.COUNTER r) == ctr) with
  | none => s
  | some r =>
    let held := s.cget c (Reg.CORE_INBOX_STATE.HELD r)
    let s1 := (s.cput c (Reg.CORE_INBOX_STATE.FILLED r) (s.cget c (Reg.CORE_INBOX_STATE.FILLED r) - held)).cput c
      (Reg.CORE_INBOX_STATE.HELD r) n
    if held = 0 then s1
    else
      let sender := s.cget c (Reg.CORE_INBOX_DESC.SENDER r)
      s1.sendStream
        { kind := 2, epoch := s.qget (cluOf c) Reg.CLU_QPOOL.EPOCH, ddie := sender / 48, dclu := sender % 48 / 24, ring := false,
          dring := 0, dindex := (s.ringPort c r).2, dcore := 0, first := false, poison := 0, count := held, data := [] }

/-- The sweep of a damaged queue ends (R194, R196). -/
def State.sweepDone (s : State) (q : CluRef) (n : Nat) : State :=
  if s.qget q (Reg.CLU_QSTATE.STATE n) ≠ 2 then s
  else
    let x := s.queue q n
    let drops := x.sweepDrops + x.pendDrops + (x.cells.map fun c => if c.kind = 2 then c.len else 1).sum
    let s1 := (s.setQueue q n QueueSt.empty).qput q Reg.CLU_QPOOL.FREE (s.qget q Reg.CLU_QPOOL.FREE + x.held)
    let s2 := ((s1.returnCredits q n x.held).qbump q (Reg.CLU_QSTATE.RESETS n)).qput q (Reg.CLU_QSTATE.STATE n) 1
    if s2.qget q (Reg.CLU_QCFG.MODE n) = 1 then s2.linkMarker q n drops true else s2

/-- CLU_QSTATEq as read (R201). -/
def State.qstateView (s : State) (q : CluRef) (n : Nat) : Nat :=
  let x := s.queue q n
  x.held % 2 ^ 16 + (x.held - x.rptr) * 2 ^ 16 + s.qget q (Reg.CLU_QSTATE.STATE n) * 2 ^ 32
    + (if x.cells.any (fun c => c.kind == 1 && c.len == lenMax) then 2 ^ 34 else 0)
    + s.qget q (Reg.CLU_QSTATE.GAPS n) * 2 ^ 35 + s.qget q (Reg.CLU_QSTATE.RESETS n) * 2 ^ 51
    + (if x.pendDrops ≠ 0 then 2 ^ 59 else 0)

/-- CLU_QPTRq as read (R201). -/
def State.qptrView (s : State) (q : CluRef) (n : Nat) : Nat :=
  let x := s.queue q n
  let no (i : Nat) : Nat := ((x.cells[min i (x.held - 1)]?).map (·.cellNo)).getD 0
  no 0 + no (x.held - 1) * 2 ^ 15 + no x.rptr * 2 ^ 30 + no x.mark * 2 ^ 45
    + (if x.held ≤ x.rptr then 2 ^ 60 else 0) + (if x.held ≤ x.mark then 2 ^ 61 else 0)

end Sys2Proof.Machine
end

