-- ==== Sys2Proof/Machine/Issue.lean ====
section
/-! DEFINITION. The sequencer (02_core_schedule): slots and guards, checks, waits and slip, hardware loops, the move channels beat by
beat with the cluster-memory arbitration of R155–R157, and the issue of one word. A word is a number of 256 bits. -/

namespace Sys2Proof.Machine

/-! ### Slots -/

/-- The slots of a word (R31), each in its local bits. -/
structure Slots where
  mx : Nat
  vx : Nat
  mv0 : Nat
  mv1 : Nat
  qp : Nat
  wt : Nat
  pl : Nat

/-- Reading the slots of a word (R31). -/
def slotsOf (w : Nat) : Slots :=
  ⟨bitsOf w 63 0, bitsOf w 127 64, bitsOf w 151 128, bitsOf w 175 152, bitsOf w 207 176, bitsOf w 231 208, bitsOf w 255 232⟩

/-- A guard whose GUARDED is 0 must be zero (R32). -/
def badGuard (v : Nat) : Bool := !v.testBit 5 && bitsOf v 4 0 != 0

/-- Whether a slot's guard lets it issue (R32). -/
def State.live (s : State) (c : CoreRef) (v : Nat) : Bool :=
  !v.testBit 5 || s.cflag c (Reg.CORE_PRED.P (bitsOf v 3 0)) != v.testBit 4

/-! ### Hardware loops and predicates -/

/-- A loop descriptor of a core (R37). -/
def State.loopDesc (s : State) (c : CoreRef) (n : Nat) : Nat := s.table c Table.LOOP 8 n

/-- Faults the predicate/loop slot and the loop descriptor it names decide alone (R37, R41, R63). -/
def plStatic (s : State) (c : CoreRef) (v : Nat) : List Nat :=
  match bitsOf v 9 6 with
  | 0 => if extraBits v 0x3FF then [0x01] else []
  | 1 =>
    let d := s.loopDesc c (bitsOf v 16 12)
    if extraBits v 0x1FFFF ∨ bitsOf d 63 39 ≠ 0 ∨ (d.testBit 24 ∧ bitsOf d 23 0 ≠ 0) ∨ (¬ d.testBit 24 ∧ bitsOf d 27 25 ≠ 0) then [0x01]
    else []
  | 2 => if extraBits v 0x7FFF then [0x01] else []
  | 3 => if extraBits v 0x7FFFF ∨ 5 < bitsOf v 18 16 then [0x01] else []
  | 4 => []
  | 5 => if extraBits v 0x1FFFF then [0x01] else []
  | 6 => if extraBits v 0x3FF then [0x01] else []
  | _ => [0x01]

/-- Open loops of a core. -/
def State.openLoops (s : State) (c : CoreRef) : Nat := s.cget c Reg.CORE_SCHED_STATUS.OPEN_LOOPS

/-- Faults of the predicate/loop slot that depend on the core's state (R38, R41, R161). -/
def plDynamic (s : State) (c : CoreRef) (v addr : Nat) : List Nat :=
  match bitsOf v 9 6 with
  | 1 =>
    let fin := bitsOf (s.loopDesc c (bitsOf v 16 12)) 38 28
    (if bitsOf v 11 10 ≠ s.openLoops c ∨ 4 ≤ s.openLoops c then [0x02] else [])
      ++ (if fin < addr + 1 ∨ (List.range (s.openLoops c)).any (fun l => s.cget c (Reg.CORE_LOOP_STATE.END l) < fin) then [0x03] else [])
  | 3 => if s.openLoops c ≤ bitsOf v 15 14 then [0x03] else []
  | 5 => if s.ringCounter c (bitsOf v 16 13) then [0x0B] else []
  | _ => []

/-- The iteration index of an open loop: how many passes of its body are done (R41). -/
def State.iteration (s : State) (c : CoreRef) (l : Nat) : Nat :=
  s.cget c (Core.LOOPCOUNT l) - 1 - s.cget c (Reg.CORE_LOOP_STATE.LEFT l)

/-- The value a predicate/loop slot writes and its predicate (R41). -/
def plPred (s : State) (c : CoreRef) (v : Nat) : Option (Nat × Bool) :=
  let p (i : Nat) : Bool := s.cflag c (Reg.CORE_PRED.P i)
  match bitsOf v 9 6 with
  | 2 => some (bitsOf v 13 10, v.testBit 14)
  | 3 =>
    let l := bitsOf v 15 14
    let i := s.iteration c l
    let left := s.cget c (Reg.CORE_LOOP_STATE.LEFT l)
    some (bitsOf v 13 10, match bitsOf v 18 16 with
      | 0 => i == 0 | 1 => left == 0 | 2 => i != 0 | 3 => left != 0 | 4 => i % 2 == 0 | _ => i % 2 == 1)
  | 4 =>
    let a := p (bitsOf v 17 14)
    let b := p (bitsOf v 21 18)
    some (bitsOf v 13 10, match bitsOf v 23 22 with
      | 0 => a && b | 1 => a || b | 2 => a != b | _ => a && !b)
  | _ => none

/-- Close the innermost loop. -/
def State.closeLoop (s : State) (c : CoreRef) (l : Nat) : State :=
  (((((s.cput c (Reg.CORE_LOOP_STATE.LEFT l) 0).cput c (Reg.CORE_LOOP_STATE.START l) 0).cput c (Reg.CORE_LOOP_STATE.END l) 0).cset c
    (Reg.CORE_LOOP_STATE.OPEN l) false).cput c (Core.LOOPCOUNT l) 0).cput c Reg.CORE_SCHED_STATUS.OPEN_LOOPS l

/-- The next word goes to ADDR; beyond word 2,047 it is marked (R63). -/
def State.gotoWord (s : State) (c : CoreRef) (a : Nat) : State :=
  if 2047 < a then (s.cput c Reg.CORE_SCHED_STATUS.ADDR 2047).cset c Core.PAST true else s.cput c Reg.CORE_SCHED_STATUS.ADDR a

/-- The word after word `a`: the open loops that end there are checked, innermost first (R28, R39). The first argument bounds the levels. -/
def State.nextWord : Nat → State → CoreRef → Nat → State
  | 0, s, c, a => s.gotoWord c (a + 1)
  | n + 1, s, c, a =>
    let k := s.openLoops c
    if k = 0 ∨ s.cget c (Reg.CORE_LOOP_STATE.END (k - 1)) ≠ a then s.gotoWord c (a + 1)
    else
      let left := s.cget c (Reg.CORE_LOOP_STATE.LEFT (k - 1))
      if left ≠ 0 then
        (s.cput c (Reg.CORE_LOOP_STATE.LEFT (k - 1)) (left - 1)).gotoWord c (s.cget c (Reg.CORE_LOOP_STATE.START (k - 1)))
      else State.nextWord n (s.closeLoop c (k - 1)) c a

/-- Open a loop of n ≥ 1 iterations (R38). -/
def State.openLoop (s : State) (c : CoreRef) (l start fin n : Nat) : State :=
  (((((s.cput c (Reg.CORE_LOOP_STATE.LEFT l) (n - 1)).cput c (Reg.CORE_LOOP_STATE.START l) start).cput c (Reg.CORE_LOOP_STATE.END l) fin).cset c
    (Reg.CORE_LOOP_STATE.OPEN l) true).cput c (Core.LOOPCOUNT l) n).cput c Reg.CORE_SCHED_STATUS.OPEN_LOOPS (l + 1)

/-- The step to the next word, with the `LOOP` of the issued word (R38, R39). `s0` is the state at the start of the cycle. -/
def State.sequence (s s0 : State) (c : CoreRef) (v addr : Nat) : State :=
  if bitsOf v 9 6 = 1 then
    let d := s.loopDesc c (bitsOf v 16 12)
    let fin := bitsOf d 38 28
    let n := if d.testBit 24 then s0.cget c (Reg.CORE_LOOPCNT.VALUE (bitsOf d 27 25)) else bitsOf d 23 0
    if n = 0 then State.nextWord 5 s c fin
    else (s.openLoop c (bitsOf v 11 10) (addr + 1) fin n).gotoWord c (addr + 1)
  else State.nextWord 5 s c addr

/-! ### Moves -/

/-- A move descriptor (R54). -/
structure MoveDesc where
  srcSpace : Nat
  dstSpace : Nat
  srcOther : Bool
  dstOther : Bool
  beats : Nat
  rows : Nat
  srcStride : Int
  dstStride : Int
  srcInc : Int
  dstInc : Int
  reserved : Nat

/-- Reading a move descriptor (R54). -/
def moveDesc (w : Nat) : MoveDesc :=
  { srcSpace := bitsOf w 1 0, dstSpace := bitsOf w 3 2, srcOther := w.testBit 4, dstOther := w.testBit 5, beats := bitsOf w 75 64,
    rows := bitsOf w 95 80, srcStride := signedOf 20 (bitsOf w 115 96), dstStride := signedOf 20 (bitsOf w 135 116),
    srcInc := signedOf 20 (bitsOf w 155 136), dstInc := signedOf 20 (bitsOf w 175 156),
    reserved := bitsOf w 15 6 + bitsOf w 63 56 + bitsOf w 79 76 + bitsOf w 255 176 }

/-- Move descriptor n of a core. -/
def State.moveDesc (s : State) (c : CoreRef) (n : Nat) : MoveDesc := Machine.moveDesc (s.table c Table.MOVE 32 n)

/-- Units of 64 bytes of a space (R54, R94, R146). -/
def moveSpaceSize (sp : Nat) : Int := match sp with
  | 0 => 393216 | 1 => 24576 | 2 => 1024 | _ => 2048

/-- The units [lo, hi) a move touches (R55). -/
def moveExtent (base stride : Int) (rows beats : Nat) : Int × Int :=
  let span := ((rows : Int) - 1) * stride
  (base + min 0 span, base + max 0 span + 2 * beats)

/-- Operand-buffer halves that units [lo, hi) of a space lie in, as a mask A0 A1 B0 B1 (R94). -/
def moveHalves (sp : Nat) (lo hi : Int) : Nat :=
  let half (h : Int) : Nat := (if lo < h then 1 else 0) + (if h < hi then 2 else 0)
  match sp with
  | 2 => half 512 | 3 => half 1024 * 4 | _ => 0

/-- Faults a move slot and the descriptor it names decide alone (R53, R55). -/
def mvStatic (s : State) (c : CoreRef) (v : Nat) : List Nat :=
  if 1 < bitsOf v 7 6 ∨ bitsOf v 23 19 ≠ 0 then [0x01]
  else if bitsOf v 7 6 = 0 then (if extraBits v 0xFF then [0x01] else [])
  else
    let d := s.moveDesc c (bitsOf v 12 8)
    if d.reserved ≠ 0 ∨ 1 < d.srcSpace then [0x01] else []

/-- Faults of a move slot that depend on the core's state (R55, R102, R161). -/
def mvDynamic (s : State) (c : CoreRef) (ch v : Nat) : List Nat :=
  if bitsOf v 7 6 ≠ 1 then []
  else
    let n := bitsOf v 12 8
    let d := s.moveDesc c n
    let src := moveExtent (s.cget c (Core.MOVE_SRC n)) d.srcStride d.rows d.beats
    let dst := moveExtent (s.cget c (Core.MOVE_DST n)) d.dstStride d.rows d.beats
    let draining := if s.cget c Reg.CORE_MX_STATUS.OCC_LEFT = 0 then 0 else s.cget c Core.MX_DRAIN
    (if s.cflag c (Core.CH_BUSY ch) then [0x05] else [])
      ++ (if d.beats = 0 ∨ d.rows = 0 ∨ (d.srcOther ∧ d.srcSpace ≠ 0) ∨ (d.dstOther ∧ d.dstSpace ≠ 0) ∨ src.1 < 0
            ∨ moveSpaceSize d.srcSpace < src.2 ∨ dst.1 < 0 ∨ moveSpaceSize d.dstSpace < dst.2 then [0x06] else [])
      ++ (if v.testBit 17 ∧ s.ringCounter c (bitsOf v 16 13) then [0x0B] else [])
      ++ (if moveHalves d.dstSpace dst.1 dst.2 &&& draining ≠ 0 then [0x15] else [])

/-- `START` (R53–R55): the channel takes the descriptor's working addresses, which then advance under ADV. -/
def State.startMove (s : State) (c : CoreRef) (ch v addr : Nat) : State :=
  if bitsOf v 7 6 ≠ 1 then s
  else
    let n := bitsOf v 12 8
    let d := s.moveDesc c n
    let src := s.cget c (Core.MOVE_SRC n)
    let dst := s.cget c (Core.MOVE_DST n)
    let ext := moveExtent dst d.dstStride d.rows d.beats
    let s1 := (((((s.cset c (Core.CH_BUSY ch) true).cset c (Core.CH_SUSP ch) false).cput c (Core.CH_DESC ch) n).cput c (Core.CH_COUNTER ch)
      (bitsOf v 16 13)).cset c (Core.CH_COUNT_EN ch) (v.testBit 17)).cput c (Core.CH_FILL ch) (moveHalves d.dstSpace ext.1 ext.2)
    let s2 := (((((s1.cput c (Core.CH_BEAT ch) 0).cput c (Core.CH_ROWS ch) d.rows).cput c (Core.CH_SRC ch) src).cput c (Core.CH_DST ch)
      dst).cput c (Core.CH_WORD ch) addr).cput c (Core.CH_ORDER ch) (s.cget c Reg.CORE_ISSUE_COUNT.COUNT)
    if v.testBit 18 then
      (s2.cput c (Core.MOVE_SRC n) ((src + d.srcInc) % 2 ^ 20).toNat).cput c (Core.MOVE_DST n) ((dst + d.dstInc) % 2 ^ 20).toNat
    else s2

/-- Byte 0 of a 64-byte unit of a space; `other` names the other cluster's memory (R54). -/
def moveKey (c : CoreRef) (sp : Nat) (other : Bool) (unit : Nat) : Nat :=
  match sp with
  | 0 => cluKey ⟨c.site, if other then 1 - c.core / 24 else c.core / 24⟩ Mem.CLUSTER (unit * 64)
  | 1 => coreKey c Mem.SP (unit * 64)
  | 2 => coreKey c Mem.OPA (unit * 64)
  | _ => coreKey c Mem.OPB (unit * 64)

/-- The poison of each byte of a list, as a mask. -/
def poisonMask (bs : List (Byte × Bool)) : Nat := bs.foldr (fun b m => 2 * m + (if b.2 then 1 else 0)) 0

/-- Read the next beat of a channel and step its progress (R55). -/
def State.readBeat (s : State) (c : CoreRef) (ch : Nat) : State :=
  let d := s.moveDesc c (s.cget c (Core.CH_DESC ch))
  let src := s.cget c (Core.CH_SRC ch)
  let dst := s.cget c (Core.CH_DST ch)
  let beat := s.cget c (Core.CH_BEAT ch)
  let rows := s.cget c (Core.CH_ROWS ch)
  let k := moveKey c d.srcSpace d.srcOther src
  let data := s.rdP k 128
  let rowEnd := d.beats ≤ beat + 1
  let last := rowEnd && rows ≤ 1
  let s1 := s.pathRead c k 128
  let b : Beat :=
    { site := c.site, core := c.core, channel := ch, left := if d.srcOther || d.dstOther then 8 else 6, space := d.dstSpace,
      other := d.dstOther, addr := dst, data := data.map (·.1), poison := poisonMask data, last := last,
      counter := s.cget c (Core.CH_COUNTER ch), countEn := s.cflag c (Core.CH_COUNT_EN ch), word := s.cget c (Core.CH_WORD ch),
      order := s.cget c (Core.CH_ORDER ch), fill := s.cget c (Core.CH_FILL ch) }
  let next (a : Nat) (stride : Int) : Nat := if rowEnd then (((a : Int) - 2 * beat + stride) % 2 ^ 20).toNat else a + 2
  let s2 := ((({ s1 with beats := s1.beats ++ [b] }.cput c (Core.CH_SRC ch) (next src d.srcStride)).cput c (Core.CH_DST ch)
    (next dst d.dstStride)).cput c (Core.CH_BEAT ch) (if rowEnd then 0 else beat + 1)).cput c (Core.CH_ROWS ch)
    (if rowEnd then rows - 1 else rows)
  if last then s2.cset c (Core.CH_BUSY ch) false else s2

/-- The core whose channel reads a beat. -/
def Beat.owner (b : Beat) : CoreRef := ⟨b.site, b.core⟩

/-- A beat of core `c` moves one non-slip cycle on. -/
def Beat.age (b : Beat) (c : CoreRef) : Beat := if b.owner = c then { b with left := b.left - 1 } else b

/-- The write of a beat of core `c` happens in this cycle. -/
def Beat.dueNow (b : Beat) (c : CoreRef) : Bool := b.owner == c && b.left ≤ 1

/-- Write a beat to its destination (R55, R165). The last beat of a move increments the counter. -/
def State.writeBeat (s : State) (b : Beat) : State :=
  let c := b.owner
  let s1 := s.wrP (moveKey c b.space b.other b.addr) (b.data.zipIdx.map fun p => (p.1, b.poison.testBit p.2))
  if b.last ∧ b.countEn then s1.addCounter c b.counter 1 else s1

/-! ### Cluster-memory arbitration between the accesses of one core (R155–R157) -/

/-- Priority pointer of a bank of a cluster memory (R156). -/
def Clu.BANK_PTR (b : Nat) : Fld := ⟨0x1400200 + 8 * b, 0, 7, 0, .int⟩

/-- Bank of a 128-byte line of cluster memory (R155). -/
def cmBank (line : Nat) : Nat := (line % 64) ^^^ (line / 64 % 64) ^^^ (line / 4096 % 64)
/-- Bank of a 64-byte line of the scratchpad (R149). -/
def spBank (line : Nat) : Nat := (line % 32) ^^^ (line / 32 % 32) ^^^ (line / 1024 % 32) ^^^ (line / 32768 % 2)

/-- An access of a move channel to a cluster memory in one non-slip cycle: the banks it needs now, and those it needs afterwards. -/
structure CmAccess where
  ch : Nat
  q : CluRef
  isWrite : Bool
  banks : List Nat
  later : List Nat
  deriving DecidableEq

/-- The access of a beat at a unit (R155): one line, two lines of two banks, or two lines of one bank one after the other. -/
def cmAccess (ch : Nat) (q : CluRef) (isWrite : Bool) (unit : Nat) : CmAccess :=
  let l := unit / 2
  if unit % 2 = 0 then ⟨ch, q, isWrite, [cmBank l], []⟩
  else if cmBank l = cmBank (l + 1) then ⟨ch, q, isWrite, [cmBank l], [cmBank l]⟩
  else ⟨ch, q, isWrite, [cmBank l, cmBank (l + 1)], []⟩

/-- The accesses a core makes in this cycle: beats due to be written, and beats to be read. -/
def State.cmAccesses (s : State) (c : CoreRef) : List CmAccess :=
  let clu (other : Bool) : CluRef := ⟨c.site, if other then 1 - c.core / 24 else c.core / 24⟩
  ((s.beats.filter fun b => b.dueNow c && b.space == 0).map fun b => cmAccess b.channel (clu b.other) true b.addr)
    ++ (((List.range 2).filter fun ch => s.cflag c (Core.CH_BUSY ch) && !s.cflag c (Core.CH_SUSP ch)
          && (s.moveDesc c (s.cget c (Core.CH_DESC ch))).srcSpace == 0).map fun ch =>
        cmAccess ch (clu (s.moveDesc c (s.cget c (Core.CH_DESC ch))).srcOther) false (s.cget c (Core.CH_SRC ch)))

/-- Requester number of a move channel at a cluster memory (R156). -/
def requester (c : CoreRef) (q : CluRef) (ch : Nat) : Nat := (if c.core / 24 = q.clu then 0 else 48) + inCluster c * 2 + ch

/-- Two accesses want a bank of one cluster memory in common. -/
def CmAccess.shares (a b : CmAccess) : Bool := a.q == b.q && a.banks.any b.banks.contains

/-- Distance of a requester from a bank's pointer (R156). -/
def State.bankRank (s : State) (c : CoreRef) (a : CmAccess) (bank : Nat) : Nat :=
  (requester c a.q a.ch + 97 - s.qget a.q (Clu.BANK_PTR bank)) % 97

/-- A presented access wins every bank it needs. -/
def State.winsBanks (s : State) (c : CoreRef) (present : List CmAccess) (a : CmAccess) : Bool :=
  a.banks.all fun k => present.all fun b => b == a || b.q != a.q || !b.banks.contains k || s.bankRank c a k ≤ s.bankRank c b k

/-- One attempt to serve the accesses still due: what is left, and the state with the pointers moved and the losses counted (R157). -/
def State.serveOnce (s : State) (c : CoreRef) (due : List CmAccess) : State × List CmAccess :=
  let present := due.filter fun a => a.isWrite || !(due.any fun w => w.isWrite && w.ch == a.ch && w.shares a)
  let s1 := present.foldl (fun s1 a => a.banks.foldl (fun s1 k =>
    if present.all fun b => b == a || b.q != a.q || !b.banks.contains k || s.bankRank c a k ≤ s.bankRank c b k then
      s1.qput a.q (Clu.BANK_PTR k) ((requester c a.q a.ch + 1) % 97)
    else s1) s1) s
  let won (a : CmAccess) : Bool := present.contains a && s.winsBanks c present a
  let lost := due.filter fun a => !won a
  let s2 := if lost.any (·.ch == 0) then s1.cbump c Reg.CORE_MEM_CONFLICT.CH0 else s1
  let s3 := if lost.any (·.ch == 1) then s2.cbump c Reg.CORE_MEM_CONFLICT.CH1 else s2
  (s3, lost ++ ((due.filter fun a => won a && !a.later.isEmpty).map fun a => { a with banks := a.later, later := [] }))

/-- Serve a core's accesses of one non-slip cycle: every cycle in which some are left over is a bank slip (R51, R52, R157). -/
def State.serveBanks : Nat → State → CoreRef → List CmAccess → State
  | 0, s, _, _ => s
  | n + 1, s, c, due =>
    if due.isEmpty then s
    else
      let r := s.serveOnce c due
      if r.2.isEmpty then r.1 else State.serveBanks n (r.1.cbump c Reg.CORE_SLIP_BANK.COUNT) c r.2

/-! ### One non-slip cycle of the move channels and engines -/

/-- Scratchpad lines of the beats read in this cycle, with the issue order and word of their moves. -/
def State.spReads (s : State) (c : CoreRef) : List (Nat × Nat × Nat) :=
  ((List.range 2).filter fun ch => s.cflag c (Core.CH_BUSY ch) && !s.cflag c (Core.CH_SUSP ch)
      && (s.moveDesc c (s.cget c (Core.CH_DESC ch))).srcSpace == 1).flatMap fun ch =>
    let u := s.cget c (Core.CH_SRC ch)
    [(u, s.cget c (Core.CH_ORDER ch), s.cget c (Core.CH_WORD ch)), (u + 1, s.cget c (Core.CH_ORDER ch), s.cget c (Core.CH_WORD ch))]

/-- Beats of a core written in this cycle. -/
def State.dueBeats (s : State) (c : CoreRef) : List Beat := s.beats.filter fun b => b.dueNow c

/-- The word named by fault 0x0A if engine accesses collide at a scratchpad bank port or an operand-buffer write port in this cycle (R151,
R154): that of the later operation. Two reads of one line are one access. -/
def State.portCollision (s : State) (c : CoreRef) : Option Nat :=
  let uses (f : Flight → List Nat) : List (Nat × Nat × Nat) := (s.flights.filter fun u => u.owner == c && u.left == 0).flatMap fun u =>
    (f u.what).map fun l => (l, u.order, u.word)
  let rs := s.spReads c ++ uses fun f => match f with | .spRead ls => ls | _ => []
  let ws := ((s.dueBeats c).filter (·.space == 1)).flatMap (fun b => [(b.addr, b.order, b.word), (b.addr + 1, b.order, b.word)])
    ++ uses fun f => match f with | .spWrite ls => ls | _ => []
  let os := (s.dueBeats c).filter fun b => b.space == 2 || b.space == 3
  let later (l : List (Nat × Nat)) : Option Nat := (l.foldl (fun m p => match m with
    | some q => if q.1 < p.1 then some p else some q
    | none => some p) none).map (·.2)
  let readHits := rs.filter fun r => rs.any fun q => q.1 != r.1 && spBank q.1 == spBank r.1
  let writeHits := ws.filter fun w => 2 ≤ (ws.filter fun q => spBank q.1 == spBank w.1).length
  let halves (b : Beat) : Nat := moveHalves b.space b.addr (b.addr + 2)
  let bufHits := os.filter fun b => os.any fun a => a.channel != b.channel && (halves a &&& halves b) != 0
  later ((readHits ++ writeHits).map (fun r => (r.2.1, r.2.2)) ++ bufHits.map fun b => (b.order, b.word))

/-- One non-slip cycle: each channel reads a beat, beats due are written, the occupancies count down, and the engines' operations come a cycle
further (R49, R55, R100, R137). -/
def State.tick (s : State) (c : CoreRef) : State :=
  let s0 := State.serveBanks 8 s c (s.cmAccesses c)
  let old := s0.beats
  let rd (s : State) (ch : Nat) : State := if s.cflag c (Core.CH_BUSY ch) && !s.cflag c (Core.CH_SUSP ch) then s.readBeat c ch else s
  let s1 := rd (rd { s0 with beats := [] } 0) 1
  let due := old.filter fun b => b.dueNow c
  let keep := (old.filter fun b => !b.dueNow c).map fun b => b.age c
  let s2 := due.foldl State.writeBeat { s1 with beats := keep ++ s1.beats }
  let mo := s2.cget c Reg.CORE_MX_STATUS.OCC_LEFT
  let vo := s2.cget c Reg.CORE_VX_STATUS.OCC_LEFT
  let s3 := if mo = 0 then s2 else (s2.cput c Reg.CORE_MX_STATUS.OCC_LEFT (mo - 1)).cset c Reg.CORE_MX_STATUS.BUSY (mo ≠ 1)
  (if vo = 0 then s3 else (s3.cput c Reg.CORE_VX_STATUS.OCC_LEFT (vo - 1)).cset c Reg.CORE_VX_STATUS.BUSY (vo ≠ 1)).ageFlights c

/-! ### Waits and huddles -/

/-- Faults the wait/huddle slot's own bits decide (R44). -/
def wtStatic (v : Nat) : List Nat :=
  match bitsOf v 7 6 with
  | 0 => if extraBits v 0xFF then [0x01] else []
  | 1 => []
  | 2 => if bitsOf v 19 18 = 3 then [0x01] else []
  | _ => if bitsOf v 23 14 ≠ 0 ∨ bitsOf v 13 12 = 3 then [0x01] else []

/-- Faults of the wait/huddle slot that depend on the core's state (R47, R198). -/
def wtDynamic (s : State) (c : CoreRef) (v : Nat) : List Nat :=
  match bitsOf v 7 6 with
  | 2 => waitDynamic s c (bitsOf v 17 8) (bitsOf v 19 18)
  | 3 =>
    let line := bitsOf v 11 8
    let mode := bitsOf v 13 12
    let h := s.cget c (Core.HUDDLE line)
    let waiting := s.cget c Core.WAITLINE = line + 1
    if !(s.cget c Reg.CORE_POISON_CTL.HUDDLE_MASK).testBit line || (mode == 1 && h == 1) || (mode == 0 && h == 1 && !waiting)
        || (mode == 2 && h == 0) then [0x07] else []
  | _ => []

/-- A core's arrival on a huddle line (R47); under HALT_AT_HUDDLE after a poison event it is withheld and the squad is whistled (R61). -/
def State.arrive (s : State) (c : CoreRef) (line : Nat) : State :=
  if s.cflag c Reg.CORE_POISON_CTL.HALT_PENDING then (s.cput c (Core.HUDDLE line) 0).whistle c.site Cause.POISON
  else s.cput c (Core.HUDDLE line) 1

/-- An arrive-and-wait due to issue signals its arrival once (R47). -/
def State.signalArrival (s : State) (c : CoreRef) (v : Nat) : State :=
  if bitsOf v 7 6 = 3 ∧ bitsOf v 13 12 = 0 ∧ s.cget c Core.WAITLINE ≠ bitsOf v 11 8 + 1 then
    (s.arrive c (bitsOf v 11 8)).cput c Core.WAITLINE (bitsOf v 11 8 + 1)
  else s

/-- The slip cause of an explicit wait that is not met; 0 if it is met (R45–R48). -/
def waitCause (s : State) (c : CoreRef) (v : Nat) : Nat :=
  match bitsOf v 7 6 with
  | 1 => if s.cget c (Reg.CORE_CCOUNT.VALUE (bitsOf v 11 8)) < bitsOf v 23 12 then 1 else 0
  | 2 => if queueCond s c (bitsOf v 17 8) (bitsOf v 19 18) (bitsOf v 23 20) then 0 else 2
  | 3 => if bitsOf v 13 12 = 1 ∨ s.cget c (Core.HUDDLE (bitsOf v 11 8)) = 2 then 0 else 4
  | _ => 0

/-- The effect of the wait/huddle slot at issue (R45, R47, R160). -/
def State.takeWait (s : State) (c : CoreRef) (v : Nat) : State :=
  match bitsOf v 7 6 with
  | 1 =>
    let n := bitsOf v 23 12
    (s.cput c (Reg.CORE_CCOUNT.VALUE (bitsOf v 11 8)) (s.cget c (Reg.CORE_CCOUNT.VALUE (bitsOf v 11 8)) - n)).ringWait c (bitsOf v 11 8) n
  | 3 =>
    if bitsOf v 13 12 = 1 then s.arrive c (bitsOf v 11 8)
    else (s.cput c (Core.HUDDLE (bitsOf v 11 8)) 0).cput c Core.WAITLINE 0
  | _ => s

/-- A pause is pending for the squad of a die (R343, R344). -/
def State.pausePending (s : State) (site : Nat) : Bool :=
  s.flag site Reg.DIE_SIDEBAND.MEMBER && s.flag panelSite (Reg.SQD_STATUS.PAUSE_PENDING (s.get site Reg.DIE_SIDEBAND.SQUAD))

/-! ### Issue -/

/-- The tile-buffer uses of a word's vector and queue-port slots, with their cycles from issue (R57, R128). -/
def State.tileUses (s : State) (c : CoreRef) (vx qp : Nat) : List (Nat × Flight) :=
  let i := s.vinstr c vx
  (if bitsOf vx 9 6 = 1 ∧ passCycles i (s.tdesc c i.xd) ≤ 224 then
      passUses i (s.tdesc c i.xd) (s.tdesc c i.yd) (s.tdesc c i.dd) (s.tdesc c i.rd)
    else [])
    ++ (match bitsOf qp 9 6 with
      | 1 => [(0, .tileRead (bitsOf qp 21 20))]
      | 2 => [(4, .tileWrite (bitsOf qp 21 20))]
      | _ => [])

/-- The ports of the tile buffers are over-subscribed by a word (R128): more than two reads or more than one write of a buffer in one cycle,
with the uses of operations that have issued. -/
def State.tileFault (s : State) (c : CoreRef) (vx qp : Nat) : List Nat :=
  let mine := s.tileUses c vx qp
  let all := mine ++ (s.flights.filter fun u => u.owner == c).map fun u => (u.left, u.what)
  if mine.any fun u => match u.2 with
      | .tileRead _ => 2 < (all.filter (· == u)).length
      | .tileWrite _ => 1 < (all.filter (· == u)).length
      | _ => false
  then [0x27] else []

/-- The fault code of a word due to issue (R63): the lowest of those its slots break; none for a word that passes. -/
def State.wordFault (s : State) (c : CoreRef) (w : Slots) (addr : Nat) : Option Nat :=
  let dyn (v : Nat) (f : List Nat) : List Nat := if s.live c v then f else []
  let g (v : Nat) : Nat := if s.live c v then v else 0
  let codes := (if [w.mx, w.vx, w.mv0, w.mv1, w.qp, w.wt, w.pl].any badGuard then [0x01] else [])
    ++ mxStatic w.mx ++ vxStatic s c w.vx ++ mvStatic s c w.mv0 ++ mvStatic s c w.mv1 ++ qpStatic w.qp ++ wtStatic w.wt ++ plStatic s c w.pl
    ++ dyn w.mx (mxDynamic s c w.mx) ++ dyn w.vx (vxDynamic s c w.vx) ++ s.tileFault c (g w.vx) (g w.qp) ++ dyn w.mv0 (mvDynamic s c 0 w.mv0)
    ++ dyn w.mv1 (mvDynamic s c 1 w.mv1) ++ dyn w.qp (qpDynamic s c w.qp) ++ dyn w.wt (wtDynamic s c w.wt)
    ++ dyn w.pl (plDynamic s c w.pl addr)
  codes.min?

/-- A word breaks a check: operations issued earlier have their cycle, and the lowest code of both is reported (R63). -/
def State.faultWord (s : State) (c : CoreRef) (code addr : Nat) : State :=
  if code < 0x0A then (s.schedFault c code addr).tick c
  else
    match s.portCollision c with
    | some a => (s.tick c).schedFault c 0x0A a
    | none => (s.tick c).schedFault c code addr

/-- The word slips for a cycle (R48, R52); `port` is the queue port its wait names, plus one. -/
def State.slip (s : State) (c : CoreRef) (cause port : Nat) : State :=
  (((s.cput c Reg.CORE_SCHED_STATUS.STATE 2).cput c Reg.CORE_SCHED_STATUS.SLIP_CAUSE cause).cput c Core.WAITPORT port).cbump c
    Reg.CORE_SLIP_WAIT.COUNT

/-- `LDCNT` (R40): the counter's value at the start of the cycle goes to the count register, and the counter is cleared. -/
def State.loadCount (s s0 : State) (c : CoreRef) (v : Nat) : State :=
  if bitsOf v 9 6 = 5 then
    (s.cput c (Reg.CORE_LOOPCNT.VALUE (bitsOf v 12 10)) (s0.cget c (Reg.CORE_CCOUNT.VALUE (bitsOf v 16 13)))).cput c
      (Reg.CORE_CCOUNT.VALUE (bitsOf v 16 13)) 0
  else s

/-- The predicate/loop slot's write of a predicate (R36): it stands over the vector engine's of the same cycle, and marks the collision. -/
def State.writePred (s : State) (c : CoreRef) (pl : Option (Nat × Bool)) : State :=
  match pl with
  | some p =>
    let s1 := { s with flights := s.flights.filter fun u => !(u.owner == c && u.left == 0 && match u.what with
      | .pred q _ => q == p.1
      | _ => false) }.cset c (Reg.CORE_PRED.P p.1) p.2
    if (s.predsDue c).any (·.1 == p.1) then s1.cset c Reg.CORE_SCHED_STATUS.PRED_COLLIDE true else s1
  | none => s

/-- How the sequencer goes on after an issued word: stopped by `END` or a pause, past the last word, back to `BREAK` after a step or at
the breakpoint, or running (R64, R66, R68). -/
def State.afterIssue (s : State) (c : CoreRef) (ended paused : Bool) : State :=
  if s.cget c Reg.CORE_SCHED_STATUS.STATE = 6 then s
  else if ended then s.cput c Core.STOPPING 2
  else if paused then s.cput c Core.STOPPING 1
  else if s.cflag c Core.PAST then s.schedFault c 0x04 2047
  else if s.cflag c Core.STEPPING then (s.cset c Core.STEPPING false).cput c Reg.CORE_SCHED_STATUS.STATE 7
  else if s.cflag c Reg.CORE_SCHED_CTL.BREAK_EN ∧ s.cget c Reg.CORE_SCHED_CTL.BREAK_ADDR = s.cget c Reg.CORE_SCHED_STATUS.ADDR then
    s.cput c Reg.CORE_SCHED_STATUS.STATE 7
  else s

/-- A slot's bits where its guard is true; a no-operation otherwise (R33, R35). -/
def State.gated (s : State) (c : CoreRef) (v : Nat) : Nat := if s.live c v then v else 0

/-- The effect of the vector slot. -/
def State.vxIssue (s : State) (c : CoreRef) (v : Nat) : State := if bitsOf v 9 6 = 1 then s.vxRun c v else s

/-- A cycle of the channels and engines, with the fault of a port collision in it (R151). -/
def State.tickChecked (s : State) (c : CoreRef) : State :=
  match s.portCollision c with
  | some a => (s.tick c).schedFault c 0x0A a
  | none => s.tick c

/-- The word's huddle is one at which a pending pause stops the core (R64). -/
def State.pausesHere (s : State) (c : CoreRef) (v : Nat) : Bool :=
  bitsOf v 7 6 == 3 && bitsOf v 13 12 != 1 && s.pausePending c.site

/-- The busy move channels of a pausing core are held at a beat boundary (R64). -/
def State.suspendMoves (s : State) (c : CoreRef) : State :=
  (s.cset c (Core.CH_SUSP 0) (s.cflag c (Core.CH_BUSY 0))).cset c (Core.CH_SUSP 1) (s.cflag c (Core.CH_BUSY 1))

/-- The effects of a word whose checks pass and whose waits are met (R34, R45). `s` is the state at the start of the cycle, with any
arrival of the word's own signalled. -/
def State.issueSlots (s : State) (c : CoreRef) (w : Slots) (addr : Nat) : State :=
  let g (v : Nat) : Nat := s.gated c v
  let pause := s.pausesHere c (g w.wt)
  let s1 := ((s.cput c Reg.CORE_SCHED_STATUS.STATE 1).cput c Reg.CORE_SCHED_STATUS.SLIP_CAUSE 0).cset c Core.BRK_PASS false
  let s2 := ((s1.takeWait c (g w.wt)).loadCount s c (g w.pl)).qpIssue c (g w.qp)
  let s4 := ((s2.startMove c 0 (g w.mv0) addr).startMove c 1 (g w.mv1) addr).mxIssue c (g w.mx) addr
  let s8 := (((s4.vxIssue c (g w.vx)).writePred c (plPred s c (g w.pl))).cbump c Reg.CORE_ISSUE_COUNT.COUNT).tickChecked c
  let s9 := if s8.cget c Reg.CORE_SCHED_STATUS.STATE = 6 then s8 else s8.sequence s c (g w.pl) addr
  let s10 := if pause then s9.suspendMoves c else s9
  s10.afterIssue c (bitsOf (g w.pl) 9 6 == 6) pause

/-- A word due to issue: faults, slips or issues (R45, R48, R63). -/
def State.issueDue (s : State) (c : CoreRef) (w : Slots) : State :=
  let addr := s.cget c Reg.CORE_SCHED_STATUS.ADDR
  if s.cflag c Core.PAST then s.schedFault c 0x04 2047
  else
    match s.wordFault c w addr with
    | some k => s.faultWord c k addr
    | none =>
      let s1 := s.signalArrival c (s.gated c w.wt)
      let cause := waitCause s1 c (s.gated c w.wt)
      if cause ≠ 0 then s1.slip c cause (if cause = 2 then bitsOf w.wt 17 8 + 1 else 0)
      else if !qpReady s1 c (s.gated c w.qp) then s1.slip c 3 (bitsOf w.qp 19 10 + 1)
      else s1.issueSlots c w addr

/-- A word offered to a core that is running (R28, R68): a core that is stopped, or whose breakpoint is at this word, issues nothing. -/
def State.issueWord (s : State) (c : CoreRef) (w : Slots) : State :=
  let st := s.cget c Reg.CORE_SCHED_STATUS.STATE
  if (st ≠ 1 ∧ st ≠ 2) ∨ s.cget c Core.STOPPING ≠ 0 then s
  else if s.cflag c Reg.CORE_SCHED_CTL.BREAK_EN ∧ s.cget c Reg.CORE_SCHED_CTL.BREAK_ADDR = s.cget c Reg.CORE_SCHED_STATUS.ADDR
      ∧ ¬ s.cflag c Core.BRK_PASS ∧ ¬ s.cflag c Core.STEPPING ∧ s.cget c Core.WAITLINE = 0 then s.cput c Reg.CORE_SCHED_STATUS.STATE 7
  else s.issueDue c w

/-- A word with one slot. -/
def oneSlot (lo v : Nat) : Slots := slotsOf (v * 2 ^ lo)

/-- A slot's bits with a field set by the row of the opcode table. -/
def withField (v hi lo x : Nat) : Nat := v - bitsOf v hi lo * 2 ^ lo + x * 2 ^ lo

end Sys2Proof.Machine
end

