-- ==== Sys2Proof/Machine/Fetch.lean ====
section
/-! DEFINITION. Fetch threads (08_fetch_threads): the thread registers, readiness, requests and their completion or failure, and one
operation that runs an instruction of a thread. -/

namespace Sys2Proof.Machine

/-- The core of a thread. -/
def coreOfThread (t : ThreadRef) : CoreRef := ⟨t.site, t.core⟩
/-- A thread's field. -/
def State.tget (s : State) (t : ThreadRef) (f : Nat → Fld) : Nat := s.cget (coreOfThread t) (f t.thread)
/-- Write a thread's field. -/
def State.tput (s : State) (t : ThreadRef) (f : Nat → Fld) (v : Nat) : State := s.cput (coreOfThread t) (f t.thread) v
/-- General register r of a thread. -/
def State.greg (s : State) (t : ThreadRef) (r : Nat) : Nat := s.cget (coreOfThread t) (Reg.CORE_FT_G.VALUE (t.thread * 16 + r))
/-- The POISON bit of a register (R202). -/
def State.gpois (s : State) (t : ThreadRef) (r : Nat) : Bool := (s.tget t Reg.CORE_FT_THREAD.POISONED).testBit r
/-- The PENDING bit of a register (R202). -/
def State.gpend (s : State) (t : ThreadRef) (r : Nat) : Bool := (s.tget t Thread.PENDING).testBit r
/-- A mask with one bit given. -/
def maskWith (m i : Nat) (b : Bool) : Nat := if m.testBit i then (if b then m else m - 2 ^ i) else (if b then m + 2 ^ i else m)

/-- Set or clear a PENDING bit. -/
def State.setPend (s : State) (t : ThreadRef) (r : Nat) (b : Bool) : State :=
  s.tput t Thread.PENDING (maskWith (s.tget t Thread.PENDING) r b)

/-- Write a register: its value modulo 2^64, its POISON bit, and PENDING 0 (R208, R217). -/
def State.setG (s : State) (t : ThreadRef) (r v : Nat) (pois : Bool) : State :=
  ((s.cput (coreOfThread t) (Reg.CORE_FT_G.VALUE (t.thread * 16 + r)) v).tput t Reg.CORE_FT_THREAD.POISONED
    (maskWith (s.tget t Reg.CORE_FT_THREAD.POISONED) r pois)).setPend t r false

/-! States of a thread, CORE_FT_THREAD.STATE (R228). -/
def Thread.IDLE : Nat := 0
def Thread.RUN : Nat := 1
def Thread.WAIT : Nat := 2
def Thread.HELD : Nat := 3
def Thread.DONE : Nat := 4
def Thread.HALTED : Nat := 5
def Thread.FAULTED : Nat := 6

/-- Whether a state counts in RUNNING. -/
def threadRuns (st : Nat) : Nat := if st = Thread.RUN ∨ st = Thread.WAIT then 1 else 0

/-- Change a thread's state; RUNNING follows. -/
def State.setThread (s : State) (t : ThreadRef) (st : Nat) : State :=
  let old := s.tget t Reg.CORE_FT_THREAD.STATE
  (s.tput t Reg.CORE_FT_THREAD.STATE st).cput (coreOfThread t) Reg.CORE_FT_UNIT.RUNNING
    (s.cget (coreOfThread t) Reg.CORE_FT_UNIT.RUNNING + threadRuns st - threadRuns old)

/-- The threads of a core. -/
def threadsOf (c : CoreRef) : List ThreadRef := (List.range 48).map fun t => ⟨c.site, c.core, t⟩

/-- A thread fault (R226). -/
def State.threadFault (s : State) (t : ThreadRef) (code pc : Nat) : State :=
  let s1 := (((s.tput t Reg.CORE_FT_THREAD.PC pc).tput t Reg.CORE_FT_THREAD.FAULT code).setThread t Thread.FAULTED)
  (s1.notify t.site t.core 0x0303 3 (t.thread + code * 256) pc).whistle t.site Cause.FETCH_FAULT

/-! ### Requests -/

/-- The thread of a request. -/
def FetchReq.owner (r : FetchReq) : ThreadRef := ⟨r.site, r.core, r.thread⟩
/-- A request of a core. -/
def FetchReq.ofCore (r : FetchReq) (c : CoreRef) : Bool := r.site == c.site && r.core == c.core

/-- Requests outstanding of a thread, of a core. -/
def State.threadOut (s : State) (t : ThreadRef) : Nat := (s.outstanding.filter fun r => r.owner == t).length
def State.coreOut (s : State) (c : CoreRef) : Nat := (s.outstanding.filter fun r => r.ofCore c).length

/-- Bring the counts of outstanding requests and reissue records in the registers up to date. -/
def State.syncCounts (s : State) (t : ThreadRef) : State :=
  ((s.tput t Reg.CORE_FT_THREAD.OUTSTANDING (s.threadOut t)).tput t Reg.CORE_FT_THREAD.REISSUE
    (s.reissue.filter fun r => r.owner == t).length).cput (coreOfThread t) Reg.CORE_FT_UNIT.OUTSTANDING (s.coreOut (coreOfThread t))

/-- The next tag that no outstanding request of the core uses. -/
def nextTag : Nat → Nat → List Nat → Nat
  | 0, k, _ => k % 2 ^ 16
  | n + 1, k, used => if used.contains (k % 2 ^ 16) then nextTag n (k + 1) used else k % 2 ^ 16

/-- Send a request: it takes a tag, is counted, and is outstanding until its reply (R205, R225). -/
def State.dispatch (s : State) (r : FetchReq) : State :=
  let c : CoreRef := ⟨r.site, r.core⟩
  let used := (s.outstanding.filter fun q => q.ofCore c).map (·.req.tag)
  let tag := nextTag used.length (s.cget c Core.FT_TAG + 1) used
  let q := { r.req with tag := tag, ssite := r.site, sunit := r.core }
  let s1 := (s.cput c Core.FT_TAG tag).cbump c Reg.CORE_FT_REQS.REQUESTS
  ({ s1 with outstanding := s1.outstanding ++ [{ r with req := q }], hubReqs := s1.hubReqs ++ [q] }).syncCounts r.owner

/-- A request is no longer outstanding. -/
def State.dropReq (s : State) (r : FetchReq) : State :=
  ({ s with outstanding := dropFirst (· == r) s.outstanding }).syncCounts r.owner

/-- A request completes (R218). -/
def State.completeReq (s : State) (r : FetchReq) : State :=
  let s1 := s.dropReq r
  if r.ctrEn then s1.addCounter ⟨r.site, r.core⟩ r.ctr 1 else s1

/-- Whether a request writes a register when it completes (R218). -/
def FetchReq.returns (r : FetchReq) : Bool := r.op == 0x20 || r.op == 0x23 || r.width != 0

/-- Byte 0 of a gather's destination (R211, R213). -/
def FetchReq.localKey (r : FetchReq) : Nat :=
  match r.lspace with
  | 0 => sramKey r.site r.core Mem.SP r.laddr
  | 1 => sramKey r.site (48 + r.core / 24) Mem.CLUSTER r.laddr
  | _ => sramKey r.site (49 - r.core / 24) Mem.CLUSTER r.laddr

/-- 256 bytes with a poison bit per word. -/
def withPoison (data : List Byte) (n : Nat) (p : Nat) : List (Byte × Bool) :=
  (List.range n).map fun i => (data.getD i 0, p.testBit (i / 8))

/-- Count and report a failed request (R223): kind 1 UNDELIVERED, 2 IN_DOUBT, 3 refused by a hub, 4 withdrawn. -/
def State.countFailure (s : State) (r : FetchReq) (kind : Nat) : State :=
  let c : CoreRef := ⟨r.site, r.core⟩
  let t := r.owner
  let panel := bitsOf r.req.addr 55 44
  let s1 := s.tput t Reg.CORE_FT_THREAD.FAILS (min 255 (s.tget t Reg.CORE_FT_THREAD.FAILS + 1))
  let s2 := s1.cbump c (if kind = 2 then Reg.CORE_FT_FAILS.IN_DOUBT else if kind = 4 then Reg.CORE_FT_FAILS.WITHDRAWN
    else Reg.CORE_FT_FAILS.UNDELIVERED)
  let s3 := if s2.cflag c Reg.CORE_FT_ERR_LOG.VALID then s2 else
    ((((s2.cset c Reg.CORE_FT_ERR_LOG.VALID true).cput c Reg.CORE_FT_ERR_LOG.THREAD r.thread).cput c Reg.CORE_FT_ERR_LOG.KIND kind).cput c
      Reg.CORE_FT_ERR_LOG.PC r.pc).cput c Reg.CORE_FT_ERR_LOG.PANEL panel
  if kind = 4 then s3 else s3.notify c.site c.core 0x0301 3 (r.thread + kind * 64) (r.pc + panel * 2 ^ 32)

/-- A failed request (R223): counted, its read data poisoned, and completed. The values that a failed read leaves are free: the spec
states only their poison. -/
def State.failReq (s : State) (r : FetchReq) (kind : Nat) : State :=
  let s1 := s.countFailure r kind
  let s2 := if r.op = 0x24 then
      let (v, s0) := s1.free
      s0.wrP r.localKey ((leBytes 256 v).map fun b => (b, true))
    else if r.returns then
      let (v, s0) := s1.free
      s0.setG r.owner r.dreg v true
    else s1
  s2.completeReq r

/-- A value arrives for a register (R212, R217): a poisoned one poisons it and is a poison event; a table entry without VALID is a
fault. `mem` and `word` name the place read. -/
def State.takeValue (s : State) (t : ThreadRef) (d v : Nat) (pois : Bool) (tw : Option Nat) (pc mem word : Nat) : State :=
  let s1 := if pois then s.poisonEvent (coreOfThread t) mem word else s
  match tw with
  | some o =>
    if !pois && !v.testBit 63 then
      let s2 := s1.setPend t d false
      if threadRuns (s2.tget t Reg.CORE_FT_THREAD.STATE) = 1 ∨ s2.tget t Reg.CORE_FT_THREAD.STATE = Thread.HELD then s2.threadFault t 0x06 pc
      else s2
    else s1.setG t d (bitsOf v 56 0 + o) pois
  | none => s1.setG t d v pois

/-- The kind of failure of a hub or port status (R223, R243). -/
def failureKind (status : Nat) : Nat :=
  if status = 0x31 then 2 else if status = 0x30 ∨ status = 0x32 ∨ status = 0x33 then 1 else 3

/-- A reply reaches a core (R218, R223, R225, R333). -/
def State.fetchReply (s : State) (m : HubRep) : State :=
  let c : CoreRef := ⟨m.dsite, m.dunit⟩
  if m.epoch ≠ s.cget c Reg.CORE_SCHED_STATUS.EPOCH then (s.cbump c Reg.CORE_FT_FAILS.LATE).staleToken (cluOf c) 2 m.epoch
  else
    match s.outstanding.find? fun r => r.ofCore c && r.req.tag == m.tag with
    | none => s.cbump c Reg.CORE_FT_FAILS.LATE
    | some r =>
      if 1 < m.status then s.failReq r (failureKind m.status)
      else if r.op = 0x24 then (s.wrP r.localKey (withPoison m.data 256 m.poison.toNat)).completeReq r
      else if r.returns then
        let v := leNat (m.data.take 8)
        let s1 := s.takeValue r.owner r.dreg (if r.width = 0 then v else v % 2 ^ (8 * r.width)) (m.poison.toNat.testBit 0) r.tw r.pc 11
          (r.req.addr % 2 ^ 44 / 8)
        s1.completeReq r
      else s.completeReq r

/-! ### Stopping and restarting the threads of a core (R204, R224, R225) -/

/-- Threads start at kick-off (R204). -/
def State.startThreads (s : State) (c : CoreRef) : State :=
  (threadsOf c).foldl (fun s t =>
    if s.tget t Reg.CORE_FT_THREAD.EN = 1 then
      (s.tput t Reg.CORE_FT_THREAD.PC (bitsOf (s.rdNat (coreKey c Mem.FETCH (8192 + 8 * t.thread)) 8) 11 1)).setThread t Thread.RUN
    else s) (s.cput c Core.FT_STOP 0)

/-- Every running thread holds before its next instruction (R224, R344). -/
def State.holdThreads (s : State) (c : CoreRef) : State :=
  (threadsOf c).foldl (fun s t =>
    if threadRuns (s.tget t Reg.CORE_FT_THREAD.STATE) = 1 then s.setThread t Thread.HELD else s) (s.cput c Core.FT_STOP 1)

/-- A whistle stops the threads (R224); a paused core's threads stay HELD (R336). -/
def State.haltThreads (s : State) (c : CoreRef) : State :=
  if s.cget c Reg.CORE_SCHED_STATUS.STATE = 3 then s
  else
    (threadsOf c).foldl (fun s t =>
      if threadRuns (s.tget t Reg.CORE_FT_THREAD.STATE) = 1 ∨ s.tget t Reg.CORE_FT_THREAD.STATE = Thread.HELD then
        s.setThread t Thread.HALTED
      else s) (s.cput c Core.FT_STOP 2)

/-- The drain bound of the fetch unit (R224): after a pause the outstanding requests become reissue records; after a whistle they are
withdrawn, and a core that withdrew any says so. -/
def State.drainFetch (s : State) (c : CoreRef) : State :=
  let mine := s.outstanding.filter fun r => r.ofCore c
  match s.cget c Core.FT_STOP with
  | 1 =>
    mine.foldl (fun s r => ({ s with reissue := s.reissue ++ [r] }).dropReq r) s
  | 2 =>
    let s1 := mine.foldl (fun s r => s.failReq r 4) s
    if mine.isEmpty then s1 else s1.notify c.site c.core 0x0302 0 mine.length 0
  | _ => s

/-- Threads go on after a pause: held threads run again, and the reissue records are sent first, in order (R225). A record whose epoch
is not the core's any more comes from a restore: atomics and reductions fail IN_DOUBT, the others take the new epoch (R349). -/
def State.resumeThreads (s : State) (c : CoreRef) : State :=
  let epoch := s.cget c Reg.CORE_SCHED_STATUS.EPOCH
  let mine := s.reissue.filter fun r => r.ofCore c
  let s1 := (threadsOf c).foldl (fun s t =>
    if s.tget t Reg.CORE_FT_THREAD.STATE = Thread.HELD then s.setThread t Thread.RUN else s) (s.cput c Core.FT_STOP 0)
  mine.foldl (fun s r =>
    let s2 := ({ s with reissue := dropFirst (· == r) s.reissue }).syncCounts r.owner
    if r.req.epoch ≠ epoch ∧ (r.op = 0x26 ∨ r.op = 0x27) then s2.failReq r 2
    else s2.dispatch { r with req := { r.req with epoch := epoch } }) s1

/-! ### One instruction -/

/-- The fields of an instruction (R206). -/
structure FetchInstr where
  op : Nat
  d : Nat
  a : Nat
  b : Nat
  imm : Nat

/-- Reading the fields of an instruction (R206). -/
def fetchInstr (w : Nat) : FetchInstr := ⟨bitsOf w 31 26, bitsOf w 25 22, bitsOf w 21 18, bitsOf w 17 14, bitsOf w 13 0⟩

/-- The bits an opcode uses, its own included (R206, R207, R212). -/
def fetchMask (op : Nat) : Nat :=
  let d := 0x3C00000
  let a := 0x3C0000
  let b := 0x3C000
  0xFC000000 + (match op with
    | 0x01 | 0x02 | 0x04 | 0x05 | 0x06 => d + a + b
    | 0x03 | 0x09 => d + a + 0x3FFF
    | 0x07 | 0x08 => d + a + 0x3F
    | 0x0A | 0x14 => d + 0x3FFF
    | 0x10 | 0x11 | 0x12 | 0x13 => a + b + 0x3FFF
    | 0x15 => 0x3FFF
    | 0x16 => a + 0xF
    | 0x18 => a + 0x3FFF
    | 0x19 => d
    | 0x1A => 3
    | 0x20 => d + a + 0x3E0
    | 0x21 => d + a
    | 0x22 => a + b + 0x3E0
    | 0x23 => d + a + b + 0x7FF
    | 0x24 | 0x25 => a + b + 0x3FF0
    | 0x26 | 0x27 => d + a + b + 0x3FF0
    | _ => 0)

/-- Request descriptor n of a core (R211). -/
def State.reqDesc (s : State) (c : CoreRef) (n : Nat) : Nat := s.cget c (Reg.CORE_FT_REQDESC.DESC n)

/-- The registers an instruction reads or writes, whose PENDING bit makes it wait (R205). -/
def State.fetchRegs (s : State) (c : CoreRef) (i : FetchInstr) : List Nat :=
  let dv := s.reqDesc c (bitsOf i.imm 13 10)
  match i.op with
  | 0x01 | 0x02 | 0x04 | 0x05 | 0x06 | 0x23 => [i.d, i.a, i.b]
  | 0x03 | 0x07 | 0x08 | 0x09 | 0x20 | 0x21 => [i.d, i.a]
  | 0x0A | 0x14 | 0x19 => [i.d]
  | 0x10 | 0x11 | 0x12 | 0x13 | 0x22 | 0x24 | 0x25 => [i.a, i.b]
  | 0x16 => [i.a]
  | 0x18 => if i.imm.testBit 4 then [i.a] else []
  | 0x26 => [i.a, i.b] ++ (if bitsOf dv 20 17 = 9 ∨ dv.testBit 21 then [i.d] else [])
  | 0x27 => [i.a, i.b] ++ (if dv.testBit 24 then [i.d] else [])
  | _ => []

/-- What an instruction comes to: done, with the next instruction's address; a thread fault; or a wait. -/
inductive FetchOut where
  | done (s : State) (next : Int)
  | fault (code : Nat)
  | wait

/-- Run an instruction of a thread (R204–R208): only a running thread of a core whose threads are not stopped issues; a non-zero unused
field faults; a PENDING register makes it wait. A fault has no other effect, and names the instruction. -/
def State.runThread (s : State) (t : ThreadRef) (op w : Nat) (body : State → FetchInstr → FetchOut) : State :=
  let c := coreOfThread t
  let i := fetchInstr (withField w 31 26 op)
  let pc := s.tget t Reg.CORE_FT_THREAD.PC
  if threadRuns (s.tget t Reg.CORE_FT_THREAD.STATE) = 0 ∨ s.cget c Core.FT_STOP ≠ 0 then s
  else if extraBits (withField w 31 26 op) (fetchMask op) then s.threadFault t 0x01 pc
  else if (s.fetchRegs c i).any (s.gpend t) then s.setThread t Thread.WAIT
  else
    match body s i with
    | .fault code => s.threadFault t code pc
    | .wait => s.setThread t Thread.WAIT
    | .done s1 next =>
      if threadRuns (s1.tget t Reg.CORE_FT_THREAD.STATE) = 0 then s1
      else if next < 0 ∨ 2047 < next then s1.threadFault t 0x02 pc
      else (s1.setThread t Thread.RUN).tput t Reg.CORE_FT_THREAD.PC next.toNat

/-- The address after an instruction's own. -/
def State.nextPc (s : State) (t : ThreadRef) : Int := s.tget t Reg.CORE_FT_THREAD.PC + 1

/-- An arithmetic instruction of two registers: D := f A B, poisoned if either is (R208). -/
def State.alu2 (s : State) (t : ThreadRef) (i : FetchInstr) (f : Nat → Nat → Nat) : FetchOut :=
  .done (s.setG t i.d (f (s.greg t i.a) (s.greg t i.b)) (s.gpois t i.a || s.gpois t i.b)) (s.nextPc t)

/-- An arithmetic instruction of a register and the immediate (R208). -/
def State.aluI (s : State) (t : ThreadRef) (i : FetchInstr) (f : Nat → Nat → Nat) : FetchOut :=
  .done (s.setG t i.d (f (s.greg t i.a) i.imm) (s.gpois t i.a)) (s.nextPc t)

/-- The immediate sign-extended to 64 bits (R208). -/
def sextImm (imm : Nat) : Nat := (signedOf 14 imm % 2 ^ 64).toNat

/-- A branch (R208): poisoned operands fault 0x05, a target outside the store faults 0x02. -/
def State.branch (s : State) (t : ThreadRef) (i : FetchInstr) (pois taken : Bool) : FetchOut :=
  if pois then .fault 0x05
  else
    let next : Int := if taken then s.tget t Reg.CORE_FT_THREAD.PC + signedOf 14 i.imm else s.nextPc t
    if taken ∧ (next < 0 ∨ 2047 < next) then .fault 0x02 else .done s next

/-- A branch that compares A and B. -/
def State.branchAB (s : State) (t : ThreadRef) (i : FetchInstr) (cmp : Nat → Nat → Bool) : FetchOut :=
  s.branch t i (s.gpois t i.a || s.gpois t i.b) (cmp (s.greg t i.a) (s.greg t i.b))

/-- Room for a further request (R205). -/
def State.room (s : State) (t : ThreadRef) : Bool := s.threadOut t < 32 && s.coreOut (coreOfThread t) < 512

/-- The panel's own number (R240); 0 while it is not set. -/
def State.ownPanel (s : State) : Nat := if s.flag panelSite Panel.NUMBER_SET then s.get panelSite Panel.NUMBER else 0

/-- Bytes of HBM (R236). -/
def hbmSize : Nat := 2 ^ 42

/-- A memory address checked (R209, R210): a fault code, or the 56-bit global address and whether it is another panel's. -/
def State.memAddr (s : State) (a size align : Nat) : Nat ⊕ Nat × Bool :=
  if a % align ≠ 0 then .inl 0x03
  else if 2 ^ 57 ≤ a then .inl 0x04
  else
    let panel := bitsOf a 55 44
    let off := a % 2 ^ 44
    let remote := !a.testBit 56 && panel != s.ownPanel
    if !remote && hbmSize < off + size then .inl 0x04
    else .inr ((if remote then panel else s.ownPanel) * 2 ^ 44 + off, remote)

/-- The empty message of a request of a core. -/
def State.blankReq (s : State) (c : CoreRef) (opc : Nat) : HubReq :=
  { opc := opc, epoch := s.cget c Reg.CORE_SCHED_STATUS.EPOCH, spanel := s.ownPanel, ssite := c.site, sunit := c.core, tag := 0, addr := 0,
    opid := 0, param := 0, order := 0, group := 0, poison := 0, length := 0, reserved := 0, data := [] }

/-- A request of a thread before its message is complete. `ctr` is the CTR and CTR_EN field pair of R207, IMM[9:5]. -/
def blankFetch (t : ThreadRef) (op pc ctr : Nat) (q : HubReq) : FetchReq :=
  { site := t.site, core := t.core, thread := t.thread, op := op, pc := pc, ctrEn := ctr.testBit 0, ctr := ctr / 2 % 16, dreg := 0, tw := none,
    lspace := 0, laddr := 0, width := 0, remote := false, req := q }

/-- Issue a request at a memory address, if the address holds (R209, R210). -/
def State.issueReq (s : State) (t : ThreadRef) (r : FetchReq) (a size align : Nat) (before : State → State) : FetchOut :=
  match s.memAddr a size align with
  | .inl code => .fault code
  | .inr (g, remote) =>
    let s1 := before s
    let s2 := if r.returns then s1.setPend t r.dreg true else s1
    .done (s2.dispatch { r with remote := remote, req := { r.req with addr := g } }) (s.nextPc t)

/-- The fields of a descriptor an instruction uses, besides ASTEP (R211). -/
def descUsed (op dv : Nat) : Nat :=
  let conv := dv.testBit 2
  match op with
  | 0x24 => if conv then 0x1FFF else 0x7
  | 0x25 => if conv then 0x1FFFF else 0x7
  | 0x26 => 0x3E0000
  | _ => 0x1C00003

/-- The descriptor checks at issue (R211, R226): 0x01 for reserved codes and bits, then 0x08 for unused fields and unsuitable codes. -/
def descFault (op imm dv : Nat) : Option Nat :=
  let used := descUsed op dv + (if imm.testBit 4 then 0xFFFF * 2 ^ 32 else 0)
  let u := dv &&& used
  let conv := (op == 0x24 || op == 0x25) && dv.testBit 2
  let m := Fmt.ofCode (bitsOf dv 7 3)
  let cf := Fmt.ofCode (bitsOf dv 12 8)
  if bitsOf dv 31 25 ≠ 0 ∨ bitsOf dv 63 48 ≠ 0 ∨ bitsOf u 1 0 = 3 ∨ 9 < bitsOf u 20 17 ∨ bitsOf u 23 22 = 3 ∨ 4 < bitsOf u 15 13
      ∨ (conv ∧ (m.isNone ∨ cf.isNone)) then some 0x01
  else if extraBits dv used ∨ ((op = 0x25 ∨ op = 0x27) ∧ bitsOf dv 1 0 ≠ 0) then some 0x08
  else if conv ∧ ¬ ((m.map Fmt.codec) = some true
      ∧ (cf = some .fp32 ∨ cf = some .bf16 ∨ (op = 0x24 ∧ cf = some .fp16))) then some 0x08
  else if op = 0x26 ∧ ((bitsOf dv 20 17 = 9 ∧ ¬ dv.testBit 21) ∨ imm.testBit 4) then some 0x08
  else none

/-- Bytes of an atomic's operand, by AOP (R211, R245). -/
def atomWidth (aop : Nat) : Nat := [4, 8, 4, 2, 8, 8, 4, 4, 8, 8].getD aop 8

/-- Size of a local space in bytes (R210, R211). -/
def localSize (ls : Nat) : Nat := if ls = 0 then 1572864 else 25165824

/-- POSTINC (R207): A and B advance after issue. -/
def State.postInc (s : State) (t : ThreadRef) (i : FetchInstr) (dv : Nat) : State :=
  if i.imm.testBit 4 then
    (s.setG t i.a (((s.greg t i.a : Int) + signedOf 16 (bitsOf dv 47 32) * 32) % 2 ^ 64).toNat false).setG t i.b (s.greg t i.b + 256) false
  else s

/-- The operation identifier of the next atomic or reduction (R216). -/
def State.opId (s : State) (c : CoreRef) : Nat := (s.logicalCore c * 2 ^ 19 + s.cget c Reg.CORE_FT_UNIT.SEQ) % 2 ^ 32
/-- SEQ advances (R216). -/
def State.nextSeq (s : State) (c : CoreRef) : State := s.cput c Reg.CORE_FT_UNIT.SEQ ((s.cget c Reg.CORE_FT_UNIT.SEQ + 1) % 524288)

/-- The poison of each 8-byte word of a range, as a mask. -/
def State.wordMask (s : State) (k n : Nat) : Nat :=
  ((List.range (n / 8)).filter fun i => s.wordPoison (k / 8 + i)).foldl (fun a i => a + 2 ^ i) 0

/-- Alignment and size of a converting request's memory footprint at its core (R210, R255). -/
def convFootprint (dv : Nat) : Nat :=
  let n := if Fmt.ofCode (bitsOf dv 12 8) = some .fp32 then 64 else 128
  match Fmt.ofCode (bitsOf dv 7 3) with
  | some m => n * m.bits / 8
  | none => 256

/-- `GATHER`, `STORE` and `RED` (R210, R213, R214): checks of the descriptor, the registers and the two addresses, then the request.
`opc` is the hub operation; `build` completes the message. -/
def State.streamReq (s : State) (t : ThreadRef) (i : FetchInstr) (opc param order group : Nat) (extra : Option Nat) : FetchOut :=
  let c := coreOfThread t
  let dv := s.reqDesc c (bitsOf i.imm 13 10)
  let conv := i.op ≠ 0x27 ∧ dv.testBit 2
  let la := s.greg t i.b
  if !s.room t then .wait
  else
    match descFault i.op i.imm dv with
    | some k => .fault k
    | none =>
      if s.gpois t i.a ∨ s.gpois t i.b then .fault 0x05
      else
        match extra with
        | some k => .fault k
        | none =>
          if la % 64 ≠ 0 then .fault 0x03
          else if localSize (bitsOf dv 1 0) < la + 256 then .fault 0x04
          else
            let key := coreKey c Mem.SP la
            let q := { s.blankReq c opc with
              opid := if i.op = 0x27 then s.opId c else 0, param := param, order := order, group := group,
              data := if i.op = 0x24 then [] else s.rd key 256,
              poison := if i.op = 0x24 then 0 else BitVec.ofNat 32 (s.wordMask key 256) }
            let r := { blankFetch t i.op (s.tget t Reg.CORE_FT_THREAD.PC) (bitsOf i.imm 9 5) q with lspace := bitsOf dv 1 0, laddr := la }
            s.issueReq t r (s.greg t i.a) (if conv then convFootprint dv else 256) (if conv then 1 else 256) fun s =>
              let s1 := if i.op = 0x24 then s else s.pathRead c key 256
              (if i.op = 0x27 then s1.nextSeq c else s1).postInc t i dv

end Sys2Proof.Machine
end

