-- ==== Sys2Proof/Machine/Hub.lean ====
section
/-! DEFINITION. The memory stacks and their hubs (09_memory_stacks): sectors with check symbols and poison, the interleave, requests and
their statuses, atomics, reductions, deduplication, format conversion, channels and scrubs. -/

namespace Sys2Proof.Machine

/-! Statuses of a hub (R243). -/
def Hub.DONE : Nat := 0x00
def Hub.DONE_DUP : Nat := 0x01
def Hub.ADDR : Nat := 0x10
def Hub.ALIGN : Nat := 0x11
def Hub.POISON : Nat := 0x12
def Hub.CONV : Nat := 0x13
def Hub.GROUP : Nat := 0x14
def Hub.HOLD_FULL : Nat := 0x15
def Hub.DEDUP_FULL : Nat := 0x16
def Hub.CHAN_DOWN : Nat := 0x17
def Hub.MALFORMED : Nat := 0x18
def Hub.WITHDRAWN : Nat := 0x20
def Hub.ABORTED : Nat := 0x21

/-- Corrected sectors since the last `HBM_CORRECTED` notice. -/
def Hub.CE_SINCE : Fld := ⟨0x1200000, 0, 32, 0, .int⟩
/-- Acceptance was stopped and the drain bound has not passed (R257). -/
def Hub.DRAINING : Fld := ⟨0x1200000, 32, 1, 0, .int⟩
/-- Failed retrains of a channel in a row (R235). -/
def Hub.RETRIES (ch : Nat) : Fld := ⟨0x1200008, 2 * ch, 2, 0, .int⟩

/-! ### Addresses -/

/-- The stack and stack byte address of an HBM local address (R237, R238). -/
def State.resolve (s : State) (a : Nat) : Nat × Nat :=
  let r := bitsOf a 41 30
  let g := bitsOf a 29 8
  let e := s.get panelSite (Reg.MESH_ILV.ENTRY r)
  let share := bitsOf e 16 5
  if e % 2 = 0 then
    (bitsOf g 5 0 ^^^ bitsOf g 11 6 ^^^ bitsOf g 17 12 ^^^ bitsOf g 21 18, share * 2 ^ 24 + g / 64 * 256 + a % 256)
  else
    (bitsOf e 4 1 * 4 + (bitsOf g 1 0 ^^^ bitsOf g 7 6 ^^^ bitsOf g 13 12 ^^^ bitsOf g 19 18),
      share * 2 ^ 24 + g / 4 * 256 + a % 256)

/-- Where a byte of a stack stands in `State.hbm`. -/
def hbmKey (stack saddr : Nat) : Nat := stack * 2 ^ 36 + saddr

/-- A piece of an access that lies in one 256-byte unit. -/
structure Piece where
  stack : Nat
  saddr : Nat
  len : Nat
  deriving DecidableEq, Repr

/-- Where a piece starts in `State.hbm`. -/
def Piece.key (p : Piece) : Nat := hbmKey p.stack p.saddr

/-- The pieces of an access of at most 256 bytes at an HBM local address. -/
def State.pieces (s : State) (a n : Nat) : List Piece :=
  let n1 := min n (256 - a % 256)
  let one (a n : Nat) : Piece := ⟨(s.resolve a).1, (s.resolve a).2, n⟩
  if n = 0 then [] else if n1 < n then [one a n1, one (a + n1) (n - n1)] else [one a n]

/-- The channel of a unit of a stack. -/
def hubChannel (stack saddr : Nat) : Nat := Config.hbmChannel stack (saddr / 256) % 32

/-- State of a channel: 0 ACTIVE, 1 RETRAIN, 2 FAILED. While every channel of the hub is ACTIVE, so is this one. -/
def State.channelState (s : State) (stack saddr : Nat) : Nat :=
  let site := siteOfStack stack
  if (mapRange (fldKey site (Reg.HUB_CHAN_STATUS.CHAN 0)) (fldKey site (Reg.HUB_CHAN_STATUS.CHAN 31) + 1) s.fld).isEmpty then 0
  else s.get site (Reg.HUB_CHAN_STATUS.CHAN (hubChannel stack saddr))

/-! ### Sectors (R231–R233) -/

/-- The sectors a range touches that a map lists. -/
def sectorsIn (m : SMap Nat) (k n : Nat) : List Nat :=
  if n = 0 then [] else (mapRange (k / 32) ((k + n - 1) / 32 + 1) m).map (·.1)

/-- A sector reads as an error that is not corrected: more than one symbol in error, or one beside the poison pattern (R231). -/
def State.sectorBad (s : State) (q : Nat) : Bool :=
  2 ≤ mapGet 0 s.hbmUpset q || (mapGet 0 s.hbmUpset q = 1 && mapGet 0 s.hbmPoison q = 1)

/-- A sector is delivered with poison. -/
def State.sectorPoison (s : State) (q : Nat) : Bool := mapGet 0 s.hbmPoison q = 1 || s.sectorBad q

/-- Capture an error of a sector: the first after VALID is cleared; an uncorrectable one replaces a corrected one (R258). -/
def State.logSector (s : State) (q kind : Nat) : State :=
  let stack := q / 2 ^ 31
  let site := siteOfStack stack
  let sec := q % 2 ^ 31
  if s.flag site Reg.HUB_ERR_LOG.VALID ∧ ¬ (kind = 2 ∧ s.get site Reg.HUB_ERR_LOG.KIND ≠ 2) then s
  else
    ((((s.putFlag site Reg.HUB_ERR_LOG.VALID true).put site Reg.HUB_ERR_LOG.KIND kind).put site Reg.HUB_ERR_LOG.SECTOR sec).put site
      Reg.HUB_ERR_LOG.CHANNEL (hubChannel stack (sec * 32))).put site Reg.HUB_ERR_LOG.PC (sec / 8 % 2)

/-- A corrected sector is counted, captured and, at the threshold, reported (R231, R258). -/
def State.sectorCorrected (s : State) (q kind : Nat) : State :=
  let stack := q / 2 ^ 31
  let site := siteOfStack stack
  let s1 := ((s.bump site Reg.HUB_CE.CORRECTED).bump site Hub.CE_SINCE).logSector q kind
  let n := s1.get site Hub.CE_SINCE
  let thr := s1.get site Reg.HUB_CTL.CE_THRESHOLD
  if thr ≠ 0 ∧ thr ≤ n then
    (s1.put site Hub.CE_SINCE 0).notify site 63 0x0401 1 (hubChannel stack (q % 2 ^ 31 * 32)) n
  else s1

/-- Mark a sector with the poison pattern. -/
def State.poisonSector (s : State) (q : Nat) : State :=
  { s with hbmPoison := mapSet 0 s.hbmPoison q 1, hbmUpset := mapErase s.hbmUpset q }

/-- What a read of one sector does besides delivering it (R231); `kind` is the capture of a corrected error. -/
def State.readSector (s : State) (kind q : Nat) : State :=
  let site := siteOfStack (q / 2 ^ 31)
  if s.sectorBad q then
    (((s.poisonSector q).bump site Reg.HUB_CE.UNCORRECTABLE).logSector q 2).notify site 63 0x0101 3 11 (q % 2 ^ 31)
  else if mapGet 0 s.hbmUpset q = 1 then s.sectorCorrected q kind
  else s

/-- The sectors of a range are read. -/
def State.readSectors (s : State) (k n : Nat) : State := (sectorsIn s.hbmUpset k n).foldl (fun s q => s.readSector 1 q) s

/-- Whether a range lies in a sector that is delivered with poison. -/
def State.hbmPoisoned (s : State) (k n : Nat) : Bool :=
  !(sectorsIn s.hbmPoison k n).isEmpty || (sectorsIn s.hbmUpset k n).any s.sectorBad

/-- Bytes of the stacks with the poison of their sectors. -/
def State.hbmRead (s : State) (k n : Nat) : List (Byte × Bool) :=
  (mapRead 0 s.hbm k n).zip ((List.range n).map fun i => s.hbmPoisoned (k + i) 1)

/-- The poison of sector q after bytes with the marks ps have been written from key k on (R232). -/
def sectorAfter (s : State) (k : Nat) (ps : List Bool) (q : Nat) : Nat :=
  let lo := max k (32 * q)
  let hi := min (k + ps.length) (32 * q + 32)
  if ((ps.drop (lo - k)).take (hi - lo)).any id || (hi - lo < 32 && s.sectorPoison q) then 1 else 0

/-- Write bytes with their poison marks. Sectors covered in part are read first and merged (R232). -/
def State.hbmWrite (s : State) (k : Nat) (bs : List (Byte × Bool)) : State :=
  if bs.isEmpty then s
  else
    let n := bs.length
    let q0 := k / 32
    let cnt := (k + n - 1) / 32 + 1 - q0
    let s1 := if k % 32 = 0 then s else s.readSectors (q0 * 32) 1
    let s2 := if (k + n) % 32 = 0 ∨ (cnt = 1 ∧ k % 32 ≠ 0) then s1 else s1.readSectors ((q0 + cnt - 1) * 32) 1
    { s2 with
      hbm := mapWrite 0 s2.hbm k (bs.map (·.1))
      hbmPoison := mapWrite 0 s2.hbmPoison q0 ((List.range cnt).map fun i => sectorAfter s2 k (bs.map (·.2)) (q0 + i))
      hbmUpset := mapClear q0 (q0 + cnt) s2.hbmUpset }

/-- Read pieces: the bytes, and what the reads do. -/
def State.readPieces (s : State) (ps : List Piece) : List (Byte × Bool) × State :=
  (ps.flatMap fun p => s.hbmRead p.key p.len, ps.foldl (fun s p => s.readSectors p.key p.len) s)

/-- Write pieces in turn. -/
def State.writePieces : State → List Piece → List (Byte × Bool) → State
  | s, [], _ => s
  | s, p :: ps, bs => (s.hbmWrite p.key (bs.take p.len)).writePieces ps (bs.drop p.len)

/-- Write a unit's eight sectors poisoned, their data as it stands (R250). -/
def State.poisonUnit (s : State) (stack unitAddr : Nat) : State :=
  (List.range 8).foldl (fun s i => s.poisonSector (hbmKey stack unitAddr / 32 + i)) s

/-- The mask of the 8-byte words that hold a poisoned byte (R242). -/
def wordPoisonMask (bs : List (Byte × Bool)) : BitVec 32 :=
  BitVec.ofNat 32 (((List.range 32).filter fun i => ((bs.drop (8 * i)).take 8).any (·.2)).foldl (fun a i => a + 2 ^ i) 0)

/-! ### Replies -/

/-- Send the reply of a request (R242). -/
def State.hubReply (s : State) (r : HubReq) (status : Nat) (data : List Byte) (poison : BitVec 32) : State :=
  { s with hubReps := s.hubReps ++ [{ status := status, epoch := r.epoch, dpanel := r.spanel % 4096, dsite := r.ssite, dunit := r.sunit % 64,
                                      tag := r.tag, opid := r.opid, poison := poison, data := data }] }

/-- Count a status in the hub's registers (R258). -/
def State.countStatus (s : State) (stack status : Nat) : State :=
  let site := siteOfStack stack
  if status = Hub.DONE_DUP then s.bump site Reg.HUB_DEDUP.DUPLICATES
  else if status = Hub.GROUP ∨ status = Hub.HOLD_FULL then s.bump site Reg.HUB_ORDERED.REFUSED
  else if status = Hub.DEDUP_FULL then s.bump site Reg.HUB_DEDUP.REFUSED
  else if status = Hub.CONV then s.putFlag site Reg.HUB_CONV_STATUS.REGION true
  else s

/-- Answer a request that is not performed. -/
def State.hubRefuse (s : State) (stack : Nat) (r : HubReq) (status : Nat) : State :=
  (s.countStatus stack status).hubReply r status [] 0

/-! ### Deduplication (R251–R253) -/

/-- A request is an atomic or a reduction. -/
def isAtomic (r : HubReq) : Bool := r.opc == 4 || r.opc == 5

/-- A window of a hub for a panel. -/
def DedupWindow.is (w : DedupWindow) (stack panel : Nat) : Bool := w.stack == stack && w.panel == panel
/-- An entry of an operation. -/
def DedupEntry.is (e : DedupEntry) (r : HubReq) : Bool := e.opid == r.opid && e.epoch == r.epoch

/-- The entry a request matches. -/
def State.dedupEntry (s : State) (stack : Nat) (r : HubReq) : Option DedupEntry :=
  (s.dedup.find? fun w => w.is stack r.spanel).bind fun w => w.entries.find? fun e => e.is r

/-- Change a hub's window for a panel. -/
def State.changeWindow (s : State) (stack panel : Nat) (f : List DedupEntry → List DedupEntry) : State :=
  { s with dedup := updFirst (fun w => w.is stack panel) (fun w => { w with entries := f w.entries }) s.dedup }

/-- Windows of a hub for other panels. -/
def State.windowsOf (s : State) (stack : Nat) : Nat := (s.dedup.filter fun w => w.stack == stack && w.panel != s.ownPanel).length

/-- The request's panel has a window, or one is free for it (R252). -/
def State.windowFree (s : State) (stack : Nat) (r : HubReq) : Bool :=
  r.spanel == s.ownPanel || (s.dedup.any fun w => w.is stack r.spanel) || s.windowsOf stack < 127

/-- Bring the count of windows up to date: the own panel's window is permanent. -/
def State.countWindows (s : State) (stack : Nat) : State :=
  s.put (siteOfStack stack) Reg.HUB_DEDUP.WINDOWS (s.windowsOf stack + 1)

/-- The request's panel has a window from now on (R252). -/
def State.openWindow (s : State) (stack : Nat) (r : HubReq) : State :=
  if s.dedup.any fun w => w.is stack r.spanel then s
  else ({ s with dedup := s.dedup ++ [DedupWindow.mk stack r.spanel []] }).countWindows stack

/-- Keep the 4,096 latest entries and every older one in progress (R251). -/
def trimEntries (es : List DedupEntry) : List DedupEntry :=
  (es.take (es.length - 4096)).filter (fun e => !e.performed) ++ es.drop (es.length - 4096)

/-- An accepted atomic or reduction makes an entry (R251). -/
def State.enter (s : State) (stack : Nat) (r : HubReq) : State :=
  s.changeWindow stack r.spanel fun es => trimEntries (es ++ [⟨r.opid, r.epoch, false, [], []⟩])

/-- An entered request ends (R253): performed, its result is kept for duplicates; not performed, its entry goes. The duplicates that wait
are answered. -/
def State.finish (s : State) (stack : Nat) (r : HubReq) (status : Nat) (data : List Byte) : State :=
  let ws := ((s.dedupEntry stack r).map (·.waiting)).getD []
  let performed := status ≤ 1
  let s1 := s.changeWindow stack r.spanel fun es =>
    if performed then trimEntries (updFirst (fun e => e.is r) (fun e => { e with performed := true, data := data, waiting := [] }) es)
    else dropFirst (fun e => e.is r) es
  ws.foldl (fun s w =>
    if performed then (s.countStatus stack Hub.DONE_DUP).hubReply w Hub.DONE_DUP data 0 else s.hubRefuse stack w status) s1

/-- Answer an entered request and end it. -/
def State.hubFinish (s : State) (stack : Nat) (r : HubReq) (status : Nat) (data : List Byte) : State :=
  ((s.countStatus stack status).hubReply r status data 0).finish stack r status data

/-- A duplicate (R253): answered from the entry, or waiting for its end. -/
def State.duplicate (s : State) (stack : Nat) (r : HubReq) (e : DedupEntry) : State :=
  if e.performed then (s.countStatus stack Hub.DONE_DUP).hubReply r Hub.DONE_DUP e.data 0
  else s.changeWindow stack r.spanel fun es => updFirst (fun e => e.is r) (fun e => { e with waiting := e.waiting ++ [r] }) es

/-! ### Checks (R241, R243, R254, R255) -/

/-- A conversion region (R254). -/
structure Region where
  base : Nat
  len : Nat
  mfmt : Nat
  side : Nat
  deriving DecidableEq, Repr

/-- The enabled regions of a hub in entry order. -/
def State.regions (s : State) (stack : Nat) : List Region :=
  let site := siteOfStack stack
  ((List.range 16).filter fun n => s.flag site (Reg.HUB_CONV_ELEM.EN n)).map fun n =>
    ⟨s.get site (Reg.HUB_CONV_ELEM.BASE n), s.get site (Reg.HUB_CONV_SIDE.LEN n) * 2 ^ 22, s.get site (Reg.HUB_CONV_ELEM.MFMT n),
      s.get site (Reg.HUB_CONV_SIDE.SIDE n)⟩

/-- What an accepted request touches: the pieces of its data, and for a conversion those of its side entries. -/
structure HubPlan where
  elems : List Piece
  sides : List Piece
  deriving DecidableEq, Repr

/-- Every piece of a plan. -/
def HubPlan.all (p : HubPlan) : List Piece := p.elems ++ p.sides

/-- PARAM bits an operation uses (R241). -/
def paramMask (opc : Nat) : Nat :=
  match opc with | 4 => 0x1F | 5 => 0x7 | 6 => 0x3FF | 7 => 0x3FFF | _ => 0

/-- An ordered reduction. -/
def orderedRed (r : HubReq) : Bool := r.opc == 5 && r.param.testBit 2

/-- A reserved field or code is not zero, or a field the operation does not use is (R241). -/
def hubMalformed (r : HubReq) : Bool :=
  9 < r.opc || 4095 < r.spanel || 63 < r.sunit || 2 ^ 56 ≤ r.addr || r.reserved != 0
  || extraBits r.param (paramMask r.opc) || (!isAtomic r && r.opid != 0)
  || 2 ^ (if orderedRed r then 24 else 0) ≤ r.order || 2 ^ (if orderedRed r then 25 else 0) ≤ r.group
  || (if r.opc == 8 || r.opc == 9 then r.length == 0 || 256 < r.length else r.length != 0)
  || (r.opc == 4 && 9 < r.param % 16) || (r.opc == 5 && r.param % 4 == 3) || (r.opc == 7 && 4 < bitsOf r.param 12 10)

/-- Bytes an operation that does not convert touches. -/
def hubSize (r : HubReq) : Nat :=
  match r.opc with | 0 | 2 | 5 => 256 | 1 | 3 => 8 | 4 => atomWidth (r.param % 16) | _ => r.length

/-- Elements of a converting request (R255). -/
def convCount (r : HubReq) : Nat := if bitsOf r.param 9 5 = 0 then 64 else 128

/-- The formats of a converting request: memory and compute; none if one does not suit (R79, R80, R255). -/
def convFmts (r : HubReq) : Option (Fmt × Fmt) :=
  match Fmt.ofCode (bitsOf r.param 4 0), Fmt.ofCode (bitsOf r.param 9 5) with
  | some m, some c =>
    if m.codec ∧ (c = .fp32 ∨ c = .bf16 ∨ (r.opc = 6 ∧ c = .fp16)) then some (m, c) else none
  | _, _ => none

/-- The checks of a converting request, in the order of R243. -/
def State.convCheck (s : State) (stack : Nat) (r : HubReq) (a : Nat) : Nat ⊕ HubPlan :=
  match convFmts r with
  | none => if hbmSize ≤ a then .inl Hub.ADDR else .inl Hub.CONV
  | some (m, _) =>
    let n := convCount r
    let bytes := n * m.bits / 8
    if hbmSize < a + bytes then .inl Hub.ADDR
    else if m.block then
      if a % m.blockBytes ≠ 0 then .inl Hub.ALIGN
      else
        match (s.regions stack).find? fun g => g.mfmt == bitsOf r.param 4 0 && g.base ≤ a && a < g.base + g.len with
        | none => .inl Hub.CONV
        | some g =>
          if g.base + g.len < a + bytes then .inl Hub.CONV
          else .inr ⟨s.pieces a bytes, s.pieces (g.side + (a - g.base) / m.blockBytes * m.sideBytes) (n / 32 * m.sideBytes)⟩
    else if a % max 1 (m.bits / 8) ≠ 0 then .inl Hub.ALIGN
    else .inr ⟨s.pieces a bytes, []⟩

/-- The checks of a request up to its conversion rules: a status, or what it touches (R243). -/
def State.hubCheck (s : State) (stack : Nat) (r : HubReq) : Nat ⊕ HubPlan :=
  let a := r.addr % 2 ^ 44
  let n := hubSize r
  if hubMalformed r then .inl Hub.MALFORMED
  else if r.addr / 2 ^ 44 ≠ s.ownPanel then .inl Hub.ADDR
  else if r.opc = 6 ∨ r.opc = 7 then s.convCheck stack r a
  else if hbmSize < a + n then .inl Hub.ADDR
  else if (if r.opc = 8 ∨ r.opc = 9 then 256 < a % 256 + n else a % n ≠ 0) then .inl Hub.ALIGN
  else .inr ⟨s.pieces a n, []⟩

/-! ### Operations -/

/-- Sum of two codes of a format, rounded once to nearest even. -/
def addCodes (f : FloatFmt) (x y : Nat) : Nat := (f.encode .rne false 0 ((f.decode x).add (f.decode y))).1

/-- memory + contribution, element by element (R246). -/
def redSum (rtype : Nat) (old new : List Byte) : List Byte :=
  let w := if rtype = 1 then 16 else 32
  let f := if rtype = 0 then addCodes ffFP32 else if rtype = 1 then addCodes ffBF16 else fun x y => (x + y) % 2 ^ 32
  let xs := unpackCodes w (2048 / w) (leNat old)
  let ys := unpackCodes w (2048 / w) (leNat new)
  leBytes 256 (packCodes w ((xs.zip ys).map fun p => f p.1 p.2))

/-- What an atomic leaves in memory; none where it writes nothing (R245). -/
def atomResult (aop old x cmp : Nat) : Option Nat :=
  let smaller := signedOf 64 old ≤ signedOf 64 x
  match aop with
  | 0 => some ((old + x) % 2 ^ 32)
  | 1 => some ((old + x) % 2 ^ 64)
  | 2 => some (addCodes ffFP32 old x)
  | 3 => some (addCodes ffBF16 old x)
  | 4 => some (if smaller then old else x)
  | 5 => some (if smaller then x else old)
  | 6 => some (toFP32 (fMin (ofFP32 old) (ofFP32 x)))
  | 7 => some (toFP32 (fMax (ofFP32 old) (ofFP32 x)))
  | 8 => some x
  | _ => if old = cmp then some x else none

/-- Data bytes of a request with the poison of their words. -/
def reqBytes (r : HubReq) (n : Nat) : List (Byte × Bool) := (List.range n).map fun i => (r.data.getD i 0, r.poison.toNat.testBit (i / 8))

/-- An atomic (R245): a poisoned operand poisons the sector. -/
def State.hubAtomic (s : State) (stack : Nat) (r : HubReq) (p : Piece) : State :=
  let s0 := s.enter stack r
  let old := leNat (mapRead 0 s0.hbm p.key p.len)
  let x := leNat (r.data.take 8) % 2 ^ (8 * p.len)
  let new := (atomResult (r.param % 16) old x (leNat ((r.data.drop 8).take 8))).getD old
  let pois := r.poison.toNat.testBit 0
  let s1 := if pois ∨ (atomResult (r.param % 16) old x (leNat ((r.data.drop 8).take 8))).isSome then
      s0.hbmWrite p.key ((leBytes p.len new).map fun b => (b, pois)) else s0
  s1.hubFinish stack r Hub.DONE (if r.param.testBit 4 then leBytes 8 old else [])

/-- Put a contribution into a unit (R246, R247). -/
def State.contribute (s : State) (stack unitAddr rtype : Nat) (replace : Bool) (r : HubReq) : State :=
  let k := hbmKey stack unitAddr
  let s1 := s.readSectors k 256
  let old := s1.hbmRead k 256
  let new := reqBytes r 256
  if replace then s1.hbmWrite k new
  else s1.hbmWrite k ((redSum rtype (old.map (·.1)) (new.map (·.1))).zip ((old.zip new).map fun p => p.1.2 || p.2.2))

/-- A record of a stack at a unit. -/
def HubRecord.is (c : HubRecord) (stack unitAddr : Nat) : Bool := c.stack == stack && c.unitAddr == unitAddr
/-- The record open at a unit. -/
def State.record (s : State) (stack unitAddr : Nat) : Option HubRecord := s.hubRecords.find? fun c => c.is stack unitAddr

/-- Records and held contributions of a stack. -/
def State.openRecords (s : State) (stack : Nat) : Nat := (s.hubRecords.filter fun c => c.stack == stack).length
def State.heldCount (s : State) (stack : Nat) : Nat :=
  ((s.hubRecords.filter fun c => c.stack == stack).map fun c => c.held.length).sum

/-- Bring OPEN and HELD up to date. -/
def State.countRecords (s : State) (stack : Nat) : State :=
  (s.put (siteOfStack stack) Reg.HUB_ORDERED.OPEN (s.openRecords stack)).put (siteOfStack stack) Reg.HUB_ORDERED.HELD (s.heldCount stack)

/-- Store a record, or drop it when it is closed. -/
def State.setRecord (s : State) (c : HubRecord) (closed : Bool) : State :=
  let rest := s.hubRecords.filter fun d => !d.is c.stack c.unitAddr
  ({ s with hubRecords := if closed then rest else rest ++ [c] }).countRecords c.stack

/-- Apply the contributions of rank NEXT as long as one is held (R247). -/
def applyRanks : Nat → State → HubRecord → State × HubRecord
  | 0, s, c => (s, c)
  | n + 1, s, c =>
    match c.held.find? fun h => h.1 == c.next with
    | none => (s, c)
    | some h =>
      let s1 := (s.contribute c.stack c.unitAddr c.rtype (c.next == 0 && c.replace) h.2).hubFinish c.stack h.2 Hub.DONE []
      applyRanks n s1 { c with next := c.next + 1, held := dropFirst (fun h => h.1 == c.next) c.held }

/-- An ordered contribution (R247): every refusal is decided before anything changes. -/
def State.hubOrdered (s : State) (stack : Nat) (r : HubReq) (p : Piece) : State :=
  let k := bitsOf r.order 11 0
  let n := bitsOf r.order 23 12 + 1
  let fresh : HubRecord := ⟨stack, p.saddr, bitsOf r.group 23 0, n, r.param % 4, r.group.testBit 24, 0, 0, []⟩
  let old := s.record stack p.saddr
  let c := old.getD fresh
  if c.gid ≠ fresh.gid ∨ c.count ≠ n ∨ c.rtype ≠ fresh.rtype ∨ c.replace ≠ fresh.replace then s.hubRefuse stack r Hub.GROUP
  else if n ≤ k ∨ k < c.next ∨ c.bitmap.testBit k then s.hubRefuse stack r Hub.GROUP
  else if k ≠ c.next ∧ 8192 ≤ s.heldCount stack then s.hubRefuse stack r Hub.HOLD_FULL
  else if old.isNone ∧ 2048 ≤ s.openRecords stack then s.hubRefuse stack r Hub.HOLD_FULL
  else
    let c1 := { c with bitmap := maskWith c.bitmap k true, held := c.held ++ [(k, r)] }
    let (s1, c2) := applyRanks c1.held.length (s.enter stack r) c1
    s1.setRecord c2 (c2.next == c2.count)

/-- A reduction (R246). -/
def State.hubReduce (s : State) (stack : Nat) (r : HubReq) (p : Piece) : State :=
  if orderedRed r then s.hubOrdered stack r p
  else ((s.enter stack r).contribute stack p.saddr (r.param % 4) false r).hubFinish stack r Hub.DONE []

/-- A record is closed without its sum (R250, R257): its held contributions get a status, its unit is poisoned unless it is lost, and a
notice names the unit and the GID. -/
def State.closeRecord (s : State) (c : HubRecord) (status : Nat) (lost : Bool) : State :=
  let s1 := (c.held.foldl (fun s h => s.hubFinish c.stack h.2 status []) s).setRecord c true
  let s2 := if lost then s1 else s1.poisonUnit c.stack c.unitAddr
  (s2.bump (siteOfStack c.stack) Reg.HUB_ORDERED.ABORTS).notify (siteOfStack c.stack) 63 0x0403 3 c.gid c.unitAddr

/-- Record what the hub's conversions report (R258). -/
def State.hubConvFlags (s : State) (stack : Nat) (f : ConvFlags) : State :=
  let set (s : State) (b : Bool) (r : Fld) : State := if b then s.putFlag (siteOfStack stack) r true else s
  set (set (set (set s f.overflow Reg.HUB_CONV_STATUS.OVERFLOW) f.nanZero Reg.HUB_CONV_STATUS.NAN_ZERO) f.nanBlock
    Reg.HUB_CONV_STATUS.NAN_BLOCK) f.decodeInf Reg.HUB_CONV_STATUS.DECODE_INF

/-- One element to the compute format (R79): FP32 exactly, 16 bits rounded once and saturated. -/
def gatherElem (c : Fmt) (v : FVal) : Nat × ConvFlags :=
  if c = .fp32 then (toFP32 (decodeFP32 v).1, { decodeInf := (decodeFP32 v).2 })
  else c.encodeElem .rne true 0 v

/-- Bytes from the lowest to the highest an element of a packed array lies in. -/
def elemBytes (m : Fmt) (bs : List (Byte × Bool)) (e : Nat) : List (Byte × Bool) :=
  (bs.drop (e * m.bits / 8)).take ((e * m.bits + m.bits + 7) / 8 - e * m.bits / 8)

/-- `GATHER_C` (R255, R256): decode the elements and convert them; a word is poisoned if an element in it, or the side entry of its
block, came from a poisoned sector. -/
def State.hubGather (s : State) (stack : Nat) (r : HubReq) (p : HubPlan) : State :=
  match convFmts r with
  | none => s
  | some (m, c) =>
    let n := convCount r
    let (eb, s1) := s.readPieces p.elems
    let (sb, s2) := s1.readPieces p.sides
    let codes := unpackCodes m.bits n (leNat (eb.map (·.1)))
    let sideOf (e : Nat) : List (Byte × Bool) := (sb.drop (e / 32 * m.sideBytes)).take m.sideBytes
    let outs := (List.range n).map fun e => gatherElem c (m.decodeElem (e % 32) (codes.getD e 0) (leNat ((sideOf e).map (·.1))))
    let pois (e : Nat) : Bool := (elemBytes m eb e).any (·.2) || (sideOf e).any (·.2)
    let bytes := (List.range n).flatMap fun e => (leBytes (c.bits / 8) (outs.getD e (0, {})).1).map fun b => (b, pois e)
    let bad := m = .zb4 && (List.range (n / 32)).any fun j => (zbSide (leNat ((sideOf (32 * j)).map (·.1)))).malformed
    (s2.hubConvFlags stack (outs.foldl (fun f o => f.or o.2) { nanBlock := bad })).hubReply r Hub.DONE (bytes.map (·.1))
      (wordPoisonMask bytes)

/-- The random draw of element e of a converting store (R87, R256). -/
def State.hubDraw (s : State) (stack : Nat) (r : HubReq) (m : Fmt) (e : Nat) : Nat :=
  let bit := r.addr % 2 ^ 44 * 8 + e * m.bits
  srHash (s.get (siteOfStack stack) Reg.HUB_SR_SEED.SEED)
    (srHubKey ((r.addr / 2 ^ 44 * 2 ^ 44 + bit / 8) / 32) (bit % 256 / m.bits))

/-- `STORE_C` (R255, R256): encode 32 values at a time, or each by itself; a block with a poisoned input is written poisoned, its side
entry normally. -/
def State.hubStore (s : State) (stack : Nat) (r : HubReq) (p : HubPlan) : State :=
  match convFmts r with
  | none => s
  | some (m, c) =>
    let n := convCount r
    let bs := reqBytes r 256
    let rm := (RMode.ofCode (bitsOf r.param 12 10)).getD .rne
    let sat := !r.param.testBit 13
    let codes := unpackCodes c.bits n (leNat (bs.map (·.1)))
    let v (e : Nat) : FVal := c.decodeElem 0 (codes.getD e 0) 0
    let u (e : Nat) : Nat := if rm = .sr then s.hubDraw stack r m e else 0
    let pois (e : Nat) : Bool := ((bs.drop (e * c.bits / 8)).take 1).any (·.2)
    if m.block then
      let blks := (List.range (n / 32)).map fun j =>
        let es := (List.range 32).map (32 * j + ·)
        (encodeBlock m rm (es.map u) (es.map v), es.any pois)
      let eb := blks.flatMap fun b => (leBytes m.blockBytes (packCodes m.bits b.1.1)).map fun x => (x, b.2)
      let sb := blks.flatMap fun b => (leBytes m.sideBytes b.1.2.1).map fun x => (x, false)
      (((s.writePieces p.elems eb).writePieces p.sides sb).hubConvFlags stack
        (blks.foldl (fun f b => f.or b.1.2.2) {})).hubReply r Hub.DONE [] 0
    else
      let outs := (List.range n).map fun e => m.encodeElem rm sat (u e) (v e)
      let raw := leBytes (n * m.bits / 8) (packCodes m.bits (outs.map (·.1)))
      let marks := (List.range (n * m.bits / 8)).map fun i => pois (8 * i / m.bits) || pois ((8 * i + 7) / m.bits)
      ((s.writePieces p.elems (raw.zip marks)).hubConvFlags stack (outs.foldl (fun f o => f.or o.2) {})).hubReply r Hub.DONE [] 0

/-- Perform an accepted request. -/
def State.hubPerform (s : State) (stack : Nat) (r : HubReq) (p : HubPlan) : State :=
  let one := p.elems.headD ⟨stack, 0, 0⟩
  match r.opc with
  | 2 | 3 | 9 => (s.writePieces p.elems (reqBytes r (hubSize r))).hubReply r Hub.DONE [] 0
  | 4 => s.hubAtomic stack r one
  | 5 => s.hubReduce stack r one
  | 6 => s.hubGather stack r p
  | 7 => s.hubStore stack r p
  | _ =>
    let (bs, s1) := s.readPieces p.elems
    s1.hubReply r Hub.DONE (bs.map (·.1)) (wordPoisonMask bs)

/-- An atomic or reduction that is no duplicate: a window for its panel, and no poisoned sector (R243). -/
def State.hubAtomStart (s : State) (stack : Nat) (r : HubReq) (p : HubPlan) : State :=
  if !s.windowFree stack r then s.hubRefuse stack r Hub.DEDUP_FULL
  else
    let s1 := (s.readPieces p.elems).2.openWindow stack r
    if p.elems.any fun q => s1.hbmPoisoned q.key q.len then s1.hubRefuse stack r Hub.POISON
    else s1.hubPerform stack r p

/-- A request waits for a channel, in its queue of 64 or, when that is full, at the router (R235). -/
def State.hubQueue (s : State) (stack : Nat) (r : HubReq) (ch : Nat × Nat) : State :=
  let full := 64 ≤ (s.hubWaits.filter fun w => w.channel == some ch).length
  { s with hubWaits := s.hubWaits ++ [⟨stack, if full then none else some ch, r⟩] }

/-- A hub scrubs. -/
def State.scrubbing (s : State) (stack : Nat) : Bool := s.flag (siteOfStack stack) Reg.HUB_SCRUB.ACTIVE

/-- Serve a request at a stack: the first status of R243 that applies, or its operation. -/
def State.hubServe (s : State) (stack : Nat) (r : HubReq) : State :=
  match s.hubCheck stack r with
  | .inl status => s.hubRefuse stack r status
  | .inr p =>
    if p.all.any fun q => s.scrubbing q.stack then s.hubRefuse stack r Hub.WITHDRAWN
    else if isAtomic r ∧ ¬ s.flag (siteOfStack stack) Reg.HUB_CTL.ACCEPT_ATOM then s.hubRefuse stack r Hub.WITHDRAWN
    else
      match (if isAtomic r then s.dedupEntry stack r else none) with
      | some e => s.duplicate stack r e
      | none =>
        if p.all.any fun q => s.channelState q.stack q.saddr = 2 then s.hubRefuse stack r Hub.CHAN_DOWN
        else
          match p.all.find? fun q => s.channelState q.stack q.saddr = 1 with
          | some q => s.hubQueue stack r (q.stack, hubChannel q.stack q.saddr)
          | none => if isAtomic r then s.hubAtomStart stack r p else s.hubPerform stack r p

/-- A hub's router keeps requests back behind a full channel queue (R235). -/
def State.hubBlocked (s : State) (stack : Nat) : Bool := s.hubWaits.any fun w => w.stack == stack && w.channel.isNone

/-- A request arrives at a stack. -/
def State.hubArrive (s : State) (stack : Nat) (r : HubReq) : State :=
  if s.hubBlocked stack then { s with hubWaits := s.hubWaits ++ [⟨stack, none, r⟩] } else s.hubServe stack r

/-- A request at the stack that its first byte lies in; a request that this hub does not own does not arrive there (R238, R256). -/
def State.hubCommand (s : State) (stack opc : Nat) (r : HubReq) : State :=
  let q := { r with opc := opc }
  match s.hubCheck stack q with
  | .inr p =>
    if (p.elems.headD ⟨stack, 0, 0⟩).stack = stack then
      ({ s with hubReqs := dropFirst (· == q) s.hubReqs }).hubArrive stack q
    else s
  | .inl _ => if stack < 64 then ({ s with hubReqs := dropFirst (· == q) s.hubReqs }).hubArrive stack q else s

/-! ### Channels, stops and scrubs -/

/-- A channel's queue and what waits behind full queues go on in order (R235). -/
def State.releaseChannel (s : State) (stack ch : Nat) : State :=
  let mine := s.hubWaits.filter fun w => w.channel == some (stack, ch)
  let behind := s.hubWaits.filter fun w => w.channel.isNone
  let s1 := { s with hubWaits := s.hubWaits.filter fun w => !(w.channel == some (stack, ch)) && w.channel.isSome }
  behind.foldl (fun s w => s.hubArrive w.stack w.req) (mine.foldl (fun s w => s.hubServe w.stack w.req) s1)

/-- A channel starts to retrain unless it has FAILED (R235). -/
def State.startRetrain (s : State) (stack ch : Nat) : State :=
  let site := siteOfStack stack
  if s.get site (Reg.HUB_CHAN_STATUS.CHAN ch) = 0 then s.put site (Reg.HUB_CHAN_STATUS.CHAN ch) 1 else s

/-- A channel is FAILED (R235, R257): its records are closed and its waiting requests refused. -/
def State.failChannel (s : State) (stack ch : Nat) : State :=
  let site := siteOfStack stack
  if s.get site (Reg.HUB_CHAN_STATUS.CHAN ch) = 2 then s
  else
    let s1 := ((s.put site (Reg.HUB_CHAN_STATUS.CHAN ch) 2).put site Reg.HUB_STATUS.FAILED (s.get site Reg.HUB_STATUS.FAILED + 1)).notify
      site 63 0x0402 3 ch 0
    let cs := s1.hubRecords.filter fun c => c.stack == stack && hubChannel stack c.unitAddr == ch
    (cs.foldl (fun s c => s.closeRecord c Hub.CHAN_DOWN true) s1).releaseChannel stack ch

/-- Acceptance of atomics stops (R257): held contributions are withdrawn at once; the records close at the drain bound. -/
def State.stopAtomics (s : State) (stack : Nat) : State :=
  let mine := s.hubRecords.filter fun c => c.stack == stack
  (mine.foldl (fun s c =>
    (c.held.foldl (fun s h => s.hubFinish stack h.2 Hub.WITHDRAWN []) s).setRecord { c with held := [] } false) s).putFlag
      (siteOfStack stack) Hub.DRAINING true

/-- The drain ends (R257): every open record is closed. -/
def State.closeRecords (s : State) (stack : Nat) : State :=
  if s.flag (siteOfStack stack) Hub.DRAINING then
    ((s.hubRecords.filter fun c => c.stack == stack).foldl (fun s c => s.closeRecord c Hub.WITHDRAWN false) s).putFlag
      (siteOfStack stack) Hub.DRAINING false
  else s

/-- ACCEPT_ATOM is written (R257). -/
def State.writeAccept (s : State) (stack : Nat) (on : Bool) : State :=
  let site := siteOfStack stack
  let s1 := s.putFlag site Reg.HUB_CTL.ACCEPT_ATOM on
  if on then (if s.flag site Hub.DRAINING then s1.closeRecords stack else s1)
  else if s.flag site Reg.HUB_CTL.ACCEPT_ATOM then s1.stopAtomics stack
  else s1

/-- A zero scrub starts (R234, R252, R257). -/
def State.startZeroScrub (s : State) (stack : Nat) : State :=
  let site := siteOfStack stack
  let s1 := (s.stopAtomics stack).closeRecords stack
  (({ s1 with dedup := s1.dedup.filter fun w => w.stack != stack }).countWindows stack).putFlag site Reg.HUB_SCRUB.ACTIVE true |>.put site
    Reg.HUB_STATUS.STATE 2

/-- Every sector of a stack holds zeros without poison (R234). -/
def State.clearStack (s : State) (stack : Nat) : State :=
  { s with
    hbm := mapClear (hbmKey stack 0) (hbmKey (stack + 1) 0) s.hbm
    hbmPoison := mapClear (hbmKey stack 0 / 32) (hbmKey (stack + 1) 0 / 32) s.hbmPoison
    hbmUpset := mapClear (hbmKey stack 0 / 32) (hbmKey (stack + 1) 0 / 32) s.hbmUpset }

/-! ### Meanings -/

/-- A hub reads a unit (R241). -/
def execHubRead (stack : Nat) (r : HubReq) (s : State) : Host.Outcome State Fault Refusal := .next (s.hubCommand stack 0 r)
/-- A hub reads 8 bytes (R241). -/
def execRead8 (stack : Nat) (r : HubReq) (s : State) : Host.Outcome State Fault Refusal := .next (s.hubCommand stack 1 r)
/-- A hub writes a unit (R241). -/
def execHubWrite (stack : Nat) (r : HubReq) (s : State) : Host.Outcome State Fault Refusal := .next (s.hubCommand stack 2 r)
/-- A hub writes 8 bytes (R241). -/
def execWrite8 (stack : Nat) (r : HubReq) (s : State) : Host.Outcome State Fault Refusal := .next (s.hubCommand stack 3 r)
/-- A hub performs an atomic (R245). -/
def execHubAtom (stack : Nat) (r : HubReq) (s : State) : Host.Outcome State Fault Refusal := .next (s.hubCommand stack 4 r)
/-- A hub takes a reduction's contribution (R246, R247). -/
def execHubRed (stack : Nat) (r : HubReq) (s : State) : Host.Outcome State Fault Refusal := .next (s.hubCommand stack 5 r)
/-- A hub reads and converts (R255). -/
def execGatherC (stack : Nat) (r : HubReq) (s : State) : Host.Outcome State Fault Refusal := .next (s.hubCommand stack 6 r)
/-- A hub converts and writes (R255). -/
def execStoreC (stack : Nat) (r : HubReq) (s : State) : Host.Outcome State Fault Refusal := .next (s.hubCommand stack 7 r)
/-- A hub reads part of a unit (R241). -/
def execPartRead (stack : Nat) (r : HubReq) (s : State) : Host.Outcome State Fault Refusal := .next (s.hubCommand stack 8 r)
/-- A hub writes part of a unit (R241). -/
def execPartWrite (stack : Nat) (r : HubReq) (s : State) : Host.Outcome State Fault Refusal := .next (s.hubCommand stack 9 r)

/-- A record has applied nothing for RTIMEOUT (R250). -/
def execRecordTimeout (stack unitAddr : Nat) (s : State) : Host.Outcome State Fault Refusal :=
  .next (match s.record stack unitAddr with
    | some c => s.closeRecord c Hub.ABORTED false
    | none => s)

/-- A window for another panel has had no new entry for DEDUP_IDLE and is freed (R252). -/
def execDedupWindowIdle (stack panel : Nat) (s : State) : Host.Outcome State Fault Refusal :=
  .next (if panel ≠ s.ownPanel ∧ s.get (siteOfStack stack) Reg.HUB_CTL.DEDUP_IDLE ≠ 0 ∧ (s.dedup.any fun w => w.is stack panel) then
      ({ s with dedup := dropFirst (fun w => w.is stack panel) s.dedup }).countWindows stack
    else s)

/-- Patrol of one sector: a corrected error is rewritten (R233). -/
def State.patrolSector (s : State) (q : Nat) : State :=
  let s1 := s.readSector 3 q
  if s.sectorBad q then s1 else { s1 with hbmUpset := mapErase s1.hbmUpset q }

/-- The patrol scrubber reads a unit (R233); the last unit of the stack ends a pass. -/
def execHbmPatrolRead (stack unitAddr : Nat) (s : State) : Host.Outcome State Fault Refusal :=
  let site := siteOfStack stack
  .next (if s.flag site Reg.HUB_CTL.PATROL_EN ∧ ¬ s.scrubbing stack ∧ unitAddr % 256 = 0 ∧ unitAddr < 2 ^ 36 ∧ stack < 64 then
      let k := hbmKey stack unitAddr
      let s1 := (sectorsIn s.hbmUpset k 256).foldl State.patrolSector s
      if unitAddr = 2 ^ 36 - 256 then s1.bump site Reg.HUB_SCRUB.PASSES else s1
    else s)

/-- What a zero scrub leaves when it ends (R234). -/
def State.scrubEnds (s : State) (stack : Nat) : State :=
  let site := siteOfStack stack
  (((s.clearStack stack).putFlag site Reg.HUB_SCRUB.ACTIVE false).put site Reg.HUB_STATUS.STATE 1).bump site Reg.HUB_SCRUB.ZERO_SCRUBS

/-- Persistent errors on a channel start its retrain (R235). -/
def execChannelErrors (stack channel : Nat) (s : State) : Host.Outcome State Fault Refusal :=
  .next (if stack < 64 ∧ channel < 32 then s.startRetrain stack channel else s)

/-- A retrain ends (R235): the PHY's clock is locked, and requests go on; the third failure in a row fails the channel. -/
def execChannelRetrainDone (stack channel : Nat) (ok : Bool) (s : State) : Host.Outcome State Fault Refusal :=
  let site := siteOfStack stack
  .next (if stack < 64 ∧ channel < 32 ∧ s.get site (Reg.HUB_CHAN_STATUS.CHAN channel) = 1 then
      if ok then
        (((s.put site (Reg.HUB_CHAN_STATUS.CHAN channel) 0).put site (Hub.RETRIES channel) 0).put site Reg.CLK_FABRIC.AUX_LOCK 1).releaseChannel
          stack channel
      else if s.get site (Hub.RETRIES channel) = 2 then (s.put site (Hub.RETRIES channel) 3).failChannel stack channel
      else s.put site (Hub.RETRIES channel) (s.get site (Hub.RETRIES channel) + 1)
    else s)

/-- The drain bound after acceptance stopped (R257). -/
def execHubDrainBound (stack : Nat) (s : State) : Host.Outcome State Fault Refusal := .next (if stack < 64 then s.closeRecords stack else s)

/-- An HBM rail of a block leaves its range (R416): every channel of the block's hubs is FAILED. -/
def execHbmRailFault (block : Nat) (s : State) : Host.Outcome State Fault Refusal :=
  .next (if block < 16 then
      (List.range 4).foldl (fun s i => (List.range 32).foldl (fun s ch => s.failChannel (block * 4 + i) ch) s) s
    else s)

end Sys2Proof.Machine
end

