-- ==== Sys2Proof/Machine/Mesh.lean ====
section
/-! DEFINITION. The panel fabric (10_panel_fabric): packets and flits, links with replay, routing, multicast and fenced dies. -/

namespace Sys2Proof.Machine

/-! ### State of a link end, ports 0 north, 1 east, 2 south, 3 west; after training (R264) -/

/-- Position of the next flit sent. -/
def Mesh.TX_NEXT (p : Nat) : Fld := ⟨0x1800000 + 0x1000 * p, 0, 9, 0, .int⟩
/-- Sub-link used last, plus one, for dealing. -/
def Mesh.TX_LAST (p : Nat) : Fld := ⟨0x1800000 + 0x1000 * p, 9, 3, 0, .int⟩
/-- Next position to accept. -/
def Mesh.RX_NEXT (p : Nat) : Fld := ⟨0x1800000 + 0x1000 * p, 12, 9, 0, .int⟩
/-- Flits replayed since the last `MESH_REPLAY` notice. -/
def Mesh.REPLAY_SINCE (p : Nat) : Fld := ⟨0x1800000 + 0x1000 * p, 21, 24, 0, .int⟩
/-- Last position accepted on a sub-link. -/
def Mesh.RX_POS (p k : Nat) : Fld := ⟨0x1800008 + 0x1000 * p + 8 * k, 0, 9, 511, .int⟩
/-- Consecutive failures of a sub-link (R266). -/
def Mesh.RX_FAILS (p k : Nat) : Fld := ⟨0x1800008 + 0x1000 * p + 8 * k, 9, 4, 0, .int⟩
/-- A failure has been NAKed and its replay has not come (R265). -/
def Mesh.RX_NAK (p k : Nat) : Fld := ⟨0x1800008 + 0x1000 * p + 8 * k, 13, 1, 0, .int⟩
/-- Credits held for the far buffer of a virtual channel, class × 2 + lane (R271). -/
def Mesh.CREDIT (p vc : Nat) : Fld := ⟨0x1800040 + 0x1000 * p + 8 * vc, 0, 5, 16, .int⟩
/-- Credits to be returned to the far end (R271). -/
def Mesh.CREDIT_DUE (p vc : Nat) : Fld := ⟨0x1800040 + 0x1000 * p + 8 * vc, 5, 8, 0, .int⟩
/-- Class served last by an output (R272), 4 being local. -/
def Mesh.ARB_CLASS (o : Nat) : Fld := ⟨0x1808000 + 0x100 * o, 0, 3, 4, .int⟩
/-- Lane served last of a class. -/
def Mesh.ARB_LANE (o c : Nat) : Fld := ⟨0x1808008 + 0x100 * o + 8 * c, 0, 1, 1, .int⟩
/-- Input port served last of a class and lane. -/
def Mesh.ARB_PORT (o c l : Nat) : Fld := ⟨0x1808008 + 0x100 * o + 8 * c, 1 + 3 * l, 3, 4, .int⟩
/-- Groups of packets held so far. -/
def Mesh.GROUP : Fld := ⟨0x1809000, 0, 32, 0, .int⟩

/-! ### Tables and routes (R259, R260, R274–R277) -/

/-- A site has a working router. -/
def State.alive (s : State) (site : Nat) : Bool := site < 256 && s.flag panelSite (Reg.MESH_ALIVE.ALIVE site)

/-- The sites beyond a site in a direction, nearest first. -/
def sitesBeyond : Nat → Nat → Nat → List Nat
  | 0, _, _ => []
  | n + 1, site, port =>
    match neighbour site port with
    | none => []
    | some x => x :: sitesBeyond n x port

/-- The router a port is joined to: the first alive site in its direction (R259). -/
def State.farSite (s : State) (site port : Nat) : Option Nat := (sitesBeyond 15 site port).find? s.alive
/-- Bridged sites a port crosses. -/
def State.span (s : State) (site port : Nat) : Nat :=
  match (sitesBeyond 15 site port).findIdx? s.alive with | some n => n | none => 0
/-- Mode of a port: 0 link, 1 through-pass, 2 none. -/
def State.portMode (s : State) (site port : Nat) : Nat :=
  if (s.farSite site port).isNone then 2 else if s.span site port = 0 then 0 else 1

/-- Difference of two coordinates. -/
def absDiff (a b : Nat) : Nat := max a b - min a b
/-- Hops between two sites: the distance along the grid. -/
def hopCount (a b : Nat) : Nat := absDiff (siteRow a) (siteRow b) + absDiff (siteCol a) (siteCol b)
/-- The site at a row and column. -/
def siteRC (row col : Nat) : Nat := row * 16 + col

/-- The intermediate site of router s for destination d (R276); none where the entry's VALID is 0. A corner that is an endpoint of the
route counts as alive. -/
def State.route (s : State) (site d : Nat) : Option Nat :=
  let corner (a b x : Nat) : Bool := x == a || x == b || s.alive x
  if !s.alive d then none
  else if corner site d (siteRC (siteRow site) (siteCol d)) then some d
  else if corner site d (siteRC (siteRow d) (siteCol site)) then some site
  else
    ((List.range 256).filter fun m =>
      s.alive m && corner site m (siteRC (siteRow site) (siteCol m)) && corner m d (siteRC (siteRow d) (siteCol m))).foldl
      (fun best m =>
        match best with
        | none => some m
        | some b => if hopCount site m + hopCount m d < hopCount site b + hopCount b d then some m else best) none

/-- The fenced mask (R274). -/
def State.maskFenced (s : State) (ldie : Nat) : Bool := s.flag panelSite (Reg.MESH_FENCED.FENCED ldie)

/-! ### Packets as bytes (R268, R269) -/

/-- Header bytes before the payload. -/
def headBytes (p : Packet) : Nat := if p.mcast then 40 else 16
/-- FLITS of a packet. -/
def packetFlits (p : Packet) : Nat := (headBytes p + p.plen + 63) / 64

/-- The bytes of a packet. -/
def packetBytes (p : Packet) : List Byte :=
  let b (n : Nat) : Byte := BitVec.ofNat 8 n
  [b (p.cls + (if p.mcast then 8 else 0) + 16 * p.lane + (if p.mcopy then 32 else 0)), b (packetFlits p)] ++ leBytes 2 p.plen
    ++ [b p.dsite, b p.msite, b p.dunit, b p.ssite, b p.sunit, b p.hops] ++ leBytes 2 p.mcid ++ [b p.dld, 0, 0, 0]
    ++ (if p.mcast then leBytes 18 p.mask.toNat ++ [b p.expect, 0, 0, 0, 0, 0] else [])
    ++ (List.range p.plen).map fun i => p.payload.getD i 0

/-- A packet read back from the bytes of its flits. -/
def packetOf (bs : List Byte) : Packet :=
  let g (i : Nat) : Nat := (bs.getD i 0).toNat
  let mc := (g 0).testBit 3
  let plen := (g 2 + 256 * g 3) % 512
  { cls := g 0 % 8, mcast := mc, lane := g 0 / 16 % 2, mcopy := (g 0).testBit 5, plen := plen, toDie := false, dest := g 4, dsite := g 4,
    msite := g 5, dunit := g 6 % 16, ssite := g 7, sunit := g 8 % 16, hops := g 9, mcid := g 10 + 256 * g 11, dld := g 12,
    mask := if mc then BitVec.ofNat 144 (leNat ((bs.drop 16).take 18)) else 0, expect := if mc then g 34 else 0,
    payload := (bs.drop (if mc then 40 else 16)).take plen }

/-- The flits of a packet, before they have positions. -/
def flitsOf (p : Packet) : List MeshFlit :=
  let n := packetFlits p
  (List.range n).map fun i =>
    { pos := 0, cls := p.cls, lane := p.lane, head := i == 0, tail := i + 1 == n,
      data := (List.range 64).map fun j => (packetBytes p).getD (64 * i + j) 0, bad := false }

/-- A hub request read from a payload (R241). -/
def hubReqOf (bs : List Byte) : HubReq :=
  let f (off n : Nat) : Nat := leNat ((bs.drop off).take n)
  { opc := f 0 1, epoch := f 1 1, spanel := f 2 2, ssite := f 4 1, sunit := f 5 1, tag := f 6 2, addr := f 8 8, opid := f 16 4, param := f 20 4,
    order := f 24 4, group := f 28 4, poison := BitVec.ofNat 32 (f 32 4), length := f 36 2, reserved := f 38 2, data := bs.drop 40 }

/-- An acknowledgement, or a fenced reply, of a router (R283, R285). -/
def ackPacket (site dest dunit mcid ldie status : Nat) : Packet :=
  { cls := 3, mcast := false, lane := 0, mcopy := false, plen := 8, toDie := false, dest := dest, dsite := dest, msite := 0, dunit := dunit,
    ssite := site, sunit := 6, hops := 0, mcid := 0, dld := 0, mask := 0, expect := 0,
    payload := leBytes 2 mcid ++ [BitVec.ofNat 8 ldie, BitVec.ofNat 8 status, 0, 0, 0, 0] }

/-! ### Sending on a link (R264, R265) -/

/-- The sub-link, among the active ones, after the last one used (R264); `active` has bit k set for sub-link k. -/
def nextSub (active last : Nat) : Option Nat := ((List.range 4).map fun i => (last + i) % 4).find? active.testBit

/-- Unacknowledged flits of a port, and of one of its sub-links. -/
def State.unacked (s : State) (site port : Nat) : Nat := (s.txFlits.filter fun t => t.site == site && t.port == port).length
def State.unackedOn (s : State) (site port sub : Nat) : Nat :=
  (s.txFlits.filter fun t => t.site == site && t.port == port && t.sub == sub).length

/-- The sub-links the next n flits would take, if each has room (R264). -/
def State.dealing (s : State) (site port : Nat) : Nat → Nat → List Nat → Option (List Nat)
  | 0, _, subs => some subs
  | n + 1, last, subs =>
    match nextSub (s.get site (Reg.MESH_PORT.TX_ACTIVE port)) last with
    | none => none
    | some k =>
      if s.unackedOn site port k + subs.count k < 64 then s.dealing site port n (k + 1) (subs ++ [k]) else none

/-- A port is DOWN (R267). -/
def State.portDown (s : State) (site port : Nat) : Bool := s.get site (Reg.MESH_PORT.STATE port) == 2

/-- The virtual channel of a class and lane (R263). -/
def vcOf (cls lane : Nat) : Nat := cls * 2 + lane

/-- An output can take a packet now: local always, a port with credits for all its flits and room to deal them (R272). -/
def State.canSend (s : State) (site out : Nat) (p : Packet) : Bool :=
  out == 4 ||
    (!s.portDown site out && (s.farSite site out).isSome && packetFlits p ≤ s.get site (Mesh.CREDIT out (vcOf p.cls p.lane))
      && s.unacked site out + packetFlits p ≤ 256
      && (s.dealing site out (packetFlits p) (s.get site (Mesh.TX_LAST out)) []).isSome)

/-- Send a packet on a port: positions, sub-links, replay buffers and credits (R264, R268 HOPS, R271). -/
def State.sendOn (s : State) (site port : Nat) (p : Packet) : State :=
  let far := (s.farSite site port).getD site
  let q := { p with hops := min 255 (p.hops + hopCount site far) }
  let subs := (s.dealing site port (packetFlits q) (s.get site (Mesh.TX_LAST port)) []).getD []
  let pos := s.get site (Mesh.TX_NEXT port)
  let fs := ((flitsOf q).zip subs).zipIdx.map fun e =>
    ({ site := site, port := port, sub := e.1.2, flit := { e.1.1 with pos := (pos + e.2) % 512 } } : TxFlit)
  let s1 := { s with txFlits := s.txFlits ++ fs }
  let vc := vcOf q.cls q.lane
  ((s1.put site (Mesh.TX_NEXT port) ((pos + fs.length) % 512)).put site (Mesh.TX_LAST port) ((subs.getLast?.getD 3) + 1)).put site
    (Mesh.CREDIT port vc) (s.get site (Mesh.CREDIT port vc) - fs.length)

/-! ### Routing a packet inside a router (R275, R280–R284) -/

/-- The output a unicast packet takes, and its lane there (R275). -/
def routeOut (site : Nat) (p : Packet) : Nat × Packet :=
  let lane := if p.lane = 0 ∧ site = p.msite then 1 else p.lane
  let t := if lane = 0 then p.msite else p.dsite
  let x := if siteCol site < siteCol t then some 1 else if siteCol t < siteCol site then some 3 else none
  let y := if siteRow site < siteRow t then some 2 else if siteRow t < siteRow site then some 0 else none
  ((if lane = 0 then (x.orElse fun _ => y).getD 4 else (y.orElse fun _ => x).getD 4), { p with lane := lane })

/-- Complete a unicast header from the route table (R275); none where it has no route (R279). -/
def State.complete (s : State) (site : Nat) (p : Packet) : Option Packet :=
  (s.route site p.dsite).map fun m => { p with msite := m, lane := if m = site then 1 else 0 }

/-- A router wants to send a packet of its own to a unit: it waits its turn with what waits to be injected. -/
def State.later (s : State) (site : Nat) (p : Packet) : State := { s with meshWait := s.meshWait ++ [⟨site, p⟩] }

/-- A router acknowledges a destination of a multicast itself (R283, R284). -/
def State.ackFor (s : State) (site : Nat) (p : Packet) (ldie status : Nat) : State :=
  (if status = 0 then s else s.bump site Reg.MESH_MCAST.FACKS).later site (ackPacket site p.ssite p.sunit p.mcid ldie status)

/-- What a branch or row router does with one destination (R282, R284): the output of its copy, or nothing once it is acknowledged or
has a copy of its own. -/
inductive Branch where
  | copy (out : Nat)
  | ack (status : Nat)
  | unicast
  deriving DecidableEq, Repr

/-- The branch of a destination at a router (R282, R284). -/
def State.branchOf (s : State) (site : Nat) (p : Packet) (ldie : Nat) : Branch :=
  let d := s.siteOf ldie
  let onRow := siteRow site == siteRow p.ssite
  let vertical : Branch := if d = site then .copy 4 else if !s.alive d then .ack 2
    else if siteRow d < siteRow site then .copy 0 else .copy 2
  if !onRow then vertical
  else if siteCol d = siteCol site then (if s.maskFenced ldie then .ack 1 else vertical)
  else
    let dir := if siteCol site < siteCol d then 1 else 3
    let beyond := match s.farSite site dir with
      | none => true
      | some f => if dir = 1 then siteCol d < siteCol f else siteCol f < siteCol d
    if beyond then (if s.maskFenced ldie then .ack 1 else .unicast) else .copy dir

/-- The destinations of a multicast copy. -/
def destsOf (p : Packet) : List Nat := (List.range 144).filter fun i => p.mask.getLsbD i

/-- A mask of destinations. -/
def maskOf (ds : List Nat) : BitVec 144 := BitVec.ofNat 144 (ds.foldl (fun m d => m ||| 2 ^ d) 0)

/-- The copies a router makes of a packet, each with its output; acknowledgements it sends itself are queued and counted. -/
def State.copies (s : State) (site : Nat) (p : Packet) : State × List (Nat × Packet) :=
  if !p.mcast then (s, [routeOut site p])
  else
    let bs := (destsOf p).map fun d => (d, s.branchOf site p d)
    let s1 := bs.foldl (fun s e => match e.2 with | .ack st => s.ackFor site p e.1 st | _ => s) s
    let outs := (List.range 5).filterMap fun o =>
      let ds := (bs.filter fun e => e.2 == .copy o).map (·.1)
      if ds.isEmpty then none else some (o, { p with mask := maskOf ds })
    let s2 := s1.bump site Reg.MESH_MCAST.COPIES outs.length
    bs.foldl (fun acc e =>
      match e.2 with
      | .unicast =>
        let q := { p with mcast := false, mcopy := true, dld := e.1, dsite := acc.1.siteOf e.1, mask := 0, expect := 0 }
        match acc.1.complete site q with
        | some q => (acc.1.bump site Reg.MESH_MCAST.MCOPIES, acc.2 ++ [routeOut site q])
        | none => (acc.1.ackFor site p e.1 2, acc.2)
      | _ => acc) (s2, outs)

/-- Keep a packet's copies for their outputs; what would leave through a DOWN port is discarded and counted (R267). -/
def State.hold (s : State) (site inPort : Nat) (p : Packet) : State :=
  let (s1, cs) := s.copies site p
  let g := s1.get site Mesh.GROUP
  cs.foldl (fun s c =>
    if c.1 < 4 ∧ s.portDown site c.1 then s.bump site Reg.MESH_DROP.DOWN
    else { s with held := s.held ++ [⟨site, inPort, p.lane, c.1, g, c.2⟩] }) (s1.put site Mesh.GROUP (g + 1))

/-! ### Leaving a router (R272, R280, R283) -/

/-- Whether a packet addresses a unit of the die itself: its die controller or a cluster. -/
def ownUnit (p : Packet) : Bool := p.dunit < 3

/-- The logical die a multicast copy serves at a site. -/
def State.servedBy (s : State) (site : Nat) (p : Packet) : Nat :=
  if p.mcopy then p.dld else ((destsOf p).find? fun d => s.siteOf d == site).getD 0

/-- Hand a packet to the local unit; a fenced die's router answers or discards instead (R280, R283, R285). -/
def State.handLocal (s : State) (site : Nat) (p : Packet) : State :=
  let multi := p.mcast || p.mcopy
  if s.flag site Reg.MESH_STATUS.LOCAL_FENCED then
    if multi then s.ackFor site p (s.servedBy site p) 1
    else if p.cls = 1 ∨ p.cls = 2 then s.bump site Reg.MESH_DROP.FENCED
    else if p.cls = 3 ∧ ownUnit p then s.later site (ackPacket site p.ssite p.sunit 0 ((s.ldieOf site).getD 255) 1)
    else { s with delivered := s.delivered ++ [⟨site, p⟩] }
  else
    let s1 := { s with delivered := s.delivered ++ [⟨site, p⟩] }
    if multi then s1.ackFor site p (s.servedBy site p) 0 else s1

/-- The head of an input buffer: the oldest group of its class and lane. -/
def State.atHead (s : State) (h : HeldPacket) : Bool :=
  ((s.held.find? fun x => x.site == h.site && x.inPort == h.inPort && x.inLane == h.inLane && x.packet.cls == h.packet.cls).map (·.group))
    == some h.group

/-- The packet an output serves next (R272): classes in turn, then lanes, then input ports. -/
def State.nextFor (s : State) (site out : Nat) : Option HeldPacket :=
  let ready := s.held.filter fun h => h.site == site && h.outPort == out && s.atHead h && s.canSend site out h.packet
  let lastC := s.get site (Mesh.ARB_CLASS out)
  let classes := (List.range 5).map fun i => (lastC + 1 + i) % 5
  (classes.flatMap fun c =>
    let l0 := 1 - s.get site (Mesh.ARB_LANE out c)
    [l0, 1 - l0].flatMap fun l =>
      ((List.range 5).map fun i => (s.get site (Mesh.ARB_PORT out c l) + 1 + i) % 5).flatMap fun ip =>
        ready.filter fun h => h.packet.cls == c && h.inLane == l && h.inPort == ip).head?

/-- A held packet leaves through its output. -/
def State.leave (s : State) (h : HeldPacket) : State :=
  let site := h.site
  let out := h.outPort
  let c := h.packet.cls
  let s0 := { s with held := dropFirst (· == h) s.held }
  let s1 := (((s0.put site (Mesh.ARB_CLASS out) c).put site (Mesh.ARB_LANE out c) h.inLane).put site (Mesh.ARB_PORT out c h.inLane)
    h.inPort).bump site (Reg.MESH_FWD.COUNT c)
  let s2 := if out = 4 then s1.handLocal site h.packet else s1.sendOn site out h.packet
  if h.inPort < 4 ∧ !(s2.held.any fun x => x.site == site && x.group == h.group) then
    s2.bump site (Mesh.CREDIT_DUE h.inPort (vcOf c h.inLane)) (packetFlits h.packet)
  else s2

/-- While a timeout limits injection, a router admits memory responses, the hubs' part requests, what routers send, and the packets to
and from the timeout agent (R288). -/
def State.admits (s : State) (site : Nat) (p : Packet) : Bool :=
  !s.flag site Reg.MESH_CTL.TIMEOUT || p.cls == 1 || (p.cls == 0 && ((hubReqOf p.payload).opc == 8 || (hubReqOf p.payload).opc == 9))
    || p.sunit == 6 || p.dunit == 6

/-- A packet with no route (R279): counted and reported; a memory request is answered on the hub's behalf. -/
def State.unreachable (s : State) (site : Nat) (p : Packet) : State :=
  let s1 := (s.bump site Reg.MESH_DROP.UNREACH).notify site 63 0x0504 3 (p.dsite + p.cls * 256) 0
  if p.cls = 0 then s1.hubReply (hubReqOf p.payload) Hub.CHAN_DOWN [] 0 else s1

/-- The injecting router takes a packet (R275, R279, R281). -/
def State.accept (s : State) (site : Nat) (p : Packet) : State :=
  if p.mcast then s.hold site 4 p
  else
    match s.complete site p with
    | none => s.unreachable site p
    | some q => s.hold site 4 q

/-- Run a router: outputs serve what they can, and what waits to be injected is taken while it may be. -/
def meshRun : Nat → State → Nat → State
  | 0, s, _ => s
  | n + 1, s, site =>
    match (List.range 5).filterMap (s.nextFor site) with
    | h :: _ => meshRun n (s.leave h) site
    | [] =>
      match s.meshWait.find? fun w => w.site == site && s.admits site w.packet with
      | some w => meshRun n (({ s with meshWait := dropFirst (· == w) s.meshWait }).accept site w.packet) site
      | none => s

/-- A router settles. -/
def State.settle (s : State) (site : Nat) : State := meshRun 65536 s site

/-! ### Receiving on a link (R264–R267, R286) -/

/-- A port goes DOWN (R267): what it would send is discarded and counted, and one notice is raised. -/
def State.downEnd (s : State) (site port : Nat) : State :=
  if s.portDown site port then s
  else
    let isIt (h : HeldPacket) : Bool := h.site == site && h.outPort == port
    let n := (s.held.filter isIt).length + s.unacked site port
    let s1 := { s with held := s.held.filter fun h => !isIt h
                       txFlits := s.txFlits.filter fun t => !(t.site == site && t.port == port)
                       rxFlits := s.rxFlits.filter fun r => !(r.site == site && r.port == port) }
    ((s1.put site (Reg.MESH_PORT.STATE port) 2).bump site Reg.MESH_DROP.DOWN n).notify site 63 0x0503 3 port ((s.farSite site port).getD 0)

/-- Both ends of a link go DOWN: the far end follows within 2 µs. -/
def State.linkDown (s : State) (site port : Nat) : State :=
  let s1 := s.downEnd site port
  match s.farSite site port with
  | some f => s1.downEnd f ((port + 2) % 4)
  | none => s1

/-- A sub-link fails once more in a row (R265, R266, R267). -/
def State.subFails (s : State) (site port sub : Nat) : State :=
  let n := s.get site (Mesh.RX_FAILS port sub) + 1
  let active := s.get site (Reg.MESH_PORT.RX_ACTIVE port)
  let s1 := (s.put site (Mesh.RX_FAILS port sub) n).putFlag site (Mesh.RX_NAK port sub) true
  if n < 8 then s1
  else if active = 2 ^ sub then s1.linkDown site port
  else
    ((s1.put site (Reg.MESH_PORT.RX_ACTIVE port) (maskWith active sub false)).put site (Reg.MESH_PORT.STATE port) 1).notify site 63 0x0502 2
      (port + 4 * sub + 16) 0

/-- A position lies within the 256 up to and including another (R264). -/
def coveredBy (pos upTo : Nat) : Bool := (upTo + 512 - pos) % 512 < 256

/-- The sender's end of the link-back fields (R263–R266): acknowledgements free flits, a NAK replays or re-deals, credits return. -/
def State.linkBack (s : State) (site port : Nat) (f : FlitIn) : State :=
  let mine (t : TxFlit) : Bool := t.site == site && t.port == port
  let s1 := if f.ackv then { s with txFlits := s.txFlits.filter fun t => !(mine t && coveredBy t.flit.pos f.ackpos) } else s
  let lost := s1.txFlits.filter fun t => mine t && t.sub == f.naksub && !coveredBy t.flit.pos f.nakpos
  let s2 :=
    if !f.nakv then s1
    else if f.retire then
      let active := maskWith (s1.get site (Reg.MESH_PORT.TX_ACTIVE port)) f.naksub false
      let all := s1.txFlits.filter fun t => mine t && t.sub == f.naksub
      let s2 := ({ s1 with txFlits := s1.txFlits.filter fun t => !(mine t && t.sub == f.naksub) }).put site (Reg.MESH_PORT.TX_ACTIVE port) active
      (all.foldl (fun s t =>
        let k := (nextSub active (s.get site (Mesh.TX_LAST port))).getD f.naksub
        ({ s with txFlits := s.txFlits ++ [{ t with sub := k }] }).put site (Mesh.TX_LAST port) (k + 1)) s2).put site
          (Reg.MESH_PORT.STATE port) 1
    else
      let n := s1.get site (Mesh.REPLAY_SINCE port) + lost.length
      let s2 := (s1.bump site (Reg.MESH_PERR.REPLAYED port) lost.length).put site (Mesh.REPLAY_SINCE port) n
      let thr := s2.get site Reg.MESH_CTL.REPLAY_THRESHOLD
      if thr ≠ 0 ∧ thr ≤ n then (s2.put site (Mesh.REPLAY_SINCE port) 0).notify site 63 0x0501 1 port n else s2
  if f.crv then s2.put site (Mesh.CREDIT port f.crvc) (min 16 (s2.get site (Mesh.CREDIT port f.crvc) + f.crcount + 1)) else s2

/-- A packet whose tail has been accepted: discarded if its buffer holds an uncorrectable error (R286), else routed on. -/
def State.assembled (s : State) (site port : Nat) : State :=
  let mine (r : RxFlit) : Bool := r.site == site && r.port == port && r.accepted
  let fs := s.rxFlits.filter mine
  let s1 := { s with rxFlits := s.rxFlits.filter fun r => !mine r }
  let bs := fs.flatMap (·.flit.data)
  let p := packetOf bs
  if fs.any (·.flit.bad) then
    let head := fs.head?
    let arg := if (head.map (·.flit.bad)).getD true then 0 else leNat (bs.take 8)
    let c := (head.map (·.flit.cls)).getD 0
    let l := (head.map (·.flit.lane)).getD 0
    ((s1.bump site Reg.MESH_DROP.LOST).notify site 63 0x0505 3 c arg).bump site (Mesh.CREDIT_DUE port (vcOf c l)) fs.length
  else s1.hold site port p

/-- Accept in position order every flit that has come (R264). -/
def acceptInOrder : Nat → State → Nat → Nat → State
  | 0, s, _, _ => s
  | n + 1, s, site, port =>
    let pos := s.get site (Mesh.RX_NEXT port)
    match s.rxFlits.find? fun r => r.site == site && r.port == port && !r.accepted && r.flit.pos == pos with
    | none => s
    | some r =>
      let s1 := { s with rxFlits := dropFirst (· == r) s.rxFlits ++ [{ r with accepted := true }] }
      let s2 := ((s1.put site (Mesh.RX_NEXT port) ((pos + 1) % 512)).put site (Mesh.RX_POS port r.sub) pos).put site (Mesh.RX_FAILS port r.sub) 0
      acceptInOrder n (if r.flit.tail then s2.assembled site port else s2) site port

/-- A valid flit on a sub-link (R264, R265): while a replay is awaited only the first flit of one is taken; a flit that has already come is
not taken again. -/
def State.takeFlit (s : State) (site port sub : Nat) (f : FlitIn) : State :=
  if s.flag site (Mesh.RX_NAK port sub) ∧ !f.rpl then s
  else
    let s1 := s.putFlag site (Mesh.RX_NAK port sub) false
    let next := s1.get site (Mesh.RX_NEXT port)
    let ahead := (f.seq + 512 - next) % 512
    let twice := s1.rxFlits.any fun r => r.site == site && r.port == port && !r.accepted && r.flit.pos == f.seq
    let waiting := (s1.rxFlits.filter fun r => r.site == site && r.port == port && r.sub == sub && !r.accepted).length
    if 256 ≤ ahead ∨ twice ∨ 64 ≤ waiting then s1
    else
      let r : RxFlit := ⟨site, port, sub, false, ⟨f.seq, f.cls, f.lane, f.head, f.tail, leBytes 64 f.data.toNat, !f.eccOk⟩⟩
      acceptInOrder 512 { s1 with rxFlits := s1.rxFlits ++ [r] } site port

/-! ### Meanings -/

/-- A unit injects a packet and its router completes the header (R268, R269, R275, R279, R281, R288). A packet a sender never builds, or a
multicast from a compute die or a hub, is not injected. -/
def State.injectPacket (s : State) (site : Nat) (p : Packet) : State :=
  let sender := dieKind site == .control || dieKind site == .link
  let ok := s.alive site && p.cls < 5 && 1 ≤ p.plen && p.plen ≤ (if p.mcast then 472 else 496) && (!p.mcast || (sender && p.mask != 0))
  let q : Packet := { p with
    lane := 0, mcopy := false, ssite := site, hops := 0, dld := 0, msite := 0, toDie := false,
    dsite := if p.mcast then 0 else if p.toDie then s.siteOf p.dest else p.dest % 256,
    mcid := if p.mcast then p.mcid else 0, mask := if p.mcast then p.mask else 0,
    expect := if p.mcast then (destsOf p).length else 0 }
  if !ok then s
    else
      let s1 := if p.mcast then
          { s with mcasts := (s.mcasts.filter fun m => !(m.ssite == site && m.mcid == p.mcid)) ++
              [⟨site, p.mcid, (destsOf p).length, p.mask, 0, 0⟩] }
        else s
      (s1.later site q).settle site

/-- A flit arrives on a sub-link (R263–R267, R271): it fails, or its link-back fields are obeyed and it is accepted in position order. -/
def State.flitArrives (s : State) (site port sub : Nat) (f : FlitIn) : State :=
  if s.portDown site port ∨ 4 ≤ port ∨ !(s.get site (Reg.MESH_PORT.RX_ACTIVE port)).testBit sub ∨ !s.alive site then s
    else if !f.parityOk then
      if s.flag site (Mesh.RX_NAK port sub) ∧ !f.rpl then s
      else ((s.bump site (Reg.MESH_PERR.RXFAIL port)).subFails site port sub).settle site
    else
      let s1 := s.linkBack site port f
      (if f.valid then s1.takeFlit site port sub f else s1).settle site

/-- No replay has followed a NAK within 128 fabric cycles (R265): a further failure. -/
def State.nakRepeat (s : State) (site port sub : Nat) : State :=
  if s.flag site (Mesh.RX_NAK port sub) ∧ port < 4 ∧ sub < 4 ∧ ¬ s.portDown site port then (s.subFails site port sub).settle site else s

/-- A destination acknowledges a multicast (R283): each counts once. -/
def execMulticastAck (mcid ssite ldie status : Nat) (s : State) : Host.Outcome State Fault Refusal :=
  let isIt (m : Mcast) : Bool := m.ssite == ssite && m.mcid == mcid && m.left.getLsbD ldie
  .next (if 2 < status then s
    else
      { s with mcasts := updFirst isIt (fun m =>
          { m with
            left := m.left &&& ~~~(maskOf [ldie])
            fenced := if status = 1 then m.fenced ||| maskOf [ldie] else m.fenced
            unreachable := if status = 2 then m.unreachable ||| maskOf [ldie] else m.unreachable }) s.mcasts })

end Sys2Proof.Machine
end

