-- ==== Sys2Proof/Machine/PortCore.lean ====
section
/-! DEFINITION. Jorzen ports (11_jorzen_ports): frames to be sent, credits and the retry buffer, routes between panels, the proxies of
remote requests, and the replies of the control die on their way. -/

namespace Sys2Proof.Machine

/-! ### State of a port beside its registers -/

/-- Words sent on a virtual channel since training (R299). -/
def Port.TX_WORDS (vc : Nat) : Fld := ⟨0x1300040 + 8 * vc, 0, 32, 0, .int⟩
/-- The far end's latest FREED count of a virtual channel (R299). -/
def Port.FAR_FREED (vc : Nat) : Fld := ⟨0x1300040 + 8 * vc, 32, 32, 0, .int⟩
/-- Words of receive buffer freed since training (R296). -/
def Port.FREED (vc : Nat) : Fld := ⟨0x1300080 + 8 * vc, 0, 32, 0, .int⟩
/-- The FREED count of the last CTRL frame sent (R299). -/
def Port.FREED_SENT (vc : Nat) : Fld := ⟨0x1300080 + 8 * vc, 32, 32, 0, .int⟩
/-- SEQ of the expected frame (R301). -/
def Port.RX_NEXT : Fld := ⟨0x1300100, 0, 32, 0, .int⟩
/-- The expected frame was lost and its replay has not come (R301). -/
def Port.RX_LOSS : Fld := ⟨0x1300100, 32, 1, 0, .int⟩
/-- A replay is under way: its first frame has been sent again, the others follow (R301). -/
def Port.REPLAYING : Fld := ⟨0x1300100, 33, 1, 0, .int⟩
/-- A replay has begun since training (R301). -/
def Port.REPLAYED : Fld := ⟨0x1300100, 34, 1, 0, .int⟩
/-- A MGMT RETIRE waits for its CONFIRM (R303). -/
def Port.RETIRING : Fld := ⟨0x1300100, 35, 1, 0, .int⟩
/-- This end sent MGMT DRAIN (R315). -/
def Port.DRAIN_SENT : Fld := ⟨0x1300100, 36, 1, 0, .int⟩
/-- BASE of the far end's rotation and of this end's (R297). -/
def Port.RX_BASE : Fld := ⟨0x1300108, 0, 32, 0, .int⟩
def Port.TX_BASE : Fld := ⟨0x1300108, 32, 32, 0, .int⟩
/-- ACK when the previous replay began (R301). -/
def Port.ACK_AT : Fld := ⟨0x1300110, 0, 32, 0, .int⟩
/-- DATA messages discarded by R371. -/
def Port.DATA_DROPS : Fld := ⟨0x1300118, 0, 32, 0, .int⟩
/-- Consecutive windows of a lane with an uncorrectable codeword, and with a saturated pre-FEC count (R303). -/
def Port.BAD_UNCORR (l : Nat) : Fld := ⟨0x1300400 + 8 * l, 0, 3, 0, .int⟩
def Port.BAD_PREFEC (l : Nat) : Fld := ⟨0x1300400 + 8 * l, 3, 3, 0, .int⟩
/-- A lane is beyond threshold k of PORT_MARGIN_CTL (R321). -/
def Port.BEYOND (l k : Nat) : Fld := ⟨0x1300400 + 8 * l, 6 + k, 1, 0, .int⟩
/-- The time exchange in progress: number, and the times t1, t2, t3 that are known (R319). -/
def Port.EXCH : Fld := ⟨0x1300120, 0, 16, 0, .int⟩
def Port.EXCH_STEP : Fld := ⟨0x1300120, 16, 2, 0, .int⟩
def Port.T1 : Fld := ⟨0x1300128, 0, 64, 0, .int⟩
def Port.T2 : Fld := ⟨0x1300130, 0, 64, 0, .int⟩
def Port.T3 : Fld := ⟨0x1300138, 0, 64, 0, .int⟩

/-! States of a port, PORT_STATUS.STATE (R322). -/
def Port.OFF : Nat := 0
def Port.TRAINING : Nat := 1
def Port.UP : Nat := 2
def Port.NARROW : Nat := 3
def Port.DRAINING : Nat := 4
def Port.DISABLED : Nat := 5
def Port.DOWN : Nat := 6

/-! Statuses of ports (R309). -/
def PSt.UNDELIVERED : Nat := 0x30
def PSt.IN_DOUBT : Nat := 0x31
def PSt.NO_ROUTE : Nat := 0x32
def PSt.WITHDRAWN : Nat := 0x33

/-- The value of a port's field. -/
def State.jget (s : State) (port : Nat) (f : Fld) : Nat := s.get (siteOfPort port) f
/-- Write a port's field. -/
def State.jput (s : State) (port : Nat) (f : Fld) (v : Nat) : State := s.put (siteOfPort port) f v
/-- Add to a port's count. -/
def State.jbump (s : State) (port : Nat) (f : Fld) (n : Nat := 1) : State := s.bump (siteOfPort port) f n
/-- A port's one-bit field. -/
def State.jflag (s : State) (port : Nat) (f : Fld) : Bool := s.flag (siteOfPort port) f
/-- Write a port's one-bit field. -/
def State.jset (s : State) (port : Nat) (f : Fld) (b : Bool) : State := s.putFlag (siteOfPort port) f b

/-- State of a port. -/
def State.portState (s : State) (port : Nat) : Nat := s.jget port Reg.PORT_STATUS.STATE
/-- A port takes new traffic: UP or NARROW (R306, R315). -/
def State.portUsable (s : State) (port : Nat) : Bool := s.portState port == Port.UP || s.portState port == Port.NARROW
/-- A port still carries frames: usable or DRAINING. -/
def State.portCarries (s : State) (port : Nat) : Bool := s.portUsable port || s.portState port == Port.DRAINING

/-! ### Frames (R294–R300) -/

/-- Words of a frame on a lane (R294). -/
def frameWords (f : Frame) : Nat := 1 + (f.plen + 31) / 32
/-- Receive buffer of a virtual channel in words (R298). -/
def vcWords (vc : Nat) : Nat := match vc with | 0 | 1 => 65536 | 3 => 114688 | _ => 8192
/-- Words of the retry buffer (R300). -/
def retryWords : Nat := 262144

/-- Words held in a port's retry buffer. -/
def State.heldWords (s : State) (port : Nat) : Nat :=
  ((s.txFrames.filter fun t => t.port == port && t.sent).map fun t => frameWords t.frame).sum

/-- A frame may be sent now: credits of its virtual channel and room in the retry buffer (R299, R300). -/
def State.frameFits (s : State) (port : Nat) (f : Frame) : Bool :=
  (s.jget port (Port.TX_WORDS f.vc) + 2 ^ 32 - s.jget port (Port.FAR_FREED f.vc)) % 2 ^ 32 + frameWords f ≤ vcWords f.vc
    && s.heldWords port + frameWords f ≤ retryWords

/-- Number and send a frame (R300, R306 HOPS). -/
def State.sendFrame (s : State) (t : TxFrame) : State :=
  let p := t.port
  let seq := s.jget p Reg.PORT_SEQ.TX_NEXT
  let f := { t.frame with seq := seq, hops := t.frame.hops + 1, ack := (s.jget p Port.RX_NEXT + 2 ^ 32 - 1) % 2 ^ 32 }
  let s1 := { s with txFrames := dropFirst (· == t) s.txFrames ++ [{ t with sent := true, doubt := true, frame := f }] }
  (s1.jput p Reg.PORT_SEQ.TX_NEXT ((seq + 1) % 2 ^ 32)).jput p (Port.TX_WORDS f.vc)
    ((s1.jget p (Port.TX_WORDS f.vc) + frameWords f) % 2 ^ 32)

/-- The virtual channels a port sends new frames on: all while it is usable, RSP alone while it drains (R315). -/
def State.openVcs (s : State) (port : Nat) : List Nat :=
  if s.portUsable port then List.range 5 else if s.portState port = Port.DRAINING then [1] else []

/-- Send what can be sent on a port: the oldest frame of a virtual channel first, none waiting on another (R298). -/
def pumpPort : Nat → State → Nat → State
  | 0, s, _ => s
  | n + 1, s, port =>
    let firsts := (s.openVcs port).filterMap fun vc => s.txFrames.find? fun t => t.port == port && !t.sent && t.frame.vc == vc
    match firsts.find? fun t => s.frameFits port t.frame with
    | none => s
    | some t => pumpPort n (s.sendFrame t) port

/-- A port sends new frames while no replay is under way. -/
def State.pump (s : State) (port : Nat) : State := if s.jflag port Port.REPLAYING then s else pumpPort s.txFrames.length s port

/-- Queue a frame on a port. -/
def State.queueFrame (s : State) (port : Nat) (f : Frame) : State :=
  ({ s with txFrames := s.txFrames ++ [TxFrame.mk port false false none f] }).pump port

/-- Queue a frame of a command packet that the captain sends. -/
def State.queueCmd (s : State) (port : Nat) (f : Frame) (cmd : Nat × Nat × Nat) : State :=
  ({ s with txFrames := s.txFrames ++ [TxFrame.mk port false false (some cmd) f] }).pump port

/-- A PKT frame of this panel. -/
def State.newFrame (s : State) (vc dpanel : Nat) (payload : List Byte) (hubOp : Nat) : Frame :=
  { typ := 1, vc := vc, plen := payload.length, seq := 0, spanel := s.ownPanel, dpanel := dpanel, hops := 0, replay := false, failover := false,
    hostcmd := false, teamcast := false, ack := 0, ok := true, words := 0, hubOp := hubOp, payload := payload }

/-- The bytes of a hub request (R241). -/
def hubReqBytes (r : HubReq) : List Byte :=
  leBytes 1 r.opc ++ leBytes 1 r.epoch ++ leBytes 2 r.spanel ++ leBytes 1 r.ssite ++ leBytes 1 r.sunit ++ leBytes 2 r.tag ++ leBytes 8 r.addr
    ++ leBytes 4 r.opid ++ leBytes 4 r.param ++ leBytes 4 r.order ++ leBytes 4 r.group ++ leBytes 4 r.poison.toNat ++ leBytes 2 r.length
    ++ leBytes 2 r.reserved ++ r.data

/-- The bytes of a hub reply (R242). -/
def hubRepBytes (m : HubRep) : List Byte :=
  leBytes 1 m.status ++ leBytes 1 m.epoch ++ leBytes 2 m.dpanel ++ leBytes 1 m.dsite ++ leBytes 1 m.dunit ++ leBytes 2 m.tag
    ++ leBytes 4 m.opid ++ leBytes 4 m.poison.toNat ++ m.data

/-- A hub reply read from a payload (R242). -/
def hubRepOf (bs : List Byte) : HubRep :=
  let f (off n : Nat) : Nat := leNat ((bs.drop off).take n)
  { status := f 0 1, epoch := f 1 1, dpanel := f 2 2 % 4096, dsite := f 4 1, dunit := f 5 1 % 64, tag := f 6 2, opid := f 8 4,
    poison := BitVec.ofNat 32 (f 12 4), data := bs.drop 16 }

/-! ### Routes between panels (R304–R306) -/

/-- The home port of a site (R305). -/
def State.homePort (s : State) (site : Nat) : Nat :=
  let p := siteBlock site / 2
  if s.alive (siteOfPort p) then p else if p % 2 = 0 then p + 1 else p - 1

/-- Where a port's own table sends a message for a panel: an egress port, or a status (R306, R309, R315). -/
def State.egress (s : State) (port dpanel : Nat) : Nat ⊕ Nat :=
  let e := s.jget port (Reg.PORT_ROUTE.ENTRY dpanel)
  if !s.flag panelSite Panel.NUMBER_SET ∨ e % 2 = 0 then .inr PSt.NO_ROUTE
  else if s.portUsable (bitsOf e 3 1) then .inl (bitsOf e 3 1)
  else if e.testBit 4 ∧ s.portUsable (bitsOf e 7 5) then .inl (bitsOf e 7 5)
  else .inr PSt.UNDELIVERED

/-- Count a port's answer (R322 PORT_RESULTS). -/
def State.countAnswer (s : State) (port status : Nat) : State :=
  if status = PSt.UNDELIVERED then s.jbump port Reg.PORT_RESULTS.UNDELIVERED
  else if status = PSt.IN_DOUBT then s.jbump port Reg.PORT_RESULTS.IN_DOUBT
  else if status = PSt.WITHDRAWN then s.jbump port Reg.PORT_RESULTS.WITHDRAWN
  else s

/-- A port answers a request it does not carry (R309). -/
def State.portAnswer (s : State) (port : Nat) (r : HubReq) (status : Nat) : State := (s.countAnswer port status).hubReply r status [] 0

/-! ### Proxies (R308) -/

/-- Open entries of a home port. -/
def State.openEntries (s : State) (port : Nat) : Nat := (s.proxies.filter fun e => e.port == port).length
/-- Bring ENTRIES up to date. -/
def State.countEntries (s : State) (port : Nat) : State := s.jput port Reg.PORT_OUTSTANDING.ENTRIES (s.openEntries port)

/-- Tags a link die's replies may carry: its entries, and the requests of the windows whose data its port carries. -/
def State.tagsInUse (s : State) (port : Nat) : List Nat :=
  ((s.proxies.filter fun e => e.port == port).map (·.index))
    ++ ((s.windows.filter fun w => w.ports.contains port).flatMap fun w => w.reqs.map (·.tag))

/-- The lowest tag not in use. -/
def freeTag (used : List Nat) : Nat := ((List.range (used.length + 1)).find? fun i => !used.contains i).getD 0

/-- A home port takes a request for another panel (R305, R308): it is recorded, rewritten and sent on, or answered. While the table is
full the request waits. -/
def State.proxyTake (s : State) (port : Nat) (r : HubReq) : State :=
  if 65536 ≤ s.openEntries port then { s with proxyWait := s.proxyWait ++ [(port, r)] }
  else
    match s.egress port (bitsOf r.addr 55 44) with
    | .inr status => s.portAnswer port r status
    | .inl e =>
      let i := freeTag (s.tagsInUse port)
      let q := { r with ssite := siteOfPort port, sunit := 63, tag := i }
      (({ s with proxies := s.proxies ++ [ProxyEntry.mk port i e r] }).countEntries port).queueFrame e
        (s.newFrame 0 (bitsOf r.addr 55 44) (hubReqBytes q) q.opc)

/-- What waits for an entry of a home port is taken while there is room. -/
def State.proxyNext (s : State) (port : Nat) : State :=
  match s.proxyWait.find? fun w => w.1 == port with
  | some w => ({ s with proxyWait := dropFirst (· == w) s.proxyWait }).proxyTake port w.2
  | none => s

/-- An entry ends: the original request is answered with the reply's contents (R308). -/
def State.proxyEnd (s : State) (e : ProxyEntry) (status : Nat) (data : List Byte) (poison : BitVec 32) : State :=
  ((({ s with proxies := dropFirst (· == e) s.proxies }).countEntries e.port).hubReply e.req status data poison).proxyNext e.port

/-- A request of a die-level unit at a site: sent to the hubs of this panel, or to the site's home port. -/
def State.sendRequest (s : State) (site : Nat) (r : HubReq) : State :=
  if r.addr / 2 ^ 44 = s.ownPanel then { s with hubReqs := s.hubReqs ++ [r] } else s.proxyTake (s.homePort site) r

/-! ### Command packets as bytes, and replies (R355, R356, R358, R366) -/

/-- One bit of the CRC-32 of IEEE 802.3, least significant bit first. -/
def crcBit (c : Nat) : Nat := if c.testBit 0 then (c / 2) ^^^ 0xEDB88320 else c / 2
/-- CRC-32 with the polynomial of R295. -/
def crc32 (bs : List Byte) : Nat :=
  (bs.foldl (fun c b => (List.range 8).foldl (fun c _ => crcBit c) (c ^^^ b.toNat)) 0xFFFFFFFF) ^^^ 0xFFFFFFFF

/-- The bytes of a packet with its CRC and SRCPORT fields set to zero (R356). -/
def crcView (bs : List Byte) : List Byte := bs.take 8 ++ [0] ++ (bs.drop 9).take 19 ++ [0, 0, 0, 0] ++ bs.drop 32

/-- The bytes of a reply (R356). -/
def replyBytes (r : Reply) : List Byte :=
  let raw := leBytes 2 r.opcode ++ leBytes 2 r.tag ++ leBytes 2 (8 * r.words.length) ++ leBytes 2 (1 + (if r.final then 2 else 0))
    ++ leBytes 1 r.port ++ leBytes 1 r.status ++ leBytes 2 0 ++ leBytes 4 r.seq ++ leBytes 12 0 ++ leBytes 4 0
    ++ r.words.flatMap (leBytes 8)
  raw.take 28 ++ leBytes 4 (crc32 (crcView raw)) ++ raw.drop 32

/-- Bytes in pieces of 512 (R355). -/
def cut512 : Nat → List Byte → List (List Byte)
  | 0, _ => []
  | n + 1, bs => if bs.isEmpty then [] else bs.take 512 :: cut512 n (bs.drop 512)

/-- A port is the provisioned host port in host role (R316). -/
def State.hostPort (s : State) (port : Nat) : Bool :=
  s.flag (siteOfPort port) Reg.PORT_CTL.HOSTPORT && s.get (siteOfPort port) Reg.PORT_CTL.ROLE == 1

/-- The panel is a member of its team table (R317). -/
def State.inTeam (s : State) : Bool :=
  (List.range 32).any fun i => s.flag panelSite (Reg.PORT_TEAM.VALID i) && s.get panelSite (Reg.PORT_TEAM.PANEL i) == s.ownPanel

/-- A message is for this panel: it has no number yet, or the message bears it (R304, R306). -/
def State.isOwn (s : State) (dpanel : Nat) : Bool := !s.flag panelSite Panel.NUMBER_SET || dpanel == s.ownPanel

/-- A port cannot send: DOWN or DISABLED (R358). -/
def State.portMute (s : State) (port : Nat) : Bool := s.portState port == Port.DOWN || s.portState port == Port.DISABLED

/-- Put a reply on its way, if its port can send: its packet leaves as frames of 512 bytes (R355, R358). A host adapter has no panel number:
DPANEL is a free value then. -/
def State.emitReply (s : State) (r : Reply) : State :=
  if s.portMute r.port then s
  else
    let (free, s1) := s.free
    let (dp, s2) := if s.hostPort r.port then (free % 4096, s1) else (r.dpanel, s)
    (cut512 9 (replyBytes r)).foldl (fun s bs => s.queueFrame r.port { s.newFrame 2 dp bs 255 with hostcmd := r.hostcmd })
      { s2 with replies := s2.replies ++ [r] }

/-- Keep the last 16 of a port's stored replies. -/
def trimStored (port : Nat) (rs : List Reply) : List Reply :=
  if 16 < (rs.filter fun r => r.port == port).length then dropFirst (fun r => r.port == port) rs else rs

/-- Store the reply of a command that has just been executed (R358). -/
def State.storeReply (s : State) (r : Reply) : State :=
  let st : List Reply := trimStored r.port (s.stored ++ [r])
  ({ s with stored := st }).put panelSite (Reg.CTL_CMD_PORT.STORED r.port) (st.filter fun (q : Reply) => q.port == r.port).length

/-- The final reply of a deferred command replaces its stored `ACCEPTED` reply (R358). -/
def State.storeFinal (s : State) (r : Reply) : State :=
  let isIt (q : Reply) : Bool := q.port == r.port && q.seq == r.seq && q.tag == r.tag && q.opcode == r.opcode && !q.final
  { s with stored := updFirst isIt (fun _ => r) s.stored }

/-- Bring the count of outstanding commands up to date. -/
def State.countDeferred (s : State) : State := s.put panelSite Reg.CTL_CMD_STATUS.OUTSTANDING (s.deferred.length + s.teamcasts.length)

/-- The result words of a teamcast: its members with their statuses (R366). -/
def castWords (c : Teamcast) : List Nat := c.members.length :: c.members.map fun m => m.1 + m.2.getD 0x22 * 65536

/-- A teamcast ends (R318, R366): `OK` if every member replied `OK`, else `PARTIAL`; or with a status of its own. -/
def State.castEnd (s : State) (c : Teamcast) (status : Option Nat := none) : State :=
  let ok := c.members.all fun m => m.2 == some 0
  let st := status.getD (if ok then 0 else 0x31)
  let r : Reply := { port := c.port, opcode := c.opcode, tag := c.tag, seq := c.seq, status := st, final := true,
                     words := if st = 0x31 then castWords c else [], dpanel := 0, hostcmd := false }
  let s1 := ({ s with teamcasts := dropFirst (· == c) s.teamcasts }).countDeferred
  (s1.storeFinal r).emitReply r

/-- The final status of a member reaches the captain; the teamcast ends with the last. False if no teamcast waits for it. -/
def State.castMember (s : State) (panel opcode tag seq status : Nat) : Option State :=
  (s.teamcasts.find? fun c => c.opcode == opcode && c.tag == tag && c.seq == seq && c.members.any fun m => m.1 == panel).map fun c =>
    let c' := { c with members := c.members.map fun m => if m.1 = panel ∧ m.2.isNone then (m.1, some status) else m }
    let s1 := { s with teamcasts := s.teamcasts.map fun x => if x = c then c' else x }
    if c'.members.all fun m => m.2.isSome then s1.castEnd c' else s1

/-- The captain's own part of a teamcast answers to the captain itself. -/
def State.toCaptain (s : State) (r : Reply) : Bool := r.hostcmd && s.flag panelSite Panel.NUMBER_SET && r.dpanel == s.ownPanel

/-- Put a reply of the control die on its way. -/
def State.sendReply (s : State) (r : Reply) : State :=
  if s.toCaptain r then (if r.final then (s.castMember s.ownPanel r.opcode r.tag r.seq r.status).getD s else s) else s.emitReply r

end Sys2Proof.Machine
end

