-- ==== Sys2Proof/Machine/Command.lean ====
section
/-! DEFINITION. Command packets (13_command_interface): checks, sequence numbers, replies, authority, conflicts, deferred commands and
their final-status slots. -/

namespace Sys2Proof.Machine

/-! Status codes (R364). -/
def St.OK : Nat := 0x00
def St.ACCEPTED : Nat := 0x01
def St.ALREADY_DONE : Nat := 0x02
def St.BAD_OPCODE : Nat := 0x10
def St.BAD_PARAM : Nat := 0x11
def St.BAD_LENGTH : Nat := 0x12
def St.NOT_PERMITTED : Nat := 0x13
def St.BUSY : Nat := 0x14
def St.WRONG_STATE : Nat := 0x15
def St.ABORTED : Nat := 0x20
def St.WITHDRAWN : Nat := 0x21
def St.TIMED_OUT : Nat := 0x22
def St.HW_FAULT : Nat := 0x30
def St.PARTIAL : Nat := 0x31
def St.IN_DOUBT : Nat := 0x32
def St.UNDELIVERED : Nat := 0x33
def St.AUTH_FAIL : Nat := 0x40
def St.FUSE_EXHAUSTED : Nat := 0x41
def St.DEFERRED : Nat := 0x42

/-! Opcodes (R365). -/
def Op.IDENTIFY : Nat := 0x0001
def Op.GET_STATUS : Nat := 0x0002
def Op.READ_CSR : Nat := 0x0003
def Op.WRITE_CSR : Nat := 0x0004
def Op.ECHO : Nat := 0x0005
def Op.SET_POWER_CAP : Nat := 0x0101
def Op.SET_BLOCK_LIMITS : Nat := 0x0102
def Op.SET_COOLANT : Nat := 0x0103
def Op.GET_POWER_THERMAL : Nat := 0x0104
def Op.GET_ROSTER : Nat := 0x0201
def Op.FENCE_DIE : Nat := 0x0202
def Op.SUBSTITUTE : Nat := 0x0203
def Op.RETIRE_DIE : Nat := 0x0204
def Op.ROLL_CALL : Nat := 0x0205
def Op.LOAD_IMAGE : Nat := 0x0301
def Op.CONFIGURE : Nat := 0x0302
def Op.KICKOFF : Nat := 0x0303
def Op.PAUSE : Nat := 0x0304
def Op.HALF_TIME : Nat := 0x0305
def Op.RESUME : Nat := 0x0306
def Op.STOP : Nat := 0x0307
def Op.SCRUB : Nat := 0x0308
def Op.ABORT : Nat := 0x0309
def Op.DATA_OPEN : Nat := 0x0401
def Op.DATA_CLOSE : Nat := 0x0402
def Op.FILL : Nat := 0x0403
def Op.SET_PORT_ROUTES : Nat := 0x0501
def Op.PORT_CONTROL : Nat := 0x0502
def Op.FABRIC_TIMEOUT : Nat := 0x0503
def Op.TIME_SYNC : Nat := 0x0601
def Op.SET_TIME : Nat := 0x0602
def Op.ATTEST : Nat := 0x0701
def Op.LIFECYCLE : Nat := 0x0702
def Op.DEBUG_UNLOCK : Nat := 0x0703
def Op.FW_UPDATE : Nat := 0x0704
def Op.READ_NOTICES : Nat := 0x0801
def Op.READ_COUNTERS : Nat := 0x0802
def Op.MARGIN_SCAN : Nat := 0x0803
def Op.SCAN_ACCESS : Nat := 0x0F01

/-- The opcodes of the tables. -/
def opcodes : List Nat :=
  [0x0001, 0x0002, 0x0003, 0x0004, 0x0005, 0x0101, 0x0102, 0x0103, 0x0104, 0x0201, 0x0202, 0x0203, 0x0204, 0x0205] ++
  [0x0301, 0x0302, 0x0303, 0x0304, 0x0305, 0x0306, 0x0307, 0x0308, 0x0309, 0x0401, 0x0402, 0x0403, 0x0501, 0x0502, 0x0503] ++
  [0x0601, 0x0602, 0x0701, 0x0702, 0x0703, 0x0704, 0x0801, 0x0802, 0x0803, 0x0F01]

/-- Commands of kind D. -/
def isDeferred (op : Nat) : Bool :=
  [0x0202, 0x0203, 0x0204, 0x0205, 0x0301, 0x0302, 0x0304, 0x0305, 0x0306, 0x0307, 0x0308, 0x0401, 0x0403, 0x0502, 0x0503, 0x0702, 0x0703,
    0x0704, 0x0803].contains op

/-- Commands that peer authority admits, marked P (R361). -/
def isPeer (op : Nat) : Bool := [0x0001, 0x0002, 0x0005, 0x0104, 0x0201, 0x0309, 0x0701, 0x0802].contains op

/-- Commands accepted in `END` (R466), and in RECOVERY without further conditions (R462). -/
def acceptedInEnd (op : Nat) : Bool := [0x0001, 0x0002, 0x0005, 0x0801, 0x0701].contains op

/-- Commands that need bring-up to be done (R448): those that name squads, dies, memory or the fabric's tables. The spec does not list
them. DESIGN CHOICE. -/
def needsDone (op : Nat) : Bool :=
  [0x0202, 0x0203, 0x0204, 0x0205, 0x0301, 0x0302, 0x0303, 0x0304, 0x0305, 0x0306, 0x0307, 0x0308, 0x0401, 0x0403, 0x0503, 0x0702,
    0x0703].contains op

/-! ### Replies -/

/-- Store and send the reply of a command that has just been executed. -/
def State.answer (s : State) (r : Reply) : State := if s.toCaptain r then s.sendReply r else (s.storeReply r).sendReply r

/-- The reply to a command. -/
def replyTo (h : CmdHdr) (op status : Nat) (final : Bool) (words : List Nat) : Reply :=
  { port := h.port, opcode := op, tag := h.tag, seq := h.seq, status := status, final := final, words := words,
    dpanel := h.spanel, hostcmd := h.bridged }

/-! ### Authority and conflicts -/

/-- Host authority (R361). -/
def State.hostAuthority (s : State) (h : CmdHdr) : Bool :=
  if h.bridged then s.flag panelSite Panel.CAPTAIN_SET && s.get panelSite Panel.CAPTAIN == h.spanel && s.inTeam else s.hostPort h.port

/-- Debug mode (R467). -/
def State.debugMode (s : State) : Bool := s.flag panelSite Reg.SEC_STATUS.DEBUG

/-- The squads a command of the runs group names. -/
def squadsOf : Instr → Nat
  | .configure _ q _ => q.toNat
  | .kickoff _ q _ => q.toNat
  | .pause _ q _ _ => q.toNat
  | .halfTime _ q _ _ => q.toNat
  | .resume _ q _ _ => q.toNat
  | .stop _ q _ _ => q.toNat
  | .scrub _ q scope _ => if scope = 1 then 0xFFFF else q.toNat
  | _ => 0

/-- Panel-wide commands (R360). -/
def panelWide (op : Nat) (cmd : Instr) : Bool :=
  op == Op.LOAD_IMAGE || op == Op.FABRIC_TIMEOUT || op == Op.FENCE_DIE || op == Op.SUBSTITUTE || op == Op.ROLL_CALL || op == Op.FW_UPDATE
    || op == Op.LIFECYCLE || op == Op.DEBUG_UNLOCK || (op == Op.SCRUB && match cmd with | .scrub _ _ sc _ => sc == 1 | _ => false)

/-- Commands that no panel-wide command conflicts with: the device and telemetry groups and those named in R360. -/
def exempt (op : Nat) : Bool :=
  op / 256 == 0 || op / 256 == 8 || op == Op.GET_POWER_THERMAL || op == Op.GET_ROSTER || op == Op.ATTEST || op == Op.ABORT

/-- The port a `PORT_CONTROL` names. -/
def controlledPort : Instr → Option Nat
  | .portControl _ p _ _ _ => some p
  | _ => none

/-- Two commands conflict (R360). -/
def conflicts (op : Nat) (cmd : Instr) (d : Deferred) : Bool :=
  (op / 256 == 3 && d.opcode / 256 == 3 && (squadsOf cmd &&& squadsOf d.cmd) != 0)
    || (panelWide d.opcode d.cmd && !exempt op) || (panelWide op cmd && !exempt d.opcode)
    || (op == Op.PORT_CONTROL && d.opcode == Op.PORT_CONTROL && controlledPort cmd == controlledPort d.cmd)

/-- A command is turned away as `BUSY` (R360, R287). -/
def State.busy (s : State) (op : Nat) (cmd : Instr) : Bool :=
  (isDeferred op && 16 ≤ s.deferred.length + s.teamcasts.length) || s.deferred.any (conflicts op cmd) || (op == Op.FABRIC_TIMEOUT && s.timeout.isSome)

/-- The thermal hold: HOLD or HBM_OFF (R434, R439). -/
def State.holding (s : State) : Bool := s.get panelSite Reg.THM_PANEL.STATE == 1 || s.get panelSite Reg.THM_PANEL.STATE == 2

/-- Commands that the thermal hold turns away (R435). -/
def holdBad : Instr → Bool
  | .configure .. | .kickoff .. | .resume .. | .substitute .. | .rollCall .. | .fill .. => true
  | .scrub _ _ scope _ => scope == 1
  | .dataOpen _ _ _ dir _ _ _ => dir == 0
  | _ => false

/-- Base, length and digest of the recorded image (R327). -/
def Img.BASE : Fld := ⟨0x1500020, 0, 64, 0, .int⟩
def Img.LEN : Fld := ⟨0x1500028, 0, 64, 0, .int⟩
def Img.DIGEST : Fld := ⟨0x1500030, 0, 512, 0, .int⟩

/-- A range touches another. -/
def overlap (a n b m : Nat) : Bool := a < b + m && b < a + n

/-- A local range touches the protected image (R328). -/
def State.imageRange (s : State) (a n : Nat) : Bool :=
  s.flag panelSite Reg.SQD_PANEL.IMAGE_VERIFIED && overlap a n (s.get panelSite Img.BASE) (s.get panelSite Img.LEN)

/-- An address operand, laid out as R209: the panel it names. -/
def State.addrPanel (s : State) (a : Nat) : Nat := if a.testBit 56 then s.ownPanel else bitsOf a 55 44

/-- The conditions of life cycle, recovery and bring-up stage that hold for every command (R448, R462, R466). -/
def State.stageBad (s : State) (h : CmdHdr) (op : Nat) : Bool :=
  if s.get panelSite Reg.SEC_STATUS.LCS = 4 then !acceptedInEnd op
  else if s.get panelSite Reg.CTL_BOOT.STAGE = 8 then
    !((acceptedInEnd op || op == Op.DATA_OPEN || op == Op.DATA_CLOSE || op == Op.FW_UPDATE) && s.hostPort h.port)
  else needsDone op && s.get panelSite Reg.CTL_BOOT.STAGE != 7

/-! ### One command -/

/-- A status with result words, or nothing wrong. -/
abbrev Check := Option (Nat × List Nat)

/-- A check that gives a status without words. -/
def check (b : Bool) (status : Nat) : Check := if b then some (status, []) else none

/-- What a command's own tables ask of it: its opcode, itself, whether it needs debug mode, whether LENGTH is right, whether a parameter is
out of range or a reserved one not zero (with result words), and its state condition. -/
structure CmdForm where
  op : Nat
  cmd : Instr
  debug : Bool := false
  lengthOk : Bool
  param : Check := none
  state : Check := none

/-- The captain's own part of a teamcast (R318): the teamcast has taken its place in the sequence. -/
def State.ownCast (s : State) (h : CmdHdr) : Bool := h.bridged && s.flag panelSite Panel.NUMBER_SET && h.spanel == s.ownPanel

/-- The TAG is that of a command from the same port that is outstanding (R357). -/
def State.tagTaken (s : State) (h : CmdHdr) : Bool :=
  ((s.deferred ++ s.immediates).any fun d => d.port == h.port && d.tag == h.tag)
    || (!s.ownCast h && s.teamcasts.any fun c => c.port == h.port && c.tag == h.tag)

/-- Checks 5 to 9 of R357. -/
def State.refusal (s : State) (h : CmdHdr) (f : CmdForm) : Check :=
  let host := s.hostAuthority h
  (check (!host && !isPeer f.op) St.NOT_PERMITTED).orElse fun _ =>
  (check (f.debug && !s.debugMode) St.NOT_PERMITTED).orElse fun _ =>
  (check (!f.lengthOk) St.BAD_LENGTH).orElse fun _ =>
  f.param.orElse fun _ =>
  (check (h.reserved != 0 || s.tagTaken h) St.BAD_PARAM).orElse fun _ =>
  (check (s.stageBad h f.op || (s.holding && holdBad f.cmd)) St.WRONG_STATE).orElse fun _ =>
  f.state.orElse fun _ => check (s.busy f.op f.cmd) St.BUSY

/-- The sequence check (R358): in sequence, a stored reply to send again, or the SEQ expected. -/
inductive SeqOut where
  | inSeq
  | again (r : Reply)
  | expected (seq : Nat)
  deriving DecidableEq, Repr

/-- Check 3 of R357. -/
def State.seqCheck (s : State) (h : CmdHdr) (op : Nat) : SeqOut :=
  let next := (s.get panelSite (Reg.CTL_CMD_PORT.LAST_SEQ h.port) + 1) % 2 ^ 32
  if s.ownCast h || !s.flag panelSite (Reg.CTL_CMD_PORT.SEQ_VALID h.port) || h.seq == next then .inSeq
  else
    match s.stored.find? fun r => r.port == h.port && r.seq == h.seq && r.tag == h.tag && r.opcode == op with
    | some r => .again r
    | none => .expected next

/-- A command is executed, for sequencing and for the count (R358, R374). -/
def State.executed (s : State) (h : CmdHdr) : State :=
  if s.ownCast h then s.bump panelSite Reg.CTL_CMD_STATUS.COMMANDS else ((s.put panelSite (Reg.CTL_CMD_PORT.LAST_SEQ h.port) h.seq).putFlag panelSite (Reg.CTL_CMD_PORT.SEQ_VALID h.port) true).bump panelSite
    Reg.CTL_CMD_STATUS.COMMANDS

/-- The frames of a command packet that waits for the control die are taken: the first with its header, and those that follow on its port
(R355). -/
def takeFrames (port opcode tag seq : Nat) : Nat → List RxFrame → List RxFrame
  | _, [] => []
  | 0, r :: rs =>
    let g (off n : Nat) : Nat := leNat ((r.frame.payload.drop off).take n)
    if r.port == port && r.frame.vc == 2 && g 0 2 == opcode && g 2 2 == tag && g 12 4 == seq then
      takeFrames port opcode tag seq ((32 + g 4 2 + 511) / 512) rs
    else r :: takeFrames port opcode tag seq 0 rs
  | n + 1, r :: rs =>
    if n = 0 then r :: rs
    else if r.port == port && r.frame.vc == 2 then takeFrames port opcode tag seq n rs
    else r :: takeFrames port opcode tag seq (n + 1) rs

/-- The command packet is no longer on its way. -/
def State.takePacket (s : State) (h : CmdHdr) (op : Nat) : State := { s with arrived := takeFrames h.port op h.tag h.seq 0 s.arrived }

/-- No command is answered after causes 1 to 4 of `FAULT_N` (R477). -/
def State.controlDead (s : State) : Bool :=
  [0, 1].any fun d => s.flag (siteOfControl d) Reg.CTL_FAULT.FAULT && 1 ≤ s.get (siteOfControl d) Reg.CTL_FAULT.CAUSE
    && s.get (siteOfControl d) Reg.CTL_FAULT.CAUSE ≤ 4

/-- A command (R357–R361): the checks in order, then its own effect. A port the panel does not have sends none. -/
def State.command (s0 : State) (h : CmdHdr) (f : CmdForm) (body : State → State) : State :=
  let s := s0.takePacket h f.op
  if 8 ≤ h.port || s.controlDead then s
  else if h.length % 8 ≠ 0 ∨ 4096 < h.length ∨ h.received ≠ h.length then s.sendReply (replyTo h f.op St.BAD_LENGTH true [])
  else
    match s.seqCheck h f.op with
    | .again r => s.sendReply r
    | .expected n => (s.bump panelSite (Reg.CTL_CMD_PORT.SEQ_REJECTS h.port)).sendReply (replyTo h f.op St.BAD_PARAM true [n])
    | .inSeq =>
      match (s.executed h).refusal h f with
      | some (st, ws) => (s.executed h).answer (replyTo h f.op st true ws)
      | none => body (s.executed h)

/-- An immediate command ends (R359). -/
def State.reply (s : State) (h : CmdHdr) (op status : Nat) (words : List Nat := []) : State := s.answer (replyTo h op status true words)

/-- A deferred command is dispatched (R359): `ACCEPTED`, and outstanding from then on. A slot is written at once where the commit point is
acceptance (R368). -/
def State.begin (s : State) (h : CmdHdr) (op : Nat) (cmd : Instr) (committed : Bool) (words : List Nat := []) (mask : Nat := 0) : State :=
  let s1 := s.answer (replyTo h op St.ACCEPTED false words)
  ({ s1 with deferred := s1.deferred ++
      [Deferred.mk h.port op h.tag h.seq h.spanel h.bridged (if committed then some St.OK else none) cmd 1 0 mask] }).countDeferred

/-- An outstanding command. -/
def Deferred.same (a b : Deferred) : Bool := a.port == b.port && a.tag == b.tag && a.opcode == b.opcode && a.seq == b.seq

/-- Change an outstanding command. -/
def State.setDeferred (s : State) (d : Deferred) : State := { s with deferred := updFirst (fun e => e.same d) (fun _ => d) s.deferred }

/-- A deferred command ends with its final reply. -/
def State.finishCmd (s : State) (d : Deferred) (status : Nat) (words : List Nat := []) : State :=
  let r : Reply := ⟨d.port, d.opcode, d.tag, d.seq, status, true, words, d.dpanel, d.hostcmd⟩
  let s1 := ({ s with deferred := dropFirst (fun e => e.same d) s.deferred }).countDeferred
  if s1.toCaptain r then s1.sendReply r else (s1.storeFinal r).sendReply r

/-- A command writes its own slot at its commit point (R367). -/
def State.commit (s : State) (d : Deferred) (status : Nat := St.OK) : State := s.setDeferred { d with slot := some status }

/-- The outstanding command of an opcode. -/
def State.outstandingOp (s : State) (op : Nat) : Option Deferred := s.deferred.find? fun d => d.opcode == op

/-- A command with an opcode of no table (R357 check 4). -/
def State.unknown (s : State) (h : CmdHdr) : State :=
  if 8 ≤ h.port ∨ opcodes.contains h.opcode ∨ s.controlDead then s
  else if h.length % 8 ≠ 0 ∨ 4096 < h.length ∨ h.received ≠ h.length then s.sendReply (replyTo h h.opcode St.BAD_LENGTH true [])
  else
    match s.seqCheck h h.opcode with
    | .again r => s.sendReply r
    | .expected n => (s.bump panelSite (Reg.CTL_CMD_PORT.SEQ_REJECTS h.port)).sendReply (replyTo h h.opcode St.BAD_PARAM true [n])
    | .inSeq => (s.executed h).answer (replyTo h h.opcode St.BAD_OPCODE true [])

/-- A command with an opcode of no table. -/
def execUnknownOpcode (h : CmdHdr) (s : State) : Host.Outcome State Fault Refusal := .next ((s.takePacket h h.opcode).unknown h)

/-- A packet that fails its CRC is discarded (R357 check 1). -/
def State.badCrc (s : State) (port : Nat) : State :=
  if 8 ≤ port || s.controlDead then s else (s.bump panelSite Reg.CTL_CMD_STATUS.BADCRC).notifyCtl 0x0703 1 none port 0

/-- A packet that fails its CRC is discarded. -/
def execCommandBadcrc (port : Nat) (s : State) : Host.Outcome State Fault Refusal := .next (s.badCrc port)

end Sys2Proof.Machine
end

