-- ==== Sys2Proof/Machine/Window.lean ====
section
/-! DEFINITION. Data windows (13_command_interface): opening, data in and out, acknowledgements, closing; and `FILL`. -/

namespace Sys2Proof.Machine

/-! ### Where a window's bytes travel (R370, R371) -/

/-- Place of a port among those a window names. -/
def Window.place (w : Window) (port : Nat) : Nat := w.ports.findIdx (· == port)
/-- First byte that the i-th port carries. -/
def Window.firstOf (w : Window) (i : Nat) : Nat := i * w.burst
/-- End of the bytes that may follow an offset without a break on its port. -/
def Window.limitAt (w : Window) (off : Nat) : Nat := if w.ports.length ≤ 1 then w.length else min w.length ((off / w.burst + 1) * w.burst)
/-- Offset that follows on the same port. -/
def Window.after (w : Window) (off n : Nat) : Nat :=
  if (off + n) % w.burst = 0 then off + n + (w.ports.length - 1) * w.burst else off + n
/-- Set an element of a list of offsets. -/
def setAt (l : List Nat) (i v : Nat) : List Nat := l.zipIdx.map fun e => if e.2 = i then v else e.1

/-- A burst has been acknowledged in full: its port has taken its last byte and no request of it is open. -/
def Window.burstDone (w : Window) (k : Nat) : Bool :=
  let i := k % w.ports.length
  let hi := min w.length ((k + 1) * w.burst)
  (hi ≤ w.next.getD i 0 || w.length ≤ w.next.getD i 0) && !(w.reqs.any fun r => r.offset / w.burst == k)

/-- A window of this arrival port and number. -/
def Window.same (a b : Window) : Bool := a.arrival == b.arrival && a.number == b.number

/-- Change a window. -/
def State.setWindow (s : State) (w : Window) : State := { s with windows := updFirst (fun x => x.same w) (fun _ => w) s.windows }

/-- The outstanding `DATA_OPEN` of a window. -/
def State.openerOf (s : State) (w : Window) : Option Deferred :=
  s.deferred.find? fun d => d.opcode == Op.DATA_OPEN && d.port == w.arrival && d.tag == w.tag

/-- Write DONE of a window. -/
def State.putDone (s : State) (w : Window) : State := s.jput w.arrival (Reg.PORT_DATA_DONE.DONE w.number) w.done

/-! ### Closing (R371–R373) -/

/-- The final status of a window that ends in a closing status, its `DATA_OPEN` taking the slot if it is empty (R367). -/
def State.endWindow (s : State) (w : Window) (status w2 : Nat) : State :=
  let s1 := ({ s with windows := dropFirst (fun x => x.same w) s.windows }).jset w.arrival (Reg.PORT_DATA_WIN.OPEN w.number) false
  let s2 :=
    match s1.openerOf w with
    | some d => s1.finishCmd d (d.slot.getD status) ([w.done, w.poisoned] ++ (if d.slot.getD status = St.HW_FAULT then [w2] else []))
    | none => s1
  w.closers.foldl (fun s r => s.answer r) s2

/-- DATA frames of a window that a port has not had acknowledged. -/
def State.dataFrames (s : State) (w : Window) : Bool :=
  s.txFrames.any fun t => w.ports.contains t.port && t.frame.vc == 3 && ((t.frame.payload.getD 0 0).toNat == 0)
    && (t.frame.payload.getD 1 0).toNat == w.number

/-- A window ends when it has done everything, or when it is closing and its requests are complete. -/
def State.settleWindow (s : State) (w : Window) : State :=
  match w.closing with
  | some (st, w2) => if w.reqs.isEmpty then s.endWindow w st w2 else s
  | none =>
    if w.done = w.length ∧ w.reqs.isEmpty ∧ !(w.read && s.dataFrames w) then s.endWindow w St.OK 0 else s

/-- The message of R370. -/
def dataBytes (kind number poison : Nat) (last : Bool) (off : Nat) (bs : List Byte) : List Byte :=
  leBytes 1 kind ++ leBytes 1 number ++ leBytes 2 bs.length ++ leBytes 2 poison ++ leBytes 1 (if last then 1 else 0) ++ [0] ++ leBytes 8 off
    ++ bs

/-- Send a DATA VC message on a port to its host adapter, whose panel number is a free value. -/
def State.sendData (s : State) (port : Nat) (bs : List Byte) : State :=
  let (v, s1) := s.free
  s1.queueFrame port (s1.newFrame 3 (v % 4096) bs 255)

/-- Bytes from an offset on that have been fetched without a gap. -/
def fetchedFrom : Nat → List WindowPart → Nat → List (Byte × Bool)
  | 0, _, _ => []
  | n + 1, ps, off =>
    match ps.find? fun p => p.offset ≤ off && off < p.offset + p.data.length with
    | none => []
    | some p =>
      let bs := (p.data.zip p.poison).drop (off - p.offset)
      bs ++ fetchedFrom n ps (off + bs.length)

/-- POISON of a message: a bit for each 32 bytes that hold a poisoned one. -/
def poison32 (bs : List (Byte × Bool)) : Nat :=
  (List.range ((bs.length + 31) / 32)).foldl (fun m i => if ((bs.drop (32 * i)).take 32).any (·.2) then m ||| 2 ^ i else m) 0

/-- Send a port's next messages of a read window while their bytes are there: 496 bytes each, cut short where another port's burst begins or
the window ends; all that has been fetched once the window is closing. -/
def sendMessages : Nat → State → Window → Nat → State × Window
  | 0, s, w, _ => (s, w)
  | n + 1, s, w, i =>
    let off := w.next.getD i 0
    let want := min 496 (w.limitAt off - off)
    let got := (fetchedFrom 3 w.parts off).take want
    if w.length ≤ off ∨ got.isEmpty ∨ (got.length < want ∧ w.closing.isNone) then (s, w)
    else
      let last := off + got.length == w.length
      let p := poison32 got
      let count := ((List.range 16).filter fun b => p.testBit b).length
      let nx := w.after off got.length
      let w1 := { w with next := setAt w.next i nx, done := w.done + got.length, poisoned := w.poisoned + count,
                         parts := w.parts.filter fun q => off + got.length < q.offset + q.data.length || q.offset / w.burst % w.ports.length != i }
      sendMessages n (s.sendData (w.ports.getD i 0) (dataBytes 0 w.number p last off (got.map (·.1)))) w1 i

/-- The request that carries n bytes from an offset of a window: whole units as `WRITE` or `READ`, the rest as parts (R371). -/
def State.windowReq (s : State) (w : Window) (tag off n : Nat) (bs : List Byte) (port : Nat) : HubReq :=
  let a := w.addr + off
  let whole := a % 256 = 0 ∧ n = 256
  { opc := if whole then (if w.read then 0 else 2) else if w.read then 8 else 9, epoch := 0, spanel := s.ownPanel, ssite := siteOfPort port,
    sunit := 63, tag := tag, addr := a, opid := 0, param := 0, order := 0, group := 0, poison := 0, length := if whole then 0 else n,
    reserved := 0, data := bs }

/-- Issue the requests for n bytes from an offset, unit by unit. -/
def issueUnits : Nat → State → Window → Nat → Nat → List Byte → Nat → State × Window
  | 0, s, w, _, _, _, _ => (s, w)
  | f + 1, s, w, off, n, bs, port =>
    if n = 0 then (s, w)
    else
      let k := min n (256 - (w.addr + off) % 256)
      let tag := freeTag (((s.proxies.filter fun e => e.port == port).map (·.index))
        ++ ((s.windows.filter fun x => !x.same w) ++ [w]).flatMap fun x => x.reqs.map (·.tag))
      let r := s.windowReq w tag off k (bs.take k) port
      let w1 := { w with reqs := w.reqs ++ [⟨tag, off, k⟩] }
      issueUnits f (s.sendRequest (siteOfPort port) r) w1 (off + k) (n - k) (bs.drop k) port

/-- A port reads ahead in a read window: at most two of its bursts beyond what it has sent (R372). -/
def readAhead : Nat → State → Window → Nat → State × Window
  | 0, s, w, _ => (s, w)
  | n + 1, s, w, i =>
    let at_ := w.issued.getD i 0
    let stride := w.ports.length * w.burst
    let ahead := at_ / w.burst < w.next.getD i 0 / w.burst + 2 * w.ports.length
    if w.closing.isSome ∨ w.length ≤ at_ ∨ !ahead then (s, w)
    else
      let len := min w.burst (w.length - at_)
      let w1 := { w with issued := setAt w.issued i (at_ + stride) }
      let (s2, w2) := issueUnits (len / 256 + 2) s w1 at_ len [] (w.ports.getD i 0)
      readAhead n s2 w2 i

/-- A read window goes on on one port: it sends what it can and reads ahead. -/
def State.advancePort (s : State) (w : Window) (i : Nat) : State × Window :=
  let (s1, w1) := sendMessages (2 * w.burst / 496 + w.reqs.length + 4) s w i
  readAhead 2 s1 w1 i

/-- A read window goes on. -/
def State.advanceWindow (s : State) (w : Window) : State :=
  let (s1, w1) := (List.range w.ports.length).foldl (fun (acc : State × Window) i => acc.1.advancePort acc.2 i) (s, w)
  ((s1.setWindow w1).putDone w1).settleWindow w1

/-- A window begins to close for a cause (R373): the first cause counts. What has been fetched is sent. -/
def State.closeWindow (s : State) (w : Window) (status w2 : Nat) : State :=
  if w.closing.isSome then s
  else
    let w1 := { w with closing := some (status, w2) }
    if w.read then (s.setWindow w1).advanceWindow w1 else (s.setWindow w1).settleWindow w1

/-- Every window that satisfies a test closes. -/
def State.closeWindows (s : State) (p : Window → Bool) (status : Window → Nat) : State :=
  (s.windows.filter p).foldl (fun s w => match s.windows.find? fun x => x.same w with | some w => s.closeWindow w (status w) 0 | none => s) s

/-- A port that carries data goes DOWN (R373). -/
def State.windowsDown (s : State) (port : Nat) : State :=
  s.closeWindows (fun w => w.ports.contains port) (fun w => if w.read then St.UNDELIVERED else St.IN_DOUBT)

/-- Read windows whose DATA frames are all acknowledged end. -/
def State.settleReads (s : State) (port : Nat) : State :=
  (s.windows.filter fun w => w.read && w.ports.contains port).foldl (fun s w =>
    match s.windows.find? fun x => x.same w with | some w => s.settleWindow w | none => s) s

/-- A status that a reply of a window's request closes it with. -/
def replyCause (status : Nat) : Nat × Nat :=
  if status = PSt.IN_DOUBT then (St.IN_DOUBT, 0)
  else if status = PSt.UNDELIVERED ∨ status = PSt.NO_ROUTE ∨ status = PSt.WITHDRAWN then (St.UNDELIVERED, 0)
  else (St.HW_FAULT, status)

/-- Poison of each byte of a reply (R242). -/
def bytePoisonOf (mask : BitVec 32) (n : Nat) : List Bool := (List.range n).map fun i => mask.toNat.testBit (i / 8)

/-- A reply reaches a window's request (R371–R373). None if no window waits for it. -/
def State.windowReply (s : State) (port : Nat) (m : HubRep) : Option State :=
  (s.windows.find? fun w => w.ports.contains port && w.reqs.any fun r => r.tag == m.tag && (w.ports.getD (r.offset / w.burst % w.ports.length) 0) == port).map fun w =>
    let r := (w.reqs.find? fun r => r.tag == m.tag).getD ⟨0, 0, 0⟩
    let w1 := { w with reqs := dropFirst (fun x => x.tag == m.tag) w.reqs }
    let s1 := s.setWindow w1
    if 1 < m.status then
      if w1.closing.isSome then s1.settleWindow w1 else s1.closeWindow w1 (replyCause m.status).1 (replyCause m.status).2
    else if w.read then
      let w2 := { w1 with parts := w1.parts ++ [⟨r.offset, m.data.take r.len, bytePoisonOf m.poison r.len⟩] }
      (s1.setWindow w2).advanceWindow w2
    else s1.settleWindow w1

/-! ### Commands (R365, R369) -/

/-- The ports a window names. -/
def portsOf (mask arrival : Nat) : List Nat := if mask = 0 then [arrival] else (List.range 8).filter fun p => mask.testBit p

/-- Windows that name a port. -/
def State.portWindows (s : State) (port : Nat) : List Window := s.windows.filter fun w => w.ports.contains port

/-- The lowest window number free on every port. -/
def State.windowNumber (s : State) (ports : List Nat) : Option Nat :=
  (List.range 4).find? fun n => ports.all fun p => !(s.portWindows p).any fun w => w.number == n

/-- Bytes of HBM. -/
def inHbm (a n : Nat) : Bool := a + n ≤ 2 ^ 42

/-- The state conditions of `DATA_OPEN` (R369, R462). -/
def State.openCheck (s : State) (addr length dir : Nat) (ports : List Nat) : Check :=
  let rec0 := s.get panelSite Reg.CTL_BOOT.STAGE == 8
  let loc := s.addrPanel addr == s.ownPanel
  (check (dir == 0 && loc && s.imageRange (addr % 2 ^ 44) length) St.NOT_PERMITTED).orElse fun _ =>
  (check (ports.any fun p => !s.portUsable p || s.jget p Reg.PORT_CTL.ROLE != 1) St.WRONG_STATE).orElse fun _ =>
  (check (rec0 && (dir != 0 || addr != 2 ^ 56 || 2 ^ 24 < length)) St.WRONG_STATE).orElse fun _ =>
  (check (s.deferred.any fun d => match d.cmd with | .scrub _ _ sc _ => sc == 1 | _ => false) St.WRONG_STATE).orElse fun _ =>
  check (ports.any (fun p => 4 ≤ (s.portWindows p).length) || (s.windowNumber ports).isNone) St.BUSY

/-- A window is opened (R369). -/
def State.openWindowAt (s : State) (h : CmdHdr) (cmd : Instr) (addr length dir burst : Nat) (ports : List Nat) : State :=
  let n := (s.windowNumber ports).getD 0
  let b := 2 ^ burst
  let starts := (List.range ports.length).map fun i => i * b
  let w : Window :=
    { number := n, arrival := h.port, ports := ports, tag := h.tag, read := dir == 1, burst := b,
      addr := s.addrPanel addr * 2 ^ 44 + addr % 2 ^ 44, length := length, next := starts, issued := starts, reqs := [], parts := [],
      done := 0, poisoned := 0, closing := none, closers := [] }
  let s1 := s.begin h Op.DATA_OPEN cmd false [n]
  let s2 := { s1 with windows := s1.windows ++ [w] }
  let mask := ports.foldl (fun m p => m + 2 ^ p) 0
  let s3 := (((((s2.jset h.port (Reg.PORT_DATA_WIN.OPEN n) true).jput h.port (Reg.PORT_DATA_WIN.DIR n) dir).jput h.port
    (Reg.PORT_DATA_WIN.BURST n) (burst - 12)).jput h.port (Reg.PORT_DATA_WIN.PORTS n) mask).jput h.port (Reg.PORT_DATA_WIN.TAG n) h.tag).putDone w
  if dir = 1 then s3.advanceWindow w else s3

/-- `DATA_OPEN` (R369). -/
def execDataOpen (h : CmdHdr) (addr length dir burst : Nat) (ports : BitVec 8) (rsv : Nat) (s : State) :
    Host.Outcome State Fault Refusal :=
  let cmd := Instr.dataOpen h addr length dir burst ports rsv
  let ps := portsOf ports.toNat h.port
  .next (s.command h
    { op := Op.DATA_OPEN, cmd := cmd, lengthOk := h.length == 24,
      param := check (2 ^ 57 ≤ addr || length == 0 || 2 ^ 42 < length || 1 < dir || burst < 12 || 20 < burst || rsv != 0
        || !inHbm (addr % 2 ^ 44) length) St.BAD_PARAM,
      state := s.openCheck addr length dir ps }
    fun s => s.openWindowAt h cmd addr length dir burst ps)

/-- `DATA_CLOSE` (R373): it answers after the window's final reply. -/
def execDataClose (h : CmdHdr) (window rsv : Nat) (s : State) : Host.Outcome State Fault Refusal :=
  .next (s.command h { op := Op.DATA_CLOSE, cmd := .dataClose h window rsv, lengthOk := h.length == 8,
                       param := check (3 < window || rsv != 0) St.BAD_PARAM }
    fun s =>
      match s.windows.find? fun w => w.arrival == h.port && w.number == window with
      | none => s.reply h Op.DATA_CLOSE St.ALREADY_DONE
      | some w =>
        let w1 := { w with closers := w.closers ++ [replyTo h Op.DATA_CLOSE St.OK true []] }
        match w.closing with
        | some _ => s.setWindow w1
        | none => (s.setWindow w1).closeWindow w1 St.OK 0)

/-- A DATA message of a write window (R371): its bytes go to memory, or it is discarded and the window closes. In RECOVERY they go to the
boot buffer (R462). -/
def State.takeData (s : State) (port window offset dlen poison : Nat) (last : Bool) (rsv : Nat) (bytes : List Byte) : State :=
  match s.windows.find? fun w => w.number == window && w.ports.contains port with
  | none => s.jbump port Port.DATA_DROPS
  | some w =>
    let i := w.place port
    let ok := !w.read && rsv == 0 && poison == 0 && !last && 1 ≤ dlen && dlen ≤ 496 && bytes.length == dlen
      && offset == w.next.getD i 0 && offset + dlen ≤ w.limitAt offset
    if w.closing.isSome then s
    else if !ok then (s.jbump port Port.DATA_DROPS).closeWindow w St.BAD_PARAM 0
    else
      let w1 := { w with next := setAt w.next i (w.after offset dlen) }
      if s.get panelSite Reg.CTL_BOOT.STAGE = 8 then ({ s with bootBuf := mapWrite 0 s.bootBuf offset bytes }).setWindow w1
      else
        let (s2, w2) := issueUnits 4 s w1 offset dlen bytes port
        s2.setWindow w2

/-- The frame of a message that has arrived is taken. -/
def State.takeArrived (s : State) (port vc : Nat) (p : List Byte → Bool) : State :=
  { s with arrived := dropFirst (fun a => a.port == port && a.frame.vc == vc && p a.frame.payload) s.arrived }

/-- `DATA`: a data message reaches its window. A port the panel does not have brings none. -/
def execData (port window offset dlen poison : Nat) (last : Bool) (rsv : Nat) (bytes : List Byte) (s : State) :
    Host.Outcome State Fault Refusal :=
  .next (if 8 ≤ port then s
    else
      (s.takeArrived port 3 fun b => b.take 16 == (dataBytes 0 window poison last offset bytes).take 16).takeData port window offset dlen poison
        last rsv bytes)

/-- `ACK`: the link die of the arrival port reports a burst whose bytes, and all earlier ones, are in memory (R371). -/
def execAck (port window offset : Nat) (s : State) : Host.Outcome State Fault Refusal :=
  .next (match s.windows.find? fun w => w.number == window && w.arrival == port with
    | none => s
    | some w =>
      let k := w.done / w.burst
      let hi := min w.length ((k + 1) * w.burst)
      if w.read ∨ w.done = w.length ∨ offset ≠ hi ∨ !w.burstDone k then s
      else
        let w1 := { w with done := hi }
        (((s.setWindow w1).putDone w1).sendData port (dataBytes 1 window 0 false hi [])).settleWindow w1)

/-- The drain bound of a window that closes (R373): what is open is withdrawn. -/
def execWindowDrainBound (port window : Nat) (s : State) : Host.Outcome State Fault Refusal :=
  .next (match s.windows.find? fun w => w.number == window && w.arrival == port with
    | none => s
    | some w =>
      match w.closing with
      | none => s
      | some (st, w2) =>
        if w.reqs.isEmpty then s else s.endWindow { w with reqs := [] } (if st = St.OK then St.WITHDRAWN else st) w2)

/-! ### FILL -/

/-- The next request of a `FILL`, under the tag its record keeps, or its end (R365): the pattern written over the range by whole units and parts. -/
def State.fillStep (s : State) (d : Deferred) (addr length : Nat) (pattern : Word) : State :=
  if length ≤ d.amount then (s.commit d).finishCmd d (d.slot.getD St.OK) [d.amount]
  else
    let a := s.addrPanel addr * 2 ^ 44 + addr % 2 ^ 44 + d.amount
    let n := min (length - d.amount) (256 - a % 256)
    let whole := n = 256
    let bs := (List.range n).map fun i => BitVec.ofNat 8 (pattern.toNat / 2 ^ (8 * (i % 8)))
    s.sendRequest s.controlSite
      { opc := if whole then 2 else 9, epoch := 0, spanel := s.ownPanel, ssite := s.controlSite, sunit := 63, tag := d.mask, addr := a,
        opid := 0, param := 0, order := 0, group := 0, poison := 0, length := if whole then 0 else n, reserved := 0, data := bs }

/-- `FILL` (R365). A range of no bytes is out of range. -/
def execFill (h : CmdHdr) (addr length : Nat) (pattern : Word) (s : State) : Host.Outcome State Fault Refusal :=
  let cmd := Instr.fill h addr length pattern
  .next (s.command h
    { op := Op.FILL, cmd := cmd, lengthOk := h.length == 24,
      param := check (2 ^ 57 ≤ addr || addr % 8 != 0 || length % 8 != 0 || length == 0 || !inHbm (addr % 2 ^ 44) length) St.BAD_PARAM,
      state := check (s.addrPanel addr == s.ownPanel && s.imageRange (addr % 2 ^ 44) length) St.NOT_PERMITTED }
    fun s =>
      let s1 := s.begin h Op.FILL cmd false [] (freeTag ((s.deferred.filter fun d => d.opcode == Op.FILL).map (·.mask)))
      match s1.deferred.find? fun d => d.port == h.port && d.tag == h.tag with
      | some d => s1.fillStep d addr length pattern
      | none => s1)

/-- A reply reaches the control die: the `FILL` it belongs to goes on or ends; none if it belongs to no fill. -/
def State.fillReply (s : State) (m : HubRep) : Option State :=
  (s.deferred.find? fun d => d.opcode == Op.FILL && d.mask == m.tag).map fun d =>
    match d.cmd with
    | .fill _ addr length pattern =>
      if d.slot.isSome then s.finishCmd d (d.slot.getD St.ABORTED) [d.amount]
      else if 1 < m.status then s.finishCmd d (replyCause m.status).1 [d.amount]
      else
        let a := s.addrPanel addr * 2 ^ 44 + addr % 2 ^ 44 + d.amount
        let d1 := { d with amount := d.amount + min (length - d.amount) (256 - a % 256) }
        (s.setDeferred d1).fillStep d1 addr length pattern
    | _ => s

end Sys2Proof.Machine
end

