-- ==== Sys2Proof/Machine/Clock.lean ====
section
/-! DEFINITION. Clocks and panel time (15_clocks_and_time): the adaptive core clock, correction edges, steps and slews. -/

namespace Sys2Proof.Machine

/-! ### State beside the registers -/

/-- Number of the last correction edge, and its edge value E (R398). -/
def Die.EDGE : Fld := ⟨0x1900000, 0, 64, 0, .int⟩
def Die.EDGE_VALUE : Fld := ⟨0x1900008, 0, 64, 0, .int⟩
/-- Edge from which slew steps fall on every third edge (R400). -/
def Die.SLEW_FROM : Fld := ⟨0x1900010, 0, 64, 0, .int⟩
/-- Panel time, plus one, at the last `TIME_SLIP` and the last `CLOCK_FLOOR` notice (R396, R398); 0 for none. -/
def Die.SLIP_AT : Fld := ⟨0x1900018, 0, 65, 0, .int⟩
def Die.FLOOR_AT : Fld := ⟨0x1900028, 0, 65, 0, .int⟩
/-- What the timing scan in progress has seen of a die: lowest slack and its core, lowest code, cycles with a warning (R485). -/
def Die.SCAN_SLACK : Fld := ⟨0x1900040, 0, 8, 255, .int⟩
def Die.SCAN_CORE : Fld := ⟨0x1900040, 8, 6, 0, .int⟩
def Die.SCAN_CODE : Fld := ⟨0x1900040, 14, 7, 0, .int⟩
def Die.SCAN_WARN : Fld := ⟨0x1900048, 0, 32, 0, .int⟩
/-- ALIGN has been measured (R399). -/
def Die.MEASURED : Fld := ⟨0x1900038, 0, 1, 0, .int⟩

/-! ### Registers of a site reached by a command (R362) -/

/-- A control packet reaches the units of a site (R279): those of the active control die, and those of a site with a working router. A
capacitor site has none. -/
def State.reachable (s : State) (site : Nat) : Bool := !hasRouter site || site == s.controlSite || s.alive site

/-- A control packet without a route is discarded (R279), and the command waits until its TMO (R363). -/
def State.noAnswer (s : State) (h : CmdHdr) (op : Nat) (cmd : Instr) (site : Nat) : State :=
  let s1 := (s.bump s.controlSite Reg.MESH_DROP.UNREACH).notify s.controlSite 63 0x0504 3 (site + 3 * 256) 0
  { s1 with immediates := s1.immediates ++ [Deferred.mk h.port op h.tag h.seq h.spanel h.bridged none cmd 1 0 0] }

/-- What a command that reaches a unit of a die other than its router answers while the die is fenced (R362). -/
def State.fencedCheck (s : State) (site : Nat) : Check :=
  if s.flag site Reg.MESH_STATUS.LOCAL_FENCED && s.reachable site then some (St.WRONG_STATE, [site, 1]) else none

/-- A write of a register by a row of its own: `WRITE_CSR` with that register's effect. `ok` says that the site has the register. -/
def State.csrWrite (s : State) (h : CmdHdr) (cmd : Instr) (site : Nat) (ok : Bool) (body : State → State) : State :=
  s.command h { op := Op.WRITE_CSR, cmd := cmd, lengthOk := h.length == 16, param := check (!ok) St.BAD_PARAM, state := s.fencedCheck site }
    fun s => if s.reachable site then (body s).reply h Op.WRITE_CSR St.OK else s.noAnswer h Op.WRITE_CSR cmd site

/-! ### The adaptive core clock (R394–R396) -/

/-- Floor code of a die kind (R394). -/
def clockFloor (site : Nat) : Nat := if dieKind site = .link then 16 else 0
/-- Highest code of a die kind. -/
def clockTop (site : Nat) : Nat := match dieKind site with | .link => 32 | .control => 16 | _ => 72
/-- A die has a core generator (R391). -/
def hasCoreClock (site : Nat) : Bool := isCompute site || dieKind site == .link || dieKind site == .control

/-- The effective ceiling (R394). -/
def State.effCeiling (s : State) (site : Nat) : Nat :=
  max (clockFloor site) (min (min (s.get site Reg.CLK_CORE_CTL.CEILING) (s.get site Reg.CLK_CORE_CTL.LIMIT)) (clockTop site))

/-- Put the code down to a lower one, step by step (R395). -/
def State.lowerCode (s : State) (site code : Nat) : State :=
  let f := s.get site Reg.CLK_CORE_STATUS.FREQ
  if code < f then
    (((s.put site Reg.CLK_CORE_STATUS.FREQ code).bump site Reg.CLK_CORE_STATUS.DOWN_STEPS (f - code)).put site Reg.CLK_CORE_STATUS.MIN_CODE
      (min code (s.get site Reg.CLK_CORE_STATUS.MIN_CODE))).put site Die.SCAN_CODE (min code (s.get site Die.SCAN_CODE))
  else s

/-- A code above the effective ceiling falls to it (R395). -/
def State.settleCode (s : State) (site : Nat) : State :=
  if s.flag site Reg.CLK_CORE_STATUS.CORE_LOCK then s.lowerCode site (s.effCeiling site) else s

/-- A margin monitor warns (R395): one step down, not below the floor. -/
def execMarginWarning (site core mon slack : Nat) (s : State) : Host.Outcome State Fault Refusal :=
  .next (if !isCompute site ∨ 48 ≤ core ∨ 2 ≤ mon ∨ 16 ≤ slack ∨ !s.flag site Reg.CLK_CORE_STATUS.CORE_LOCK then s
    else
      let s0 := if slack < s.get site Die.SCAN_SLACK then (s.put site Die.SCAN_SLACK slack).put site Die.SCAN_CORE core else s
      let s1 := (s0.bump site Reg.CLK_MARGIN.WARNINGS).bump site Die.SCAN_WARN
      let s2 := if slack < s1.get site Reg.CLK_MARGIN.MIN_SLACK then
          ((s1.put site Reg.CLK_MARGIN.MIN_SLACK slack).put site Reg.CLK_MARGIN.MIN_CORE core).put site Reg.CLK_MARGIN.MIN_MON mon
        else s1
      s2.lowerCode site (max (clockFloor site) (s2.get site Reg.CLK_CORE_STATUS.FREQ - 1)))

/-- The code rises by one after 8,192 cycles with no warning (R395). -/
def execCodeRise (site : Nat) (s : State) : Host.Outcome State Fault Refusal :=
  let f := s.get site Reg.CLK_CORE_STATUS.FREQ
  .next (if hasCoreClock site ∧ s.flag site Reg.CLK_CORE_STATUS.CORE_LOCK ∧ f < s.effCeiling site then
      s.put site Reg.CLK_CORE_STATUS.FREQ (f + 1)
    else s)

/-- A notice limited to one a millisecond of panel time: the field holds when the last was raised. -/
def State.oncePerMs (s : State) (site : Nat) (f : Fld) : Bool :=
  s.get site f == 0 || s.get site f + 4000000 ≤ s.get site Reg.CLK_PT.TIME + 1

/-- Warnings continue for 1 µs at the floor code (R396). -/
def execClockFloor (site core : Nat) (s : State) : Host.Outcome State Fault Refusal :=
  .next (if isCompute site ∧ core < 48 ∧ s.flag site Reg.CLK_CORE_STATUS.CORE_LOCK
        ∧ s.get site Reg.CLK_CORE_STATUS.FREQ = clockFloor site ∧ s.oncePerMs site Die.FLOOR_AT then
      ((s.put site Die.FLOOR_AT (s.get site Reg.CLK_PT.TIME + 1)).bump site Reg.CLK_CORE_STATUS.FLOORS).notify site 63 0x0901 2 core 0
    else s)

/-- MIN_RESET of CLK_CORE_STATUS (R402). -/
def State.minReset (s : State) (site : Nat) : State := s.put site Reg.CLK_CORE_STATUS.MIN_CODE (s.get site Reg.CLK_CORE_STATUS.FREQ)
/-- MIN_RESET of CLK_MARGIN (R402). -/
def State.slackMinReset (s : State) (site : Nat) : State := s.put site Reg.CLK_MARGIN.MIN_SLACK 255

/-- A write of CLK_CORE_STATUS.MIN_RESET (R402). -/
def execMinReset (h : CmdHdr) (site : Nat) (s : State) : Host.Outcome State Fault Refusal :=
  .next (s.csrWrite h (.minReset h site) site (hasRouter site) fun s => s.minReset site)
/-- A write of CLK_MARGIN.MIN_RESET (R402). -/
def execSlackMinReset (h : CmdHdr) (site : Nat) (s : State) : Host.Outcome State Fault Refusal :=
  .next (s.csrWrite h (.slackMinReset h site) site (hasRouter site) fun s => s.slackMinReset site)

/-! ### Panel time (R398–R401) -/

/-- Pending slew as a signed count. -/
def State.slewPending (s : State) (site : Nat) : Int :=
  let n : Int := s.get site Reg.CLK_PT_STATUS.PENDING
  if s.flag site Reg.CLK_PT_STATUS.PEND_SIGN then -n else n

/-- Write the pending slew. -/
def State.putSlew (s : State) (site : Nat) (v : Int) : State :=
  (s.put site Reg.CLK_PT_STATUS.PENDING (min v.natAbs 65535)).putFlag site Reg.CLK_PT_STATUS.PEND_SIGN (v < 0)

/-- A signed number in two's complement of 64 bits. -/
def wrap64 (v : Int) : Nat := (v % 2 ^ 64).toNat
/-- Signed value of an 8-bit field. -/
def signed8 (v : Nat) : Int := if v < 128 then v else (v : Int) - 256

/-- Edges that an update of panel time leaves between acceptance and application: one, and 256 (R400). -/
def applyAhead : Nat := 257

/-- Every router that works takes the updates of panel time. -/
def State.timeSites (s : State) : List Nat := (List.range 256).filter fun k => hasRouter k && s.alive k

/-- The control die sends an update of panel time to every die (R400). -/
def State.sendTime (s : State) (step : Bool) (value : Nat) (neg : Bool) : State :=
  let edge := s.get s.controlSite Die.EDGE + applyAhead
  { s with timeOut := s.timeOut ++ s.timeSites.map fun k => TimeUpdate.mk k step value neg edge }

/-- E at the next edge after acceptance is t: E at the apply edge (R400). -/
def stepValue (t : Int) : Nat := wrap64 (t + 4000 * (applyAhead - 1 : Nat))

/-- An update reaches a die (R400). One that comes after its apply edge applies at the next edge and is counted. -/
def execTimeUpdate (site : Nat) (step : Bool) (value : Nat) (neg : Bool) (edge : Nat) (s : State) : Host.Outcome State Fault Refusal :=
  let u : TimeUpdate := ⟨site, step, value, neg, edge⟩
  let s0 : State := { s with timeOut := dropFirst (· == u) s.timeOut }
  .next (if !hasRouter site then s
    else
      let late := edge ≤ s0.get site Die.EDGE
      let s1 := if late then s0.bump site Reg.CLK_PT_STATUS.LATE else s0
      if step then { s1 with timeSteps := s1.timeSteps ++ [u] }
      else
        let s2 := if s1.get site Reg.CLK_PT_STATUS.PENDING = 0 then
            s1.put site Die.SLEW_FROM (if late then s1.get site Die.EDGE + 1 else edge)
          else s1
        s2.putSlew site (s2.slewPending site + (if neg then -(value : Int) else value)))

/-- The slew step of an edge, 0 where none falls (R400). -/
def State.slewAt (s : State) (site k : Nat) : Int :=
  let f := s.get site Die.SLEW_FROM
  if s.get site Reg.CLK_PT_STATUS.PENDING = 0 ∨ k < f ∨ (k - f) % 3 ≠ 0 then 0
  else if s.flag site Reg.CLK_PT_STATUS.PEND_SIGN then -1 else 1

/-- A correction edge (R398): E advances, a step or a slew step applies, and panel time is set. -/
def State.correct (s : State) (site count : Nat) : State :=
  let k := s.get site Die.EDGE + 1
  let due := s.timeSteps.filter fun u => u.site == site && u.edge ≤ k
  let s1 := (s.put site Die.EDGE k).put site Reg.CLK_TICK.TICKS (s.get site Reg.CLK_TICK.TICKS + 100)
  let (s2, e, stepped) :=
    match due.getLast? with
    | some u => (({ s1 with timeSteps := s1.timeSteps.filter fun u => !(u.site == site && u.edge ≤ k) }).putSlew site 0,
        u.value + 4000 * (k - u.edge), true)
    | none =>
      let d := s1.slewAt site k
      (s1.putSlew site (s1.slewPending site - d), wrap64 ((s1.get site Die.EDGE_VALUE : Int) + 4000 + d), false)
  let target := wrap64 ((e : Int) + signed8 (s2.get site Reg.CLK_PT_STATUS.ALIGN))
  let diff : Int := (target : Int) - count
  let s3 := (s2.put site Die.EDGE_VALUE e).put site Reg.CLK_PT.TIME (if stepped then target else max target count)
  let s4 := s3.putFlag site Reg.CLK_PT_STATUS.ALIGNED (s3.flag site Die.MEASURED)
  if !stepped ∧ 2 < diff.natAbs then
    let s5 := s4.bump site Reg.CLK_PT_STATUS.SLIPS
    if s5.oncePerMs site Die.SLIP_AT then
      (s5.put site Die.SLIP_AT (s5.get site Reg.CLK_PT.TIME + 1)).notify site 63 0x0903 2 0 (wrap64 diff)
    else s5
  else s4

/-- A `SET_TIME` whose apply edge has passed in every die is answered (R400). -/
def State.answerSetTime (s : State) : State :=
  let passed (d : Deferred) : Bool := d.opcode == Op.SET_TIME && s.timeSites.all fun k => d.amount ≤ s.get k Die.EDGE
  (s.immediates.filter passed).foldl (fun s d =>
    s.answer ⟨d.port, d.opcode, d.tag, d.seq, St.OK, true, [], d.dpanel, d.hostcmd⟩)
    { s with immediates := s.immediates.filter fun d => !passed d }

/-- A correction edge reaches a die whose count stands at `count` (R398). -/
def execCorrectionEdge (site count : Nat) (s : State) : Host.Outcome State Fault Refusal :=
  .next (if hasRouter site then (s.correct site count).answerSetTime else s)

/-- `SET_TIME` (R400): the reply follows when the apply edge has passed in every die. -/
def execSetTime (h : CmdHdr) (time : Word) (s : State) : Host.Outcome State Fault Refusal :=
  let cmd := Instr.setTime h time
  .next (s.command h { op := Op.SET_TIME, cmd := cmd, lengthOk := h.length == 8 } fun s =>
    let edge := s.get s.controlSite Die.EDGE + applyAhead
    ({ s with immediates := s.immediates ++ [Deferred.mk h.port Op.SET_TIME h.tag h.seq h.spanel h.bridged none cmd 1 edge 0] }).sendTime true
      (stepValue time.toNat) false)

end Sys2Proof.Machine
end

