-- ==== Sys2Proof/Machine/Stage.lean ====
section
/-! DEFINITION. The end of cold bring-up (18_bring_up_and_reset): what has to be ready, and the stages that remain. -/

namespace Sys2Proof.Machine

/-- A hub has been trained and its stack zero-scrubbed: it is ACTIVE (R446). -/
def Hub.READY : Fld := ⟨0x1200100, 0, 1, 0, .int⟩
/-- A port has been UP, or has failed training, since its link die was powered (R448). -/
def Port.TRIED : Fld := ⟨0x1300228, 0, 1, 0, .int⟩

/-- Every hub that works is ready. -/
def State.hubsReady (s : State) : Bool := (List.range 64).all fun k => !s.alive (siteOfStack k) || s.flag (siteOfStack k) Hub.READY
/-- Every port has been tried, but for one whose link die does not work, or stays dark. -/
def State.portsTried (s : State) : Bool :=
  (List.range 8).all fun p =>
    !s.alive (siteOfPort p) || s.jflag p Port.TRIED
      || (!s.jflag p Reg.PWR_DIE_STATUS.VIN_SW && !s.powerUps.any fun u => u.site == siteOfPort p)

/-- The stages after the roster end when HBM is scrubbed and every port is UP or has failed once (R448): HBM, PORTS, DONE. DONE_MS, a time,
is a free value. -/
def State.bringupDone (s : State) : State :=
  let s1 := if s.get panelSite Reg.CTL_BOOT.STAGE = 5 ∧ s.hubsReady then s.put panelSite Reg.CTL_BOOT.STAGE 6 else s
  if s1.get panelSite Reg.CTL_BOOT.STAGE = 6 ∧ s1.portsTried then
    let (ms, s2) := s1.free
    let s3 := (s2.put panelSite Reg.CTL_BOOT.STAGE 7).put panelSite Reg.CTL_BOOT.DONE_MS ms
    s3.notifyCtl 0x0C02 0 none (s3.get panelSite Reg.CTL_BOOT.DONE_MS) 0
  else s1

/-- A failure during bring-up (R450): a row of its table, and the site concerned or the block. -/
def State.bringupFail (s : State) (row arg1 : Nat) : State := s.notifyCtl 0x0C03 3 none row arg1

end Sys2Proof.Machine
end

