-- ==== Sys2Proof/Machine/Port.lean ====
section
/-! DEFINITION. What a Jorzen port does (11_jorzen_ports): frames in order, replays, lane sets, failure, draining, training, routes, teams,
time exchanges and optical margins. -/

namespace Sys2Proof.Machine

/-- A drained port trains again instead of staying DISABLED (R454). -/
def Port.THEN_TRAIN : Fld := ⟨0x1300100, 37, 1, 0, .int⟩
/-- The reference panel of `TIME_SYNC` (R319). -/
def Panel.REF : Fld := ⟨0x1300008, 0, 12, 0, .int⟩
def Panel.REF_SET : Fld := ⟨0x1300008, 12, 1, 0, .int⟩

/-! ### Sequence numbers and lanes (R297, R300) -/

/-- A sequence number lies at or before another. -/
def seqLe (a b : Nat) : Bool := (b + 2 ^ 32 - a) % 2 ^ 32 < 2 ^ 31
/-- The lanes of the sets in use, in ascending order (R293, R297). -/
def lanesOf (sets : Nat) : List Nat := (List.range 64).filter fun l => sets.testBit (l / 16)
/-- Lane sets in use. -/
def setCount (sets : Nat) : Nat := ((List.range 4).filter fun k => sets.testBit k).length
/-- The lane that carries a sequence number. -/
def laneOf (sets base seq : Nat) : Nat :=
  (lanesOf sets).getD ((seq + 2 ^ 32 - base) % 2 ^ 32 % max 1 (lanesOf sets).length) 0
/-- The lane that carries the expected frame. -/
def State.expectedLane (s : State) (port : Nat) : Nat :=
  laneOf (s.jget port Reg.PORT_STATUS.RX_SETS) (s.jget port Port.RX_BASE) (s.jget port Port.RX_NEXT)

/-- A message of a port that is no PKT frame. -/
def State.emit (s : State) (port : Nat) (m : PortMsg) : State := { s with portOut := s.portOut ++ [(port, m)] }

/-- The CTRL frame of a port (R296, R299). -/
def State.ctrlMsg (s : State) (port : Nat) (nak : Bool) : PortMsg :=
  .ctrl ((s.jget port Port.RX_NEXT + 2 ^ 32 - 1) % 2 ^ 32) nak ((List.range 5).map fun vc => s.jget port (Port.FREED vc))

/-- Send a CTRL frame: FREED is reported. -/
def State.sendCtrl (s : State) (port : Nat) (nak : Bool) : State :=
  (List.range 5).foldl (fun s vc => s.jput port (Port.FREED_SENT vc) (s.jget port (Port.FREED vc))) (s.emit port (s.ctrlMsg port nak))

/-! ### Frames that are not carried (R309, R313–R315) -/

/-- Send a reply to the panel it is for, by the routes of a port; without a route it is counted. -/
def State.sendRsp (s : State) (port : Nat) (m : HubRep) : State :=
  match s.egress port m.dpanel with
  | .inl e => s.queueFrame e (s.newFrame 1 m.dpanel (hubRepBytes m) 255)
  | .inr _ => s.jbump port Reg.PORT_DROP.NO_ROUTE

/-- The port reply to a request of another panel (R309). -/
def portRep (r : HubReq) (status : Nat) : HubRep :=
  { status := status, epoch := r.epoch, dpanel := r.spanel, dsite := r.ssite, dunit := r.sunit, tag := r.tag, opid := r.opid, poison := 0,
    data := [] }

/-- A request frame ends without being carried: its proxy, or the panel it came from, is answered. -/
def State.requestEnds (s : State) (port : Nat) (f : Frame) (status : Nat) : State :=
  let r := hubReqOf (f.payload.take f.plen)
  let s1 := s.countAnswer port status
  if f.spanel = s.ownPanel then
    match s1.proxies.find? fun e => e.port == portOfSite r.ssite && e.index == r.tag with
    | some e => s1.proxyEnd e status [] 0
    | none => s1
  else s1.sendRsp port (portRep r status)

/-- A request may be sent again though it may have been performed (R313). -/
def mayRepeat (hubOp : Nat) : Bool := [0, 1, 4, 5, 6, 8].contains hubOp

/-- The port that carries the failover of a request frame, if it is failed over (R313). -/
def State.failoverPort (s : State) (port : Nat) (t : TxFrame) : Option Nat :=
  let e := s.jget port (Reg.PORT_ROUTE.ENTRY t.frame.dpanel)
  if t.frame.vc = 0 ∧ e.testBit 4 ∧ s.portUsable (bitsOf e 7 5) ∧ bitsOf e 7 5 ≠ port ∧ (!t.sent ∨ !t.doubt ∨ mayRepeat t.frame.hubOp) then
    some (bitsOf e 7 5)
  else none

/-- A request frame fails over: it is to leave by another port. -/
def State.failover (s : State) (port alt : Nat) (t : TxFrame) : State × TxFrame :=
  let r := hubReqOf t.frame.payload
  let isIt (e : ProxyEntry) : Bool := t.frame.spanel == s.ownPanel && e.port == portOfSite r.ssite && e.index == r.tag
  (({ s with proxies := updFirst isIt (fun e => { e with via := alt }) s.proxies }).jbump port Reg.PORT_RESULTS.FAILOVER,
    { t with port := alt, sent := false, doubt := false, frame := { t.frame with failover := true, replay := false } })

/-- The host port. -/
def State.hostPortNo (s : State) : Option Nat := (List.range 8).find? s.hostPort

/-- A command packet of the captain was not carried (R314): its member of a teamcast, or its own reply, says so. -/
def State.cmdLost (s : State) (dpanel op tag seq status : Nat) : State :=
  match s.castMember dpanel op tag seq status with
  | some t => t
  | none =>
    match s.hostPortNo with
    | some p => s.emitReply ⟨p, op, tag, seq, status, true, [], dpanel, false⟩
    | none => s

/-- Command packets among frames that are not carried: a packet any of whose frames is UNDELIVERED was not delivered. -/
def State.cmdsLost (s : State) (ts : List TxFrame) : State :=
  let keys := (ts.filterMap fun t => t.cmd.map fun c => (t.frame.dpanel, c)).dedup
  keys.foldl (fun s k =>
    let und := ts.any fun t => t.cmd == some k.2 && t.frame.dpanel == k.1 && (!t.sent || !t.doubt)
    s.cmdLost k.1 k.2.1 k.2.2.1 k.2.2.2 (if und then St.UNDELIVERED else St.IN_DOUBT)) s

/-- Records in a NOTICE frame. -/
def noticesIn (f : Frame) : Nat := f.plen / 32

/-- Frames of a port that will not be sent, or not again: each has its outcome (R313–R315). `und` and `dbt` are the answers to requests of
the two classes. -/
def State.dropFrames (s : State) (port und dbt : Nat) (ts : List TxFrame) : State :=
  let (s1, again) := ts.foldl (fun (acc : State × List TxFrame) t =>
    let (s, again) := acc
    if t.frame.vc = 0 then
      match s.failoverPort port t with
      | some alt => let (s1, t1) := s.failover port alt t; (s1, again ++ [t1])
      | none => (s.requestEnds port t.frame (if t.sent && t.doubt then dbt else und), again)
    else if t.frame.vc = 1 then (s.jbump port Reg.PORT_DROP.LOST_RSP, again)
    else if t.frame.vc = 4 then (s.bump panelSite Reg.CTL_NOTICE_CTL.PUSH_LOST (noticesIn t.frame), again)
    else acc) (s, [])
  let s2 := s1.cmdsLost (ts.filter fun t => t.frame.vc == 2)
  ((again.map (·.port)).dedup).foldl (fun s p => s.pump p) { s2 with txFrames := again ++ s2.txFrames }

/-- Take a port's frames away. -/
def State.takeFramesOf (s : State) (port : Nat) (p : TxFrame → Bool) : List TxFrame × State :=
  (s.txFrames.filter fun t => t.port == port && p t, { s with txFrames := s.txFrames.filter fun t => !(t.port == port && p t) })

/-! ### DISABLED, DOWN, draining (R311, R315) -/

/-- The lasers turn off: the port is DISABLED, or trains again, and a `PORT_CONTROL` that waits for it ends (R315, R454). -/
def State.disablePort (s : State) (port : Nat) : State :=
  let train := s.jflag port Port.THEN_TRAIN
  let s1 := ((((s.jput port Reg.PORT_STATUS.STATE (if train then Port.TRAINING else Port.DISABLED)).jput port Reg.PORT_STATUS.TX_SETS 0).jput port
    Reg.PORT_STATUS.RX_SETS 0).jset port Port.DRAIN_SENT false).jset port Port.THEN_TRAIN false
  let s2 := { s1 with txFrames := s1.txFrames.filter fun t => t.port != port, rxFrames := s1.rxFrames.filter fun r => r.port != port }
  match s2.deferred.find? fun d => d.opcode == Op.PORT_CONTROL && controlledPort d.cmd == some port with
  | some d => s2.finishCmd d (d.slot.getD St.OK)
  | none => s2

/-- A drain ends when every held frame is acknowledged and every entry whose request left by the port is answered (R315). -/
def State.drainCheck (s : State) (port : Nat) : State :=
  if s.portState port = Port.DRAINING ∧ s.jflag port Port.DRAIN_SENT ∧ !(s.txFrames.any fun t => t.port == port && t.sent)
      ∧ !(s.proxies.any fun e => e.via == port) then s.disablePort port
  else s

/-- A port becomes DOWN (R311–R314): cause 0 lane sets, 1 replays, 2 the far end. -/
def State.linkPortDown (s : State) (port cause : Nat) : State :=
  if !s.portCarries port then s
  else
    let draining := s.portState port = Port.DRAINING ∧ s.jflag port Port.DRAIN_SENT
    let (ts, s1) := s.takeFramesOf port fun _ => true
    let s2 := { s1 with rxFrames := s1.rxFrames.filter fun r => r.port != port }
    let s3 := ((s2.jput port Reg.PORT_STATUS.STATE Port.DOWN).jput port Reg.PORT_STATUS.TX_SETS 0).jput port Reg.PORT_STATUS.RX_SETS 0
    let s4 := ((s3.emit port (.mgmt 2 0 0)).emit port (.mgmt 2 0 0)).emit port (.mgmt 2 0 0)
    let s5 := ((s4.dropFrames port PSt.UNDELIVERED PSt.IN_DOUBT ts).windowsDown port).notify (siteOfPort port) 63 0x0604 3 cause 0
    if draining then s5.disablePort port else s5

/-- A port begins to drain (R315): `mine` at the end that was told to. -/
def State.startDrain (s : State) (port : Nat) (mine : Bool) : State :=
  let s1 := (s.jput port Reg.PORT_STATUS.STATE Port.DRAINING).jset port Port.DRAIN_SENT mine
  let s2 := if mine then s1.emit port (.mgmt 3 0 0) else s1
  let (ts, s3) := s2.takeFramesOf port fun t => !t.sent && t.frame.vc != 1
  let s4 := s3.dropFrames port PSt.WITHDRAWN PSt.WITHDRAWN ts
  (s4.closeWindows (fun w => w.ports.contains port) (fun _ => St.WITHDRAWN)).drainCheck port

/-! ### Acknowledgement and replay (R300, R301) -/

/-- An ACK covers held frames. One beyond the last frame sent says nothing. -/
def State.takeAck (s : State) (port a : Nat) : State :=
  if !seqLe a ((s.jget port Reg.PORT_SEQ.TX_NEXT + 2 ^ 32 - 1) % 2 ^ 32) ∨ !seqLe (s.jget port Reg.PORT_SEQ.TX_ACKED) a then s
  else
    let s1 := { s with txFrames := s.txFrames.filter fun t => !(t.port == port && t.sent && seqLe t.frame.seq a) }
    (((s1.jput port Reg.PORT_SEQ.TX_ACKED a).pump port).settleReads port).drainCheck port

/-- A replay from ACK + 1 begins (R301, R312): after a NAK every held frame counts as not delivered until it is sent again. The first frame
is sent at once with REPLAY, the others with the next CTRL. The eighth replay in a row makes the port DOWN. -/
def State.startReplay (s : State) (port : Nat) (nak : Bool) : State :=
  let acked := s.jget port Reg.PORT_SEQ.TX_ACKED
  let n := if s.jflag port Port.REPLAYED ∧ s.jget port Port.ACK_AT = acked then s.jget port Reg.PORT_RETRY.CONSEC + 1 else 1
  match s.txFrames.find? fun t => t.port == port && t.sent with
  | none => s
  | some t =>
    let s1 := (((s.jset port Port.REPLAYED true).jput port Port.ACK_AT acked).jput port Reg.PORT_RETRY.CONSEC (min n 8)).jbump port
      Reg.PORT_RETRY.REPLAYS
    let mark (x : TxFrame) : TxFrame := if x.port = port ∧ x.sent ∧ nak then { x with doubt := false } else x
    if 8 ≤ n then ({ s1 with txFrames := s1.txFrames.map mark }).linkPortDown port 1
    else
      let first (x : TxFrame) : TxFrame := if x = t then { mark x with doubt := true, frame := { x.frame with replay := true } } else mark x
      ({ s1 with txFrames := s1.txFrames.map first }).jset port Port.REPLAYING
        (1 < (s1.txFrames.filter fun (x : TxFrame) => x.port == port && x.sent).length)

/-- The rest of a replay is sent, and new frames after it. -/
def State.finishReplay (s : State) (port : Nat) : State :=
  let again (x : TxFrame) : TxFrame := if x.port = port ∧ x.sent then { x with doubt := true } else x
  if s.jflag port Port.REPLAYING then (({ s with txFrames := s.txFrames.map again }).jset port Port.REPLAYING false).pump port else s.pump port

/-! ### What arrives (R300, R304, R306, R310, R317, R318) -/

/-- The receive buffer of a frame is free again (R299). -/
def State.freeWords (s : State) (port : Nat) (f : Frame) : State :=
  s.jput port (Port.FREED f.vc) ((s.jget port (Port.FREED f.vc) + frameWords f) % 2 ^ 32)

/-- A transit frame without a way on is discarded (R306). -/
def State.discard (s : State) (port : Nat) (f : Frame) (fld : Fld) : State :=
  let s1 := (s.jbump port fld).notify (siteOfPort port) 63 0x0603 3 f.dpanel 0
  if f.vc = 0 then s1.sendRsp port (portRep (hubReqOf (f.payload.take f.plen)) PSt.NO_ROUTE) else s1

/-- A transit frame is routed on by the arriving port's table (R306). -/
def State.transit (s : State) (port : Nat) (f : Frame) : State :=
  if s.jget port Reg.PORT_CTL.MAX_HOPS ≤ f.hops then s.discard port f Reg.PORT_DROP.HOPS
  else
    match s.egress port f.dpanel with
    | .inl e => s.queueFrame e { f with replay := false }
    | .inr _ => s.discard port f Reg.PORT_DROP.NO_ROUTE

/-- A field of a packet's header. -/
def hdrField (bs : List Byte) (off n : Nat) : Nat := leNat ((bs.drop off).take n)

/-- A frame on its way to the unit that takes it. -/
def State.arriveAt (s : State) (port lane : Nat) (f : Frame) : State := { s with arrived := s.arrived ++ [RxFrame.mk port lane false f] }

/-- The header of a command packet that the captain reads. -/
def hdrOf (port spanel : Nat) (bs : List Byte) : CmdHdr :=
  { port := port, opcode := hdrField bs 0 2, tag := hdrField bs 2 2, length := hdrField bs 4 2, received := bs.length - 32, seq := hdrField bs 12 4,
    tmo := hdrField bs 16 4, reserved := hdrField bs 6 2 / 4 + hdrField bs 10 2 + hdrField bs 20 8, bridged := false, spanel := spanel }

/-- The valid panels of the team table (R318). -/
def State.team (s : State) : List Nat :=
  ((List.range 32).filter fun i => s.flag panelSite (Reg.PORT_TEAM.VALID i)).map fun i => s.get panelSite (Reg.PORT_TEAM.PANEL i)

/-- The captain sends a command packet to another panel (R317). -/
def State.bridge (s : State) (port dpanel : Nat) (fs : List Frame) (key : Nat × Nat × Nat) : State :=
  match s.egress port dpanel with
  | .inl e => fs.foldl (fun s f =>
      s.queueCmd e { f with dpanel := dpanel, spanel := s.ownPanel, hostcmd := true, teamcast := false, replay := false } key) s
  | .inr _ => s.cmdLost dpanel key.1 key.2.1 key.2.2 St.UNDELIVERED

/-- A teamcast starts at the captain (R318, R366). -/
def State.castStart (s : State) (port lane : Nat) (h : CmdHdr) (fs : List Frame) : State :=
  let key := (h.opcode, h.tag, h.seq)
  let c : Teamcast := ⟨port, h.opcode, h.tag, h.seq, s.team.map fun p => (p, none)⟩
  let s1 := s.answer (replyTo h h.opcode St.ACCEPTED false [])
  let s2 := ({ s1 with teamcasts := s1.teamcasts ++ [c] }).countDeferred
  let s3 := s2.team.foldl (fun s p =>
    if p = s.ownPanel then fs.foldl (fun s f => s.arriveAt port lane { f with hostcmd := true, spanel := s.ownPanel, teamcast := false }) s
    else s.bridge port p fs key) s2
  if c.members.isEmpty then s3.castEnd c else s3

/-- The captain takes a teamcast from its host port. -/
def State.teamcast (s : State) (port lane : Nat) (fs : List Frame) (bs : List Byte) : State :=
  let h := hdrOf port ((fs.map (·.spanel)).headD 0) bs
  if hdrField bs 28 4 ≠ crc32 (crcView bs) then s.badCrc port
  else if !opcodes.contains h.opcode then s.unknown h
  else
    s.command h { op := h.opcode, cmd := .unknownOpcode h, lengthOk := true,
                  param := check (h.opcode == Op.ABORT || h.opcode == Op.DATA_OPEN || h.opcode == Op.DATA_CLOSE) St.BAD_PARAM,
                  state := check (16 ≤ s.deferred.length + s.teamcasts.length) St.BUSY }
      fun s => s.castStart port lane h fs

/-- A reply to a bridged command reaches the captain (R317, R318). -/
def State.bridgedReply (s : State) (fs : List Frame) (bs : List Byte) : State :=
  let sp := (fs.map (·.spanel)).headD 0
  let op := hdrField bs 0 2
  let tag := hdrField bs 2 2
  let seq := hdrField bs 12 4
  let waits := s.teamcasts.any fun c => c.opcode == op && c.tag == tag && c.seq == seq && c.members.any fun m => m.1 == sp
  if waits then (if (hdrField bs 6 2).testBit 1 then (s.castMember sp op tag seq (hdrField bs 9 1)).getD s else s)
  else
    match s.hostPortNo with
    | some p => fs.foldl (fun s f => s.queueFrame p { f with replay := false }) s
    | none => s

/-- A whole command packet has come (R355, R317, R318). -/
def State.cmdPacket (s : State) (port lane : Nat) (fs : List Frame) : State :=
  let bs := fs.flatMap fun f => f.payload.take f.plen
  match fs with
  | [] => s
  | f :: _ =>
    let isReply := (hdrField bs 6 2).testBit 0
    let key := (hdrField bs 0 2, hdrField bs 2 2, hdrField bs 12 4)
    if s.hostPort port ∧ f.teamcast ∧ !isReply then s.teamcast port lane fs bs
    else if !s.isOwn f.dpanel then
      if s.hostPort port then s.bridge port f.dpanel fs key else fs.foldl (fun s f => s.transit port f) s
    else if isReply then (if f.hostcmd then s.bridgedReply fs bs else s)
    else
      let mine := f.hostcmd && s.flag panelSite Panel.CAPTAIN_SET && f.spanel == s.get panelSite Panel.CAPTAIN && s.inTeam
      fs.foldl (fun s f => s.arriveAt port lane { f with hostcmd := mine }) s

/-- A frame of a command packet: the packet is held until its last frame has come (R355). -/
def State.cmdFrame (s : State) (port lane : Nat) (f : Frame) : State :=
  let parts := ((s.rxFrames.filter fun r => r.port == port && r.accepted).map (·.frame)) ++ [f]
  let bs := parts.flatMap fun f => f.payload.take f.plen
  if bs.length < 32 + hdrField bs 4 2 ∧ f.plen = 512 then { s with rxFrames := s.rxFrames ++ [RxFrame.mk port lane true f] }
  else ({ s with rxFrames := s.rxFrames.filter fun r => !(r.port == port && r.accepted) }).cmdPacket port lane parts

/-- A message leaves the receive buffer into the panel, or on to another (R298, R306, R483). -/
def State.inject (s : State) (port lane : Nat) (f : Frame) : State :=
  if f.vc = 2 then s.cmdFrame port lane f
  else if !s.isOwn f.dpanel then s.transit port f
  else if f.vc = 0 then { s with hubReqs := s.hubReqs ++ [hubReqOf (f.payload.take f.plen)] }
  else if f.vc = 1 then { s with hubReps := s.hubReps ++ [hubRepOf (f.payload.take f.plen)] }
  else if f.vc = 3 then s.arriveAt port lane f
  else
    match s.hostPortNo with
    | some p => s.queueFrame p { f with replay := false }
    | none => s.bump panelSite Reg.CTL_NOTICE_CTL.PUSH_LOST (noticesIn f)

/-- An accepted frame (R300, R304, R310): discarded while the panel has no number, kept while it is in timeout, else injected. -/
def State.deliver (s : State) (port lane : Nat) (f : Frame) : State :=
  if !s.flag panelSite Panel.NUMBER_SET ∧ (f.vc = 0 ∨ f.vc = 1 ∨ f.vc = 3) then (s.freeWords port f).jbump port Reg.PORT_DROP.NO_ROUTE
  else if s.flag (siteOfPort port) Reg.MESH_CTL.TIMEOUT ∧ f.vc ≠ 1 then { s with arrived := s.arrived ++ [RxFrame.mk port lane true f] }
  else (s.freeWords port f).inject port lane f

/-- What the link dies kept during a timeout is injected after it (R310). -/
def State.releaseArrived (s : State) : State :=
  (s.arrived.filter (·.accepted)).foldl (fun s r => (s.freeWords r.port r.frame).inject r.port r.lane r.frame)
    { s with arrived := s.arrived.filter fun r => !r.accepted }

/-- The expected frame is lost (R301): waiting frames are discarded and one NAK is sent. -/
def State.lose (s : State) (port : Nat) : State :=
  let s1 := { s with rxFrames := s.rxFrames.filter fun r => !(r.port == port && !r.accepted) }
  ((s1.jset port Port.RX_LOSS true).jbump port Reg.PORT_RETRY.NAKS_SENT).sendCtrl port true

/-- Accept the expected frame, and then those that have waited for it (R300). -/
def acceptFrames : Nat → State → Nat → Nat → Frame → State
  | 0, s, _, _, _ => s
  | n + 1, s, port, lane, f =>
    let next := (s.jget port Port.RX_NEXT + 1) % 2 ^ 32
    let s1 := ((s.jput port Port.RX_NEXT next).jset port Port.RX_LOSS false).deliver port lane f
    match s1.rxFrames.find? fun r => r.port == port && !r.accepted && r.frame.seq == next with
    | some r => acceptFrames n { s1 with rxFrames := dropFirst (· == r) s1.rxFrames } port r.lane r.frame
    | none => s1

/-- A PKT frame that has not failed (R300, R301). -/
def State.takeFrame (s : State) (port lane : Nat) (f : Frame) : State :=
  let e := s.jget port Port.RX_NEXT
  if !(lanesOf (s.jget port Reg.PORT_STATUS.RX_SETS)).contains lane then s
  else if f.seq = e then
    if s.jflag port Port.RX_LOSS ∧ !f.replay then s else acceptFrames 65 s port lane f
  else if s.jflag port Port.RX_LOSS ∨ seqLe f.seq e then s
  else if lane = s.expectedLane port then s.lose port
  else if s.rxFrames.any fun r => r.port == port && !r.accepted && r.lane == lane then s
  else { s with rxFrames := s.rxFrames ++ [RxFrame.mk port lane false f] }

/-- A PKT frame arrives (R295–R301). -/
def execPkt (port lane : Nat) (f : Frame) (s : State) : Host.Outcome State Fault Refusal :=
  .next (if 8 ≤ port ∨ 64 ≤ lane ∨ !s.portCarries port then s
    else if !f.ok then
      if lane = s.expectedLane port ∧ !s.jflag port Port.RX_LOSS then s.lose port else s
    else if f.typ ≠ 1 ∨ 4 < f.vc ∨ f.plen = 0 ∨ 512 < f.plen then s
    else (s.takeAck port f.ack).takeFrame port lane f)

/-- A CTRL frame arrives (R296, R299, R301). -/
def execCtrl (port : Nat) (f : Frame) (nak : Bool) (freed : List Nat) (s : State) : Host.Outcome State Fault Refusal :=
  .next (if 8 ≤ port ∨ !s.portCarries port ∨ !f.ok then s
    else
      let s1 := s.takeAck port f.ack
      let s2 := (freed.take 5).zipIdx.foldl (fun s e => s.jput port (Port.FAR_FREED e.2) e.1) s1
      if nak then s2.startReplay port true else s2.pump port)

/-- A CTRL frame is sent (R299); a replay under way goes on. -/
def execCtrlTimer (port : Nat) (s : State) : Host.Outcome State Fault Refusal :=
  .next (if 8 ≤ port ∨ !s.portCarries port then s else (s.sendCtrl port false).finishReplay port)

/-- The oldest held frame has waited RTO (R301). -/
def execRto (port : Nat) (s : State) : Host.Outcome State Fault Refusal :=
  .next (if 8 ≤ port ∨ !s.portCarries port then s else s.startReplay port false)

/-! ### Lane sets (R303) -/

/-- A port that has fewer sets than four is NARROW, unless it drains. -/
def State.narrow (s : State) (port : Nat) (arg : Nat) : State :=
  let s1 := if s.portState port = Port.UP then s.jput port Reg.PORT_STATUS.STATE Port.NARROW else s
  s1.notify (siteOfPort port) 63 0x0602 2 arg 0

/-- The sender stops dealing to sets outside a mask (R303): CONFIRM goes to the far end, and held frames are replayed on the sets left. -/
def State.retireTx (s : State) (port sets : Nat) : State :=
  let base := (s.jget port Reg.PORT_SEQ.TX_ACKED + 1) % 2 ^ 32
  let s1 := (s.jput port Reg.PORT_STATUS.TX_SETS sets).jput port Port.TX_BASE base
  ((s1.emit port (.mgmt 1 sets base)).narrow port (2 * sets)).startReplay port false

/-- The receiver retires the sets outside a mask (R303). -/
def State.retireRx (s : State) (port sets : Nat) : State :=
  let s1 := if !sets.testBit (s.expectedLane port / 16) ∧ !s.jflag port Port.RX_LOSS then s.lose port else s
  (((s1.jput port Reg.PORT_STATUS.RX_SETS sets).jset port Port.RETIRING true).emit port (.mgmt 0 sets 0)).narrow port (1 + 2 * sets)

/-- A receiving lane fails and its set is retired (R303); fewer than two sets make the port DOWN. The expected frame is lost if it is to come
on that set. -/
def State.laneFails (s : State) (port lane : Nat) : State :=
  let sets := s.jget port Reg.PORT_STATUS.RX_SETS
  let left := maskWith sets (lane / 16) false
  if !s.portCarries port then s
  else
    let s1 := s.jset port (Reg.PORT_LANE.FAILED lane) true
    if !sets.testBit (lane / 16) then s1
    else if setCount left < 2 then s1.linkPortDown port 0 else s1.retireRx port left

/-- A receiving lane fails. -/
def execLaneFailure (port lane : Nat) (s : State) : Host.Outcome State Fault Refusal :=
  .next (if 8 ≤ port ∨ 64 ≤ lane then s else s.laneFails port lane)

/-- A rescue port limits itself to lane sets 0 and 1 in both directions (R435, R437). -/
def State.limitPort (s : State) (port : Nat) : State :=
  let tx := s.jget port Reg.PORT_STATUS.TX_SETS
  let rx := s.jget port Reg.PORT_STATUS.RX_SETS
  if !s.portCarries port then s
  else if setCount (tx &&& 3) < 2 ∨ setCount (rx &&& 3) < 2 then s.linkPortDown port 0
  else
    let s1 := if rx < 4 then s else s.retireRx port 3
    if tx < 4 then s1 else s1.retireTx port 3

/-- MGMT RETIRE arrives (R303): the set is no longer dealt to, CONFIRM goes back, and held frames are replayed on the sets left. A repeated one
is confirmed again. -/
def execRetire (port : Nat) (sets : BitVec 4) (s : State) : Host.Outcome State Fault Refusal :=
  let now := s.jget port Reg.PORT_STATUS.TX_SETS
  .next (if 8 ≤ port ∨ !s.portCarries port ∨ sets.toNat &&& now ≠ sets.toNat then s
    else if sets.toNat = now then
      if s.jget port Port.TX_BASE = 0 then s else s.emit port (.mgmt 1 now (s.jget port Port.TX_BASE))
    else if setCount sets.toNat < 2 then s.linkPortDown port 0
    else s.retireTx port sets.toNat)

/-- MGMT CONFIRM arrives (R303): the new rotation starts at BASE. -/
def execConfirm (port : Nat) (sets : BitVec 4) (base : Nat) (s : State) : Host.Outcome State Fault Refusal :=
  .next (if 8 ≤ port ∨ !s.portCarries port ∨ !s.jflag port Port.RETIRING ∨ sets.toNat ≠ s.jget port Reg.PORT_STATUS.RX_SETS then s
    else
      let s1 := { s with rxFrames := s.rxFrames.filter fun r => !(r.port == port && !r.accepted) }
      (s1.jput port Port.RX_BASE base).jset port Port.RETIRING false)

/-- MGMT DOWN arrives (R311). -/
def execDown (port : Nat) (s : State) : Host.Outcome State Fault Refusal := .next (if 8 ≤ port then s else s.linkPortDown port 2)

/-- MGMT DRAIN arrives (R315). -/
def execDrain (port : Nat) (s : State) : Host.Outcome State Fault Refusal :=
  .next (if port < 8 ∧ s.portUsable port then s.startDrain port false else s)

/-- An unanswered MGMT frame is repeated (R296): RETIRE until its CONFIRM, DRAIN until the drain ends. -/
def execMgmtRepeat (port : Nat) (s : State) : Host.Outcome State Fault Refusal :=
  .next (if 8 ≤ port ∨ !s.portCarries port then s
    else
      let s1 := if s.jflag port Port.RETIRING then s.emit port (.mgmt 0 (s.jget port Reg.PORT_STATUS.RX_SETS) 0) else s
      if s1.portState port = Port.DRAINING ∧ s1.jflag port Port.DRAIN_SENT then s1.emit port (.mgmt 3 0 0) else s1)

/-! ### Margins (R321) -/

/-- A 16-bit field read as a signed number. -/
def signed16 (v : Nat) : Int := if v % 65536 < 32768 then (v % 65536 : Nat) else (v % 65536 : Nat) - 65536
/-- A signed number in two's complement of 16 bits. -/
def wrap16 (v : Int) : Nat := (v % 65536).toNat

/-- A lane's value against a threshold: one notice at the crossing (R321). -/
def State.marginCross (s : State) (port lane k : Nat) (beyond : Bool) (value : Nat) : State :=
  let was := s.jflag port (Port.BEYOND lane k)
  let s1 := s.jset port (Port.BEYOND lane k) beyond
  if beyond ∧ !was then s1.notify (siteOfPort port) 63 0x0606 2 (lane + 64 * k) value else s1

/-- A count of consecutive bad windows, up to 4. -/
def State.badWindow (s : State) (port : Nat) (f : Fld) (bad : Bool) : State :=
  s.jput port f (if bad then min 4 (s.jget port f + 1) else 0)

/-- A 1 ms window ends on a lane (R303, R321). -/
def execFecWindow (port lane : Nat) (rxpow : Int) (bias prefec uncorr : Nat) (lock : Bool) (s : State) :
    Host.Outcome State Fault Refusal :=
  .next (if 8 ≤ port ∨ 64 ≤ lane ∨ !(s.portCarries port) then s
    else
      let pf := min prefec 262143
      let s1 := ((((s.jput port (Reg.PORT_LANE.RXPOW lane) (wrap16 rxpow)).jput port (Reg.PORT_LANE.BIAS lane) bias).jput port
        (Reg.PORT_LANE.PREFEC lane) pf).jput port (Reg.PORT_LANE.UNCORR lane) (min uncorr 255)).jset port (Reg.PORT_LANE.LOCK lane) lock
      let warn := s1.jget port Reg.PORT_MARGIN_CTL.PREFEC_WARN
      let s2 := s1.marginCross port lane 0 (rxpow < signed16 (s1.jget port Reg.PORT_MARGIN_CTL.RXPOW_MIN)) (wrap16 rxpow)
      let s3 := s2.marginCross port lane 1 (s2.jget port Reg.PORT_MARGIN_CTL.BIAS_MAX < bias) bias
      let s4 := s3.marginCross port lane 2 (warn ≠ 0 && warn ≤ pf) pf
      let s5 := (s4.badWindow port (Port.BAD_UNCORR lane) (uncorr ≠ 0)).badWindow port (Port.BAD_PREFEC lane) (pf == 262143)
      if !lock ∨ s5.jget port (Port.BAD_UNCORR lane) = 4 ∨ s5.jget port (Port.BAD_PREFEC lane) = 4 then s5.laneFails port lane else s5)

/-! ### Proxies and replies (R308) -/

/-- An entry has been open for REPLY_TIMEOUT (R308). -/
def execReplyTimeout (port entry : Nat) (s : State) : Host.Outcome State Fault Refusal :=
  .next (match s.proxies.find? fun e => e.port == port && e.index == entry with
    | some e =>
      let s1 := ((s.jbump port Reg.PORT_OUTSTANDING.TIMEOUTS).countAnswer port PSt.IN_DOUBT).proxyEnd e PSt.IN_DOUBT [] 0
      s1.drainCheck e.via
    | none => s)

/-- A reply reaches a link die: an entry of its table, or a request of a window; one that nothing waits for is counted (R308). -/
def State.linkReply (s : State) (port : Nat) (m : HubRep) : State :=
  match s.proxies.find? fun e => e.port == port && e.index == m.tag with
  | some e => (s.proxyEnd e m.status m.data m.poison).drainCheck e.via
  | none => (s.windowReply port m).getD (s.jbump port Reg.PORT_DROP.LATE)

/-- A reply reaches its requester (R242): a fetch unit, a link die or the control die of this panel. -/
def execHubReply (m : HubRep) (s : State) : Host.Outcome State Fault Refusal :=
  let s1 := { s with hubReps := dropFirst (· == m) s.hubReps }
  .next (if m.dpanel ≠ s.ownPanel then s
    else if isCompute m.dsite ∧ m.dunit < 48 then s1.fetchReply m
    else if dieKind m.dsite = .link ∧ m.dunit = 63 then s1.linkReply (portOfSite m.dsite) m
    else if m.dsite = s.controlSite ∧ m.dunit = 63 then (s1.fillReply m).getD s1
    else s1)

/-! ### Training and retraining (R311, R447) -/

/-- A DOWN port retrains (R311). -/
def execAutoRetrain (port : Nat) (s : State) : Host.Outcome State Fault Refusal :=
  .next (if port < 8 ∧ s.portState port = Port.DOWN ∧ s.jflag port Reg.PORT_CTL.AUTO_RETRAIN
        ∧ s.jflag port Reg.PWR_DIE_STATUS.VIN_SW then
      s.jput port Reg.PORT_STATUS.STATE Port.TRAINING
    else s)

/-- SEQ, ACK, credits and lane records start afresh (R300, R303). -/
def State.freshLink (s : State) (port : Nat) : State :=
  let site := siteOfPort port
  let s1 := (s.clearFlds site 0x1300040 0x1300118).clearFlds site 0x1300400 0x1300600
  let s2 := (s1.clearFlds site 0x300018 0x300020).jput port Reg.PORT_RETRY.CONSEC 0
  (List.range 64).foldl (fun s l => s.jset port (Reg.PORT_LANE.FAILED l) false)
    { s2 with rxFrames := s2.rxFrames.filter fun r => r.port != port }

/-- The rescue ports: the two lowest set bits of RESCUE_PORTS are honoured (R435, R439). -/
def State.rescuePorts (s : State) : List Nat := ((List.range 8).filter (s.get panelSite Reg.THM_CTL.RESCUE_PORTS).testBit).take 2

/-- A rescue port limits its lane sets while the panel holds or is in air mode (R435, R437). -/
def State.portLimits (s : State) (port : Nat) : State :=
  if (s.flag panelSite Reg.THM_PANEL.AIR || s.holding) && s.rescuePorts.contains port then s.limitPort port else s

/-- A port's training succeeds: UP on four sets each way, NARROW on fewer. -/
def State.portUp (s : State) (port tx rx : Nat) : State :=
  let s1 := s.freshLink port
  let s2 := (((s1.jput port Reg.PORT_STATUS.STATE (if tx == 15 && rx == 15 then Port.UP else Port.NARROW)).jput port Reg.PORT_STATUS.TX_SETS
    tx).jput port Reg.PORT_STATUS.RX_SETS rx).jset port Port.TRIED true
  let s3 := (List.range 64).foldl (fun s l => s.jset port (Reg.PORT_LANE.LOCK l) (rx.testBit (l / 16))) s2
  s3.notify (siteOfPort port) 63 0x0605 0 (tx &&& rx) 0

/-- A `PORT_CONTROL` that waits for a port's training ends. -/
def State.endPortControl (s : State) (port : Nat) : State :=
  match s.deferred.find? fun d => d.opcode == Op.PORT_CONTROL && controlledPort d.cmd == some port with
  | some d => s.finishCmd d (d.slot.getD St.OK)
  | none => s

/-- A port's training ends (R293, R447): with lanes out of place, or fewer than two sets, it stays in TRAINING. -/
def execPortTrained (port : Nat) (txSets rxSets : BitVec 4) (misplaced : Nat) (s : State) : Host.Outcome State Fault Refusal :=
  .next (if 8 ≤ port ∨ s.portState port ≠ Port.TRAINING then s
    else if misplaced ≠ 0 ∨ setCount txSets.toNat < 2 ∨ setCount rxSets.toNat < 2 then
      let s1 := if misplaced ≠ 0 then s.notify (siteOfPort port) 63 0x0601 2 misplaced 0 else s
      let s2 := if s1.get panelSite Reg.CTL_BOOT.STAGE < 7 then s1.bringupFail 7 (siteOfPort port) else s1
      (s2.jset port Port.TRIED true).bringupDone
    else ((((s.portUp port txSets.toNat rxSets.toNat).endPortControl port).portLimits port).pump port).bringupDone)

/-- A draining port reaches its bound (R315). -/
def execPortDrainBound (port : Nat) (s : State) : Host.Outcome State Fault Refusal :=
  .next (if 8 ≤ port ∨ s.portState port ≠ Port.DRAINING ∨ !s.jflag port Port.DRAIN_SENT then s
    else
      let (ts, s1) := s.takeFramesOf port fun _ => true
      let s2 := s1.dropFrames port PSt.WITHDRAWN PSt.IN_DOUBT ts
      let s3 := (s2.proxies.filter fun e => e.via == port).foldl (fun s e => (s.countAnswer port PSt.IN_DOUBT).proxyEnd e PSt.IN_DOUBT [] 0) s2
      s3.disablePort port)

/-! ### Time exchanges (R319, R320) -/

/-- Panel time at a port. -/
def State.timeAt (s : State) (port : Nat) : Nat := s.jget port Reg.CLK_PT.TIME

/-- The upstream panel starts an exchange (R319): SYNC, taking t1, then FOLLOW_UP with t1. -/
def execTimeExchange (port : Nat) (s : State) : Host.Outcome State Fault Refusal :=
  .next (if 8 ≤ port ∨ !s.portUsable port ∨ s.jflag port Reg.PORT_TIME.UPSTREAM ∨ !s.flag panelSite Panel.REF_SET
        ∨ s.jget port Reg.PORT_CTL.ROLE ≠ 0 then s
    else
      let e := (s.jget port Port.EXCH + 1) % 65536
      (((s.jput port Port.EXCH e).jput port Port.T1 (s.timeAt port)).emit port (.time 0 e 0)).emit port (.time 1 e (s.timeAt port)))

/-- SYNC arrives on the upstream port: t2 is taken. An exchange not completed is dropped. -/
def execSync (port exch : Nat) (s : State) : Host.Outcome State Fault Refusal :=
  .next (if 8 ≤ port ∨ !s.portUsable port ∨ !s.jflag port Reg.PORT_TIME.UPSTREAM then s
    else
      let s1 := if s.jget port Port.EXCH_STEP = 0 then s else s.jset port Reg.PORT_TIME.SYNCED false
      ((s1.jput port Port.EXCH exch).jput port Port.EXCH_STEP 1).jput port Port.T2 (s1.timeAt port))

/-- FOLLOW_UP arrives: DELAY_REQ is sent, taking t3. -/
def execFollowUp (port exch t1 : Nat) (s : State) : Host.Outcome State Fault Refusal :=
  .next (if 8 ≤ port ∨ !s.portUsable port ∨ s.jget port Port.EXCH_STEP ≠ 1 ∨ s.jget port Port.EXCH ≠ exch
        ∨ !s.jflag port Reg.PORT_TIME.UPSTREAM then s
    else
      (((s.jput port Port.T1 t1).jput port Port.T3 (s.timeAt port)).jput port Port.EXCH_STEP 2).emit port (.time 2 exch 0))

/-- DELAY_REQ arrives at the upstream panel: DELAY_RESP carries t4. -/
def execDelayReq (port exch : Nat) (s : State) : Host.Outcome State Fault Refusal :=
  .next (if 8 ≤ port ∨ !s.portUsable port then s else s.emit port (.time 3 exch (s.timeAt port)))

/-- Half of a number; which way half a unit goes is a free value. -/
def State.half (s : State) (v : Int) : Int × State :=
  if v % 2 = 0 then (v / 2, s) else ((v / 2) + (s.free.1 % 2 : Nat), s.free.2)

/-- The two results of an exchange (R320): offset and delay. -/
def exchange (t1 t2 t3 t4 : Int) : Int × Int := ((t2 - t1) - (t4 - t3), (t2 - t1) + (t4 - t3))

/-- DELAY_RESP completes the exchange (R320): a step beyond 1 µs, else a slew. -/
def execDelayResp (port exch t4 : Nat) (s : State) : Host.Outcome State Fault Refusal :=
  .next (if 8 ≤ port ∨ !s.portUsable port ∨ s.jget port Port.EXCH_STEP ≠ 2 ∨ s.jget port Port.EXCH ≠ exch
        ∨ !s.jflag port Reg.PORT_TIME.UPSTREAM then s
    else
      let x := exchange (s.jget port Port.T1) (s.jget port Port.T2) (s.jget port Port.T3) t4
      let (o, s1) := s.half x.1
      let (d, s2) := s1.half x.2
      let off := o - signed16 (s2.jget port Reg.PORT_TIME_ASYM.ASYM)
      let far := 4000 < off.natAbs
      let s3 := (((s2.jput port Reg.PORT_TIME.OFFSET (off % 2 ^ 32).toNat).jput port Reg.PORT_TIME.DELAY (d % 2 ^ 24).toNat).jset port
        Reg.PORT_TIME.SYNCED (!far)).jput port Port.EXCH_STEP 0
      if far then s3.sendTime true (stepValue ((s3.get s3.controlSite Die.EDGE_VALUE : Int) + 4000 - off)) false
      else if off = 0 then s3 else s3.sendTime false off.natAbs (0 < off))

/-! ### Commands of the ports and time groups (R365) -/

/-- Every squad is IDLE or SCRUBBED. -/
def State.squadsIdle (s : State) : Bool :=
  (List.range 16).all fun n =>
    s.get panelSite (Reg.SQD_STATUS.STATE n) == Squad.IDLE || s.get panelSite (Reg.SQD_STATUS.STATE n) == Squad.SCRUBBED

/-- Write a table of routing entries (R306). -/
def State.putRoutes (s : State) (port first : Nat) (routes : List (BitVec 32)) : State :=
  routes.zipIdx.foldl (fun s e => s.jput port (Reg.PORT_ROUTE.ENTRY (first + e.2)) e.1.toNat) s

/-- Write the team table. -/
def State.putTeam (s : State) (team : List Nat) : State :=
  team.zipIdx.foldl (fun s e => (s.put panelSite (Reg.PORT_TEAM.PANEL e.2) e.1).putFlag panelSite (Reg.PORT_TEAM.VALID e.2) (e.1.testBit 15)) s

/-- `SET_PORT_ROUTES` (R304, R365). -/
def execSetPortRoutes (h : CmdHdr) (flags : BitVec 8) (port panel captain first : Nat) (team : List Nat) (routes : List (BitVec 32))
    (rsv : Nat) (s : State) : Host.Outcome State Fault Refusal :=
  let fl := flags.toNat
  let badTeam := team.length != 32 || team.any fun e => 65535 < e || bitsOf e 14 12 != 0
  let badRoute := 1000 < routes.length || 4096 < first + routes.length || routes.any fun r => 256 ≤ r.toNat
  .next (s.command h
    { op := Op.SET_PORT_ROUTES, cmd := .setPortRoutes h flags port panel captain first team routes rsv,
      lengthOk := h.length == 80 + 8 * ((routes.length + 1) / 2),
      param := check (15 < fl || (7 < port && port != 255) || 4095 < panel || 4095 < captain || badTeam || badRoute || rsv != 0) St.BAD_PARAM,
      state := check (fl.testBit 0 && !(s.flag panelSite Panel.NUMBER_SET && s.ownPanel == panel)
        && (!s.squadsIdle || !s.proxies.isEmpty)) St.WRONG_STATE }
    fun s =>
      let s1 := if fl.testBit 0 then (s.put panelSite Panel.NUMBER panel).putFlag panelSite Panel.NUMBER_SET true else s
      let s2 := if fl.testBit 1 then (s1.put panelSite Panel.CAPTAIN captain).putFlag panelSite Panel.CAPTAIN_SET true else s1
      let s3 := if fl.testBit 2 then s2.putTeam team else s2
      let s4 := if fl.testBit 3 then
          ((List.range 8).filter fun p => port == 255 || p == port).foldl (fun s p => s.putRoutes p first routes) s3
        else s3
      s4.reply h Op.SET_PORT_ROUTES St.OK)

/-- What `PORT_CONTROL` does (R315, R316). -/
def State.portControl (s : State) (h : CmdHdr) (cmd : Instr) (port action role : Nat) : State :=
  let s1 := s.begin h Op.PORT_CONTROL cmd (action != 1)
  if action = 2 then
    let s2 := s1.jput port Reg.PORT_CTL.ROLE role
    match s2.deferred.find? fun d => d.port == h.port && d.tag == h.tag with
    | some d => s2.finishCmd d St.OK
    | none => s2
  else if action = 1 then s1.jput port Reg.PORT_STATUS.STATE Port.TRAINING
  else if s1.portUsable port then s1.startDrain port true
  else s1.disablePort port

/-- `PORT_CONTROL` (R315, R365). Enabling asks for a port that is OFF, DISABLED or DOWN whose link die has power and which air mode does not
exclude; disabling for one that is not OFF, DISABLED or draining already. -/
def execPortControl (h : CmdHdr) (port action role rsv : Nat) (s : State) : Host.Outcome State Fault Refusal :=
  let cmd := Instr.portControl h port action role rsv
  let st := s.portState port
  let rescue := (s.get panelSite Reg.THM_CTL.RESCUE_PORTS).testBit port
  .next (s.command h
    { op := Op.PORT_CONTROL, cmd := cmd, lengthOk := h.length == 8,
      param := check (7 < port || 2 < action || 1 < role || rsv != 0) St.BAD_PARAM,
      state := check ((action == 1 && ((st != Port.OFF && st != Port.DISABLED && st != Port.DOWN) || !s.alive (siteOfPort port)
            || !s.jflag port Reg.PWR_DIE_STATUS.VIN_SW || (s.flag panelSite Reg.THM_PANEL.AIR && !rescue)))
          || (action == 0 && (st == Port.OFF || st == Port.DISABLED || st == Port.DRAINING))) St.WRONG_STATE }
    fun s => s.portControl h cmd port action role)

/-- `TIME_SYNC` (R319, R365). -/
def execTimeSync (h : CmdHdr) (refpanel upstream rsv : Nat) (s : State) : Host.Outcome State Fault Refusal :=
  .next (s.command h
    { op := Op.TIME_SYNC, cmd := .timeSync h refpanel upstream rsv, lengthOk := h.length == 8,
      param := check (4095 < refpanel || (7 < upstream && upstream != 255) || rsv != 0) St.BAD_PARAM,
      state := check (!s.flag panelSite Panel.NUMBER_SET) St.WRONG_STATE }
    fun s =>
      let s1 := (s.put panelSite Panel.REF refpanel).putFlag panelSite Panel.REF_SET true
      ((List.range 8).foldl (fun s p => s.jset p Reg.PORT_TIME.UPSTREAM (p == upstream)) s1).reply h Op.TIME_SYNC St.OK)

end Sys2Proof.Machine
end

