-- ==== Sys2Proof/Machine/Fabric.lean ====
section
/-! DEFINITION. Packets and flits of the panel fabric, with what the port units of the link dies do with the packets handed to them. -/

namespace Sys2Proof.Machine

/-- A packet for the port unit of a link die (R268). -/
def forPort (d : SitePacket) : Bool := d.packet.dunit == 4 && dieKind d.site == .link && (d.packet.cls == 0 || d.packet.cls == 1)

/-- The port unit of a link die takes a packet (R305, R308): a request for another panel goes to its proxy, or on by its port if it has one
already; a reply for another panel leaves by the routes of its port. -/
def State.portUnit (s : State) (site : Nat) (p : Packet) : State :=
  let port := portOfSite site
  if p.cls = 0 then
    let r := hubReqOf p.payload
    let s1 := { s with hubReqs := dropFirst (· == r) s.hubReqs }
    if r.addr / 2 ^ 44 = s.ownPanel then s
    else if r.sunit = 63 ∧ s1.proxies.any (fun e => e.port == portOfSite r.ssite && e.index == r.tag) then
      s1.queueFrame port (s1.newFrame 0 (bitsOf r.addr 55 44) p.payload r.opc)
    else s1.proxyTake port r
  else
    let m := hubRepOf p.payload
    if m.dpanel = s.ownPanel then s else ({ s with hubReps := dropFirst (· == m) s.hubReps }).sendRsp port m

/-- The port units take what has been handed to them. -/
def State.portUnits (s : State) : State :=
  (s.delivered.filter forPort).foldl (fun s d => s.portUnit d.site d.packet) { s with delivered := s.delivered.filter fun d => !forPort d }

/-- A unit injects a packet (R275, R279, R281, R288). -/
def execPacketInject (site : Nat) (p : Packet) (s : State) : Host.Outcome State Fault Refusal := .next (s.injectPacket site p).portUnits

/-- A flit arrives on a sub-link (R263–R267, R271). -/
def execFlit (site port sub : Nat) (f : FlitIn) (s : State) : Host.Outcome State Fault Refusal := .next (s.flitArrives site port sub f).portUnits

/-- No replay has followed a NAK (R265). -/
def execNakRepeat (site port sub : Nat) (s : State) : Host.Outcome State Fault Refusal := .next (s.nakRepeat site port sub).portUnits

end Sys2Proof.Machine
end

