-- ==== Sys2Proof/Machine/Schedule.lean ====
section
/-! DEFINITION. The meanings of the schedule's rows: an issued slot, a step and a resumption in debug mode, the end of a move, the
core's pause and end, huddles, and the stream messages. -/

namespace Sys2Proof.Machine

/-- A word issued by a core that runs (R28); if a pending pause stops it there, its fetch threads hold in the same cycle (R64, R224). -/
def State.runWord (s : State) (c : CoreRef) (w : Slots) : State :=
  let s1 := s.issueWord c w
  if s1.cget c Core.STOPPING = 1 ∧ s.cget c Core.STOPPING ≠ 1 then s1.holdThreads c else s1

/-- A word whose only slot that is not zero is the predicate/loop slot, with its operation. -/
def State.runPl (s : State) (c : CoreRef) (w op : Nat) : State := s.runWord c (oneSlot 232 (withField w 9 6 op))
/-- A word whose only slot that is not zero is the wait/huddle slot, with its kind. -/
def State.runWt (s : State) (c : CoreRef) (w kind : Nat) : State := s.runWord c (oneSlot 208 (withField w 7 6 kind))
/-- A word whose only slot that is not zero is the huddle wait of a mode. -/
def State.runHuddle (s : State) (c : CoreRef) (w mode : Nat) : State :=
  s.runWord c (oneSlot 208 (withField (withField w 7 6 3) 13 12 mode))
/-- A word whose only slot that is not zero is the queue-port slot, with its operation. -/
def State.runQp (s : State) (c : CoreRef) (w op : Nat) : State := s.runWord c (oneSlot 176 (withField w 9 6 op))
/-- A word whose only slot that is not zero is the matrix slot, with its operation. -/
def State.runMx (s : State) (c : CoreRef) (w op : Nat) : State := s.runWord c (oneSlot 0 (withField w 9 6 op))

/-- `LOOP` (R38). -/
def execLoop (c : CoreRef) (w : BitVec 24) (s : State) : Host.Outcome State Fault Refusal := .next (s.runPl c w.toNat 1)
/-- `PSET` (R41). -/
def execPset (c : CoreRef) (w : BitVec 24) (s : State) : Host.Outcome State Fault Refusal := .next (s.runPl c w.toNat 2)
/-- `PLOOP` (R41). -/
def execPloop (c : CoreRef) (w : BitVec 24) (s : State) : Host.Outcome State Fault Refusal := .next (s.runPl c w.toNat 3)
/-- `PLOGIC` (R41). -/
def execPlogic (c : CoreRef) (w : BitVec 24) (s : State) : Host.Outcome State Fault Refusal := .next (s.runPl c w.toNat 4)
/-- `LDCNT` (R40). -/
def execLdcnt (c : CoreRef) (w : BitVec 24) (s : State) : Host.Outcome State Fault Refusal := .next (s.runPl c w.toNat 5)
/-- `END` (R66). -/
def execEndSched (c : CoreRef) (w : BitVec 24) (s : State) : Host.Outcome State Fault Refusal := .next (s.runPl c w.toNat 6)
/-- Counter wait (R45). -/
def execCounterWait (c : CoreRef) (w : BitVec 24) (s : State) : Host.Outcome State Fault Refusal := .next (s.runWt c w.toNat 1)
/-- Queue wait (R46). -/
def execQueueWait (c : CoreRef) (w : BitVec 24) (s : State) : Host.Outcome State Fault Refusal := .next (s.runWt c w.toNat 2)
/-- Arrive and wait (R47). -/
def execArriveAndWait (c : CoreRef) (w : BitVec 24) (s : State) : Host.Outcome State Fault Refusal := .next (s.runHuddle c w.toNat 0)
/-- Arrive only (R47). -/
def execArriveOnly (c : CoreRef) (w : BitVec 24) (s : State) : Host.Outcome State Fault Refusal := .next (s.runHuddle c w.toNat 1)
/-- Wait only (R47). -/
def execWaitOnly (c : CoreRef) (w : BitVec 24) (s : State) : Host.Outcome State Fault Refusal := .next (s.runHuddle c w.toNat 2)

/-- `START` on a move channel (R53, R55). -/
def execStart (c : CoreRef) (channel : Nat) (w : BitVec 24) (s : State) : Host.Outcome State Fault Refusal :=
  .next (s.runWord c (oneSlot (if channel = 0 then 128 else 152) (withField w.toNat 7 6 1)))

/-- The issue number of a channel's oldest move that has not finished (R55). -/
def State.oldestMove (s : State) (c : CoreRef) (ch : Nat) : Option Nat :=
  match s.beats.find? fun b => b.owner == c && b.channel == ch with
  | some b => some b.order
  | none => if s.cflag c (Core.CH_BUSY ch) then some (s.cget c (Core.CH_ORDER ch)) else none

/-- Read the beats of a move that are still to be read (R55); the first argument bounds them. -/
def State.readRest : Nat → State → CoreRef → Nat → State
  | 0, s, _, _ => s
  | n + 1, s, c, ch => if s.cflag c (Core.CH_BUSY ch) then State.readRest n (s.readBeat c ch) c ch else s

/-- Beats of a move that are still to be read. -/
def State.beatsLeft (s : State) (c : CoreRef) (ch : Nat) : Nat :=
  (s.moveDesc c (s.cget c (Core.CH_DESC ch))).beats * s.cget c (Core.CH_ROWS ch)

/-- A channel's oldest move finishes: every beat of it is read and written, and its counter is incremented (R55). -/
def State.finishMove (s : State) (c : CoreRef) (ch : Nat) : State :=
  match s.oldestMove c ch with
  | none => s
  | some k =>
    let s1 := if s.cflag c (Core.CH_BUSY ch) ∧ s.cget c (Core.CH_ORDER ch) = k then State.readRest (s.beatsLeft c ch) s c ch else s
    let mine (b : Beat) : Bool := b.owner == c && b.channel == ch && b.order == k
    (s1.beats.filter mine).foldl State.writeBeat { s1 with beats := s1.beats.filter fun b => !mine b }

/-- The last beat of a channel's move is written (R55). A frozen or suspended channel makes no progress (R64, R65). -/
def execMoveComplete (c : CoreRef) (channel : Nat) (s : State) : Host.Outcome State Fault Refusal :=
  let ch := channel % 2
  .next (if s.cget c Reg.CORE_SCHED_STATUS.STATE = 5 ∨ s.cflag c (Core.CH_SUSP ch) then s else s.finishMove c ch)

/-- `PUSH` (R178). -/
def execPush (c : CoreRef) (w : BitVec 32) (s : State) : Host.Outcome State Fault Refusal := .next (s.runQp c w.toNat 1)
/-- `POP` (R184). -/
def execPop (c : CoreRef) (w : BitVec 32) (s : State) : Host.Outcome State Fault Refusal := .next (s.runQp c w.toNat 2)
/-- `OPEN` (R186). -/
def execOpenPkt (c : CoreRef) (w : BitVec 32) (s : State) : Host.Outcome State Fault Refusal := .next (s.runQp c w.toNat 3)
/-- `CLOSE` (R186). -/
def execClosePkt (c : CoreRef) (w : BitVec 32) (s : State) : Host.Outcome State Fault Refusal := .next (s.runQp c w.toNat 4)
/-- `MARK` (R185). -/
def execMarkQ (c : CoreRef) (w : BitVec 32) (s : State) : Host.Outcome State Fault Refusal := .next (s.runQp c w.toNat 5)
/-- `REWIND` (R185). -/
def execRewindQ (c : CoreRef) (w : BitVec 32) (s : State) : Host.Outcome State Fault Refusal := .next (s.runQp c w.toNat 6)
/-- `RELEASE` (R185). -/
def execReleaseQ (c : CoreRef) (w : BitVec 32) (s : State) : Host.Outcome State Fault Refusal := .next (s.runQp c w.toNat 7)

/-- `MAC` (R100). -/
def execMac (c : CoreRef) (w : BitVec 64) (s : State) : Host.Outcome State Fault Refusal := .next (s.runMx c w.toNat 1)
/-- `EMIT` (R114, R116). -/
def execEmit (c : CoreRef) (w : BitVec 64) (s : State) : Host.Outcome State Fault Refusal := .next (s.runMx c w.toNat 2)
/-- `SPILL` (R113). -/
def execSpill (c : CoreRef) (w : BitVec 64) (s : State) : Host.Outcome State Fault Refusal := .next (s.runMx c w.toNat 3)
/-- `ZERO` (R98). -/
def execZeroSlot (c : CoreRef) (w : BitVec 64) (s : State) : Host.Outcome State Fault Refusal := .next (s.runMx c w.toNat 4)

/-- `RUN` (R119). -/
def execRun (c : CoreRef) (w : BitVec 64) (s : State) : Host.Outcome State Fault Refusal :=
  .next (s.runWord c (oneSlot 64 (withField w.toNat 9 6 1)))

/-- One word of the schedule memory issues from `BREAK` (R68). -/
def State.stepWord (s : State) (c : CoreRef) : State :=
  let st := s.cget c Reg.CORE_SCHED_STATUS.STATE
  if s.flag panelSite Reg.SEC_STATUS.DEBUG ∧ (st = 7 ∨ (st = 2 ∧ s.cflag c Core.STEPPING)) then
    let k := coreKey c Mem.SCHED (s.cget c Reg.CORE_SCHED_STATUS.ADDR * 32)
    ((s.pathRead c k 32).cset c Core.STEPPING true |>.cput c Reg.CORE_SCHED_STATUS.STATE (if st = 7 then 1 else 2)).runWord c (slotsOf (s.rdNat k 32))
  else s

/-- `STEP` (R68): a write of STEP while the core is in `BREAK`, in debug mode. -/
def execStepWord (c : CoreRef) (s : State) : Host.Outcome State Fault Refusal := .next (s.stepWord c)

/-- Issue resumes from `BREAK` (R68). -/
def State.continueCore (s : State) (c : CoreRef) : State :=
  if s.flag panelSite Reg.SEC_STATUS.DEBUG ∧ s.cget c Reg.CORE_SCHED_STATUS.STATE = 7 then
    (s.cput c Reg.CORE_SCHED_STATUS.STATE 1).cset c Core.BRK_PASS true
  else s

/-- `CONTINUE` (R68). -/
def execContinueCore (c : CoreRef) (s : State) : Host.Outcome State Fault Refusal := .next (s.continueCore c)

/-- Every beat of a core that has been read is written (R64). -/
def State.flushBeats (s : State) (c : CoreRef) : State :=
  (s.beats.filter fun b => b.owner == c).foldl State.writeBeat { s with beats := s.beats.filter fun b => b.owner != c }

/-- The engines of a core are idle, and their operations at their end. -/
def State.idleEngines (s : State) (c : CoreRef) : State :=
  ((((s.endFlights c).cput c Reg.CORE_MX_STATUS.OCC_LEFT 0).cset c Reg.CORE_MX_STATUS.BUSY false).cput c Reg.CORE_VX_STATUS.OCC_LEFT 0).cset
    c Reg.CORE_VX_STATUS.BUSY false

/-- The core has drained after its pause huddle: `PAUSED` (R64). -/
def execCorePaused (c : CoreRef) (s : State) : Host.Outcome State Fault Refusal :=
  .next (if s.cget c Core.STOPPING = 1 ∧ s.cget c Reg.CORE_SCHED_STATUS.STATE = 1 then
      let s1 := (s.flushBeats c).idleEngines c
      if s1.cget c Reg.CORE_SCHED_STATUS.STATE = 1 then (s1.cput c Reg.CORE_SCHED_STATUS.STATE 3).cput c Core.STOPPING 0 else s1
    else s)

/-- The core has drained after `END`: every move has run to its end, and STATE is `ENDED` (R66). A pause that is pending holds the
threads of the ended core (R344). -/
def execCoreEnded (c : CoreRef) (s : State) : Host.Outcome State Fault Refusal :=
  .next (if s.cget c Core.STOPPING = 2 ∧ s.cget c Reg.CORE_SCHED_STATUS.STATE = 1 then
      let rest (s : State) (ch : Nat) : State := if s.cflag c (Core.CH_BUSY ch) then State.readRest (s.beatsLeft c ch) s c ch else s
      let s1 := ((rest (rest s 0) 1).flushBeats c).idleEngines c
      if s1.cget c Reg.CORE_SCHED_STATUS.STATE = 1 then
        let s2 := (s1.cput c Reg.CORE_SCHED_STATUS.STATE 4).cput c Core.STOPPING 0
        if s2.pausePending c.site then s2.holdThreads c else s2
      else s1
    else s)

/-- Dies that belong to a configured squad (R354). -/
def State.memberSites (s : State) : List Nat := computeSites.filter fun k => s.flag k Reg.DIE_SIDEBAND.MEMBER
/-- Dies of a squad. -/
def State.squadSites (s : State) (n : Nat) : List Nat := s.memberSites.filter fun k => s.get k Reg.DIE_SIDEBAND.SQUAD == n
/-- Cores whose huddle mask names a line (R47). -/
def State.huddleCores (s : State) (line : Nat) : List CoreRef :=
  (s.memberSites.flatMap coresOf).filter fun c => (s.cget c Reg.CORE_POISON_CTL.HUDDLE_MASK).testBit line
/-- The squad a huddle line belongs to (R326). -/
def State.lineSquad (s : State) (line : Nat) : Option Nat :=
  (List.range 16).find? fun n => (s.get panelSite (Reg.SQD_STATUS.HLINES n)).testBit line

/-- A huddle completes (R338): every core it names has arrived and the gate is open. -/
def execHuddleComplete (line : Nat) (s : State) : Host.Outcome State Fault Refusal :=
  let cores := s.huddleCores line
  .next (if line < 16 ∧ cores ≠ [] ∧ cores.all (fun c => s.cget c (Core.HUDDLE line) == 1)
      ∧ ¬ (s.get panelSite Reg.SQD_LINES.GATE).testBit line then
      let s1 := cores.foldl (fun s c => s.cput c (Core.HUDDLE line) 2) s
      match s1.lineSquad line with
      | some n => (s1.squadSites n).foldl (fun s k => s.put k Reg.DIE_SHOT.COUNT 0) (s1.bump panelSite (Reg.SQD_COUNTS.HUDDLES n))
      | none => s1
    else s)

/-- One line of a patrol scrub (R167): a corrected word is counted and rewritten; poisoned and uncorrectable words stay. -/
def State.patrolLine (s : State) (k n : Nat) : State :=
  let s1 := s.checkRange k n
  { s1 with sramUpset := s1.sramUpset.filter fun e => !(k / 8 ≤ e.1 && e.1 < (k + n) / 8 && e.2 == 1 && !s1.wordBad e.1) }

/-- A patrol scrubber reads a line: of a core's scratchpad (unit 0–47), or of a cluster memory (48, 49). -/
def execSramPatrolRead (site unit line : Nat) (s : State) : Host.Outcome State Fault Refusal :=
  let q : CluRef := ⟨site, if unit < 48 then unit / 24 else unit - 48⟩
  .next (if unit < 48 then
      if s.qget q Reg.CLU_MEM_SCRUB.SP_EN = 1 ∧ line < 24576 then s.patrolLine (sramKey site unit Mem.SP (line * 64)) 64 else s
    else if unit < 50 ∧ s.qget q Reg.CLU_MEM_SCRUB.CM_EN = 1 ∧ line < 196608 then
      let s1 := s.patrolLine (cluKey q Mem.CLUSTER (line * 128)) 128
      if line = 196607 then s1.qbump q Reg.CLU_MEM_SCRUB.PASSES else s1
    else s)

/-- A cell reaches an inbox ring (R159). -/
def execInboxDelivery (m : StreamMsg) (s : State) : Host.Outcome State Fault Refusal := .next ((s.takeStream m).ringDelivery m)
/-- A CELL message arrives (R190). -/
def execCell (m : StreamMsg) (s : State) : Host.Outcome State Fault Refusal := .next (s.cellMessage m)
/-- A CLOSE message arrives (R190). -/
def execCloseMessage (m : StreamMsg) (s : State) : Host.Outcome State Fault Refusal := .next (s.closeArrives m)
/-- A CREDIT message arrives (R190). -/
def execCredit (m : StreamMsg) (s : State) : Host.Outcome State Fault Refusal := .next (s.creditArrives m)
/-- The sweep of a damaged queue ends (R194, R196). -/
def execQueueSweepDone (q : CluRef) (queue : Nat) (s : State) : Host.Outcome State Fault Refusal := .next (s.sweepDone q queue)

end Sys2Proof.Machine
end

