-- ==== Sys2Proof/Machine/Squad.lean ====
section
/-! DEFINITION. Squads and their dies (12_runs_and_swaps): halting, clearing, starting, pausing and stopping; the shot clock. -/

namespace Sys2Proof.Machine

/-! ### Fields -/

/-- Write the fields of a register from its word. -/
def State.putFields (s : State) (site : Nat) (fs : List Fld) (w : Nat) : State :=
  fs.foldl (fun s f => s.put site f (w / 2 ^ f.lo)) s
/-- The word of a register from its fields. -/
def State.readFields (s : State) (site : Nat) (fs : List Fld) : Nat := (fs.map fun f => s.get site f * 2 ^ f.lo).sum

/-- State of a squad (R329). -/
def State.squadState (s : State) (n : Nat) : Nat := s.get panelSite (Reg.SQD_STATUS.STATE n)
/-- Put a squad in a state. -/
def State.setSquad (s : State) (n st : Nat) : State := s.put panelSite (Reg.SQD_STATUS.STATE n) st
/-- The squads of a mask. -/
def squadList (mask : Nat) : List Nat := (List.range 16).filter mask.testBit
/-- The mask of the squads of a list that satisfy a test. -/
def squadMask (p : Nat → Bool) (ns : List Nat) : Nat := ((ns.filter p).map fun n => 2 ^ n).sum

/-- The die's clear engine is at work (R168). -/
def Die.CLEARING : Fld := ⟨0x1000120, 0, 1, 0, .int⟩

/-- States of a site in the roster (R377). -/
def Site.ACTIVE : Nat := 0
def Site.BENCH : Nat := 1
def Site.FENCED : Nat := 2
def Site.RETIRED : Nat := 3
def Site.INCOMING : Nat := 4

/-- State of a site. -/
def State.siteState (s : State) (site : Nat) : Nat := s.get panelSite (Reg.CTL_ROSTER_SITE.STATE site)
/-- The active site of a logical die (R377). -/
def State.activeSite (s : State) (ldie : Nat) : Option Nat :=
  let site := s.get panelSite (Reg.CTL_ROSTER_LDIE.SITE ldie)
  if s.flag panelSite (Reg.CTL_ROSTER_LDIE.PLACED ldie) && s.siteState site == Site.ACTIVE then some site else none
/-- The squad of a die, if it belongs to one. -/
def State.squadOf (s : State) (site : Nat) : Option Nat :=
  if s.flag site Reg.DIE_SIDEBAND.MEMBER then some (s.get site Reg.DIE_SIDEBAND.SQUAD) else none

/-! ### Halting (R65, R336) -/

/-- A core that runs stops at once (R65). -/
def State.freezeCore (s : State) (c : CoreRef) : State :=
  let st := s.cget c Reg.CORE_SCHED_STATUS.STATE
  if st = 1 ∨ st = 2 ∨ st = 7 then (s.cput c Reg.CORE_SCHED_STATUS.STATE 5).cput c Reg.CORE_SCHED_STATUS.SLIP_CAUSE 0 else s

/-- A core and its threads are halted. -/
def State.haltCore (s : State) (c : CoreRef) : State := (s.freezeCore c).haltThreads c

/-- A die latches a line (R336): its cores stop; a paused squad keeps its state and shows the latch. -/
def State.latchDie (s : State) (line site : Nat) : State :=
  let s1 := (s.setBit site Reg.DIE_SIDEBAND.LATCH line).put site Reg.DIE_SHOT.RUN 0
  match s1.squadOf site with
  | some n =>
    if s1.squadState n = Squad.PAUSED then s1.put panelSite (Reg.SQD_STATUS.LATCHED n) 1 else (coresOf site).foldl State.haltCore s1
  | none => (coresOf site).foldl State.haltCore s1

/-- Every die that obeys a driven line latches it; the line falls, unless HALT_N holds it (R335, R339). -/
def State.latchLine (s : State) (line : Nat) : State :=
  let s1 := (computeSites.filter fun k => (s.obey k).testBit line).foldl (fun s k => s.latchDie line k) s
  if line = 16 ∧ s.flag panelSite Reg.SQD_LINES.HALT_N then s1.driveLine 16 Cause.HALT_N 3 0
  else s1.clrBit panelSite Reg.SQD_LINES.WHISTLE line

/-- Every die that obeys a line has latched it. -/
def State.latchedAll (s : State) (line : Nat) : Bool :=
  (computeSites.filter fun k => (s.obey k).testBit line).all fun k => (s.get k Reg.DIE_SIDEBAND.LATCH).testBit line

/-- A line is driven and has not yet been latched. -/
def State.lineDriven (s : State) (line : Nat) : Bool := line < 17 && (s.get panelSite Reg.SQD_LINES.WHISTLE).testBit line

/-- The latches of a squad's dies clear (R336). -/
def State.clearLatches (s : State) (n : Nat) : State :=
  (s.squadSites n).foldl (fun s k => s.put k Reg.DIE_SIDEBAND.LATCH 0) (s.put panelSite (Reg.SQD_STATUS.LATCHED n) 0)

/-! ### Clearing (R168, R351) -/

/-- Nothing is left in the memories, queues and fetch unit of a die. -/
def State.wipeDie (s : State) (site : Nat) : State :=
  let lo := sramKey site 0 0 0
  let hi := sramKey (site + 1) 0 0 0
  { s with
    sram := mapClear lo hi s.sram
    sramPoison := mapClear (lo / 8) (hi / 8) s.sramPoison
    sramUpset := mapClear (lo / 8) (hi / 8) s.sramUpset
    queues := mapClear (queueKey ⟨site, 0⟩ 0) (queueKey ⟨site + 1, 0⟩ 0) s.queues
    outstanding := s.outstanding.filter fun r => r.site != site
    reissue := s.reissue.filter fun r => r.site != site
    beats := s.beats.filter fun b => b.site != site
    flights := s.flights.filter fun u => u.site != site }

/-- Set a range of a core's fields back, by offsets from core 0. -/
def State.clearCore (s : State) (c : CoreRef) (lo hi : Nat) : State := s.clearFlds c.site (lo + c.core * 0x10000) (hi + c.core * 0x10000)

/-- The state beside the memories that a clear resets in a core: slots, finished-tile queue, inbox rings and threads (R168, R351). -/
def State.clearCoreState (s : State) (c : CoreRef) : State :=
  let s1 := (((s.clearCore c 0x100318 0x100340).clearCore c 0x100680 0x1006C0).clearCore c 0x100700 0x100708).clearCore c 0x100800 0x103000
  let s2 := (s1.clearCore c 0x1100400 0x1100600).cput c Core.FT_STOP 0
  (s2.cput c Reg.CORE_MX_STATUS.FTQ_COUNT 0).cput c Core.FTQ_HEAD 0

/-- The pool of a cluster is rebuilt: every cell is free (R193, R197). -/
def State.rebuildPool (s : State) (q : CluRef) : State :=
  let s1 := (s.clearFlds q.site (0x404000 + q.clu * 0x10000) (0x406000 + q.clu * 0x10000)).clearFlds q.site (0x40A000 + q.clu * 0x10000)
    (0x40E000 + q.clu * 0x10000)
  let on := (List.range 1024).filter fun n => s1.qget q (Reg.CLU_QCFG.EN n) == 1
  let s2 := on.foldl (fun s n => s.qput q (Reg.CLU_QSTATE.STATE n) 1) s1
  ((({ s2 with queues := mapClear (queueKey q 0) (queueKey q 1024) s2.queues }.qput q Reg.CLU_QPOOL.FREE 32768).qput q
    Reg.CLU_QPOOL.FL_BROKEN 0).qput q Clu.FL_MISMATCH 0).qput q Clu.STALE_SEEN 0

/-- The clear engine has finished a die (R168): zeros everywhere, no poison, and the latches are clear (R336). -/
def State.clearDie (s : State) (site : Nat) : State :=
  let s1 := (coresOf site).foldl State.clearCoreState (s.wipeDie site)
  (((s1.rebuildPool ⟨site, 0⟩).rebuildPool ⟨site, 1⟩).put site Reg.DIE_SIDEBAND.LATCH 0).put site Die.CLEARING 0

/-- The clear engine of a die starts (R168), if the die has power. -/
def State.startClear (s : State) (site : Nat) : State := if s.flag site Reg.PWR_DIE_STATUS.VIN_SW then s.put site Die.CLEARING 1 else s

/-- The compute rail of a die goes off: memories and registers of its cores and clusters are lost (R379), and its core generator stops
(R392). -/
def State.dieOff (s : State) (site : Nat) : State :=
  let s1 := ((s.wipeDie site).clearFlds site 0x100000 0x500000).clearFlds site 0x1100000 0x1500000
  let s2 := (((s1.put site Reg.PWR_DIE_STATUS.VIN_SW 0).put site Die.CLEARING 0).put site Reg.DIE_SHOT.RUN 0).put site Reg.DIE_SIDEBAND.LATCH 0
  (s2.put site Reg.CLK_CORE_STATUS.FREQ 0).put site Reg.CLK_CORE_STATUS.CORE_LOCK 0

/-! ### Starting (R29, R204, R334, R340, R349) -/

/-- A core receives kick-off (R29, R204). -/
def State.kickCore (s : State) (c : CoreRef) : State :=
  if s.cget c Reg.CORE_SCHED_STATUS.STATE = 0 then (s.cput c Reg.CORE_SCHED_STATUS.STATE 1).startThreads c else s

/-- A core goes on after a pause (R64, R225); one that is ENDED stays so (R344). -/
def State.resumeCore (s : State) (c : CoreRef) : State :=
  let s1 := if s.cget c Reg.CORE_SCHED_STATUS.STATE = 3 then
      ((s.cput c Reg.CORE_SCHED_STATUS.STATE 1).cset c (Core.CH_SUSP 0) false).cset c (Core.CH_SUSP 1) false
    else s
  s1.resumeThreads c

/-- A squad runs: its counts, its dies' shot clocks, and HBM is clean no longer (R327, R340). -/
def State.squadRuns (s : State) (n : Nat) (core : State → CoreRef → State) : State :=
  let s1 := (s.squadSites n).foldl (fun s k =>
    (coresOf k).foldl core ((s.put k Reg.DIE_SHOT.COUNT 0).put k Reg.DIE_SHOT.RUN 1)) (s.setSquad n Squad.RUNNING)
  (s1.bump panelSite (Reg.SQD_COUNTS.KICKOFFS n)).put panelSite Reg.SQD_PANEL.HBM_CLEAN 0

/-- A squad is kicked off (R334). -/
def State.kickSquad (s : State) (n : Nat) : State := s.squadRuns n State.kickCore
/-- A squad goes on after a pause (R349). -/
def State.resumeSquad (s : State) (n : Nat) : State := s.squadRuns n State.resumeCore

/-! ### Pausing (R343, R344) -/

/-- The gates close, pause pending is set, and the gates open again: cores that are ENDED hold their threads (R343, R344). -/
def State.requestPause (s : State) (n : Nat) : State :=
  (s.squadSites n).foldl (fun s k =>
    (coresOf k).foldl (fun s c => if s.cget c Reg.CORE_SCHED_STATUS.STATE = 4 then s.holdThreads c else s) s)
    (s.put panelSite (Reg.SQD_STATUS.PAUSE_PENDING n) 1)

/-- A core counts as paused: PAUSED or ENDED, no thread runs and no request is outstanding (R344). -/
def State.coreHeld (s : State) (c : CoreRef) : Bool :=
  (s.cget c Reg.CORE_SCHED_STATUS.STATE == 3 || s.cget c Reg.CORE_SCHED_STATUS.STATE == 4)
    && (threadsOf c).all (fun t => threadRuns (s.tget t Reg.CORE_FT_THREAD.STATE) == 0) && s.coreOut c == 0

/-- No stream message of a squad is on its way (R344). -/
def State.landed (s : State) (n : Nat) : Bool :=
  s.streamOut.all fun m => !(m.epoch == s.get panelSite (Reg.SQD_STATUS.EPOCH n) && s.squadOf (s.siteOf m.ddie) == some n)

/-- A pause of a squad is complete (R344). -/
def State.pauseDone (s : State) (n : Nat) : Bool :=
  s.squadState n == Squad.RUNNING && s.flag panelSite (Reg.SQD_STATUS.PAUSE_PENDING n)
    && (s.squadSites n).all (fun k => (coresOf k).all s.coreHeld) && s.landed n

/-- A squad is PAUSED. -/
def State.squadPaused (s : State) (n : Nat) : State :=
  (s.squadSites n).foldl (fun s k => s.put k Reg.DIE_SHOT.RUN 0)
    ((s.setSquad n Squad.PAUSED).put panelSite (Reg.SQD_STATUS.PAUSE_PENDING n) 0)

/-- A pause that has not completed is cancelled: cores that stopped at their huddle go on (R368, R387). -/
def State.cancelPause (s : State) (n : Nat) : State :=
  (s.squadSites n).foldl (fun s k => (coresOf k).foldl (fun s c =>
      let s1 := if s.cget c Core.STOPPING = 1 then
          ((s.cput c Core.STOPPING 0).cset c (Core.CH_SUSP 0) false).cset c (Core.CH_SUSP 1) false
        else s
      s1.resumeCore c) s) (s.put panelSite (Reg.SQD_STATUS.PAUSE_PENDING n) 0)

/-! ### Stopping (R329, R337) -/

/-- A squad is STOPPED; its cause, source and site are those recorded (R337). -/
def State.squadStops (s : State) (n : Nat) : State :=
  let g (f : Nat → Fld) : Nat := s.get panelSite (f n)
  let cause := g Reg.SQD_STATUS.CAUSE
  let s1 := (s.squadSites n).foldl (fun s k => s.put k Reg.DIE_SHOT.RUN 0)
    ((s.setSquad n Squad.STOPPED).put panelSite (Reg.SQD_STATUS.PAUSE_PENDING n) 0)
  s1.notifyCtl 0x0701 (if cause = Cause.COMPLETE ∨ cause = Cause.STOP then 0 else 3) (some n) cause
    (g Reg.SQD_STATUS.SITE + g Reg.SQD_STATUS.SOURCE * 256)

/-- A squad stops without a whistle: COMPLETE, or the control die's STOP of a squad that does not run (R329, R350). -/
def State.stopNow (s : State) (n cause source : Nat) : State :=
  (((s.put panelSite (Reg.SQD_STATUS.CAUSE n) cause).put panelSite (Reg.SQD_STATUS.SOURCE n) source).put panelSite
    (Reg.SQD_STATUS.SITE n) 0).squadStops n

/-- A die takes part in its squad: it carries a logical die and has power. -/
def State.inService (s : State) (site : Nat) : Bool := s.siteState site == Site.ACTIVE && s.flag site Reg.PWR_DIE_STATUS.VIN_SW

/-- A whistled squad can become STOPPED (R337): every die that is in service has latched, and no request of its threads is outstanding. -/
def State.stopReady (s : State) (n : Nat) : Bool :=
  (s.squadState n == Squad.RUNNING || s.squadState n == Squad.LOADED) && s.get panelSite (Reg.SQD_STATUS.CAUSE n) != 0
    && (s.squadSites n).all fun k =>
      !s.inService k || ((s.get k Reg.DIE_SIDEBAND.LATCH &&& s.obey k) != 0 && (coresOf k).all fun c => s.coreOut c == 0)

/-- Every core of a squad has ended and every enabled thread is done (R329). -/
def State.squadDone (s : State) (n : Nat) : Bool :=
  s.squadState n == Squad.RUNNING && s.get panelSite (Reg.SQD_STATUS.CAUSE n) == 0 && (s.squadSites n).all fun k =>
    (coresOf k).all fun c => s.cget c Reg.CORE_SCHED_STATUS.STATE == 4
      && (threadsOf c).all fun t => s.tget t Reg.CORE_FT_THREAD.EN == 0 || s.tget t Reg.CORE_FT_THREAD.STATE == Thread.DONE

/-- The control die whistles a squad (R335). -/
def State.whistleSquad (s : State) (n cause : Nat) : State := s.driveLine n cause 2 0

/-- A squad is stopped by the control die (R350): the line of a running squad is driven, another is STOPPED at once. -/
def State.stopSquad (s : State) (n cause : Nat) : State :=
  if s.squadState n = Squad.RUNNING then s.whistleSquad n cause
  else if s.squadState n = Squad.LOADED ∨ s.squadState n = Squad.PAUSED then s.stopNow n cause 2
  else s

/-! ### The shot clock (R340, R341, R199) -/

/-- The consumer port of a queue (R172). -/
def State.consumerPort (s : State) (q : CluRef) (n : Nat) : Option Nat :=
  (List.range 1024).find? fun p =>
    s.qget q (Reg.CLU_QPORT.EN p) == 1 && s.qget q (Reg.CLU_QPORT.KIND p) == 1 && s.qget q (Reg.CLU_QPORT.QUEUE p) == n

/-- A queue of a skew stall (R199): CREDITED, full, its consumer slipping on a wait that does not name it. -/
def State.skewed (s : State) (q : CluRef) (n : Nat) : Bool :=
  let c := s.consumer q n
  let cause := s.cget c Reg.CORE_SCHED_STATUS.SLIP_CAUSE
  s.qget q (Reg.CLU_QCFG.EN n) == 1 && s.qget q (Reg.CLU_QCFG.MODE n) == 0 && (s.queue q n).held == s.qget q (Reg.CLU_QCFG.QUOTA n)
    && s.cget c Reg.CORE_SCHED_STATUS.STATE == 2 && (1 ≤ cause && cause ≤ 4)
    && (s.consumerPort q n).map (· + 1) != some (s.cget c Core.WAITPORT)

/-- The skew stalls of a squad, in cluster and queue order. -/
def State.skewStalls (s : State) (n : Nat) : List (CluRef × Nat) :=
  let sites := ((List.range 144).filterMap s.activeSite).filter fun k => s.squadOf k == some n
  (sites.flatMap fun k => [CluRef.mk k 0, CluRef.mk k 1]).flatMap fun q => ((List.range 1024).filter fun i => s.skewed q i).map fun i => (q, i)

/-- The reports of R199: at most eight, the last with the count of the others. -/
def State.reportSkew (s : State) (n : Nat) : State :=
  let all := s.skewStalls n
  (all.take 8).zipIdx.foldl (fun s e =>
    s.notify e.1.1.site (48 + e.1.1.clu) 0x0202 3 e.1.2 (if e.2 = 7 then all.length - 8 else 0)) s

/-- A die's work is done: it no longer counts (R340). -/
def State.dieDone (s : State) (site : Nat) : Bool :=
  (coresOf site).all fun c => s.cget c Reg.CORE_SCHED_STATUS.STATE == 4
    && (threadsOf c).all fun t => s.tget t Reg.CORE_FT_THREAD.EN == 0 || s.tget t Reg.CORE_FT_THREAD.STATE == Thread.DONE

/-- A die's count reaches the limit of its squad (R341). -/
def State.shotClock (s : State) (site : Nat) : State :=
  match s.squadOf site with
  | some n =>
    if s.squadState n = Squad.RUNNING ∧ s.flag site Reg.DIE_SHOT.RUN ∧ ¬ s.dieDone site then
      let s1 := (s.put site Reg.DIE_SHOT.COUNT (s.get panelSite (Reg.SQD_SHOT.LIMIT n))).put site Reg.DIE_SHOT.RUN 0
      ((s1.whistle site Cause.SHOT_CLOCK).notify site 63 0x0702 3 0 0).reportSkew n
    else s
  | none => s

/-- A die's count reaches the limit of its squad (R341). -/
def execShotClock (site : Nat) (s : State) : Host.Outcome State Fault Refusal := .next (s.shotClock site)

/-! ### HALT_N (R339) -/

/-- `HALT_N` drives WP for as long as it is held. -/
def execHaltNAssert (s : State) : Host.Outcome State Fault Refusal :=
  .next (s.ifReleased ((s.put panelSite Reg.SQD_LINES.HALT_N 1).driveLine 16 Cause.HALT_N 3 0))

/-- `HALT_N` is released: WP is no longer driven, and nothing restarts. Where the dies have yet to see the line, it falls once they have. -/
def execHaltNRelease (s : State) : Host.Outcome State Fault Refusal :=
  let s1 := s.put panelSite Reg.SQD_LINES.HALT_N 0
  .next (s.ifReleased
    (if s.flag panelSite Reg.SQD_LINES.HALT_N then (if s.latchedAll 16 then s1.clrBit panelSite Reg.SQD_LINES.WHISTLE 16 else s1) else s))

end Sys2Proof.Machine
end

