-- ==== Sys2Proof/Machine/Image.lean ====
section
/-! DEFINITION. The program image (R323–R326), the checks of `CONFIGURE` (R332), and what `CONFIGURE` loads (R331). -/

namespace Sys2Proof.Machine

/-! ### Bytes of HBM by local address -/

/-- The parts of a range that lie in one 256-byte unit each. -/
def unitParts (a n : Nat) : List (Nat × Nat) :=
  if n = 0 then []
  else
    (List.range ((a % 256 + n + 255) / 256)).map fun i =>
      let lo := max a ((a / 256 + i) * 256)
      (lo, min (a + n) ((a / 256 + i + 1) * 256) - lo)

/-- The pieces of a range of any length. -/
def State.rangePieces (s : State) (a n : Nat) : List Piece := (unitParts a n).flatMap fun p => s.pieces p.1 p.2
/-- Bytes of a range of local addresses. -/
def State.memBytes (s : State) (a n : Nat) : List (Byte × Bool) := (s.rangePieces a n).flatMap fun p => s.hbmRead p.key p.len
/-- Write bytes to a range of local addresses. -/
def State.memWrite (s : State) (a : Nat) (bs : List (Byte × Bool)) : State := s.writePieces (s.rangePieces a bs.length) bs

/-! ### The image -/

/-- Bytes of the verified image. -/
def State.imgBytes (s : State) (off n : Nat) : List (Byte × Bool) := s.memBytes (s.get panelSite Img.BASE + off) n
/-- A number in the image. -/
def State.imgNat (s : State) (off n : Nat) : Nat := leNat ((s.imgBytes off n).map (·.1))

/-- An entry of the section directory (R324). -/
structure Section where
  index : Nat
  typ : Nat
  rsv : Nat
  target : Nat
  dest : Nat
  off : Nat
  len : Nat
  deriving DecidableEq, Repr

/-- The section directory. -/
def State.sections (s : State) : List Section :=
  let d := s.imgNat 32 8
  (List.range (s.imgNat 26 2)).map fun i =>
    let w := s.imgNat (d + 32 * i) 32
    ⟨i, bitsOf w 7 0, bitsOf w 15 8 + bitsOf w 255 192, bitsOf w 31 16, bitsOf w 63 32, bitsOf w 127 64, bitsOf w 191 128⟩

/-- An entry of the squad map (R326); `rsv` gathers its reserved bits. -/
structure SquadEntry where
  dies : Nat
  en : Bool
  policy : Nat
  hlines : Nat
  seed : Nat
  shot : Nat
  rsv : Nat
  deriving DecidableEq, Repr

/-- Entry n of the squad map. -/
def State.squadEntry (s : State) (n : Nat) : SquadEntry :=
  let w := s.imgNat (320 + 64 * n) 64
  ⟨bitsOf w 143 0, w.testBit 144, bitsOf w 146 145, bitsOf w 175 160, bitsOf w 255 192, bitsOf w 296 256,
    bitsOf w 151 147 + bitsOf w 159 152 + bitsOf w 191 176 + bitsOf w 319 297 + bitsOf w 511 320⟩

/-- The dies of an entry. -/
def SquadEntry.list (e : SquadEntry) : List Nat := (List.range 144).filter e.dies.testBit

/-- The enabled squad of the image that holds a logical die. -/
def State.imgSquad (s : State) (ldie : Nat) : Option Nat :=
  (List.range 16).find? fun n => (s.squadEntry n).en && (s.squadEntry n).dies.testBit ldie

/-- The logical die of a section's target. -/
def Section.ldie (x : Section) : Nat := if x.typ = 5 ∨ x.typ = 7 then x.target / 2 else x.target / 48

/-- The section of a type and target. -/
def findSection (xs : List Section) (typ target : Nat) : Option Section := xs.find? fun x => x.typ == typ && x.target == target

/-! ### Checks of the directory and the squad map -/

/-- A section's length suits its type (R324). -/
def Section.lengthOk (x : Section) : Bool :=
  match x.typ with
  | 1 => 32 ≤ x.len && x.len ≤ 65536 && x.len % 32 == 0
  | 2 => x.len == 3328
  | 3 => x.len == 14848
  | 4 => x.len == 256
  | 5 => x.len == 24576
  | 6 => x.dest + x.len ≤ 1572864
  | 7 => x.dest + x.len ≤ 25165824
  | _ => false

/-- An entry of the directory is well formed (R324, R325). -/
def State.sectionOk (s : State) (x : Section) : Bool :=
  x.rsv == 0 && x.lengthOk && x.off + x.len ≤ s.get panelSite Img.LEN && (x.typ == 6 || x.typ == 7 || x.dest == 0)
    && x.target < (if x.typ = 5 ∨ x.typ = 7 then 288 else 6912) && (s.imgSquad x.ldie).isSome

/-- Two preloads overlap (R325). -/
def Section.clash (x y : Section) : Bool :=
  x.index < y.index && x.typ == y.typ && x.target == y.target
    && (if x.typ = 6 ∨ x.typ = 7 then overlap x.dest x.len y.dest y.len else true)

/-- Logical dies of the enabled squads. -/
def State.imgDies (s : State) : List Nat := (List.range 144).filter fun d => (s.imgSquad d).isSome

/-- Check 1 (R324, R325): a directory entry, or a core or cluster without its sections. -/
def State.check1 (s : State) (xs : List Section) : Option Nat :=
  if s.imgNat 32 8 % 32 ≠ 0 ∨ s.get panelSite Img.LEN < s.imgNat 32 8 + 32 * xs.length ∨ xs = [] then some 0
  else
    (((xs.find? fun x => !s.sectionOk x || xs.any fun y => y.clash x).map (·.index)).orElse fun _ =>
      ((s.imgDies.flatMap fun d => (List.range 48).map (d * 48 + ·)).find? fun c =>
        [1, 2, 3, 4].any fun t => (findSection xs t c).isNone)).orElse fun _ =>
      ((s.imgDies.flatMap fun d => [2 * d, 2 * d + 1]).find? fun q => (findSection xs 5 q).isNone)

/-- Check 2 (R326, R330): a squad of the map, or a named squad that is not enabled. -/
def State.check2 (s : State) (mask : Nat) : Option Nat :=
  (List.range 16).find? fun n =>
    let e := s.squadEntry n
    e.rsv != 0 || (mask.testBit n && !e.en)
      || (e.en && (e.policy == 3 || e.shot == 0 || 2 ^ 40 < e.shot
        || (List.range n).any fun m => (s.squadEntry m).en && (s.squadEntry m).dies &&& e.dies != 0))
      || (List.range n).any fun m => (s.squadEntry m).hlines &&& e.hlines != 0

/-- The sites of a block count as having no active site while it is in FAULT or ROLL_CALL (R414). -/
def State.blockOut (s : State) (site : Nat) : Bool := 2 ≤ s.get panelSite (Reg.PWR_BLOCK.STATE (siteBlock site))

/-- Check 3: a logical die of a named squad without an active site. -/
def State.check3 (s : State) (mask : Nat) : Option Nat :=
  (((squadList mask).flatMap fun n => (s.squadEntry n).list).find? fun d => !((s.activeSite d).any fun k => !s.blockOut k))

/-! ### Checks of the sections -/

/-- Cores of the enabled squads. -/
def State.imgCores (s : State) : List Nat := s.imgDies.flatMap fun d => (List.range 48).map (d * 48 + ·)
/-- Clusters of the enabled squads. -/
def State.imgClusters (s : State) : List Nat := s.imgDies.flatMap fun d => [2 * d, 2 * d + 1]

/-- A number in a section of the image; 0 where the section is missing. -/
def State.secNat (s : State) (xs : List Section) (typ target off n : Nat) : Nat :=
  match findSection xs typ target with
  | some x => s.imgNat (x.off + off) n
  | none => 0

/-- A core's huddle mask in the image. -/
def State.huddleMask (s : State) (xs : List Section) (c : Nat) : Nat := s.secNat xs 4 c 128 2

/-- Check 4: a huddle mask names a line outside its squad. -/
def State.check4 (s : State) (xs : List Section) : Option Nat :=
  s.imgCores.find? fun c =>
    (List.range 16).any fun l => (s.huddleMask xs c).testBit l
      && !((s.imgSquad (c / 48)).map fun n => (s.squadEntry n).hlines.testBit l).getD false

/-- An inbox ring descriptor of the image (R158). -/
def State.imgRing (s : State) (xs : List Section) (c r : Nat) : Nat := s.secNat xs 4 c (64 + 8 * r) 8

/-- The enabled rings of a core as (base, size, counter, sender). -/
def State.imgRings (s : State) (xs : List Section) (c : Nat) : List (Nat × Nat × Nat × Nat) :=
  ((List.range 8).filter fun r => (s.imgRing xs c r).testBit 32).map fun r =>
    let w := s.imgRing xs c r
    (bitsOf w 14 0, bitsOf w 27 15, bitsOf w 31 28, bitsOf w 45 33)

/-- Two rings share lines or a counter. -/
def ringsClash : List (Nat × Nat × Nat × Nat) → Bool
  | [] => false
  | x :: ys => (ys.any fun y => overlap x.1 x.2.1 y.1 y.2.1 || x.2.2.1 == y.2.2.1) || ringsClash ys

/-- Check 5: the inbox rings of a core (R158). -/
def State.check5 (s : State) (xs : List Section) : Option Nat :=
  s.imgCores.find? fun c =>
    ((List.range 8).any fun r => bitsOf (s.imgRing xs c r) 63 46 != 0) || ringsClash (s.imgRings xs c)
      || (s.imgRings xs c).any fun x => 24576 < x.1 + x.2.1 || 6911 < x.2.2.2

/-- A counter is bound to an enabled ring of a core. -/
def State.imgRingCounter (s : State) (xs : List Section) (c k : Nat) : Bool := (s.imgRings xs c).any fun x => x.2.2.1 == k

/-- Words of the queue tables of a cluster (R201). -/
def State.imgPort (s : State) (xs : List Section) (q n : Nat) : Nat := s.secNat xs 5 q (8 * n) 8
def State.imgCfg (s : State) (xs : List Section) (q n : Nat) : Nat := s.secNat xs 5 q (8192 + 8 * n) 8
def State.imgSrc (s : State) (xs : List Section) (q n : Nat) : Nat := s.secNat xs 5 q (16384 + 8 * n) 8

/-- A port of the image as it is bound: to queue `inr n` of cluster q, or to ring (core, ring) `inl`. -/
def portBinding (q w : Nat) : (Nat × Nat) ⊕ (Nat × Nat) :=
  if bitsOf w 2 1 < 2 then .inr (q, bitsOf w 17 8)
  else if w.testBit 37 then .inl (bitsOf w 25 18 * 48 + bitsOf w 26 26 * 24 + bitsOf w 42 38, bitsOf w 45 43)
  else .inr (bitsOf w 25 18 * 2 + bitsOf w 26 26, bitsOf w 36 27)

/-- The words of the queue tables hold defined values, and their reserved bits are zero (R175). -/
def State.tablesDefined (s : State) (xs : List Section) (q : Nat) : Bool :=
  (List.range 1024).all fun n =>
    let p := s.imgPort xs q n
    let c := s.imgCfg xs q n
    let r := s.imgSrc xs q n
    bitsOf p 63 47 == 0 && bitsOf p 2 1 ≤ 2 && bitsOf p 7 3 ≤ 23 && bitsOf p 25 18 ≤ 143 && bitsOf p 42 38 ≤ 23
      && !c.testBit 3 && bitsOf c 63 48 == 0 && bitsOf c 33 32 ≤ 2 && bitsOf c 19 4 ≤ 32768 && bitsOf c 47 43 ≤ 23
      && bitsOf r 63 23 == 0 && bitsOf r 12 0 ≤ 6911

/-- The enabled ports of a cluster, with their words. -/
def State.imgPorts (s : State) (xs : List Section) (q : Nat) : List Nat :=
  ((List.range 1024).map (s.imgPort xs q)).filter fun p => p.testBit 0

/-- The squad that holds a cluster. -/
def State.clusterSquad (s : State) (q : Nat) : Option Nat := s.imgSquad (q / 2)

/-- An enabled port of a cluster meets its rules (R175). -/
def State.portOk (s : State) (xs : List Section) (q p : Nat) : Bool :=
  match portBinding q p with
  | .inl (c, r) => (s.imgRing xs c r).testBit 32 && !p.testBit 46 && s.imgSquad (c / 48) == s.clusterSquad q
  | .inr (d, n) =>
    let cfg := s.imgCfg xs d n
    cfg.testBit 0 && (bitsOf p 2 1 != 2 || p.testBit 46 == cfg.testBit 1) && (cfg.testBit 1 || s.clusterSquad d == s.clusterSquad q)

/-- An enabled queue of a cluster meets its rules (R175). -/
def State.queueOk (s : State) (xs : List Section) (q n : Nat) : Bool :=
  let cfg := s.imgCfg xs q n
  let c := q * 24 + bitsOf cfg 47 43
  let consumers := (s.imgPorts xs q).filter fun p => bitsOf p 2 1 == 1 && bitsOf p 17 8 == n
  let producers := s.imgClusters.flatMap fun d =>
    (s.imgPorts xs d).filter fun p => bitsOf p 2 1 != 1 && portBinding d p == Sum.inr (q, n)
  (if cfg.testBit 1 then 2 else 1) ≤ bitsOf cfg 19 4 && consumers.length == 1 && producers.length == 1
    && (bitsOf cfg 33 32 == 0 || !s.imgRingCounter xs c (bitsOf cfg 37 34))
    && (!cfg.testBit 38 || !s.imgRingCounter xs c (bitsOf cfg 42 39))

/-- Check 6: the queue configuration of a cluster (R175). -/
def State.check6 (s : State) (xs : List Section) : Option Nat :=
  s.imgClusters.find? fun q =>
    let on := (List.range 1024).filter fun n => (s.imgCfg xs q n).testBit 0
    !(s.tablesDefined xs q && ((on.map fun n => bitsOf (s.imgCfg xs q n) 19 4).sum ≤ 32768) && on.all (s.queueOk xs q)
      && (s.imgPorts xs q).all (s.portOk xs q))

/-- Check 7: a fetch counter bound to a ring of its core (R203). -/
def State.check7 (s : State) (xs : List Section) : Option Nat :=
  s.imgCores.find? fun c =>
    (List.range 2048).any fun i =>
      let w := fetchInstr (s.secNat xs 3 c (4 * i) 4)
      (w.op == 0x18 && s.imgRingCounter xs c (bitsOf w.imm 3 0))
        || ([0x20, 0x22, 0x24, 0x25, 0x26, 0x27].contains w.op && w.imm.testBit 5 && s.imgRingCounter xs c (bitsOf w.imm 9 6))

/-- Entry n of the conversion region table: the words of `HUB_CONV_ELEMn` and `HUB_CONV_SIDEn`. -/
def State.imgConv (s : State) (n : Nat) : Nat × Nat := (s.imgNat (64 + 16 * n) 8, s.imgNat (72 + 16 * n) 8)

/-- An entry of the conversion region table holds (R254). -/
def convEntryOk (w : Nat × Nat) : Bool :=
  bitsOf w.1 63 50 == 0 && (!w.1.testBit 49 ||
    match Fmt.ofCode (bitsOf w.1 48 44) with
    | some f =>
      let base := bitsOf w.1 43 0
      let len := bitsOf w.2 63 44 * 2 ^ 22
      let side := bitsOf w.2 43 0
      let sideLen := if f.block then len / f.blockBytes * f.sideBytes else 0
      f.block && base % 256 == 0 && len != 0 && inHbm base len && inHbm side sideLen && !overlap base len side sideLen
    | none => false)

/-- Check 8: the conversion region table (R254). -/
def State.check8 (s : State) : Option Nat := (List.range 16).find? fun n => !convEntryOk (s.imgConv n)

/-- Check 9: EVAC_RANGE (R323). -/
def State.check9 (s : State) : Option Nat :=
  let e := s.imgNat 24 2
  if e % 2 ≠ 0 ∨ 4064 < e then some 0 else none

/-- Check 10: reserved fields of the thread table and of the constants section (R203, R324). -/
def State.check10 (s : State) (xs : List Section) : Option Nat :=
  s.imgCores.find? fun c =>
    ((List.range 48).any fun t => bitsOf (s.secNat xs 3 c (8192 + 8 * t) 8) 63 12 != 0) || s.secNat xs 4 c 130 126 != 0

/-- The checks of `CONFIGURE` (R332), lowest code first: the code and the item. -/
def State.imageCheck (s : State) (mask : Nat) : Option (Nat × Nat) :=
  let xs := s.sections
  (((s.check1 xs).map (1, ·)).orElse fun _ => ((s.check2 mask).map (2, ·)).orElse fun _ =>
    ((s.check3 mask).map (3, ·)).orElse fun _ => ((s.check4 xs).map (4, ·)).orElse fun _ =>
    ((s.check5 xs).map (5, ·)).orElse fun _ => ((s.check6 xs).map (6, ·)).orElse fun _ =>
    ((s.check7 xs).map (7, ·)).orElse fun _ => (s.check8.map (8, ·)).orElse fun _ =>
    (s.check9.map (9, ·)).orElse fun _ => (s.check10 xs).map (10, ·))

/-! ### Epochs and membership (R330, R331, R336) -/

/-- The next epoch for a set of squads (R330). -/
def State.nextEpoch (s : State) (mask : Nat) : Nat :=
  let used := ((List.range 16).filter fun n => !mask.testBit n).map fun n => s.get panelSite (Reg.SQD_STATUS.EPOCH n)
  (((List.range 256).map fun i => (s.get panelSite Reg.SQD_PANEL.LAST_EPOCH + 1 + i) % 256).find? fun e => e != 0 && !used.contains e).getD 1

/-- A die leaves the squad it belongs to. -/
def State.leaveSquad (s : State) (site : Nat) : State :=
  ((s.put site Reg.DIE_SIDEBAND.MEMBER 0).put site Reg.DIE_SIDEBAND.SQUAD 0).put site Reg.DIE_SIDEBAND.OBEY (if isCompute site then 65536 else 0)

/-- A die joins a squad and obeys its line (R336). -/
def State.joinSquad (s : State) (n site : Nat) : State :=
  ((s.put site Reg.DIE_SIDEBAND.MEMBER 1).put site Reg.DIE_SIDEBAND.SQUAD n).put site Reg.DIE_SIDEBAND.OBEY (65536 + 2 ^ n)

/-- The squad registers and the obey masks of a squad, from its map entry (R336, R353), with its epoch. -/
def State.mapSquad (s : State) (n epoch : Nat) : State :=
  let e := s.squadEntry n
  let s1 := (s.squadSites n).foldl State.leaveSquad s
  let s2 := (List.range 144).foldl (fun s d => s.put panelSite (Reg.SQD_MEMBERS.DIE n d) (if e.dies.testBit d then 1 else 0)) s1
  let p (s : State) (f : Nat → Fld) (v : Nat) : State := s.put panelSite (f n) v
  let s3 := p (p (p (p s2 Reg.SQD_STATUS.EPOCH epoch) Reg.SQD_STATUS.HLINES e.hlines) Reg.SQD_STATUS.POLICY e.policy) Reg.SQD_SHOT.LIMIT e.shot
  let s4 := p (p (p s3 Reg.SQD_STATUS.CAUSE 0) Reg.SQD_STATUS.SOURCE 0) Reg.SQD_STATUS.SITE 0
  ((e.list.filterMap s4.activeSite).foldl (fun s k => s.joinSquad n k) s4).clearLatches n

/-! ### Step 4: the epoch switch (R191, R201) -/

/-- Fields of the port, queue and source registers of a cluster, and of an inbox descriptor. -/
def qportFields (n : Nat) : List Fld :=
  [Reg.CLU_QPORT.EN n, Reg.CLU_QPORT.KIND n, Reg.CLU_QPORT.OWNER n, Reg.CLU_QPORT.QUEUE n, Reg.CLU_QPORT.DDIE n, Reg.CLU_QPORT.DCLU n,
    Reg.CLU_QPORT.DQUEUE n, Reg.CLU_QPORT.RING n, Reg.CLU_QPORT.DCORE n, Reg.CLU_QPORT.DRING n, Reg.CLU_QPORT.LOSSY n]
def qcfgFields (n : Nat) : List Fld :=
  [Reg.CLU_QCFG.EN n, Reg.CLU_QCFG.MODE n, Reg.CLU_QCFG.AUTO_REL n, Reg.CLU_QCFG.QUOTA n, Reg.CLU_QCFG.CUT n, Reg.CLU_QCFG.ARR_MODE n,
    Reg.CLU_QCFG.ARR_CTR n, Reg.CLU_QCFG.GAP_EN n, Reg.CLU_QCFG.GAP_CTR n, Reg.CLU_QCFG.CONSUMER n]
def qsrcFields (n : Nat) : List Fld := [Reg.CLU_QSRC.PCORE n, Reg.CLU_QSRC.PPORT n]
def inboxFields (n : Nat) : List Fld :=
  [Reg.CORE_INBOX_DESC.BASE n, Reg.CORE_INBOX_DESC.SIZE n, Reg.CORE_INBOX_DESC.COUNTER n, Reg.CORE_INBOX_DESC.EN n, Reg.CORE_INBOX_DESC.SENDER n]

/-- The credits an enabled producer port starts with (R179). -/
def State.startCredits (s : State) (xs : List Section) (q p : Nat) : Nat :=
  if !p.testBit 0 || bitsOf p 2 1 == 1 then 0
  else
    match portBinding q p with
    | .inl (c, r) => bitsOf (s.imgRing xs c r) 27 15
    | .inr (d, n) => if (s.imgCfg xs d n).testBit 1 then 0 else bitsOf (s.imgCfg xs d n) 19 4

/-- A cluster switches epoch: its cells are freed and counted, its tables and credits loaded (R191, R201). -/
def State.switchCluster (s : State) (xs : List Section) (q : CluRef) (no epoch : Nat) : State :=
  let held := (s.usedCells q).length
  let off := q.clu * 0x10000
  let s1 := (s.clearFlds q.site (0x400100 + off) (0x410000 + off)).qput q Reg.CLU_QSTALE.FLUSHED held
  let put (s : State) (fs : List Fld) (w : Nat) : State := s.putFields q.site (fs.map fun f => f.nth q.clu) w
  let s2 := (List.range 1024).foldl (fun s n =>
    ((put (put (put s (qportFields n) (s.imgPort xs no n)) (qcfgFields n) (s.imgCfg xs no n)) (qsrcFields n) (s.imgSrc xs no n)).qput q
      (Reg.CLU_QPSTATE.CREDITS n) (s.startCredits xs no (s.imgPort xs no n)))) s1
  let on := (List.range 1024).filter fun n => (s.imgCfg xs no n).testBit 0
  let s3 := on.foldl (fun s n => s.qput q (Reg.CLU_QSTATE.STATE n) 1) s2
  let s4 := { s3 with queues := mapClear (queueKey q 0) (queueKey q 1024) s3.queues }
  (((((s4.qput q Reg.CLU_QPOOL.FREE 32768).qput q Reg.CLU_QPOOL.QUOTA_SUM (on.map fun n => bitsOf (s.imgCfg xs no n) 19 4).sum).qput q
    Reg.CLU_QPOOL.EPOCH epoch).qput q Clu.FL_MISMATCH 0).qput q Clu.STALE_SEEN 0)

/-- Step 4 for a squad. -/
def State.switchSquad (s : State) (xs : List Section) (epoch n : Nat) : State :=
  (s.squadEntry n).list.foldl (fun s d =>
    match s.activeSite d with
    | some k => (s.switchCluster xs ⟨k, 0⟩ (2 * d) epoch).switchCluster xs ⟨k, 1⟩ (2 * d + 1) epoch
    | none => s) (s.mapSquad n epoch)

/-! ### Step 5: the sections (R331) -/

/-- Bytes of a section. -/
def State.secBytes (s : State) (xs : List Section) (typ target : Nat) : List (Byte × Bool) :=
  match findSection xs typ target with
  | some x => s.imgBytes x.off x.len
  | none => []

/-- Part of a list. -/
def slice {α : Type} (l : List α) (lo n : Nat) : List α := (l.drop lo).take n

/-- Numbers of n bytes each in a list of bytes. -/
def wordAt (bs : List (Byte × Bool)) (off n : Nat) : Nat := leNat ((slice bs off n).map (·.1))

/-- What `CONFIGURE` sets back in a core before it loads it: the registers of R42, R90, R118, R145, R163, R169, R203, R228, and the
sequencer's state. The debug control register, the memory-error counts and their control stay. -/
def State.resetCore (s : State) (c : CoreRef) : State :=
  let z (s : State) (lo hi : Nat) : State := s.clearCore c lo hi
  let s1 := z (z (z (z s 0x100008 0x100610) 0x100640 0x103000) 0x1100000 0x1100188) 0x1100400 0x1100700
  { s1 with beats := s1.beats.filter fun b => b.owner != c
            flights := s1.flights.filter fun u => u.owner != c
            outstanding := s1.outstanding.filter fun r => !r.ofCore c
            reissue := s1.reissue.filter fun r => !r.ofCore c }

/-- Load a core's memories and tables from its sections (R27, R54, R110, R120, R121, R144, R203). -/
def State.loadCore (s : State) (xs : List Section) (c : CoreRef) (no epoch : Nat) (e : SquadEntry) (n : Nat) : State :=
  let sched := s.secBytes xs 1 no
  let tables := s.secBytes xs 2 no
  let fetch := s.secBytes xs 3 no
  let consts := s.secBytes xs 4 no
  let zeros (k : Nat) : List (Byte × Bool) := List.replicate k (0, false)
  let s1 := (s.resetCore c).wrP (coreKey c Mem.SCHED 0) (sched ++ zeros (65536 - sched.length))
  let s2 := (s1.wrP (coreKey c Mem.DESC 0) tables).wrP (coreKey c Mem.FETCH 0) (fetch.take 14720)
  let s3 := (s2.clearSram (coreKey c Mem.TILE 0) (coreKey c Mem.TILE 65536)).clearSram (coreKey c Mem.ACC 0) (coreKey c Mem.ACC 524288)
  let s4 := (s3.clearSram (coreKey c Mem.FTQ 0) (coreKey c Mem.FTQ 65600))
  let s5 := (List.range 16).foldl (fun s i =>
    (s.cput c (Reg.CORE_VX_CK.VALUE i) (wordAt consts (4 * i) 4)).cput c (Reg.CORE_FT_REQDESC.DESC i) (wordAt fetch (14720 + 8 * i) 8)) s4
  let s6 := (List.range 8).foldl (fun s i =>
    s.putFields c.site ((inboxFields i).map fun f => f.nth c.core) (wordAt consts (64 + 8 * i) 8)) s5
  let s7 := (List.range 32).foldl (fun s i =>
    let t := wordAt tables (2304 + 32 * i) 32
    let m := wordAt tables (256 + 32 * i) 32
    (((s.cput c (Reg.CORE_VX_WBASE.BASE i) (bitsOf t 36 16)).cput c (Reg.CORE_VX_WBASE.SIDE i) (bitsOf t 57 37)).cput c (Core.MOVE_SRC i)
      (bitsOf m 35 16)).cput c (Core.MOVE_DST i) (bitsOf m 55 36)) s6
  let s8 := (List.range 48).foldl (fun s t =>
    let s1 := (s.cput c (Reg.CORE_FT_THREAD.EN t) (wordAt fetch (8192 + 8 * t) 1 % 2)).cput c (Reg.CORE_FT_THREAD.PC t)
      (bitsOf (wordAt fetch (8192 + 8 * t) 8) 11 1)
    (List.range 16).foldl (fun s g =>
      s.cput c (Reg.CORE_FT_G.VALUE (t * 16 + g)) (wordAt fetch (8576 + 8 * (t * 16 + g)) 8)) s1) s7
  ((((s8.cput c Reg.CORE_POISON_CTL.POLICY e.policy).cput c Reg.CORE_POISON_CTL.SQUAD n).cput c Reg.CORE_POISON_CTL.HUDDLE_MASK
    (wordAt consts 128 2)).cput c Reg.CORE_SR_SEED.SEED e.seed).cput c Reg.CORE_SCHED_STATUS.EPOCH epoch

/-- The preloads of a die (R324). -/
def State.preload (s : State) (site ldie : Nat) (x : Section) : State :=
  if x.typ = 6 ∧ x.target / 48 = ldie then s.wrP (coreKey ⟨site, x.target % 48⟩ Mem.SP x.dest) (s.imgBytes x.off x.len)
  else if x.typ = 7 ∧ x.target / 2 = ldie then s.wrP (cluKey ⟨site, x.target % 2⟩ Mem.CLUSTER x.dest) (s.imgBytes x.off x.len)
  else s

/-- Step 5 for a die. -/
def State.loadDie (s : State) (xs : List Section) (n ldie site : Nat) : State :=
  let e := s.squadEntry n
  let epoch := s.get panelSite (Reg.SQD_STATUS.EPOCH n)
  let s1 := (List.range 48).foldl (fun s k => s.loadCore xs ⟨site, k⟩ (ldie * 48 + k) epoch e n) s
  let s2 := xs.foldl (fun s x => s.preload site ldie x) s1
  (s2.qput ⟨site, 0⟩ Reg.CLU_MEM_FILL.LOSSES 0).qput ⟨site, 1⟩ Reg.CLU_MEM_FILL.LOSSES 0

/-- The conversion region table and SR_SEED of the image go into every hub (R254, R258). -/
def State.loadHubs (s : State) (clear : Bool) : State :=
  (List.range 64).foldl (fun s k =>
    let site := siteOfStack k
    let s1 := s.put site Reg.HUB_SR_SEED.SEED (s.imgNat 16 8)
    let s2 := (List.range 16).foldl (fun s n =>
      (s.putFields site [Reg.HUB_CONV_ELEM.BASE n, Reg.HUB_CONV_ELEM.MFMT n, Reg.HUB_CONV_ELEM.EN n] (s.imgConv n).1).putFields site
        [Reg.HUB_CONV_SIDE.SIDE n, Reg.HUB_CONV_SIDE.LEN n] (s.imgConv n).2) s1
    if clear then s2.clearFlds site 0x200048 0x200050 else s2) s

/-- Step 5 for a squad: its dies' sections. -/
def State.loadSquad (s : State) (xs : List Section) (n : Nat) : State :=
  (s.squadEntry n).list.foldl (fun s d =>
    match s.activeSite d with
    | some k => s.loadDie xs n d k
    | none => s) s

end Sys2Proof.Machine
end

