-- ==== Sys2Proof/Machine/Evac.lean ====
section
/-! DEFINITION. The evacuation area (R345, R346): saving the state of a die, and putting it back. -/

namespace Sys2Proof.Machine

/-! ### Scan records -/

/-- Offsets that a save takes along, of registers and of the state beside them: everything of the cores and clusters but the debug control
register, the memory-error counts and logs, and their control (R67, R88, R144, R163, R193, R227). -/
def scanned (off : Nat) : Bool :=
  let core := (0x100000 ≤ off && off < 0x400000) && !(off % 0x10000 < 8) && !(0x610 ≤ off % 0x10000 && off % 0x10000 < 0x628)
  let clu := 0x400100 ≤ off && off < 0x420000 && !(off % 0x10000 < 0x100)
  let inner := (0x1100000 ≤ off && off < 0x1400000) && !(0x188 ≤ off % 0x10000 && off % 0x10000 < 0x208)
  core || clu || inner || (0x1400000 ≤ off && off < 0x1420000)

/-- Offset of a field's key in the window of its site. -/
def keyOff (k : Nat) : Nat := k / 64 % 2 ^ 26

/-- The scan records of a die. -/
def State.snapshot (s : State) (ldie site : Nat) : Snapshot :=
  { ldie := ldie, site := site
    fld := (mapRange (fldKey site ⟨0, 0, 0, 0, .int⟩) (fldKey (site + 1) ⟨0, 0, 0, 0, .int⟩) s.fld).filter fun e => scanned (keyOff e.1)
    queues := mapRange (queueKey ⟨site, 0⟩ 0) (queueKey ⟨site + 1, 0⟩ 0) s.queues
    beats := s.beats.filter fun b => b.site == site
    reissue := s.reissue.filter fun r => r.site == site }

/-- Keys of a map from one window on, moved to another. -/
def moveKeys {β : Type} (src dst : Nat) (m : SMap β) : SMap β := m.map fun e => (e.1 - src + dst, e.2)

/-- Put scan records into a die. -/
def State.putSnapshot (s : State) (x : Snapshot) (site : Nat) : State :=
  let w (k : Nat) : Nat := fldKey k ⟨0, 0, 0, 0, .int⟩
  let q (k : Nat) : Nat := queueKey ⟨k, 0⟩ 0
  { s with
    fld := mapPut (mapFilter (fun k => !(w site ≤ k && k < w (site + 1) && scanned (keyOff k))) s.fld)
      (moveKeys (w x.site) (w site) (mapFilter (fun k => w x.site ≤ k && k < w (x.site + 1) && scanned (keyOff k)) x.fld))
    queues := mapPut (mapClear (q site) (q (site + 1)) s.queues)
      (moveKeys (q x.site) (q site) ((mapRange (q x.site) (q (x.site + 1)) x.queues).filter fun e => e.2 != QueueSt.empty))
    beats := (s.beats.filter fun b => b.site != site) ++ x.beats.map fun b => { b with site := site }
    flights := s.flights.filter fun u => u.site != site
    outstanding := s.outstanding.filter fun r => r.site != site
    reissue := (s.reissue.filter fun r => r.site != site) ++ x.reissue.map fun r => { r with site := site, req := { r.req with ssite := site } } }

/-! ### Die slots -/

/-- One mebibyte. -/
def MiB : Nat := 2 ^ 20

/-- The evacuation area of the verified image. -/
def State.evacBase (s : State) : Nat := s.get panelSite Reg.SQD_PANEL.EVAC_RANGE * 2 ^ 30
/-- The die slot of a logical die (R345). -/
def State.dieSlot (s : State) (ldie : Nat) : Nat := s.evacBase + ldie / 9 * 2 ^ 31 + MiB + ldie % 9 * (176 * MiB)

/-- The memories of a core in a die slot, in order: memory, offset and size (R346). -/
def coreParts : List (Nat × Nat × Nat) :=
  [(Mem.SP, 0, 1572864), (Mem.OPA, 0, 65536), (Mem.OPB, 0, 131072), (Mem.TILE, 0, 65536), (Mem.ACC, 0, 524288), (Mem.SCHED, 0, 65536),
    (Mem.FETCH, 0, 8192), (Mem.DESC, 0, 3328), (Mem.FETCH, 8192, 6528), (Mem.FTQ, 0, 65600)]
/-- The memories of a cluster in a die slot. -/
def cluParts : List (Nat × Nat × Nat) := [(Mem.CLUSTER, 0, 24 * MiB), (Mem.POOL, 0, 2 * MiB)]

/-- The parts of a unit's memories, with their places from an offset of the slot on. -/
def placeParts (unit : Nat) : List (Nat × Nat × Nat) → Nat → List (Nat × Nat × Nat × Nat)
  | [], _ => []
  | (m, o, n) :: ps, at_ => (at_, unit * 16 + m, o, n) :: placeParts unit ps (at_ + n)

/-- Every memory of a die slot: place in the slot, unit and memory, offset and size. -/
def slotParts : List (Nat × Nat × Nat × Nat) :=
  ((List.range 48).flatMap fun c => placeParts c coreParts (65536 + c * (5 * MiB / 2)))
    ++ (List.range 2).flatMap fun k => placeParts (48 + k) cluParts (120 * MiB + 65536 + k * (27 * MiB))

/-- The parts of a slot that hold scan records, link entries and queue tables. -/
def scanAreas : List (Nat × Nat) := [(0, 65536), (146 * MiB + 65536, MiB), (173 * MiB + 65536, MiB)]

/-- The bytes that a save writes for scan records. -/
def scanBytes (x : Snapshot) (a : Nat × Nat) : List Byte := (List.range a.2).map fun i => Config.scanByte x (a.1 + i)

/-- Save a die into its slot (R346, R347): its memories with their poison, and its scan records. -/
def State.saveDie (s : State) (ldie site : Nat) : State :=
  let base := s.dieSlot ldie
  let x := s.snapshot ldie site
  let s1 := slotParts.foldl (fun t p => t.memWrite (base + p.1) (s.rdP (sramKey site (p.2.1 / 16) (p.2.1 % 16) p.2.2.1) p.2.2.2)) s
  let s2 := scanAreas.foldl (fun t a => t.memWrite (base + a.1) ((scanBytes x a).map fun b => (b, false))) s1
  { s2 with snapshots := (s2.snapshots.filter fun y => y.ldie != ldie) ++ [x] }

/-- The scan records that a slot holds: those of this panel's save where its bytes still stand, otherwise those its bytes spell. -/
def State.slotRecords (s : State) (ldie : Nat) : Snapshot :=
  let bytes (a : Nat × Nat) : List Byte := (s.memBytes (s.dieSlot ldie + a.1) a.2).map (·.1)
  match s.snapshots.find? fun x => x.ldie == ldie && scanAreas.all fun a => bytes a == scanBytes x a with
  | some x => x
  | none => Config.scanRead (scanAreas.flatMap bytes)

/-- Write a new epoch into a die: its cores, its clusters and their cells. Records of atomics and reductions are marked so that they
fail IN_DOUBT when they are sent (R349). -/
def State.rewriteEpoch (s : State) (site epoch : Nat) : State :=
  let s1 := (coresOf site).foldl (fun s c => s.cput c Reg.CORE_SCHED_STATUS.EPOCH epoch) s
  let s2 := (s1.qput ⟨site, 0⟩ Reg.CLU_QPOOL.EPOCH epoch).qput ⟨site, 1⟩ Reg.CLU_QPOOL.EPOCH epoch
  let mine (k : Nat) : Bool := queueKey ⟨site, 0⟩ 0 ≤ k && k < queueKey ⟨site + 1, 0⟩ 0
  { s2 with
    queues := s2.queues.map fun e => if mine e.1 then (e.1, { e.2 with cells := e.2.cells.map fun c => { c with epoch := epoch } }) else e
    reissue := s2.reissue.map fun r =>
      if r.site == site then { r with req := { r.req with epoch := if r.op = 0x26 ∨ r.op = 0x27 then 256 + epoch else epoch } } else r }

/-- Put a die's slot back into the site that carries it now (R349). -/
def State.restoreDie (s : State) (ldie site epoch : Nat) : State :=
  let base := s.dieSlot ldie
  let s1 := slotParts.foldl (fun t p => t.wrP (sramKey site (p.2.1 / 16) (p.2.1 % 16) p.2.2.1) (s.memBytes (base + p.1) p.2.2.2)) s
  (s1.putSnapshot (s.slotRecords ldie) site).rewriteEpoch site epoch

/-! ### The header (R345) -/

/-- Bytes of the header. -/
def State.evacHeader (s : State) (saved halted : Nat) : List Byte :=
  leBytes 4 0x3154485A ++ leBytes 2 1 ++ leBytes 2 saved ++ leBytes 2 halted ++ leBytes 6 0 ++ leBytes 64 (s.get panelSite Img.DIGEST)
    ++ leBytes 8 (s.get s.controlSite Reg.CLK_PT.TIME) ++ leBytes 4008 0

/-- A number in the header. -/
def State.evacNat (s : State) (off n : Nat) : Nat := leNat ((s.memBytes (s.evacBase + off) n).map (·.1))

/-- The header allows a squad to be restored (R349). -/
def State.evacOk (s : State) (n : Nat) : Bool :=
  s.evacNat 0 4 == 0x3154485A && s.evacNat 4 2 == 1 && (s.evacNat 6 2).testBit n && !(s.evacNat 8 2).testBit n
    && s.evacNat 16 64 == s.get panelSite Img.DIGEST

/-- Squads of a mask that were saved after a whistle, by SAVED_HALTED. -/
def State.haltedMask (s : State) : Nat := squadMask (fun n => s.flag panelSite (Reg.SQD_STATUS.SAVED_HALTED n)) (List.range 16)

/-- Save squads (R347, R348): their dies, the header and the registers that tell of it. A squad that is STOPPED is saved halted. -/
def State.saveSquads (s : State) (ns : List Nat) : State :=
  let s1 := ns.foldl (fun s n =>
    let s1 := s.put panelSite (Reg.SQD_STATUS.SAVED_HALTED n) (if s.squadState n = Squad.STOPPED then 1 else 0)
    ((List.range 144).filter fun d => s.flag panelSite (Reg.SQD_MEMBERS.DIE n d)).foldl (fun s d =>
      match s.activeSite d with
      | some k => s.saveDie d k
      | none => s) s1) s
  let saved := ns.foldl (fun m n => m ||| 2 ^ n) (s1.get panelSite Reg.SQD_PANEL.SAVED)
  let s2 := (s1.put panelSite Reg.SQD_PANEL.SAVED saved).put panelSite Reg.SQD_PANEL.EVAC_VALID 1
  s2.memWrite s2.evacBase ((s2.evacHeader saved (s2.haltedMask &&& saved)).map fun b => (b, false))

end Sys2Proof.Machine
end

