-- ==== Sys2Proof/Machine/Runs.lean ====
section
/-! DEFINITION. The commands of the runs group (12_runs_and_swaps, R365), and how far each goes on when what it waits for has happened. -/

namespace Sys2Proof.Machine

/-! ### Loading (R327) -/

/-- A local range is touched by an open write window or an outstanding `FILL` (R328). -/
def State.beingWritten (s : State) (a n : Nat) : Bool :=
  (s.windows.any fun w => !w.read && w.addr / 2 ^ 44 == s.ownPanel && overlap a n (w.addr % 2 ^ 44) w.length)
    || s.deferred.any fun d =>
      match d.cmd with
      | .fill _ b m _ => s.addrPanel b == s.ownPanel && overlap a n (b % 2 ^ 44) m
      | _ => false

/-- The header of an image is as R323 and R327 ask. -/
def State.headerOk (s : State) (base length : Nat) : Bool :=
  let g (off n : Nat) : Nat := leNat ((s.memBytes (base + off) n).map (·.1))
  g 0 4 == 0x3434315A && g 4 2 == 1 && g 8 8 == length && g 6 2 == 0 && g 28 4 == 0 && g 40 24 == 0 && g 1344 2752 == 0

/-- The outstanding record of a command just dispatched. -/
def State.lastDeferred (s : State) (h : CmdHdr) (op : Nat) : Option Deferred :=
  s.deferred.find? fun d => d.port == h.port && d.tag == h.tag && d.opcode == op && d.seq == h.seq

/-- A command just dispatched goes on. -/
def State.withDeferred (s : State) (h : CmdHdr) (op : Nat) (f : State → Deferred → State) : State :=
  match s.lastDeferred h op with
  | some d => f s d
  | none => s

/-- `LOAD_IMAGE` (R327, R328). -/
def execLoadImage (h : CmdHdr) (base length digest : Nat) (s : State) : Host.Outcome State Fault Refusal :=
  let cmd := Instr.loadImage h base length digest
  .next (s.command h
    { op := Op.LOAD_IMAGE, cmd := cmd, lengthOk := h.length == 80,
      param := check (base % 4096 != 0 || length % 4096 != 0 || length == 0 || 2 ^ 36 < length || !inHbm base length || 2 ^ 512 ≤ digest)
        St.BAD_PARAM,
      state := check (!s.squadsIdle || !s.flag panelSite Reg.SQD_PANEL.HBM_CLEAN || s.beingWritten base length) St.WRONG_STATE }
    fun s =>
      let s1 := (s.begin h Op.LOAD_IMAGE cmd false).put panelSite Reg.SQD_PANEL.IMAGE_VERIFIED 0
      if s1.headerOk base length then s1 else s1.withDeferred h Op.LOAD_IMAGE fun s d => s.finishCmd d St.BAD_PARAM)

/-- Hashing of the image ends (R327). -/
def execLoadImageHashed (s : State) : Host.Outcome State Fault Refusal :=
  .next (match s.outstandingOp Op.LOAD_IMAGE with
    | some d =>
      match d.cmd with
      | .loadImage _ base length digest =>
        if Config.sha512 ((s.memBytes base length).map (·.1)) % 2 ^ 512 = digest then
          let s1 := ((s.put panelSite Img.BASE base).put panelSite Img.LEN length).put panelSite Img.DIGEST digest
          let s2 := (s1.put panelSite Reg.SQD_PANEL.EVAC_RANGE (s1.imgNat 24 2)).put panelSite Reg.SQD_PANEL.IMAGE_VERIFIED 1
          s2.finishCmd d St.OK
        else s.finishCmd d St.AUTH_FAIL
      | _ => s
    | none => s)

/-! ### Configuration (R330, R331) -/

/-- A squad mask has at least one squad, and the reserved bytes are zero (R365). -/
def maskCheck (squads : BitVec 16) (rsv : Nat) : Check := check (squads == 0 || rsv != 0) St.BAD_PARAM

/-- A named squad is in none of the given states. -/
def State.anyNot (s : State) (mask : Nat) (states : List Nat) : Bool := (squadList mask).any fun n => !states.contains (s.squadState n)

/-- `CONFIGURE` (R330–R332): a check that fails ends it with the code and the item. -/
def execConfigure (h : CmdHdr) (squads : BitVec 16) (rsv : Nat) (s : State) : Host.Outcome State Fault Refusal :=
  let cmd := Instr.configure h squads rsv
  .next (s.command h
    { op := Op.CONFIGURE, cmd := cmd, lengthOk := h.length == 8, param := maskCheck squads rsv,
      state := check (!s.flag panelSite Reg.SQD_PANEL.IMAGE_VERIFIED
        || s.anyNot squads.toNat [Squad.IDLE, Squad.SCRUBBED, Squad.LOADED, Squad.STOPPED]) St.WRONG_STATE }
    fun s =>
      (s.begin h Op.CONFIGURE cmd false).withDeferred h Op.CONFIGURE fun s d =>
        match s.imageCheck squads.toNat with
        | some (code, item) => s.finishCmd d St.BAD_PARAM [code, item]
        | none => s)

/-- The drain of `CONFIGURE` ends (R331 steps 3 and 4): the commit point. -/
def execConfigureDrainEnd (s : State) : Host.Outcome State Fault Refusal :=
  .next (match s.deferred.find? fun d => d.opcode == Op.CONFIGURE && d.step == 1 with
    | some d =>
      let mask := squadsOf d.cmd
      let e := s.nextEpoch mask
      let s1 := (s.setDeferred { d with step := 2, slot := some St.OK }).put panelSite Reg.SQD_PANEL.LAST_EPOCH e
      (squadList mask).foldl (fun s n => s.switchSquad s.sections e n) s1
    | none => s)

/-- Every section is loaded (R331 steps 5 and 6). -/
def execConfigureDone (s : State) : Host.Outcome State Fault Refusal :=
  .next (match s.deferred.find? fun d => d.opcode == Op.CONFIGURE && d.step == 2 with
    | some d =>
      let ns := squadList (squadsOf d.cmd)
      let s1 := ns.foldl (fun s n => s.loadSquad s.sections n) (s.loadHubs true)
      (ns.foldl (fun s n => s.setSquad n Squad.LOADED) s1).finishCmd d St.OK
    | none => s)

/-! ### Kick-off (R334) -/

/-- `KICKOFF` (R334). -/
def execKickoff (h : CmdHdr) (squads : BitVec 16) (rsv : Nat) (s : State) : Host.Outcome State Fault Refusal :=
  .next (s.command h
    { op := Op.KICKOFF, cmd := .kickoff h squads rsv, lengthOk := h.length == 8, param := maskCheck squads rsv,
      state := check (s.anyNot squads.toNat [Squad.LOADED]) St.WRONG_STATE }
    fun s => ((squadList squads.toNat).foldl State.kickSquad s).reply h Op.KICKOFF St.OK)

/-! ### Pause and half-time (R343–R348) -/

/-- The squads of a mask that are in a state. -/
def State.maskIn (s : State) (mask st : Nat) : Nat := squadMask (fun n => s.squadState n == st) (squadList mask)

/-- A `PAUSE` or `HALF_TIME` goes on once each of its squads is PAUSED or STOPPED (R344, R347). -/
def State.advancePause (s : State) (d : Deferred) : State :=
  let mask := squadsOf d.cmd
  let paused := s.maskIn mask Squad.PAUSED
  if d.step ≠ 1 ∨ s.maskIn mask Squad.RUNNING ≠ 0 then s
  else
    let status := if (mask - paused) &&& (65535 - d.mask) = 0 then St.OK else St.PARTIAL
    if d.opcode = Op.PAUSE then s.finishCmd d status [paused] else s.setDeferred { d with step := 2, slot := some status }

/-- The squads of a mask that run are asked to pause. -/
def State.requestPauses (s : State) (mask : Nat) : State :=
  (squadList mask).foldl (fun s n => if s.squadState n = Squad.RUNNING then s.requestPause n else s) s

/-- `PAUSE` (R343). -/
def execPause (h : CmdHdr) (squads : BitVec 16) (limit rsv : Nat) (s : State) : Host.Outcome State Fault Refusal :=
  let cmd := Instr.pause h squads limit rsv
  .next (s.command h
    { op := Op.PAUSE, cmd := cmd, lengthOk := h.length == 8, param := maskCheck squads rsv,
      state := check (s.anyNot squads.toNat [Squad.RUNNING, Squad.PAUSED]) St.WRONG_STATE }
    fun s => ((s.begin h Op.PAUSE cmd false).requestPauses squads.toNat).withDeferred h Op.PAUSE State.advancePause)

/-- `HALF_TIME` (R343, R347, R348): the squads STOPPED at acceptance do not make the reply PARTIAL. -/
def execHalfTime (h : CmdHdr) (squads : BitVec 16) (limit rsv : Nat) (s : State) : Host.Outcome State Fault Refusal :=
  let cmd := Instr.halfTime h squads limit rsv
  .next (s.command h
    { op := Op.HALF_TIME, cmd := cmd, lengthOk := h.length == 8, param := maskCheck squads rsv,
      state := check (!s.flag panelSite Reg.SQD_PANEL.IMAGE_VERIFIED
        || s.anyNot squads.toNat [Squad.RUNNING, Squad.PAUSED, Squad.STOPPED]) St.WRONG_STATE }
    fun s => ((s.begin h Op.HALF_TIME cmd false [] (s.maskIn squads.toNat Squad.STOPPED)).requestPauses squads.toNat).withDeferred h
      Op.HALF_TIME State.advancePause)

/-! ### Resume (R349) -/

/-- `RESUME` (R349): without restore the squads go on at once; with restore the header of the evacuation area is checked first. -/
def execResume (h : CmdHdr) (squads : BitVec 16) (restore : Bool) (rsv : Nat) (s : State) : Host.Outcome State Fault Refusal :=
  let cmd := Instr.resume h squads restore rsv
  let ns := squadList squads.toNat
  .next (s.command h
    { op := Op.RESUME, cmd := cmd, lengthOk := h.length == 8, param := maskCheck squads rsv,
      state := check (if restore then !s.flag panelSite Reg.SQD_PANEL.IMAGE_VERIFIED || s.anyNot squads.toNat [Squad.PAUSED, Squad.SCRUBBED]
        else s.anyNot squads.toNat [Squad.PAUSED] || ns.any fun n => s.flag panelSite (Reg.SQD_STATUS.LATCHED n)) St.WRONG_STATE }
    fun s =>
      (s.begin h Op.RESUME cmd true).withDeferred h Op.RESUME fun s d =>
        if restore then (if ns.all s.evacOk then s else s.finishCmd d St.WRONG_STATE)
        else (ns.foldl State.resumeSquad s).finishCmd d St.OK)

/-- A squad is restored from the evacuation area under an epoch (R349). -/
def State.restoreSquad (s : State) (epoch n : Nat) : State :=
  let s1 := s.mapSquad n epoch
  ((s1.squadEntry n).list.foldl (fun s d =>
    match s.activeSite d with
    | some k => s.restoreDie d k epoch
    | none => s) s1).resumeSquad n

/-- Die slots have been written back, and the squads start (R349). -/
def execRestoreDone (s : State) : Host.Outcome State Fault Refusal :=
  .next (match s.outstandingOp Op.RESUME with
    | some d =>
      let mask := squadsOf d.cmd
      let e := s.nextEpoch mask
      (((squadList mask).foldl (fun s n => s.restoreSquad e n) ((s.put panelSite Reg.SQD_PANEL.LAST_EPOCH e).loadHubs false))).finishCmd d St.OK
    | none => s)

/-! ### Stop and scrub (R350, R351) -/

/-- The dies of the squads of a mask. -/
def State.maskSites (s : State) (mask : Nat) : List Nat := (squadList mask).flatMap s.squadSites

/-- A `STOP` goes on once none of its squads runs (R350): with teardown their dies are cleared. -/
def State.advanceStop (s : State) (d : Deferred) : State :=
  let mask := squadsOf d.cmd
  if d.step ≠ 1 ∨ s.maskIn mask Squad.RUNNING ≠ 0 then s
  else
    match d.cmd with
    | .stop _ _ true _ => (s.maskSites mask).foldl State.startClear (s.setDeferred { d with step := 2 })
    | _ => s.finishCmd d St.OK

/-- `STOP` (R350). -/
def execStop (h : CmdHdr) (squads : BitVec 16) (teardown : Bool) (rsv : Nat) (s : State) : Host.Outcome State Fault Refusal :=
  let cmd := Instr.stop h squads teardown rsv
  .next (s.command h
    { op := Op.STOP, cmd := cmd, lengthOk := h.length == 8, param := maskCheck squads rsv,
      state := check (s.anyNot squads.toNat [Squad.LOADED, Squad.RUNNING, Squad.PAUSED, Squad.STOPPED]) St.WRONG_STATE }
    fun s => ((squadList squads.toNat).foldl (fun s n => s.stopSquad n Cause.STOP) (s.begin h Op.STOP cmd true)).withDeferred h Op.STOP
      State.advanceStop)

/-- A panel-scope scrub is at work (R351). -/
def Panel.SCRUBBING : Fld := ⟨0x1500000, 0, 1, 0, .int⟩

/-- Compute dies whose compute rail is on. -/
def State.poweredDies (s : State) : List Nat := computeSites.filter fun k => s.flag k Reg.PWR_DIE_STATUS.VIN_SW

/-- A panel-scope scrub starts (R351): windows close, every powered die and every stack that works is cleared. -/
def State.startPanelScrub (s : State) : State :=
  let s1 := s.closeWindows (fun _ => true) (fun _ => St.WITHDRAWN)
  let s2 := (List.range 64).foldl (fun s k => if s.alive (siteOfStack k) then s.startZeroScrub k else s) s1
  (s2.poweredDies.foldl State.startClear s2).put panelSite Panel.SCRUBBING 1

/-- No clear engine of some dies is at work. -/
def State.cleared (s : State) (sites : List Nat) : Bool := sites.all fun k => !s.flag k Die.CLEARING

/-- Every clear and zero scrub of a panel-scope scrub is over. -/
def State.panelCleared (s : State) : Bool :=
  s.flag panelSite Panel.SCRUBBING && s.cleared computeSites && (List.range 64).all fun k => !s.scrubbing k

/-- Squads whose dies have been cleared are SCRUBBED (R329, R351). -/
def State.scrubSquads (s : State) (ns : List Nat) : State :=
  ns.foldl (fun s n =>
    if [Squad.LOADED, Squad.STOPPED, Squad.PAUSED].contains (s.squadState n) then (s.setSquad n Squad.SCRUBBED).clearLatches n else s) s

/-- What a panel-scope scrub leaves (R351). -/
def State.panelScrubbed (s : State) : State :=
  let s1 := { s with proxies := [], proxyWait := [], snapshots := [] }
  let s2 := (List.range 8).foldl State.countEntries s1
  let s3 := (List.range 16).foldl (fun s n => (s.setSquad n Squad.SCRUBBED).put panelSite (Reg.SQD_STATUS.LATCHED n) 0) s2
  ((((s3.put panelSite Reg.SQD_PANEL.HBM_CLEAN 1).put panelSite Reg.SQD_PANEL.IMAGE_VERIFIED 0).put panelSite Reg.SQD_PANEL.EVAC_VALID
    0).put panelSite Reg.SQD_PANEL.SAVED 0).put panelSite Panel.SCRUBBING 0

/-- `SCRUB` (R351). -/
def execScrub (h : CmdHdr) (squads : BitVec 16) (scope rsv : Nat) (s : State) : Host.Outcome State Fault Refusal :=
  let cmd := Instr.scrub h squads scope rsv
  .next (s.command h
    { op := Op.SCRUB, cmd := cmd, lengthOk := h.length == 8,
      param := check (1 < scope || rsv != 0 || (scope == 0) == (squads == 0)) St.BAD_PARAM,
      state := check (s.maskIn (if scope = 1 then 65535 else squads.toNat) Squad.RUNNING != 0) St.WRONG_STATE }
    fun s =>
      let s1 := s.begin h Op.SCRUB cmd true
      if scope = 1 then s1.startPanelScrub else (s1.maskSites squads.toNat).foldl State.startClear s1)

end Sys2Proof.Machine
end

