-- ==== Sys2Proof/Machine/PowerUp.lean ====
section
/-! DEFINITION. VIN switches and power-up admission (16_power_delivery): what a die's power-up and its loss of power do, and the requests
that wait for admission. -/

namespace Sys2Proof.Machine

/-! ### State beside the registers -/

/-- Buck phases that have failed since `RESET_N` (R407). -/
def Die.PHASES_OUT : Fld := ⟨0x1000130, 0, 8, 0, .int⟩
/-- The die passed, or failed, its last self-test (R378, R445). -/
def Die.PASSED : Fld := ⟨0x1000130, 8, 1, 0, .int⟩
def Die.FAILED : Fld := ⟨0x1000130, 9, 1, 0, .int⟩
/-- The ceiling code that the power budget drives (R420). -/
def Die.P_CEIL : Fld := ⟨0x1000138, 0, 7, 72, .int⟩

/-! Why a die is powered up. -/
def Why.BRINGUP : Nat := 0
def Why.SUBST : Nat := 1
def Why.ROLL : Nat := 2
def Why.RESET : Nat := 3
def Why.RECOVERY : Nat := 4

/-! ### Ceilings (R394, R407, R420, R429) -/

/-- The control die sets CEILING to the least of the codes that power and temperature drive; a code above it falls. -/
def State.applyCeiling (s : State) (site : Nat) : State :=
  let c := min (min (s.get site Reg.THM_DIE_STATUS.T_CEIL) (s.get site Reg.PWR_DIE_STATUS.CLK_LIMIT)) (s.get site Die.P_CEIL)
  (s.put site Reg.CLK_CORE_CTL.CEILING c).settleCode site

/-! ### Switches (R405, R411) -/

/-- A die's VIN switch closes: its phases and its core generator start, and what R410 and R431 measure from a power-up starts afresh. The
code that the generator starts at is a free value within its limits. -/
def State.powerOn (s : State) (site : Nat) : State :=
  let s1 := (s.put site Reg.PWR_DIE_STATUS.VIN_SW 1).put site Reg.CLK_CORE_STATUS.CORE_LOCK 1
  let s2 := if isCompute site then s1.put site Reg.PWR_DIE_STATUS.PHASE_OK (255 - s1.get site Die.PHASES_OUT)
    else s1.put site Reg.CLK_FABRIC.SERDES_LOCK 255
  let s3 := (List.range 4).foldl (fun s c => (s.put site (Reg.PWR_CORNER.BASE c) 0).put site (Reg.PWR_CORNER.NOW c) 0) s2
  let s4 := ((s3.unset site Reg.THM_DIE_THETA.THETA).unset site Reg.THM_DIE_THETA.P_TH).unset site Reg.THM_DIE_STATUS.T_CEIL
  let s5 := (s4.unset site Die.P_CEIL).applyCeiling site
  let (v, s6) := s5.free
  s6.put site Reg.CLK_CORE_STATUS.FREQ (clockFloor site + v % (s6.effCeiling site - clockFloor site + 1))

/-- The port of a link die without power is DOWN, and its core generator stops (R414, R392). -/
def State.linkOff (s : State) (site : Nat) : State :=
  let p := portOfSite site
  let s1 := s.linkPortDown p 0
  let s2 := if s1.portState p = Port.TRAINING then s1.jput p Reg.PORT_STATUS.STATE Port.DOWN else s1
  (((s2.put site Reg.PWR_DIE_STATUS.VIN_SW 0).put site Reg.CLK_CORE_STATUS.FREQ 0).put site Reg.CLK_CORE_STATUS.CORE_LOCK 0).put site
    Reg.CLK_FABRIC.SERDES_LOCK 0

/-- A die's VIN switch opens. -/
def State.switchOff (s : State) (site : Nat) : State :=
  if isCompute site then s.dieOff site
  else if dieKind site = .link ∧ s.flag site Reg.PWR_DIE_STATUS.VIN_SW then s.linkOff site
  else s

/-! ### Admission (R411, R412, R437) -/

/-- ADMIT_BUSY of a block: a power-up waits or is under way. -/
def State.markAdmit (s : State) (block : Nat) : State :=
  s.putFlag panelSite (Reg.PWR_BLOCK.ADMIT_BUSY block) (s.powerUps.any fun p => siteBlock p.site == block)

/-- A power-up is asked for. -/
def State.askPower (s : State) (site why : Nat) : State :=
  if s.powerUps.any fun p => p.site == site then s
  else ({ s with powerUps := s.powerUps ++ [PowerUp.mk site why 0] }).markAdmit (siteBlock site)

/-- A power-up is over, or given up. -/
def State.dropPower (s : State) (site : Nat) : State :=
  ({ s with powerUps := s.powerUps.filter fun p => p.site != site }).markAdmit (siteBlock site)

/-- Put a power-up in a phase. -/
def State.phasePower (s : State) (site phase : Nat) : State :=
  { s with powerUps := updFirst (fun p => p.site == site) (fun p => { p with phase := phase }) s.powerUps }

/-- The power-up of a site. -/
def State.powerUp (s : State) (site : Nat) : Option PowerUp := s.powerUps.find? fun p => p.site == site

/-- The power-up of a block that has waited longest. -/
def State.waitingPower (s : State) (block : Nat) : Option PowerUp := s.powerUps.find? fun p => siteBlock p.site == block && p.phase == 0

/-- The switch of a die may be closed: the block has power and 30 A of headroom, a compute die has coolant or the panel is in air mode, and
the panel is not in `END` (R411, R437, R466). -/
def State.admissible (s : State) (site : Nat) : Bool :=
  let b := siteBlock site
  s.get panelSite (Reg.PWR_BLOCK.DRAW b) + 300 ≤ 10 * s.get panelSite (Reg.PWR_BLOCK.LIMIT b)
    && s.flag panelSite (Reg.PWR_BLOCK.PWRGOOD b)
    && (!isCompute site || s.flag panelSite Reg.THM_PANEL.FLOW_OK || s.flag panelSite Reg.THM_PANEL.AIR)
    && s.get panelSite Reg.SEC_STATUS.LCS != 4

/-! ### The squad of a die -/

/-- The squad that a logical die belongs to, if it is LOADED, RUNNING or PAUSED. -/
def State.liveSquad (s : State) (ldie : Nat) : Option Nat :=
  (List.range 16).find? fun n =>
    s.flag panelSite (Reg.SQD_MEMBERS.DIE n ldie) && [Squad.LOADED, Squad.RUNNING, Squad.PAUSED].contains (s.squadState n)

/-- The logical die that the roster places on a site. -/
def State.rosterDie (s : State) (site : Nat) : Option Nat :=
  (List.range 144).find? fun d => s.flag panelSite (Reg.CTL_ROSTER_LDIE.PLACED d) && s.get panelSite (Reg.CTL_ROSTER_LDIE.SITE d) == site

/-- The squad of a site's logical die, if it is LOADED, RUNNING or PAUSED. -/
def State.siteSquad (s : State) (site : Nat) : Option Nat := (s.rosterDie site).bind s.liveSquad

/-- A squad is whistled, or taken to STOPPED as by `STOP` where it is PAUSED, for a cause of the control die (R380, R414). -/
def State.loseSquad (s : State) (n cause : Nat) : State :=
  if s.squadState n = Squad.PAUSED then s.stopNow n cause 2 else s.whistleSquad n cause

/-- The squads with a logical die on one of some sites. -/
def State.squadsOn (s : State) (sites : List Nat) : List Nat := (sites.filterMap s.siteSquad).dedup

end Sys2Proof.Machine
end

