-- ==== Sys2Proof/Machine/Timeout.lean ====
section
/-! DEFINITION. Fabric timeouts (10_panel_fabric): the tables a timeout puts in force, its checks, its start and its end. -/

namespace Sys2Proof.Machine

/-- Bit i of a mask given as bytes. -/
def byteBit (bs : List Nat) (i : Nat) : Bool := (bs.getD (i / 8) 0).testBit (i % 8)

/-- A timeout that supplies no table. -/
def TimeoutTables.none : TimeoutTables := ⟨false, Option.none, Option.none, Option.none, 0, Option.none⟩

/-- The substitution onto a bench site. -/
def State.substAt (s : State) (bench : Nat) : Option Subst := s.substs.find? fun x => x.bench == bench

/-- The roster holds a logical die fenced or unplaced (R280). -/
def State.rosterOut (s : State) (ldie : Nat) : Bool :=
  !s.flag panelSite (Reg.CTL_ROSTER_LDIE.PLACED ldie) || s.flag panelSite (Reg.CTL_ROSTER_LDIE.FENCED ldie)

/-- The logical die that a timeout's substitution moves. -/
def State.moving (s : State) (r : TimeoutRun) : Option Nat := if r.kind = 1 then (s.substAt r.site).map (·.ldie) else none

/-! ### The tables in force after a timeout (R280, R289, R380) -/

/-- Whether a site is alive. -/
def State.aliveNext (s : State) (r : TimeoutRun) (k : Nat) : Bool :=
  match r.tables.alive with
  | some bs => byteBit bs k
  | none => s.alive k && !(r.kind == 2 && r.site == k)

/-- The site of a logical die. -/
def State.siteNext (s : State) (r : TimeoutRun) (d : Nat) : Nat :=
  match r.tables.l2s with
  | some xs => xs.getD d 0
  | none =>
    if r.kind = 3 then s.get panelSite (Reg.CTL_ROSTER_LDIE.SITE d)
    else if s.moving r = some d then r.site
    else s.siteOf d

/-- The bit of a logical die in the fenced mask, as the roster and a supplied mask give it. -/
def State.maskNext (s : State) (r : TimeoutRun) (d : Nat) : Bool :=
  (s.rosterOut d && s.moving r != some d) || (r.tables.fenced.map fun bs => byteBit bs d).getD false

/-- The fenced mask: a die whose router is not alive is always set. -/
def State.fencedNext (s : State) (r : TimeoutRun) (d : Nat) : Bool := s.maskNext r d || !s.aliveNext r (s.siteNext r d)

/-! ### Checks of step 1 (R239, R289) -/

/-- Interleave entry r after a supplied table. -/
def State.ilvNext (s : State) (t : TimeoutTables) (r : Nat) : Nat :=
  match t.ilv with
  | some es => if t.ilvFirst ≤ r then ((es[r - t.ilvFirst]?).map BitVec.toNat).getD (s.get panelSite (Reg.MESH_ILV.ENTRY r))
      else s.get panelSite (Reg.MESH_ILV.ENTRY r)
  | none => s.get panelSite (Reg.MESH_ILV.ENTRY r)

/-- An interleave entry is in range (R237). -/
def ilvOk (e : Nat) : Bool := e < 2 ^ 17 && (if e % 2 = 0 then bitsOf e 4 1 == 0 else bitsOf e 16 5 ≤ 4080)

/-- Two interleave entries use a pair of stack and share both. -/
def ilvClash (e f : Nat) : Bool :=
  let n (x : Nat) : Nat := if x % 2 = 0 then 1 else 16
  (e % 2 == 0 || f % 2 == 0 || bitsOf e 4 1 == bitsOf f 4 1) && overlap (bitsOf e 16 5) (n e) (bitsOf f 16 5) (n f)

/-- No two entries of a list clash. -/
def ilvApart : List Nat → Bool
  | [] => true
  | e :: es => es.all (fun f => !ilvClash e f) && ilvApart es

/-- A supplied interleave table is accepted. -/
def State.ilvAccepted (s : State) (t : TimeoutTables) : Bool :=
  match t.ilv with
  | none => true
  | some es => es.length ≤ 900 && t.ilvFirst + es.length ≤ 4096
      && ((List.range 4096).map (s.ilvNext t)).all ilvOk && ilvApart ((List.range 4096).map (s.ilvNext t))

/-- No element of a list stands in it twice. -/
def distinct : List Nat → Bool
  | [] => true
  | x :: xs => !xs.contains x && distinct xs

/-- Supplied maps place every die that is not fenced on an alive site of its own. -/
def State.mapsAccepted (s : State) (r : TimeoutRun) : Bool :=
  let t := r.tables
  let free := (List.range 144).filter fun d => !s.maskNext r d
  (t.l2s.isNone && t.alive.isNone) || (distinct (free.map (s.siteNext r)) && free.all fun d => s.aliveNext r (s.siteNext r d))

/-! ### Start (R289 steps 2 and 3) -/

/-- TIMEOUT is set in every alive router; each discards what it holds for a DOWN port. -/
def State.enterTimeout (s : State) (r : TimeoutRun) : State :=
  let sites := (List.range 256).filter fun k => hasRouter k && (s.aliveNext r k || s.alive k)
  let s1 := sites.foldl (fun s k => s.putFlag k Reg.MESH_CTL.TIMEOUT true) { s with timeout := some r }
  { s1 with held := s1.held.filter fun h => !(h.outPort < 4 && s1.portDown h.site h.outPort) }

/-- A timeout of the control die's own account starts, or waits for the one in progress (R287). -/
def State.startTimeout (s : State) (r : TimeoutRun) : State :=
  if s.timeout.isSome then { s with waitTimeouts := s.waitTimeouts ++ [r] } else s.enterTimeout r

/-- A timeout that waits, or runs, is given up. -/
def State.dropWaiting (s : State) (kind site : Nat) : State :=
  { s with waitTimeouts := s.waitTimeouts.filter fun r => !(r.kind == kind && r.site == site) }

/-! ### End (R289 steps 4 to 7, R290) -/

/-- A router holds no flit. -/
def State.routerEmpty (s : State) (site : Nat) : Bool :=
  !(s.held.any fun h => h.site == site) && !(s.txFlits.any fun t => t.site == site) && !(s.rxFlits.any fun r => r.site == site)

/-- The drain is complete: every router that is waited for is EMPTY. -/
def State.drained (s : State) (r : TimeoutRun) : Bool := (List.range 256).all fun k => !s.aliveNext r k || s.routerEmpty k

/-- A mesh port starts afresh at a link or span that has been trained: every sub-link active, positions at 0, buffers empty (R259, R264). -/
def State.freshPort (s : State) (site port : Nat) : State :=
  let s1 := { s with held := s.held.filter fun h => !(h.site == site && h.outPort == port)
                     txFlits := s.txFlits.filter fun t => !(t.site == site && t.port == port)
                     rxFlits := s.rxFlits.filter fun r => !(r.site == site && r.port == port) }
  let s2 := s1.clearFlds site (0x1800000 + 0x1000 * port) (0x1801000 + 0x1000 * port)
  let on := if (s2.farSite site port).isSome then 15 else 0
  ((s2.put site (Reg.MESH_PORT.STATE port) 0).put site (Reg.MESH_PORT.TX_ACTIVE port) on).put site (Reg.MESH_PORT.RX_ACTIVE port) on

/-- The alive map changes: ports that are joined to another router from now on start afresh (R260, R277). -/
def State.putAlive (s : State) (alive : List Bool) : State :=
  let s1 := alive.zipIdx.foldl (fun s e =>
    (s.putFlag panelSite (Reg.MESH_ALIVE.ALIVE e.2) e.1).putFlag panelSite (Reg.CTL_ROSTER_SITE.ALIVE e.2) e.1) s
  let ports := ((List.range 256).filter s1.alive).flatMap fun k => (List.range 4).map fun p => (k, p)
  (ports.filter fun e => s.farSite e.1 e.2 != s1.farSite e.1 e.2).foldl (fun s e => s.freshPort e.1 e.2) s1

/-- Every router swaps its tables (steps 5 and 6). Route tables follow from the alive map. -/
def State.putTables (s : State) (r : TimeoutRun) : State :=
  let alive := (List.range 256).map (s.aliveNext r)
  let sites := (List.range 144).map (s.siteNext r)
  let fenced := (List.range 144).map (s.fencedNext r)
  let s1 := if alive = (List.range 256).map s.alive then s else s.putAlive alive
  let s2 := sites.zipIdx.foldl (fun s e => s.put panelSite (Reg.MESH_L2S.SITE e.2) e.1) s1
  let s3 := fenced.zipIdx.foldl (fun s e => s.putFlag panelSite (Reg.MESH_FENCED.FENCED e.2) e.1) s2
  match r.tables.ilv with
  | some es => es.zipIdx.foldl (fun s e => s.put panelSite (Reg.MESH_ILV.ENTRY (r.tables.ilvFirst + e.2)) e.1.toNat) s3
  | none => s3

/-- TIMEOUT is cleared in every router, and what was held back goes on (step 7, R288, R310). -/
def State.leaveTimeout (s : State) : State :=
  let s1 := (List.range 256).foldl (fun s k => s.putFlag k Reg.MESH_CTL.TIMEOUT false) { s with timeout := none }
  let waiting := (s1.meshWait.map (·.site)).dedup
  ((waiting.foldl State.settle s1).portUnits).releaseArrived

/-- The timeout that has waited longest starts. -/
def State.nextTimeout (s : State) : State :=
  match s.waitTimeouts with
  | r :: rs => if s.timeout.isSome then s else ({ s with waitTimeouts := rs }).enterTimeout r
  | [] => s

/-- A 256-bit map by site, as four words. -/
def mapWords (sites : List Nat) : List Nat :=
  (List.range 4).map fun w => ((List.range 64).filter fun i => sites.contains (64 * w + i)).foldl (fun m i => m ||| 2 ^ i) 0

/-- The routers named are told by a notice (R290). -/
def State.timeoutNotice (s : State) (sites : List Nat) : State := s.notifyCtl 0x0506 3 none ((sites.filter (· < 256)).dedup).length 0

/-! ### The command (R289, R365) -/

/-- The outstanding `FABRIC_TIMEOUT` ends. -/
def State.endTimeoutCmd (s : State) (status : Nat) (words : List Nat) : State :=
  match s.outstandingOp Op.FABRIC_TIMEOUT with
  | some d => s.finishCmd d (d.slot.getD status) words
  | none => s

/-- `FABRIC_TIMEOUT` (R289, R365): with FORCE every squad that runs is whistled. -/
def execFabricTimeout (h : CmdHdr) (tables : TimeoutTables) (rsv : Nat) (s : State) : Host.Outcome State Fault Refusal :=
  let cmd := Instr.fabricTimeout h tables rsv
  let r : TimeoutRun := ⟨0, 0, tables⟩
  let n := (tables.ilv.map (·.length)).getD 0
  let sizes := (tables.l2s.map (·.length)).getD 144 == 144 && (tables.alive.map (·.length)).getD 32 == 32
    && (tables.fenced.map (·.length)).getD 18 == 18
  let running := squadMask (fun n => s.squadState n == Squad.RUNNING) (List.range 16)
  .next (s.command h
    { op := Op.FABRIC_TIMEOUT, cmd := cmd, lengthOk := h.length == 208 + 8 * ((n + 1) / 2) && sizes,
      param := check (rsv != 0 || !s.ilvAccepted tables || !s.mapsAccepted r) St.BAD_PARAM,
      state := check ((tables.ilv.isSome && !s.squadsIdle) || (running != 0 && !tables.force)) St.WRONG_STATE }
    fun s =>
      let s1 := s.begin h Op.FABRIC_TIMEOUT cmd false
      let s2 := if tables.force then (squadList running).foldl (fun s n => s.whistleSquad n Cause.FORCE) s1 else s1
      s2.startTimeout r)

end Sys2Proof.Machine
end

