-- ==== Sys2Proof/Machine/Roster.lean ====
section
/-! DEFINITION. The roster (14_roster_and_substitution): fencing, retirement, substitution between runs and live, lost dies, and the roster
of a bring-up. -/

namespace Sys2Proof.Machine

/-! ### The working copy (R377, R389) -/

/-- Sites of a state. -/
def State.sitesIn (s : State) (st : Nat) : List Nat := computeSites.filter fun k => s.siteState k == st

/-- The counts of CTL_ROSTER_STATUS follow the working copy. -/
def State.countRoster (s : State) : State :=
  ((s.put panelSite Reg.CTL_ROSTER_STATUS.BENCH (s.sitesIn Site.BENCH).length).put panelSite Reg.CTL_ROSTER_STATUS.UNPLACED
    ((List.range 144).filter fun d => !s.flag panelSite (Reg.CTL_ROSTER_LDIE.PLACED d)).length).put panelSite Reg.CTL_ROSTER_STATUS.RETIRED_USED
    ((List.range 48).filter fun i => s.flag panelSite (Reg.CTL_ROSTER_FUSE.VALID i)).length

/-- Put a site in a state. -/
def State.setSite (s : State) (site st : Nat) : State := (s.put panelSite (Reg.CTL_ROSTER_SITE.STATE site) st).countRoster

/-- A site carries a logical die, or the die is unplaced and its entry names its home site. -/
def State.placeDie (s : State) (ldie site : Nat) (placed : Bool) : State :=
  (((s.put panelSite (Reg.CTL_ROSTER_LDIE.SITE ldie) site).putFlag panelSite (Reg.CTL_ROSTER_LDIE.PLACED ldie) placed).put panelSite
    (Reg.CTL_ROSTER_LDIE.FENCED ldie) 0).countRoster

/-- The words of `GET_ROSTER` (R389). -/
def State.rosterWords (s : State) : List Nat :=
  let st := [Reg.CTL_ROSTER_STATUS.RETIRED_USED, Reg.CTL_ROSTER_STATUS.BENCH, Reg.CTL_ROSTER_STATUS.UNPLACED, Reg.CTL_ROSTER_STATUS.SUB_ACTIVE,
    Reg.CTL_ROSTER_STATUS.SUB_LIVE, Reg.CTL_ROSTER_STATUS.SUB_LDIE, Reg.CTL_ROSTER_STATUS.SUB_BENCH, Reg.CTL_ROSTER_STATUS.SUB_STEP]
  let four (f : Nat → List Fld) (k : Nat) : List Fld := (List.range 4).flatMap fun j => f (4 * k + j)
  let eight (f : Nat → List Fld) (k : Nat) : List Fld := (List.range 8).flatMap fun j => f (8 * k + j)
  let word (fs : List Fld) : Nat := s.readFields panelSite fs
  word st
    :: ((List.range 36).map fun k => word (four (fun d =>
          [Reg.CTL_ROSTER_LDIE.SITE d, Reg.CTL_ROSTER_LDIE.PLACED d, Reg.CTL_ROSTER_LDIE.FENCED d]) k))
    ++ ((List.range 32).map fun k => word (eight (fun x =>
          [Reg.CTL_ROSTER_SITE.STATE x, Reg.CTL_ROSTER_SITE.ALIVE x, Reg.CTL_ROSTER_SITE.KIND x]) k))
    ++ ((List.range 12).map fun k => word (four (fun i =>
          [Reg.CTL_ROSTER_FUSE.SITE i, Reg.CTL_ROSTER_FUSE.ROUTER_DEAD i, Reg.CTL_ROSTER_FUSE.VALID i]) k))

/-- `GET_ROSTER` (R389). -/
def execGetRoster (h : CmdHdr) (s : State) : Host.Outcome State Fault Refusal :=
  .next (s.command h { op := Op.GET_ROSTER, cmd := .getRoster h, lengthOk := h.length == 0 }
    fun s => s.reply h Op.GET_ROSTER St.OK s.rosterWords)

/-! ### Substitutions in progress -/

/-- The SUB fields tell of an outstanding `SUBSTITUTE`. -/
def State.showSubst (s : State) : State :=
  let put (a l d b t : Nat) : State :=
    ((((s.put panelSite Reg.CTL_ROSTER_STATUS.SUB_ACTIVE a).put panelSite Reg.CTL_ROSTER_STATUS.SUB_LIVE l).put panelSite
      Reg.CTL_ROSTER_STATUS.SUB_LDIE d).put panelSite Reg.CTL_ROSTER_STATUS.SUB_BENCH b).put panelSite Reg.CTL_ROSTER_STATUS.SUB_STEP t
  match s.substs.find? fun x => !x.own with
  | some x => put 1 (if x.live then 1 else 0) x.ldie x.bench x.step
  | none => put 0 0 0 0 0

/-- Put a substitution at a step. -/
def State.stepSubst (s : State) (x : Subst) (step : Nat) : State :=
  ({ s with substs := s.substs.map fun (y : Subst) => if y.bench = x.bench then { y with step := step } else y }).showSubst

/-- A substitution is no longer in progress. -/
def State.removeSubst (s : State) (x : Subst) : State :=
  ((({ s with substs := s.substs.filter fun (y : Subst) => y.bench != x.bench }).dropPower x.bench).dropWaiting 1 x.bench).showSubst

/-- The `SUBSTITUTE` of a substitution ends; one of the control die's own account has no reply. -/
def State.replySubst (s : State) (x : Subst) (status : Nat) : State :=
  if x.own then s
  else
    match s.outstandingOp Op.SUBSTITUTE with
    | some d => s.finishCmd d (d.slot.getD status)
    | none => s

/-- The timeout of a substitution, if it is the one in progress, ends without its tables (R290). -/
def State.cutTimeout (s : State) (x : Subst) : State :=
  match s.timeout with
  | some r => if r.kind = 1 ∧ r.site = x.bench then s.leaveTimeout.nextTimeout else s
  | none => s

/-! ### Fencing (R379) -/

/-- The steps of fencing a site: LOCAL_FENCED is set, cores halt, the switch opens. -/
def State.fenceSite (s : State) (site : Nat) : State :=
  let s1 := ((s.putFlag site Reg.MESH_STATUS.LOCAL_FENCED true).dieOff site).leaveSquad site
  let s2 := (s1.setSite site Site.FENCED).dropPower site
  match s2.rosterDie site with
  | some d => s2.put panelSite (Reg.CTL_ROSTER_LDIE.FENCED d) 1
  | none => s2

/-- What a substitution that has not reached its commit point leaves (R384, R387): the bench die is cleared and powered down, its site
BENCH or FENCED. -/
def State.unwindSubst (s : State) (x : Subst) (fence : Bool) : State :=
  let s1 := (s.cutTimeout x).removeSubst x
  if fence then s1.fenceSite x.bench
  else if s1.siteState x.bench = Site.INCOMING then (s1.dieOff x.bench).setSite x.bench Site.BENCH
  else s1

/-- The squad of a live substitution goes on if it was RUNNING at acceptance (R387). -/
def State.squadBack (s : State) (x : Subst) : State :=
  match s.liveSquad x.ldie with
  | some n =>
    if !x.running then s
    else if s.squadState n = Squad.PAUSED then (if s.flag panelSite (Reg.SQD_STATUS.LATCHED n) then s else s.resumeSquad n)
    else if s.flag panelSite (Reg.SQD_STATUS.PAUSE_PENDING n) then s.cancelPause n
    else s
  | none => s

/-- A substitution ends before its commit point: a row of R387 if it is live. -/
def State.abortSubst (s : State) (x : Subst) (row status : Nat) (fence back : Bool) : State :=
  let s1 := s.unwindSubst x fence
  let s2 := if x.live ∧ back then s1.squadBack x else s1
  let s3 := if x.live then s2.notifyCtl 0x0803 3 (s2.liveSquad x.ldie) row x.ldie else s2
  s3.replySubst x status

/-- Substitutions that a die takes part in end when it is lost (R384, R387): row 7 for a bench die, row 3 for the old die of a live one. -/
def State.loseSubsts (s : State) (site : Nat) : State :=
  (s.substs.filter fun x => x.bench == site || (x.live && x.old == site)).foldl (fun s x =>
    if x.bench = site then s.abortSubst x 7 St.HW_FAULT true true
    else s.abortSubst x 3 St.HW_FAULT false false) s

/-! ### Fences of the control die's own account (R382) -/

/-- The bench die of a block: its lowest BENCH site that is alive and not taken by a substitution. -/
def State.blockBench (s : State) (block : Nat) : Option Nat :=
  computeSites.find? fun k => siteBlock k == block && s.siteState k == Site.BENCH && s.alive k && (s.substAt k).isNone

/-- A substitution begins: its bench die asks for admission. -/
def State.beginSubst (s : State) (own live : Bool) (ldie bench : Nat) : State :=
  let running := (s.liveSquad ldie).any fun n => s.squadState n == Squad.RUNNING
  let old := s.get panelSite (Reg.CTL_ROSTER_LDIE.SITE ldie)
  (({ s with substs := s.substs ++ [Subst.mk own live ldie bench old running 2] }).askPower bench Why.SUBST).showSubst

/-- A site whose squad has stopped is fenced, and the bench die of its block takes its logical die. -/
def State.fenceOwn (s : State) (site : Nat) : State :=
  let s1 := { s with ownFences := s.ownFences.filter fun k => k != site }
  if s1.siteState site ≠ Site.ACTIVE then s1
  else
    let s2 := s1.fenceSite site
    match s2.rosterDie site, s2.blockBench (siteBlock site) with
    | some d, some b => s2.beginSubst true false d b
    | _, _ => s2

/-- Every fence whose squad has stopped is made. -/
def State.settleFences (s : State) : State :=
  (s.ownFences.filter fun k => (s.siteSquad k).isNone).foldl State.fenceOwn s

/-- A fence is asked for: the squad of the die is stopped with cause ROSTER first. -/
def State.askFence (s : State) (site : Nat) : State :=
  let s1 := s.loseSubsts site
  if s1.siteState site = Site.BENCH then s1.fenceSite site
  else if s1.siteState site ≠ Site.ACTIVE ∨ s1.ownFences.contains site then s1
  else
    let s2 := match s1.siteSquad site with
      | some n => s1.loseSquad n Cause.ROSTER
      | none => s1
    { s2 with ownFences := s2.ownFences ++ [site] }

/-- Power delivery or thermal control fences a die. -/
def State.ownFence (s : State) (site : Nat) : State := (s.askFence site).settleFences

/-! ### Commands (R379, R384, R385, R388) -/

/-- A `FENCE_DIE` goes on once the squad of its die has stopped (R379). -/
def State.advanceFence (s : State) (d : Deferred) : State :=
  match d.cmd with
  | .fenceDie _ site _ =>
    if (s.siteSquad site).isSome then s
    else
      let s1 := s.loseSubsts site
      let s2 := if s1.siteState site = Site.ACTIVE ∨ s1.siteState site = Site.BENCH then s1.fenceSite site else s1
      s2.finishCmd d St.OK
  | _ => s

/-- `FENCE_DIE` (R379). -/
def execFenceDie (h : CmdHdr) (site rsv : Nat) (s : State) : Host.Outcome State Fault Refusal :=
  let cmd := Instr.fenceDie h site rsv
  let squad := s.siteSquad site
  .next (s.command h
    { op := Op.FENCE_DIE, cmd := cmd, lengthOk := h.length == 8, param := check (!isCompute site || rsv != 0) St.BAD_PARAM,
      state := (check (squad.any fun n => s.squadState n == Squad.PAUSED) St.WRONG_STATE).orElse fun _ =>
        check (s.siteState site == Site.INCOMING) St.BUSY }
    fun s =>
      let s1 := s.begin h Op.FENCE_DIE cmd true
      let s2 := match squad with
        | some n => s1.whistleSquad n Cause.ROSTER
        | none => s1
      s2.withDeferred h Op.FENCE_DIE State.advanceFence)

/-- `SUBSTITUTE` (R384, R385). -/
def execSubstitute (h : CmdHdr) (ldie bench mode rsv : Nat) (s : State) : Host.Outcome State Fault Refusal :=
  let cmd := Instr.substitute h ldie bench mode rsv
  let squad := s.liveSquad ldie
  let badBench := s.siteState bench != Site.BENCH || !s.alive bench
  let active := s.flag panelSite (Reg.CTL_ROSTER_LDIE.PLACED ldie)
    && s.siteState (s.get panelSite (Reg.CTL_ROSTER_LDIE.SITE ldie)) == Site.ACTIVE
  let liveBad := !active || !(squad.any fun n =>
    (s.squadState n == Squad.RUNNING || s.squadState n == Squad.PAUSED) && s.get panelSite (Reg.SQD_STATUS.HLINES n) != 0)
  .next (s.command h
    { op := Op.SUBSTITUTE, cmd := cmd, lengthOk := h.length == 8,
      param := check (143 < ldie || !isCompute bench || 1 < mode || rsv != 0) St.BAD_PARAM,
      state := (check (badBench || (if mode = 1 then liveBad else squad.isSome)) St.WRONG_STATE).orElse fun _ =>
        check (s.substs.any fun x => x.bench == bench || x.ldie == ldie) St.BUSY }
    fun s => (s.begin h Op.SUBSTITUTE cmd false).beginSubst false (mode == 1) ldie bench)

/-- `RETIRE_DIE` (R388): one fuse entry is written. -/
def State.retire (s : State) (site : Nat) : State :=
  let i := s.get panelSite Reg.CTL_ROSTER_STATUS.RETIRED_USED
  let s1 := s.loseSubsts site
  let s2 := ((s1.put panelSite (Reg.CTL_ROSTER_FUSE.SITE i) site).putFlag panelSite (Reg.CTL_ROSTER_FUSE.ROUTER_DEAD i) (!s1.alive site)).put
    panelSite (Reg.CTL_ROSTER_FUSE.VALID i) 1
  s2.setSite site Site.RETIRED

/-- `RETIRE_DIE` (R388). -/
def execRetireDie (h : CmdHdr) (site rsv : Nat) (s : State) : Host.Outcome State Fault Refusal :=
  let cmd := Instr.retireDie h site rsv
  let st := s.siteState site
  let done := st == Site.RETIRED
  .next (s.command h
    { op := Op.RETIRE_DIE, cmd := cmd, lengthOk := h.length == 8, param := check (!isCompute site || rsv != 0) St.BAD_PARAM,
      state := (check (!done && ((st != Site.FENCED && st != Site.BENCH) || (s.rosterDie site).isSome)) St.WRONG_STATE).orElse fun _ =>
        check (!done && 48 ≤ s.get panelSite Reg.CTL_ROSTER_STATUS.RETIRED_USED) St.FUSE_EXHAUSTED }
    fun s =>
      (s.begin h Op.RETIRE_DIE cmd true).withDeferred h Op.RETIRE_DIE fun s d =>
        let s1 := if done then s else s.retire site
        s1.finishCmd d St.OK [48 - s1.get panelSite Reg.CTL_ROSTER_STATUS.RETIRED_USED])

/-! ### The steps of a substitution -/

/-- The bench die has been admitted (step 3): it is INCOMING. -/
def State.substGranted (s : State) (site : Nat) : State :=
  match s.substAt site with
  | some x => ((s.powerOn site).setSite site Site.INCOMING).stepSubst x 3
  | none => s

/-- Admission was refused for 100 ms: nothing has changed. -/
def State.substDeferred (s : State) (site : Nat) : State :=
  match s.substAt site with
  | some x => (s.removeSubst x).replySubst x St.DEFERRED
  | none => s

/-- A live substitution copies once its squad is PAUSED (step 5). -/
def State.advanceSubst (s : State) (x : Subst) : State :=
  if x.live ∧ x.step = 4 ∧ (s.liveSquad x.ldie).any (fun n => s.squadState n == Squad.PAUSED) then s.stepSubst x 5 else s

/-- The self-test of the bench die has ended (steps 3 to 5 of R384, 3 and 4 of R385). -/
def State.substTested (s : State) (x : Subst) (ok : Bool) : State :=
  if !ok then s.abortSubst x 4 St.HW_FAULT true true
  else
    let s1 := (s.clearDie x.bench).dropPower x.bench
    if x.live then
      let s2 := s1.stepSubst x 4
      let s3 := match s2.liveSquad x.ldie with
        | some n => if s2.squadState n = Squad.RUNNING then s2.requestPause n else s2
        | none => s2
      s3.advanceSubst { x with step := 4 }
    else
      let s2 := if s1.rosterDie x.old = some x.ldie ∧ s1.siteState x.old = Site.ACTIVE then s1.fenceSite x.old else s1
      (s2.stepSubst x 5).startTimeout ⟨1, x.bench, TimeoutTables.none⟩

/-- Copy the entries of n keys from `src` on that satisfy a test to those from `dst` on. -/
def copyKeys {β : Type} (m : SMap β) (src dst n : Nat) (p : Nat → Bool) : SMap β :=
  mapPut (mapFilter (fun k => !(dst ≤ k && k < dst + n && p (k - dst))) m)
    (((mapRange src (src + n) m).filter fun e => p (e.1 - src)).map fun e => (e.1 - src + dst, e.2))

/-- Copy memories of a die to another with their poison (R385, R386): the queue pools, or all the others. -/
def State.copyMems (s : State) (old new : Nat) (pools : Bool) : State :=
  let k (x : Nat) : Nat := sramKey x 0 0 0
  let n := k 1
  let byte (o : Nat) : Bool := (keyMem o == Mem.POOL) == pools
  let word (o : Nat) : Bool := (keyMem (8 * o) == Mem.POOL) == pools
  { s with
    sram := copyKeys s.sram (k old) (k new) n byte
    sramPoison := copyKeys s.sramPoison (k old / 8) (k new / 8) (n / 8) word
    sramUpset := copyKeys s.sramUpset (k old / 8) (k new / 8) (n / 8) word }

/-- The bulk copy of a live substitution ends (R385 step 6). -/
def execBulkCopyDone (s : State) : Host.Outcome State Fault Refusal :=
  .next (match s.substs.find? fun x => x.live && x.step == 5 with
    | some x => ((s.copyMems x.old x.bench false).stepSubst x 6).startTimeout ⟨1, x.bench, TimeoutTables.none⟩
    | none => s)

/-- A bulk copy makes no progress for 20 µs while the old die answers (R387). -/
def execCopyStall (s : State) : Host.Outcome State Fault Refusal :=
  .next (match s.substs.find? fun x => x.live && x.step == 5 with
    | some x => s.abortSubst x 2 St.HW_FAULT false true
    | none => s)

/-- What is copied inside the timeout of a live substitution (R385): pools, queues and scan records; the new die joins the squad. -/
def State.moveDie (s : State) (x : Subst) : State :=
  let s1 := (s.copyMems x.old x.bench true).putSnapshot (s.snapshot x.ldie x.old) x.bench
  [Reg.DIE_SIDEBAND.OBEY, Reg.DIE_SIDEBAND.SQUAD, Reg.DIE_SIDEBAND.MEMBER, Reg.DIE_SHOT.COUNT].foldl
    (fun s f => s.put x.bench f (s.get x.old f)) s1

/-- A logical die is on its new site (steps 5 and 6 of R384, 6 of R385), the commit point. -/
def State.commitSubst (s : State) (x : Subst) : State :=
  let placed := s.flag panelSite (Reg.CTL_ROSTER_LDIE.PLACED x.ldie)
  let s1 := (s.placeDie x.ldie x.bench true).setSite x.bench Site.ACTIVE
  let s2 := s1.putFlag x.bench Reg.MESH_STATUS.LOCAL_FENCED false
  let s3 := if x.live then s2.putFlag x.old Reg.MESH_STATUS.LOCAL_FENCED true else s2
  s3.notifyCtl 0x0802 0 (s3.liveSquad x.ldie) (x.ldie + if placed then 0 else 256) (x.old + x.bench * 256)

/-- The rest of a substitution after its commit point (step 6 of R384, 7 of R385). -/
def State.endSubst (s : State) (x : Subst) : State :=
  let s1 := if x.live then (s.fenceSite x.old).squadBack x else s
  (s1.removeSubst x).replySubst x St.OK

/-! ### The end of a timeout (R289, R290) -/

/-- The drain is complete (R289 steps 5 to 7). Dies that the timeout returns to service are no longer LOCAL_FENCED (R280, R448); sites that
became BENCH at bring-up are switched off. -/
def State.timeoutDone (s : State) (r : TimeoutRun) : State :=
  let x := if r.kind = 1 then s.substAt r.site else none
  let s1 := match x with
    | some x => if x.live then s.moveDie x else s
    | none => s
  let s2 := s1.putTables r
  let s3 := match x with
    | some x => s2.commitSubst x
    | none => s2
  let s4 := if r.kind = 3 ∨ r.kind = 4 then
      (s3.sitesIn Site.ACTIVE).foldl (fun s k => s.putFlag k Reg.MESH_STATUS.LOCAL_FENCED false) s3
    else s3
  let s5 := if r.kind = 3 then
      ((s4.sitesIn Site.BENCH).foldl State.switchOff (s4.put panelSite Reg.CTL_BOOT.STAGE 5)).bringupDone
    else s4
  let s6 := s5.leaveTimeout
  let s7 := match x with
    | some x => s6.endSubst x
    | none => if r.kind = 0 then s6.endTimeoutCmd St.OK [] else s6
  s7.nextTimeout

/-- Two drain sweeps find every router EMPTY (R289). -/
def execTimeoutDrainDone (s : State) : Host.Outcome State Fault Refusal :=
  .next (match s.timeout with
    | some r => if s.drained r then s.timeoutDone r else s
    | none => s)

/-- What follows a timeout that ended without its table write: its command, or its substitution, ends with its status. -/
def State.timeoutLost (s : State) (r : TimeoutRun) (status : Nat) (words : List Nat) : State :=
  let s1 :=
    if r.kind = 0 then s.endTimeoutCmd status words
    else if r.kind = 1 then
      match s.substAt r.site with
      | some x => s.abortSubst x 6 status false true
      | none => s
    else s
  s1.nextTimeout

/-- The drain is not complete at 53 µs (R290): TIMEOUT is cleared and the tables stay. -/
def execTimeoutDrainLimit (notEmpty : List Nat) (s : State) : Host.Outcome State Fault Refusal :=
  .next (match s.timeout with
    | some r => (s.leaveTimeout.timeoutNotice notEmpty).timeoutLost r St.TIMED_OUT (mapWords notEmpty)
    | none => s)

/-- A router that stays alive does not answer (R290): WP is driven, and TIMEOUT stays set. -/
def execRouterNoAnswer (site : Nat) (notEmpty : List Nat) (s : State) : Host.Outcome State Fault Refusal :=
  .next (match s.timeout with
    | some r =>
      if s.aliveNext r site then
        let named := site :: notEmpty
        let s1 := ({ s with timeout := none }).driveLine 16 Cause.PANEL 2 0
        (s1.timeoutNotice named).timeoutLost r St.HW_FAULT (mapWords named)
      else s
    | none => s)

/-! ### Lost dies (R380, R381) -/

/-- A port whose link die is lost: nothing it held can be sent or answered. -/
def State.portLost (s : State) (port : Nat) : State :=
  let s1 := { s with txFrames := s.txFrames.filter fun t => t.port != port, rxFrames := s.rxFrames.filter fun r => r.port != port,
                     proxies := s.proxies.filter fun e => e.port != port, proxyWait := s.proxyWait.filter fun e => e.1 != port }
  ((s1.countEntries port).jput port Reg.PORT_STATUS.STATE Port.OFF).windowsDown port

/-- A router stops: what it held is lost, and its neighbours' ports towards it go DOWN (R267, R397). -/
def State.routerStops (s : State) (site : Nat) : State :=
  let s1 := { s with
    held := s.held.filter fun h => h.site != site, txFlits := s.txFlits.filter fun t => t.site != site
    rxFlits := s.rxFlits.filter fun r => r.site != site, meshWait := s.meshWait.filter fun w => w.site != site
    delivered := s.delivered.filter fun d => d.site != site }
  (List.range 4).foldl (fun s p =>
    match s.farSite site p with
    | some f => (s.put site (Reg.MESH_PORT.STATE p) 2).downEnd f ((p + 2) % 4)
    | none => s) s1

/-- A die is dead (R380): its squad stops, its site is fenced, and a timeout bridges it. -/
def State.dieDead (s : State) (site : Nat) : State :=
  let s1 := s.loseSubsts site
  let s2 := match s1.siteSquad site with
    | some n => s1.loseSquad n Cause.ROSTER
    | none => s1
  let ldie := s2.rosterDie site
  let s3 := s2.routerStops site
  let s4 := if isCompute site ∧ s3.siteState site ≠ Site.RETIRED then s3.fenceSite site else s3
  let s5 := if dieKind site = .link then s4.portLost (portOfSite site) else s4
  let s6 := s5.notifyCtl 0x0801 3 (ldie.bind s5.liveSquad) (ldie.getD 255) site
  { s6 with ownFences := s6.ownFences.filter fun k => k != site }.startTimeout ⟨2, site, TimeoutTables.none⟩

/-- A far router does not answer within 10 µs after a port towards it went DOWN (R380). The active control die cannot miss itself. -/
def execDieDead (site : Nat) (s : State) : Host.Outcome State Fault Refusal :=
  let towards := (List.range 4).any fun p => (s.farSite site p).any fun f => s.portDown f ((p + 2) % 4)
  let known := (s.timeout.toList ++ s.waitTimeouts).any fun r => r.kind == 2 && r.site == site
  .next (if hasRouter site ∧ s.alive site ∧ site ≠ s.controlSite ∧ towards ∧ !known then s.dieDead site else s)

/-- A fenced reply reaches the control die (R285): the request it answers was answered when it was made (R362). -/
def execFencedReply (ldie : Nat) (s : State) : Host.Outcome State Fault Refusal :=
  let isIt (d : SitePacket) : Bool := d.site == s.controlSite && d.packet.cls == 3 && d.packet.sunit == 6
    && d.packet.payload == leBytes 2 0 ++ [BitVec.ofNat 8 ldie, 1, 0, 0, 0, 0]
  .next { s with delivered := dropFirst isIt s.delivered }

/-! ### The roster of a bring-up (R378, R448) -/

/-- A site is on the retirement list. -/
def State.retired (s : State) (site : Nat) : Bool :=
  (List.range 48).any fun i => s.flag panelSite (Reg.CTL_ROSTER_FUSE.VALID i) && s.get panelSite (Reg.CTL_ROSTER_FUSE.SITE i) == site
/-- An entry of the list records its router dead. -/
def State.routerDead (s : State) (site : Nat) : Bool :=
  (List.range 48).any fun i => s.flag panelSite (Reg.CTL_ROSTER_FUSE.VALID i) && s.get panelSite (Reg.CTL_ROSTER_FUSE.SITE i) == site
    && s.flag panelSite (Reg.CTL_ROSTER_FUSE.ROUTER_DEAD i)

/-- A compute site can carry a logical die. -/
def State.usable (s : State) (site : Nat) : Bool := s.alive site && !s.retired site && s.flag site Die.PASSED && !s.flag site Die.FAILED

/-- The site of a list that lies the fewest hops from another; ties go to the first. -/
def nearest (site : Nat) (ks : List Nat) : Option Nat :=
  ks.foldl (fun best k => match best with
    | none => some k
    | some b => if hopCount site k < hopCount site b then some k else best) none

/-- The sites of the logical dies that have one (R378 steps 2 and 3). -/
def State.placements (s : State) : List (Nat × Nat) :=
  let home := ((List.range 144).filter fun d => s.usable (homeSite d)).map fun d => (d, homeSite d)
  ((List.range 144).filter fun d => !s.usable (homeSite d)).foldl (fun ps d =>
    match nearest (homeSite d) (computeSites.filter fun k => s.usable k && !(ps.any fun p => p.2 == k)) with
    | some k => ps ++ [(d, k)]
    | none => ps) home

/-- The working copy is built (R378). -/
def State.buildRoster (s : State) : State :=
  let ps := s.placements
  let s1 := computeSites.foldl (fun s k =>
    let st := if s.retired k then Site.RETIRED
      else if !s.usable k then Site.FENCED
      else if ps.any fun p => p.2 == k then Site.ACTIVE
      else Site.BENCH
    s.put panelSite (Reg.CTL_ROSTER_SITE.STATE k) st) s
  (List.range 144).foldl (fun s d =>
    match ps.find? fun p => p.1 == d with
    | some p => s.placeDie d p.2 true
    | none => s.placeDie d (homeSite d) false) s1

/-- Every compute round has ended: each block that has power has no power-up left. -/
def State.roundsOver (s : State) : Bool :=
  (List.range 16).all fun b =>
    let st := s.get panelSite (Reg.PWR_BLOCK.STATE b)
    st == 2 || (st == 1 && !(s.powerUps.any fun p => siteBlock p.site == b))

/-- The roster is built, and a timeout with the final tables follows (R448 steps 1 and 2). -/
def execRosterBuild (s : State) : Host.Outcome State Fault Refusal :=
  let stage := s.get panelSite Reg.CTL_BOOT.STAGE
  .next (if (stage = 3 ∨ stage = 4) ∧ s.roundsOver ∧ s.timeout.isNone
        ∧ (s.flag panelSite Reg.THM_PANEL.FLOW_OK ∨ s.flag panelSite Reg.THM_PANEL.AIR) then
      (s.buildRoster.put panelSite Reg.CTL_BOOT.STAGE 4).startTimeout ⟨3, 0, TimeoutTables.none⟩
    else s)

end Sys2Proof.Machine
end

