-- ==== Sys2Proof/Machine/Power.lean ====
section
/-! DEFINITION. Power delivery (16_power_delivery): monitors, the core supply, supply paths, caps and budgets. -/

namespace Sys2Proof.Machine

/-- Thresholds of R410 that a corner is beyond: bits 0, 1 and 2 for 15, 40 and 80 mV. -/
def Die.PATH (corner : Nat) : Fld := ⟨0x1000140, 3 * corner, 3, 0, .int⟩

/-- VIN power sampled since the last update of the thermal resistance, in 10 µW, and how many samples (R431). -/
def Die.P_SUM : Fld := ⟨0x1000148, 0, 48, 0, .int⟩
def Die.P_COUNT : Fld := ⟨0x1000150, 0, 24, 0, .int⟩

/-- Lowest corner voltage since the voltage scan in progress was asked for, in mV (R485). -/
def Die.SCAN_VIN : Fld := ⟨0x1000158, 0, 16, 0, .int⟩

/-- A die that VIN feeds. -/
def onVin (site : Nat) : Bool := isCompute site || dieKind site == .link

/-- The dies of a block that VIN feeds, in ascending site order. -/
def vinSites (block : Nat) : List Nat := (List.range 256).filter fun k => onVin k && siteBlock k == block

/-! ### Monitors (R405, R406) -/

/-- The block's draw follows its dies' currents. -/
def State.sumDraw (s : State) (block : Nat) : State :=
  s.put panelSite (Reg.PWR_BLOCK.DRAW block) ((vinSites block).map fun k => s.get k Reg.PWR_DIE_MEAS.IVIN).sum

/-- A die samples its corners: volts in mV, currents in 0.01 A (R406). VCORE is given at code 60 alone (R407): it is a free value elsewhere. -/
def State.powerSample (s : State) (site : Nat) (volts amps : List Nat) : State :=
  let s1 := (List.range 4).foldl (fun s c =>
    (s.put site (Reg.PWR_CORNER.V c) (volts.getD c 0)).put site (Reg.PWR_CORNER.I c) (amps.getD c 0)) s
  let power := ((List.range 4).map fun c => volts.getD c 0 * amps.getD c 0).sum
  let s2 := (((s1.put site Reg.PWR_DIE_MEAS.IVIN (amps.sum / 10)).put site Reg.PWR_DIE_MEAS.POWER (power / 100000)).bump site Die.P_SUM
    power).bump site Die.P_COUNT
  let (v, s3) := s2.free
  let core := if s.get site Reg.CLK_CORE_STATUS.FREQ = 60 then 750 else v
  let s4 := if isCompute site ∧ s.flag site Reg.PWR_DIE_STATUS.VIN_SW then s3.put site Reg.PWR_DIE_MEAS.VCORE core else s2
  let low := volts.foldl min (volts.headD 0)
  ((s4.put site Reg.PWR_DIE_MEAS.VIN low).put site Die.SCAN_VIN (min low (s.get site Die.SCAN_VIN))).sumDraw (siteBlock site)

/-- A die samples its corners (R406). -/
def execPowerSample (site : Nat) (volts amps : List Nat) (s : State) : Host.Outcome State Fault Refusal :=
  .next (if onVin site ∧ volts.length = 4 ∧ amps.length = 4 then s.powerSample site volts amps else s)

/-- VIN at a corner stays below 1.60 V (R405): the die halts and its switch opens. The fence that follows (R382) waits until the control die
has seen whether its block has failed (R414). -/
def execVinUndervolt (site corner mv : Nat) (s : State) : Host.Outcome State Fault Refusal :=
  .next (if onVin site ∧ corner < 4 ∧ mv < 1600 ∧ s.flag site Reg.PWR_DIE_STATUS.VIN_SW then
      let s1 := ((s.bump site Reg.PWR_DIE_EVENTS.UV_EVENTS).notify site 63 0x0A01 3 corner mv)
      if isCompute site then
        (((s1.put site Reg.PWR_DIE_STATUS.FENCE_CAUSE 5).putFlag site Reg.MESH_STATUS.LOCAL_FENCED true).askFence site).dieOff site
      else s1.switchOff site
    else s)

/-- VAON current stays above 6 A (R405): the VAON switch opens and the router stops; the dead die is found by R380. -/
def execVaonOvercurrent (site : Nat) (s : State) : Host.Outcome State Fault Refusal :=
  .next (if hasRouter site ∧ s.flag site Reg.PWR_DIE_STATUS.VAON_SW then
      ((s.put site Reg.PWR_DIE_STATUS.VAON_SW 0).put site Reg.PWR_DIE_STATUS.FENCE_CAUSE 4).routerStops site
    else s)

/-! ### The core supply (R407, R408) -/

/-- Working phases of a mask. -/
def phasesIn (mask : Nat) : Nat := ((List.range 8).filter mask.testBit).length

/-- A die's cap is lowered: the lowest of several applies. -/
def State.lowerCap (s : State) (site cap : Nat) : State :=
  s.put site Reg.PWR_DIE_STATUS.CAP (min cap (s.get site Reg.PWR_DIE_STATUS.CAP))

/-- A buck phase fails (R407). -/
def State.phaseFail (s : State) (site phase : Nat) : State :=
  let s1 := (s.setBit site Die.PHASES_OUT phase).clrBit site Reg.PWR_DIE_STATUS.PHASE_OK phase
  let n := phasesIn (s1.get site Reg.PWR_DIE_STATUS.PHASE_OK)
  let s2 := (s1.bump site Reg.PWR_DIE_EVENTS.PHASE_FAILS).notify site 63 0x0A02 2 (phase + 8 * n) 0
  if n = 7 then s2.lowerCap site 73
  else if n = 6 then ((s2.lowerCap site 63).put site Reg.PWR_DIE_STATUS.CLK_LIMIT 48).applyCeiling site
  else (s2.put site Reg.PWR_DIE_STATUS.FENCE_CAUSE 1).ownFence site

/-- A buck phase fails (R407). -/
def execPhaseFail (site phase : Nat) (s : State) : Host.Outcome State Fault Refusal :=
  .next (if isCompute site ∧ phase < 8 ∧ s.flag site Reg.PWR_DIE_STATUS.VIN_SW ∧ (s.get site Reg.PWR_DIE_STATUS.PHASE_OK).testBit phase then
      s.phaseFail site phase
    else s)

/-- A router-island cell fails (R408): the router runs on the other, or stops. -/
def execIslandCellFail (site cell : Nat) (s : State) : Host.Outcome State Fault Refusal :=
  .next (if isCompute site ∧ cell < 2 ∧ (s.get site Reg.PWR_DIE_STATUS.ISLAND_OK).testBit cell then
      let s1 := ((s.clrBit site Reg.PWR_DIE_STATUS.ISLAND_OK cell).bump site Reg.PWR_DIE_EVENTS.ISLAND_FAILS).notify site 63 0x0A03 2 cell 0
      if s1.get site Reg.PWR_DIE_STATUS.ISLAND_OK = 0 then s1.routerStops site else s1
    else s)

/-! ### Supply paths (R410) -/

/-- What a persistent rise of a corner does that has not crossed a threshold before. -/
def State.pathCross (s : State) (site corner k rise : Nat) : State :=
  let s1 := s.setBit site (Die.PATH corner) k
  let threshold := if k = 0 then 15 else 40
  if k = 2 then (s1.put site Reg.PWR_DIE_STATUS.FENCE_CAUSE 2).ownFence site
  else
    let s2 := (s1.bump site Reg.PWR_DIE_EVENTS.PATH_NOTICES).notify site 63 0x0A04 2 (corner + 4 * threshold) rise
    if k = 1 then s2.lowerCap site 55 else s2

/-- The normalised drop of a corner is sampled (R410). -/
def State.pathSample (s : State) (site corner base now : Nat) (persistent : Bool) : State :=
  let rise := now - base
  let above := (List.range 3).filter fun k => [15, 40, 80].getD k 0 < rise
  let s1 := (s.put site (Reg.PWR_CORNER.BASE corner) base).put site (Reg.PWR_CORNER.NOW corner) now
  let s2 := (List.range 3).foldl (fun s k => if above.contains k then s else s.clrBit site (Die.PATH corner) k) s1
  if persistent then
    (above.filter fun k => !(s.get site (Die.PATH corner)).testBit k).foldl (fun s k => s.pathCross site corner k rise) s2
  else s2

/-- The normalised drop of a corner is sampled (R410). -/
def execPathSample (site corner base now : Nat) (persistent : Bool) (s : State) : Host.Outcome State Fault Refusal :=
  .next (if onVin site ∧ corner < 4 ∧ s.flag site Reg.PWR_DIE_STATUS.VIN_SW then s.pathSample site corner base now persistent else s)

/-! ### Budgets and caps (R413, R418–R420, R437) -/

/-- Watts the control die counts for everything but compute dies (R417, R437). -/
def State.fixedPower (s : State) : Nat := if s.flag panelSite Reg.THM_PANEL.AIR then 943 else 2965

/-- The grade cap (R418). -/
def State.gradeCap (s : State) : Nat := 15000 - 1500 * s.get panelSite Reg.PWR_GRADE.GRADE

/-- The cap in force (R418). -/
def State.capInForce (s : State) : Nat :=
  min (min (s.get panelSite Reg.PWR_PANEL.HOST_CAP) (s.get panelSite Reg.PWR_PANEL.THERMAL_CAP)) s.gradeCap

/-- A block's LIMIT as power in 0.1 W (R419): LIMIT × 1.70 V / 1.1. -/
def State.blockPower (s : State) (block : Nat) : Rat := (s.get panelSite (Reg.PWR_BLOCK.LIMIT block) * 170 : Nat) / 11

/-- A compute die with a budget: its site, its own cap and its budget, in 0.1 W. -/
structure Share where
  site : Nat
  cap : Rat
  budget : Rat
  deriving DecidableEq, Repr

/-- The dies that get a budget, each with its own cap (R407, R410, R432). -/
def State.shares (s : State) : List Share :=
  (computeSites.filter fun k => s.siteState k == Site.ACTIVE || s.siteState k == Site.INCOMING).map fun k =>
    ⟨k, (min (10 * s.get k Reg.PWR_DIE_STATUS.CAP) (s.get k Reg.THM_DIE_THETA.P_TH) : Nat), 0⟩

/-- Power of a block that its compute dies may take (R419 step 3). -/
def State.blockRoom (s : State) (block : Nat) : Rat := s.blockPower block - (if linkBlocks.contains block then 550 else 0)

/-- The compute budgets of a block. -/
def blockSum (block : Nat) (xs : List Share) : Rat := ((xs.filter fun x => siteBlock x.site == block).map (·.budget)).sum

/-- Dies of a block over its sum are cut equally until it is met (R419 step 3): each round cuts those that still have a budget, and either meets
the sum or takes one of them to 0. -/
def State.cutBlock (s : State) (block : Nat) : Nat → List Share → List Share
  | 0, xs => xs
  | n + 1, xs =>
    let excess := blockSum block xs - s.blockRoom block
    let live (x : Share) : Bool := siteBlock x.site == block && 0 < x.budget
    let k := (xs.filter live).length
    if 0 < excess ∧ k ≠ 0 then
      s.cutBlock block n (xs.map fun x => if live x then { x with budget := max 0 (x.budget - excess / k) } else x)
    else xs

/-- Power not taken is offered equally to the dies still below their caps, until no budget changes (R419 steps 2 to 4). -/
def State.offer (s : State) (pool : Rat) : Nat → List Share → List Share
  | 0, xs => xs
  | n + 1, xs =>
    let left := pool - (xs.map (·.budget)).sum
    let open_ (x : Share) : Bool := x.budget < x.cap && blockSum (siteBlock x.site) xs < s.blockRoom (siteBlock x.site)
    let k := (xs.filter open_).length
    if k = 0 ∨ left ≤ 0 then xs
    else
      let ys := xs.map fun x => if open_ x then { x with budget := min x.cap (x.budget + left / k) } else x
      s.offer pool n ((List.range 16).foldl (fun zs b => s.cutBlock b zs.length zs) ys)

/-- The control die sets the cap in force, the blocks' budgets and each die's budget (R418, R419); panel power counts every entry but compute
dies at its maximum (R417). -/
def State.updateBudgets (s : State) : State :=
  let cap := s.capInForce
  let used := (computeSites.map fun k => s.get k Reg.PWR_DIE_MEAS.POWER).sum
  let s1 := (s.put panelSite Reg.PWR_PANEL.IN_FORCE cap).put panelSite Reg.PWR_PANEL.POWER (used + s.fixedPower)
  let s2 := (List.range 16).foldl (fun s b => s.put panelSite (Reg.PWR_BLOCK.BUDGET b) (s.get panelSite (Reg.PWR_BLOCK.LIMIT b) * 17 / 11)) s1
  (s.offer (10 * (cap - s.fixedPower : Nat) : Nat) 200 s.shares).foldl (fun s x => s.put x.site Reg.PWR_DIE_BUDGET.BUDGET x.budget.floor.toNat) s2

/-- A die compares its averages, in 0.1 W, with its budget (R420). The codes are lowered or raised once for each event. -/
def execCeilingControl (site avg1us avg1ms : Nat) (s : State) : Host.Outcome State Fault Refusal :=
  .next (if !isCompute site ∨ !s.flag site Reg.PWR_DIE_STATUS.VIN_SW then s
    else
      let p := s.get site Reg.PWR_DIE_BUDGET.BUDGET
      let code := s.get site Die.P_CEIL
      let s1 := (s.put site Reg.PWR_DIE_BUDGET.AVG_1MS avg1ms).put site Reg.PWR_DIE_BUDGET.PEAK
        (max (min avg1us 1023) (s.get site Reg.PWR_DIE_BUDGET.PEAK))
      let s2 := if 11 * p < 10 * avg1us then (s1.put site Die.P_CEIL (code - 4)).bump site Reg.PWR_DIE_BUDGET.LIMIT_EVENTS
        else if p < avg1ms then s1.put site Die.P_CEIL (code - 1)
        else if 100 * avg1ms < 95 * p then s1.put site Die.P_CEIL (min 72 (code + 1))
        else s1
      s2.applyCeiling site)

/-- `SET_POWER_CAP` (R418, R365). -/
def execSetPowerCap (h : CmdHdr) (cap rsv : Nat) (s : State) : Host.Outcome State Fault Refusal :=
  .next (s.command h
    { op := Op.SET_POWER_CAP, cmd := .setPowerCap h cap rsv, lengthOk := h.length == 8,
      param := check (cap < 1000 || 15000 < cap || rsv != 0) St.BAD_PARAM }
    fun s =>
      let s1 := (s.put panelSite Reg.PWR_PANEL.HOST_CAP cap).updateBudgets
      s1.reply h Op.SET_POWER_CAP St.OK [s1.get panelSite Reg.PWR_PANEL.IN_FORCE])

/-- `SET_BLOCK_LIMITS` (R413): 0 leaves a block's LIMIT unchanged. -/
def execSetBlockLimits (h : CmdHdr) (limits : List Nat) (s : State) : Host.Outcome State Fault Refusal :=
  .next (s.command h
    { op := Op.SET_BLOCK_LIMITS, cmd := .setBlockLimits h limits, lengthOk := h.length == 32 && limits.length == 16,
      param := check (limits.any fun a => a != 0 && (a < 100 || 1000 < a)) St.BAD_PARAM }
    fun s =>
      let s1 := limits.zipIdx.foldl (fun s e => if e.1 = 0 then s else s.put panelSite (Reg.PWR_BLOCK.LIMIT e.2) e.1) s
      s1.updateBudgets.reply h Op.SET_BLOCK_LIMITS St.OK)

/-- A signed number in 16 bits (R428). -/
def State.tj (s : State) (site : Nat) : Int := signed16 (s.get site Reg.THM_DIE_STATUS.TJ)

/-- The hottest junction of a block. -/
def State.hottest (s : State) (block : Nat) : Int :=
  match (List.range 256).filter fun k => hasRouter k && siteBlock k == block with
  | k :: ks => ks.foldl (fun t k => max t (s.tj k)) (s.tj k)
  | [] => 0

/-- The words of `GET_POWER_THERMAL` (R365). -/
def State.powerWords (s : State) : List Nat :=
  let g (f : Fld) : Nat := s.get panelSite f
  (g Reg.PWR_PANEL.POWER + g Reg.PWR_PANEL.IN_FORCE * 2 ^ 32)
    :: ((List.range 16).map fun b =>
      g (Reg.PWR_BLOCK.DRAW b) + ((vinSites b).map fun k => s.get k Reg.PWR_DIE_MEAS.POWER).sum % 65536 * 2 ^ 16 + wrap16 (s.hottest b) * 2 ^ 32)
    ++ [g Reg.THM_PANEL.INLET + g Reg.THM_PANEL.OUTLET * 2 ^ 16 + g Reg.THM_PANEL.FLOW_OK * 2 ^ 32]

/-- `GET_POWER_THERMAL` (R365). -/
def execGetPowerThermal (h : CmdHdr) (s : State) : Host.Outcome State Fault Refusal :=
  .next (s.command h { op := Op.GET_POWER_THERMAL, cmd := .getPowerThermal h, lengthOk := h.length == 0 }
    fun s => s.reply h Op.GET_POWER_THERMAL St.OK s.powerWords)

/-- A write of PWR_DIE_BUDGET.PEAK_RESET (R422). -/
def execPeakReset (h : CmdHdr) (site : Nat) (s : State) : Host.Outcome State Fault Refusal :=
  .next (s.csrWrite h (.peakReset h site) site (hasRouter site) fun s => s.put site Reg.PWR_DIE_BUDGET.PEAK 0)

end Sys2Proof.Machine
end

