-- ==== Sys2Proof/Machine/Boot.lean ====
section
/-! DEFINITION. `RESET_N`, the control die's boot, and cold bring-up up to the roster (18_bring_up_and_reset); what is fused, and what the secure
SRAM holds (19_security_and_life_cycle). -/

namespace Sys2Proof.Machine

/-! ### State beside the registers -/

/-- Bring-up waves that have ended (R443). -/
def Boot.WAVES : Fld := ⟨0x1500100, 1, 6, 0, .int⟩
/-- Blocks whose `BLK_EN` bring-up has raised (R445). -/
def Boot.RAISED : Fld := ⟨0x1500100, 8, 16, 0, .int⟩
/-- Secure SRAM: the identity key, FW_DIGEST and the version of the running firmware (R471). -/
def Sec.IDKEY : Fld := ⟨0x1500110, 0, 521, 0, .int⟩
def Sec.FW_DIGEST : Fld := ⟨0x1500118, 0, 512, 0, .int⟩
def Sec.FW_VERSION : Fld := ⟨0x1500120, 0, 64, 0, .int⟩
/-- Fuses: the device seed, the vendor key-hash slots, the owner key hash, and the writes of the envelope grade (R457). -/
def Fuse.SEED : Fld := ⟨0x1500200, 0, 512, 0, .int⟩
def Fuse.SLOT (k : Nat) : Fld := ⟨0x1500208 + 8 * k, 0, 512, 0, .int⟩
def Fuse.OWNER : Fld := ⟨0x1500228, 0, 512, 0, .int⟩
def Fuse.GRADES : Fld := ⟨0x1500230, 0, 3, 0, .int⟩

/-- A field of the panel that is fused (R457): it keeps its value through `RESET_N`. -/
def isFuse (k : Nat) : Bool :=
  let off := k / 64 % 2 ^ 26
  let lo := k % 64
  k / 64 / 2 ^ 26 == panelSite
    && ((0x1500200 ≤ off && off < 0x1500238) || (0x700400 ≤ off && off < 0x700460) || off == 0xA80008 || off == 0xD00010
      || (off == 0xD00000 && [0, 5, 23, 39, 46].contains lo) || (off == 0xD00008 && lo < 8))

/-! ### `RESET_N` (R8, R440, R441) -/

/-- `RESET_N` is asserted: every register takes its reset value, and all that is under way is gone. Fuses, the boot flash and the cells of HBM
stay. -/
def State.assertReset (s : State) : State :=
  { State.reset with
    fld := mapFilter isFuse s.fld, hbm := s.hbm, hbmPoison := s.hbmPoison, hbmUpset := s.hbmUpset, flash := s.flash, fresh := s.fresh
    pending := s.pending }

/-- `RESET_N` is asserted (R440, R471). -/
def execResetNAssert (s : State) : Host.Outcome State Fault Refusal := .next s.assertReset

/-- The provisioned host port (R458). -/
def State.provisioned (s : State) : Nat :=
  if s.flag panelSite Reg.SEC_PROVISION.HOSTPORT_SET then s.get panelSite Reg.SEC_PROVISION.HOSTPORT else 0

/-- A new challenge from the control die's random source (R465). -/
def State.newChallenge (s : State) : State := s.free.2.put panelSite Reg.SEC_CHALLENGE.CHALLENGE s.free.1

/-- The clocks that run on VAON and VCTL lock (R391, R392): every fabric PLL, the hubs' PHY PLLs, the control dies' core generators at a code
within their limits. -/
def State.startClocks (s : State) : State :=
  let s1 := ((List.range 256).filter hasRouter).foldl (fun s k => s.put k Reg.CLK_FABRIC.FAB_LOCK 1) s
  let s2 := (List.range 64).foldl (fun s k => s.put (siteOfStack k) Reg.CLK_FABRIC.AUX_LOCK 1) s1
  [0, 1].foldl (fun s d =>
    let k := siteOfControl d
    (s.free.2.put k Reg.CLK_CORE_STATUS.CORE_LOCK 1).put k Reg.CLK_CORE_STATUS.FREQ
      (clockFloor k + s.free.1 % (s.effCeiling k - clockFloor k + 1))) s2

/-- `RESET_N` is released: the straps are sampled and the selected control die boots (R441, R437, R458). -/
def State.releaseReset (s : State) (ctlsel flowOk : Bool) : State :=
  let air := s.flag panelSite Reg.SEC_STATUS.ORDER_LB && !flowOk
  let host := siteOfPort s.provisioned
  let s1 := (((s.put panelSite Boot.RELEASED 1).putFlag panelSite Reg.CTL_BOOT.CTLSEL ctlsel).putFlag panelSite Reg.CTL_BOOT.ACTIVE ctlsel)
  let s2 := (s1.putFlag panelSite Reg.THM_PANEL.FLOW_OK flowOk).putFlag panelSite Reg.THM_PANEL.AIR air
  let s3 := ((s2.put host Reg.PORT_CTL.HOSTPORT 1).put host Reg.PORT_CTL.ROLE 1).put panelSite Reg.THM_CTL.RESCUE_PORTS (2 ^ s.provisioned)
  s3.newChallenge.startClocks

/-- `RESET_N` is released (R441). -/
def execResetNRelease (ctlsel flowOk : Bool) (s : State) : Host.Outcome State Fault Refusal :=
  .next (if s.flag panelSite Boot.RELEASED then s else s.releaseReset ctlsel flowOk)

/-! ### The control die (R441, R469) -/

/-- `FAULT_N` is asserted by a control die, which keeps the cause (R477). -/
def State.assertFault (s : State) (site cause : Nat) : State :=
  if s.flag site Reg.CTL_FAULT.FAULT then s else (s.put site Reg.CTL_FAULT.FAULT 1).put site Reg.CTL_FAULT.CAUSE cause

/-- The number that bytes spell, the first most significant. -/
def beNat (bs : List Byte) : Nat := leNat bs.reverse

/-- The identity private key of the device seed (R469). -/
def State.identityKey (s : State) : Nat :=
  beNat (leBytes 64 (Config.sha512 (leBytes 64 (s.get panelSite Fuse.SEED)) % 2 ^ 512)) % (Config.p521Order - 1) + 1

/-- The identity key is derived (R469). -/
def State.deriveIdentity (s : State) : State := s.put panelSite Sec.IDKEY s.identityKey

/-- The self-test of the booting control die has ended (R441). -/
def State.controlBooted (s : State) (ok : Bool) : State :=
  if ok then (s.put panelSite Reg.CTL_BOOT.STAGE 1).deriveIdentity
  else if s.flag panelSite Reg.CTL_BOOT.FALLBACK then (s.assertFault (siteOfControl 0) 1).assertFault (siteOfControl 1) 1
  else
    let failed := s.get panelSite Reg.CTL_BOOT.ACTIVE
    ((s.put panelSite Reg.CTL_BOOT.FALLBACK 1).put panelSite Reg.CTL_BOOT.ACTIVE (1 - failed)).notifyCtl 0x0C01 2 none (13 + failed) 0

/-- The self-test of the booting control die has ended (R441). -/
def execControlDieBooted (ok : Bool) (s : State) : Host.Outcome State Fault Refusal :=
  .next (if s.flag panelSite Boot.RELEASED ∧ s.get panelSite Reg.CTL_BOOT.STAGE = 0 ∧ !s.controlDead then s.controlBooted ok else s)

/-! ### The firmware image (R459–R461) -/

/-- A number in an image. -/
def fwField (img : List Byte) (off n : Nat) : Nat := leNat ((img.drop off).take n)
/-- Security version, and key slot, of an image. -/
def fwSvn (img : List Byte) : Nat := fwField img 6 2
def fwSlot (img : List Byte) : Nat := fwField img 20 1 % 4
/-- LENGTH of an image. -/
def fwLength (img : List Byte) : Nat := fwField img 16 4

/-- Step 1 of R461. -/
def fwHeaderOk (img : List Byte) : Bool :=
  fwField img 0 4 == 0x3157465A && fwField img 4 2 == 1 && fwLength img % 512 == 0 && 512 ≤ fwLength img && fwLength img ≤ 2 ^ 24
    && fwLength img ≤ img.length && fwField img 20 1 < 4 && fwField img 21 11 == 0 && fwField img 165 3 == 0 && fwField img 300 212 == 0

/-- A vendor slot is written and not revoked. -/
def State.slotGood (s : State) (k : Nat) : Bool :=
  (s.get panelSite Reg.SEC_KEYS.SLOT_VALID).testBit k && !(s.get panelSite Reg.SEC_KEYS.REVOKED).testBit k

/-- The steps of R461 in order: the first that fails gives a status as R463 has it. -/
def State.fwCheck (s : State) (img : List Byte) : Option Nat :=
  let key := (img.drop 32).take 133
  let body := img.take 168 ++ (img.take (fwLength img)).drop 512
  if !fwHeaderOk img then some St.BAD_PARAM
  else if !s.slotGood (fwSlot img) then some St.AUTH_FAIL
  else if Config.sha512 key % 2 ^ 512 ≠ s.get panelSite (Fuse.SLOT (fwSlot img)) then some St.BAD_PARAM
  else if fwSvn img < s.get panelSite Reg.SEC_STATUS.SVN_MIN then some St.AUTH_FAIL
  else if !Config.ecdsaVerify key body ((img.drop 168).take 132) then some St.AUTH_FAIL
  else none

/-- Firmware that has been verified runs: what the control die records of it (R461). -/
def State.runFirmware (s : State) (img : List Byte) : State :=
  (((s.put panelSite Reg.SEC_STATUS.FW_SVN (fwSvn img)).put panelSite Reg.SEC_KEYS.ACTIVE_SLOT (fwSlot img)).put panelSite Sec.FW_DIGEST
    (Config.sha512 (img.take (fwLength img)))).put panelSite Sec.FW_VERSION (fwField img 8 8)

/-- The firmware image has been read from the boot flash (R442): it runs and gives the I3C targets their
addresses (R500; their number, the board's, is a free value), or the control die enters RECOVERY. -/
def execFirmwareVerified (image : List Byte) (s : State) : Host.Outcome State Fault Refusal :=
  .next (if s.get panelSite Reg.CTL_BOOT.STAGE ≠ 1 ∨ s.controlDead then s
    else if (s.fwCheck image).isNone then
      ((s.free.2.runFirmware image).put panelSite Reg.CTL_BOOT.STAGE 2).put panelSite Reg.CTL_I3C_STATUS.TARGETS s.free.1
    else
      let s1 := (s.put panelSite Reg.CTL_BOOT.STAGE 8).put panelSite Reg.SEC_STATUS.RECOVERY 1
      s1.bringupFail 1 s1.controlSite)

/-! ### The waves (R443, R444) -/

/-- RECOVERY. -/
def State.inRecovery (s : State) : Bool := s.get panelSite Reg.CTL_BOOT.STAGE == 8

/-- The number of the last wave. -/
def lastWave (site : Nat) : Nat := (List.range 256).foldl (fun m k => if hasRouter k then max m (hopCount site k) else m) 0

/-- A site that failed self-test is counted (R456). -/
def State.countFail (s : State) : State := s.bump panelSite Reg.CTL_BOOT.DIE_FAILS

/-- A router fails self-test (R450): its site is not alive. -/
def State.routerFails (s : State) (site : Nat) : State :=
  ((((s.putFlag panelSite (Reg.MESH_ALIVE.ALIVE site) false).putFlag panelSite (Reg.CTL_ROSTER_SITE.ALIVE site) false).put site Die.FAILED
    1).countFail).bringupFail 2 site

/-- A die fails self-test otherwise: by its ALIGN (R399), or with its block's supply (R445). -/
def State.dieFails (s : State) (site : Nat) : State :=
  if s.flag site Die.FAILED then s else (s.put site Die.FAILED 1).countFail

/-- ALIGN of a die is measured (R399). -/
def State.putAlign (s : State) (aligns : List (Nat × Int)) (site : Nat) : State :=
  match aligns.find? fun a => a.1 == site with
  | some a =>
    if a.2.natAbs ≤ 127 then (s.put site Reg.CLK_PT_STATUS.ALIGN (a.2 % 256).toNat).put site Die.MEASURED 1 else s.dieFails site
  | none => s.dieFails site

/-- Panel time and ticks start from one marker (R398, R401). -/
def State.startTime (s : State) (site : Nat) : State :=
  ((((s.put site Reg.CLK_PT.TIME 0).put site Reg.CLK_TICK.TICKS 0).put site Die.EDGE 0).put site Die.EDGE_VALUE 0)

/-- The first tables (R444): every logical die on its home site and fenced, the reset interleave; the dies' own units are LOCAL_FENCED. -/
def State.firstTables (s : State) : State :=
  let s1 := (List.range 144).foldl (fun s d => (s.unset panelSite (Reg.MESH_L2S.SITE d)).put panelSite (Reg.MESH_FENCED.FENCED d) 1) s
  let s2 := s1.clearFlds panelSite 0x804000 0x808000
  computeSites.foldl (fun s k => s.putFlag k Reg.MESH_STATUS.LOCAL_FENCED true) s2

/-- The waves have ended: ALIGN, time, the alive map and the first tables (R444). -/
def State.wavesEnd (s : State) (aligns : List (Nat × Int)) : State :=
  let dead := (List.range 48).filter fun i =>
    s.flag panelSite (Reg.CTL_ROSTER_FUSE.VALID i) && s.flag panelSite (Reg.CTL_ROSTER_FUSE.ROUTER_DEAD i)
  let s1 := (dead.map fun i => s.get panelSite (Reg.CTL_ROSTER_FUSE.SITE i)).foldl (fun s k =>
    (s.putFlag panelSite (Reg.MESH_ALIVE.ALIVE k) false).putFlag panelSite (Reg.CTL_ROSTER_SITE.ALIVE k) false) s
  let alive := (List.range 256).filter s1.alive
  let s2 := alive.foldl (fun s k => (s.putAlign aligns k).startTime k) s1
  let s3 := (alive.flatMap fun k => (List.range 4).map fun p => (k, p)).foldl (fun s e => s.freshPort e.1 e.2) s2
  let s4 := s3.firstTables
  if s4.inRecovery then s4 else s4.put panelSite Reg.CTL_BOOT.STAGE 3

/-- A wave ends (R443): the routers of the wave that fail are not alive; with the last wave the tables are written. -/
def execMeshWaveDone (wave : Nat) (failed : List Nat) (aligns : List (Nat × Int)) (s : State) : Host.Outcome State Fault Refusal :=
  let site := s.controlSite
  .next (if (s.get panelSite Reg.CTL_BOOT.STAGE = 2 ∨ s.inRecovery) ∧ !s.controlDead ∧ wave = s.get panelSite Boot.WAVES + 1 ∧ wave ≤ lastWave site then
      let bad := ((List.range 256).filter fun k => hasRouter k && hopCount site k == wave && failed.contains k)
      let s1 := (bad.foldl State.routerFails s).put panelSite Boot.WAVES wave
      if wave = lastWave site then s1.wavesEnd aligns else s1
    else s)

/-! ### Power to the blocks (R445, R437) -/

/-- Bring-up powers a die of a block that has power: link dies first, only the host port's in RECOVERY, only rescue ports' in air mode; a
compute die that is not retired and has not failed, once it can be cooled. -/
def State.bringsUp (s : State) (site : Nat) : Bool :=
  s.alive site && !s.flag site Reg.PWR_DIE_STATUS.VIN_SW
    && (if dieKind site = .link then
          (if s.inRecovery then portOfSite site == s.provisioned else
            !s.flag panelSite Reg.THM_PANEL.AIR || s.rescuePorts.contains (portOfSite site))
        else
          isCompute site && !s.inRecovery && !s.retired site && !s.flag site Die.FAILED
            && (s.flag panelSite Reg.THM_PANEL.FLOW_OK || s.flag panelSite Reg.THM_PANEL.AIR))

/-- The dies of a block in the order of R445. -/
def roundSites (block : Nat) : List Nat := (vinSites block).filter (fun k => !isCompute k) ++ (vinSites block).filter isCompute

/-- The rounds of a block are asked for (R445). -/
def State.askRounds (s : State) (block : Nat) : State :=
  (roundSites block).foldl (fun s k => if s.bringsUp k then s.askPower k (if s.inRecovery then Why.RECOVERY else Why.BRINGUP) else s) s

/-- A block has its supply for the first time since `RESET_N`. -/
def State.blockUp (s : State) (block : Nat) : State := (s.put panelSite (Reg.PWR_BLOCK.STATE block) 1).askRounds block

/-- Bring-up may raise a block's `BLK_EN` now: the blocks below have had theirs; in RECOVERY that of the host port's link die alone. -/
def State.raises (s : State) (block : Nat) : Bool :=
  let r := s.get panelSite Boot.RAISED
  if s.inRecovery then s.get panelSite Boot.WAVES == lastWave s.controlSite && siteBlock (siteOfPort s.provisioned) == block
  else s.get panelSite Reg.CTL_BOOT.STAGE == 3 && !r.testBit block && (List.range block).all r.testBit

/-- `BLK_EN` of a block is raised (R445). After a RECOVERY the host port's block may have its supply already. -/
def execBlkEnRaise (block : Nat) (s : State) : Host.Outcome State Fault Refusal :=
  .next (if block < 16 ∧ s.raises block ∧ !s.controlDead then
      let s1 := s.put panelSite (Reg.PWR_BLOCK.EN block) 1
      let s2 := if s.inRecovery then s1 else s1.setBit panelSite Boot.RAISED block
      if s2.flag panelSite (Reg.PWR_BLOCK.PWRGOOD block) then s2.askRounds block else s2
    else s)

/-- `PWRGOOD` of a block does not assert within 100 ms (R445). -/
def execPwrgoodTimeout (block : Nat) (s : State) : Host.Outcome State Fault Refusal :=
  .next (if block < 16 ∧ s.flag panelSite (Reg.PWR_BLOCK.EN block) ∧ !s.flag panelSite (Reg.PWR_BLOCK.PWRGOOD block)
        ∧ s.get panelSite (Reg.PWR_BLOCK.STATE block) = 0 then
      let s1 := (s.put panelSite (Reg.PWR_BLOCK.EN block) 0).put panelSite (Reg.PWR_BLOCK.STATE block) 2
      let s2 := (s1.setBit panelSite Reg.CTL_BOOT.BLOCK_FAULTS block).notifyCtl 0x0A05 3 none block 0
      (((vinSites block).filter isCompute).foldl State.dieFails s2).bringupFail 5 (256 * block)
    else s)

/-! ### HBM (R446) -/

/-- A hub has trained its channels, and its zero scrub starts (R446). -/
def execHbmTrained (stack : Nat) (failed : List Nat) (s : State) : Host.Outcome State Fault Refusal :=
  let stage := s.get panelSite Reg.CTL_BOOT.STAGE
  let site := siteOfStack stack
  .next (if stack < 64 ∧ 3 ≤ stage ∧ stage ≤ 7 ∧ s.alive site ∧ !s.flag site Hub.READY ∧ !s.scrubbing stack then
      let bad := (List.range 32).filter failed.contains
      (bad.foldl (fun s ch => (s.failChannel stack ch).bringupFail 6 site) s).startZeroScrub stack
    else s)

/-- A zero scrub ends (R234). At bring-up the hub is ready, and with the last of them HBM is clean (R446). -/
def execZeroScrubDone (stack : Nat) (s : State) : Host.Outcome State Fault Refusal :=
  let site := siteOfStack stack
  .next (if stack < 64 ∧ s.scrubbing stack then
      let s1 := s.scrubEnds stack
      if s.flag site Hub.READY then s1
      else
        let s2 := s1.put site Hub.READY 1
        (if s2.hubsReady then s2.put panelSite Reg.SQD_PANEL.HBM_CLEAN 1 else s2).bringupDone
    else s)

end Sys2Proof.Machine
end

