-- ==== Sys2Proof/Machine/RollCall.lean ====
section
/-! DEFINITION. Roll calls of a block (16_power_delivery R414, R415): the command, its checks of sites, and its ends. -/

namespace Sys2Proof.Machine

/-- The outstanding `ROLL_CALL` of a block. -/
def State.rollCall (s : State) (block : Nat) : Option Deferred :=
  s.deferred.find? fun d => match d.cmd with | .rollCall _ b _ => b == block | _ => false

/-- Power-ups of some sites are given up. -/
def State.dropPowers (s : State) (p : Nat → Bool) : State :=
  (List.range 16).foldl State.markAdmit { s with powerUps := s.powerUps.filter fun x => !p x.site }

/-- Every VIN switch of a block opens, and no power-up of it goes on. -/
def State.blockOff (s : State) (block : Nat) : State :=
  ((vinSites block).foldl State.switchOff s).dropPowers fun k => siteBlock k == block

/-- Substitutions that a block's loss of power ends: row 7 of R387 for a bench die in it, row 3 for the old die of a live one. Roster states do
not change (R414). -/
def State.blockSubsts (s : State) (block : Nat) : State :=
  (s.substs.filter fun x => siteBlock x.bench == block || (x.live && siteBlock x.old == block)).foldl (fun s x =>
    if siteBlock x.bench = block then s.abortSubst x 7 St.HW_FAULT false true else s.abortSubst x 3 St.HW_FAULT false false) s

/-- Steps 2 and 3 of R415: the block's switches open and its `BLK_EN` is pulsed. -/
def State.startRollCall (s : State) (block : Nat) : State :=
  let s1 := ((s.blockSubsts block).blockOff block).put panelSite (Reg.PWR_BLOCK.STATE block) 3
  (s1.put panelSite (Reg.PWR_BLOCK.EN block) 1).put panelSite (Reg.PWR_BLOCK.PWRGOOD block) 0

/-- `ROLL_CALL` (R415). -/
def execRollCall (h : CmdHdr) (block rsv : Nat) (s : State) : Host.Outcome State Fault Refusal :=
  let cmd := Instr.rollCall h block rsv
  .next (s.command h
    { op := Op.ROLL_CALL, cmd := cmd, lengthOk := h.length == 8, param := check (15 < block || rsv != 0) St.BAD_PARAM,
      state := check (!(s.squadsOn (vinSites block)).isEmpty) St.WRONG_STATE }
    fun s => (s.begin h Op.ROLL_CALL cmd false).startRollCall block)

/-- A roll call that has not committed ends: `BLK_EN` is low and the block in FAULT. -/
def State.failRollCall (s : State) (block status : Nat) : State :=
  let s1 := (s.put panelSite (Reg.PWR_BLOCK.EN block) 0).put panelSite (Reg.PWR_BLOCK.STATE block) 2
  match s1.rollCall block with
  | some d => s1.finishCmd d (d.slot.getD status)
  | none => s1

/-- `PWRGOOD` does not assert by 100 ms (R415 step 4). -/
def execRollCallLimit (block : Nat) (s : State) : Host.Outcome State Fault Refusal :=
  .next (if block < 16 ∧ s.get panelSite (Reg.PWR_BLOCK.STATE block) = 3 ∧ !s.flag panelSite (Reg.PWR_BLOCK.PWRGOOD block) then
      s.failRollCall block St.HW_FAULT
    else s)

/-- The sites of a block that failed the check are substituted (R382, R415). -/
def State.substFailed (s : State) (block mask : Nat) : State :=
  (((List.range 16).filter mask.testBit).map (siteAt block)).foldl (fun s k =>
    match s.rosterDie k, s.blockBench block with
    | some d, some b => s.beginSubst true false d b
    | _, _ => s) s

/-- Step 6 of R415, once no site of the block waits for its check. -/
def State.endRollCall (s : State) (block : Nat) : State :=
  if s.get panelSite (Reg.PWR_BLOCK.STATE block) ≠ 3 ∨ !s.flag panelSite (Reg.PWR_BLOCK.PWRGOOD block)
      ∨ s.powerUps.any (fun p => siteBlock p.site == block && p.why == Why.ROLL && p.phase != 2) then s
  else
    let s1 := s.put panelSite (Reg.PWR_BLOCK.STATE block) 1
    match s1.rollCall block with
    | some d => (s1.finishCmd d (d.slot.getD St.OK) [d.mask]).substFailed block d.mask
    | none => s1

/-- Step 5 of R415 begins: the command commits, and the sites ask for admission in ascending order. -/
def State.rollPower (s : State) (block : Nat) : State :=
  let s1 := match s.rollCall block with
    | some d => s.commit d
    | none => s
  let due (k : Nat) : Bool := s1.alive k && (!isCompute k || (s1.siteState k != Site.FENCED && s1.siteState k != Site.RETIRED))
  (((vinSites block).filter due).foldl (fun s k => s.askPower k Why.ROLL) s1).endRollCall block

/-- A site fails the check of step 5: it is opened, and a compute site becomes FENCED. -/
def State.rollFails (s : State) (site : Nat) : State :=
  let s1 := (s.switchOff site).dropPower site
  let s2 := if isCompute site then (s1.put site Reg.PWR_DIE_STATUS.FENCE_CAUSE 3).fenceSite site else s1
  let s3 := match s2.rollCall (siteBlock site) with
    | some d => s2.setDeferred { d with mask := d.mask ||| 2 ^ sitePos site }
    | none => s2
  s3.endRollCall (siteBlock site)

/-- A site passes the check of step 5: a BENCH site is opened again, any other goes on to its self-test. -/
def State.rollPasses (s : State) (site : Nat) : State :=
  (if isCompute site && s.siteState site == Site.BENCH then (s.switchOff site).dropPower site else s.phasePower site 2).endRollCall (siteBlock site)

/-- A roll-call site's soft start and check end (R415 step 5): VIN in mV, current in 0.01 A. -/
def execSiteCheckDone (site vin amps : Nat) (s : State) : Host.Outcome State Fault Refusal :=
  .next (match s.powerUp site with
    | some p => if p.why = Why.ROLL ∧ p.phase = 1 then (if 1650 ≤ vin ∧ amps ≤ 600 then s.rollPasses site else s.rollFails site) else s
    | none => s)

end Sys2Proof.Machine
end

