-- ==== Sys2Proof/Machine/Abort.lean ====
section
/-! DEFINITION. `ABORT` and TMO (13_command_interface R363, R367, R368): who writes a command's final-status slot, and how a command unwinds. -/

namespace Sys2Proof.Machine

/-- Pauses that a command asked for and that are not complete are cancelled. -/
def State.cancelPauses (s : State) (mask : Nat) : State :=
  (squadList mask).foldl (fun s n =>
    if s.squadState n = Squad.RUNNING ∧ s.flag panelSite (Reg.SQD_STATUS.PAUSE_PENDING n) then s.cancelPause n else s) s

/-- An outstanding command whose slot `ABORT` or TMO has won unwinds (R368) and ends with that status. A window drains first, and a `FILL` ends
with the reply to the request it has sent. -/
def State.unwind (s : State) (d : Deferred) (status : Nat) : State :=
  match d.cmd with
  | .pause _ q _ _ => (s.cancelPauses q.toNat).finishCmd d status
  | .halfTime _ q _ _ => (s.cancelPauses q.toNat).finishCmd d status
  | .substitute _ _ _ _ _ =>
    match s.substs.find? fun x => !x.own with
    | some x => s.abortSubst x 0 status false true
    | none => s.finishCmd d status
  | .rollCall _ b _ => s.failRollCall b status
  | .dataOpen _ _ _ _ _ _ _ => s.closeWindows (fun w => w.arrival == d.port && w.tag == d.tag) (fun _ => status)
  | .fill _ _ _ _ => s.commit d status
  | .portControl _ p _ _ _ => ((s.commit d status).jset p Port.THEN_TRAIN false).disablePort p
  | .fabricTimeout _ _ _ =>
    let full := (List.range 256).filter fun k => hasRouter k && s.alive k && !s.routerEmpty k
    ((s.leaveTimeout.timeoutNotice full).finishCmd d status (mapWords full)).nextTimeout
  | _ => s.finishCmd d status

/-- A writer offers a status to the slot of an outstanding command: true if it wins. -/
def Deferred.open (d : Deferred) : Bool := d.slot.isNone

/-- An outstanding teamcast of a port and TAG. -/
def State.castOf (s : State) (port tag : Nat) : Option Teamcast := s.teamcasts.find? fun c => c.port == port && c.tag == tag

/-- The command of a port with a TAG that is outstanding. -/
def State.target (s : State) (port tag : Nat) : Option Deferred := s.deferred.find? fun d => d.port == port && d.tag == tag

/-- What `ABORT` replies (R367). -/
def State.abortReply (s : State) (port tag : Nat) : Nat :=
  if (s.castOf port tag).isSome then St.OK
  else
    match s.target port tag with
    | some d => if d.open then St.OK else St.ALREADY_DONE
    | none =>
      if (s.immediates.any fun d => d.port == port && d.tag == tag) || (s.stored.any fun r => r.port == port && r.tag == tag) then
        St.ALREADY_DONE
      else St.BAD_PARAM

/-- A teamcast of the captain ends before every member has replied. -/
def State.endCast (s : State) (port tag : Nat) (status : Option Nat) : State :=
  match s.castOf port tag with
  | some c => s.castEnd c status
  | none => s

/-- A status is offered to the slot of an outstanding command: the first writer wins (R367). -/
def State.offerSlot (s : State) (port tag status : Nat) : State :=
  match s.target port tag with
  | some d => if d.open then s.unwind d status else s
  | none => s

/-- `ABORT` (R367, R361): under peer authority it names a command of its own port. -/
def execAbort (h : CmdHdr) (port tag rsv : Nat) (s : State) : Host.Outcome State Fault Refusal :=
  .next (s.command h
    { op := Op.ABORT, cmd := .abort h port tag rsv, lengthOk := h.length == 8,
      param := (check (rsv != 0 || 7 < port || 2 ^ 16 ≤ tag) St.BAD_PARAM).orElse fun _ =>
        (check (!s.hostAuthority h && port != h.port) St.NOT_PERMITTED) }
    fun s => ((s.reply h Op.ABORT (s.abortReply port tag)).endCast port tag (some St.ABORTED)).offerSlot port tag St.ABORTED)

/-- An immediate command that waits for an answer ends (R363). -/
def State.endImmediate (s : State) (port tag : Nat) : State :=
  match s.immediates.find? fun d => d.port == port && d.tag == tag with
  | some d =>
    ({ s with immediates := dropFirst (fun e => e.same d) s.immediates }).answer
      ⟨d.port, d.opcode, d.tag, d.seq, St.TIMED_OUT, true, [], d.dpanel, d.hostcmd⟩
  | none => s

/-- The TMO of a command expires (R363): a teamcast ends with the members that have replied (R318). -/
def State.expire (s : State) (port tag : Nat) : State :=
  ((s.endCast port tag none).offerSlot port tag St.TIMED_OUT).endImmediate port tag

/-- The TMO of a command expires (R363). -/
def execCmdTmo (port tag : Nat) (s : State) : Host.Outcome State Fault Refusal := .next (if s.controlDead then s else s.expire port tag)

end Sys2Proof.Machine
end

