-- ==== Sys2Proof/Machine/Hold.lean ====
section
/-! DEFINITION. Loss of flow and the thermal hold (17_cooling R430, R433–R436). -/

namespace Sys2Proof.Machine

/-- Squads that the hold has still to save, whether its switches have still to open (R434 steps 4 and 5), and whether flow has returned
(R436). -/
def Hold.SAVES : Fld := ⟨0x1500300, 0, 16, 0, .int⟩
def Hold.CUT_DUE : Fld := ⟨0x1500300, 16, 1, 0, .int⟩
def Hold.CANCELLED : Fld := ⟨0x1500300, 17, 1, 0, .int⟩

/-- An outstanding command that the hold ends (R434): it would power a compute die, or it names a squad that the hold stops. -/
def endsInHold (stopped : Nat) (d : Deferred) : Bool :=
  d.open && (d.opcode == Op.SUBSTITUTE || d.opcode == Op.ROLL_CALL || (d.opcode / 256 == 3 && (squadsOf d.cmd &&& stopped) != 0))

/-- Commands end as if `ABORT` had won their slots. -/
def State.endCommands (s : State) (p : Deferred → Bool) : State :=
  (s.deferred.filter p).foldl (fun s d =>
    match s.deferred.find? fun e => e.same d with
    | some e => if e.open then s.unwind e St.ABORTED else s
    | none => s) s

/-- A thermal ceiling is set. -/
def State.setThermal (s : State) (site code : Nat) : State := (s.put site Reg.THM_DIE_STATUS.T_CEIL code).applyCeiling site

/-- Steps 1 to 3 of R434; the rescue ports limit themselves (R435). -/
def State.enterHold (s : State) (byRate : Bool) : State :=
  let live := squadMask (fun n => s.squadState n == Squad.RUNNING || s.squadState n == Squad.LOADED) (List.range 16)
  let saves := squadMask (fun n => s.squadState n == Squad.RUNNING || s.squadState n == Squad.PAUSED) (List.range 16)
  let s1 := (s.put panelSite Reg.THM_PANEL.STATE 1).put panelSite Reg.THM_PANEL.HOLD_MS 0
  let s2 := ((s1.put panelSite Hold.SAVES (if s.flag panelSite Reg.SQD_PANEL.IMAGE_VERIFIED then saves else 0)).put panelSite Hold.CUT_DUE
    1).put panelSite Hold.CANCELLED 0
  let s3 := (s2.notifyCtl 0x0B06 3 none (if byRate then 1 else 0) 0).endCommands (endsInHold live)
  let s4 := (s3.substs.filter (·.own)).foldl (fun s x => s.abortSubst x 0 St.ABORTED false true) s3
  let s5 := s4.driveLine 16 Cause.PANEL 2 0
  let s6 := computeSites.foldl (fun s k => s.setThermal k (clockFloor k)) s5
  s6.rescuePorts.foldl State.limitPort s6

/-- Loss of flow is detected by its rate (R433). -/
def State.rateLoss (s : State) : State :=
  if s.flag panelSite Reg.THM_CTL.RATE_EN ∧ !s.flag panelSite Reg.THM_PANEL.AIR ∧ s.get panelSite Reg.THM_PANEL.STATE = 0 then s.enterHold true
  else s

/-- Loss of flow is detected (R433): `FLOW_OK` falls, or junctions rise. -/
def execFlowLoss (byRate : Bool) (s : State) : Host.Outcome State Fault Refusal :=
  let s1 := s.put panelSite Reg.THM_PANEL.FLOW_OK 0
  .next (s.ifReleased
    (if byRate then s.rateLoss
    else if s.flag panelSite Reg.THM_PANEL.FLOW_OK ∧ !s.flag panelSite Reg.THM_PANEL.AIR ∧ s.get panelSite Reg.THM_PANEL.STATE = 0 then
      s1.enterHold false
    else s1))

/-- The save of a hold ends (R434 step 4) once the squads it saves have stopped: a PAUSED squad is saved resumable, a STOPPED one halted. -/
def State.holdSaved (s : State) : State :=
  let ns := squadList (s.get panelSite Hold.SAVES)
  if ns.isEmpty || !(ns.all fun n => s.squadState n == Squad.PAUSED || s.squadState n == Squad.STOPPED) then s
  else (s.saveSquads ns).put panelSite Hold.SAVES 0

/-- `BLK_EN` of a block goes low in a hold: the block is OFF unless it is in FAULT. -/
def State.holdBlock (s : State) (block : Nat) : State :=
  if s.rescuePorts.any fun p => siteBlock (siteOfPort p) == block then s
  else
    let s1 := (s.put panelSite (Reg.PWR_BLOCK.EN block) 0).put panelSite (Reg.PWR_BLOCK.PWRGOOD block) 0
    if s.get panelSite (Reg.PWR_BLOCK.STATE block) = 2 then s1 else s1.put panelSite (Reg.PWR_BLOCK.STATE block) 0

/-- The switches open (R434 step 5): every compute die's, and those of link dies that serve no rescue port. -/
def State.holdOff (s : State) : State :=
  let s1 := (List.range 16).foldl State.endRollCall (s.dropPowers fun _ => true)
  let s2 := computeSites.foldl State.switchOff s1
  let s3 := ((List.range 8).filter fun p => !s.rescuePorts.contains p).foldl (fun s p => s.switchOff (siteOfPort p)) s2
  (List.range 16).foldl State.holdBlock s3

/-- At 1 ms after detection a squad whose save has not ended keeps SAVED clear, and the switches open (R434 steps 4 and 5). -/
def execThmSaveCut (s : State) : Host.Outcome State Fault Refusal :=
  let left := s.get panelSite Hold.SAVES
  .next (if s.get panelSite Reg.THM_PANEL.STATE = 1 ∧ s.flag panelSite Hold.CUT_DUE then
      let s1 := if left = 0 then s
        else (s.put panelSite Reg.SQD_PANEL.SAVED (s.get panelSite Reg.SQD_PANEL.SAVED &&& (65535 - left))).notifyCtl 0x0B07 3 none left 0
      ((s1.put panelSite Hold.SAVES 0).put panelSite Hold.CUT_DUE 0).holdOff
    else s)

/-- After 60 s in the hold the stacks are powered down and their contents are lost (R434 step 6). -/
def execHbmHoldExpiry (s : State) : Host.Outcome State Fault Refusal :=
  .next (if s.get panelSite Reg.THM_PANEL.STATE = 1 ∧ !s.flag panelSite Hold.CANCELLED ∧ !s.flag panelSite Hold.CUT_DUE then
      let s1 := { s with hbm := [], hbmPoison := [], hbmUpset := [], snapshots := [] }
      let s2 := (List.range 64).foldl (fun s k => s.put (siteOfStack k) Reg.HUB_STATUS.STATE 3) s1
      let s3 := s2.rescuePorts.foldl (fun s p => s.switchOff (siteOfPort p)) s2
      ((s3.put panelSite Reg.THM_PANEL.STATE 2).notifyCtl 0x0B08 4 none 0 0).assertFault s3.controlSite 6
    else s)

/-- `FLOW_OK` has been high for 1 s (R436): the power-down is cancelled, and compute rounds that bring-up postponed run (R445). -/
def execFlowRestored (s : State) : Host.Outcome State Fault Refusal :=
  let s1 := s.put panelSite Reg.THM_PANEL.FLOW_OK 1
  .next (s.ifReleased
    (if s.get panelSite Reg.THM_PANEL.STATE = 1 then s1.put panelSite Hold.CANCELLED 1
    else if s.get panelSite Reg.CTL_BOOT.STAGE = 3 ∧ !s.flag panelSite Reg.THM_PANEL.FLOW_OK then
      ((List.range 16).filter fun b => s.get panelSite (Reg.PWR_BLOCK.STATE b) == 1).foldl State.askRounds s1
    else s1))

/-- A raw reading at or above 110 degrees asserts `THERMTRIP_N` (R430, R477). -/
def execThermtrip (site : Nat) (s : State) : Host.Outcome State Fault Refusal :=
  .next (if hasRouter site then ((s.put site Reg.THM_DIE_STATUS.TRIP 1).switchOff site).assertFault s.controlSite 5 else s)

end Sys2Proof.Machine
end

