-- ==== Sys2Proof/Machine/Reset.lean ====
section
/-! DEFINITION. The reset scopes narrower than `RESET_N` (18_bring_up_and_reset R451–R455). -/

namespace Sys2Proof.Machine

/-! ### State beside the registers -/

/-- TARGET of the scope in progress, its phase (1 squads stop, 2 dies or a port come back), and whether a die was refused admission. -/
def Reset.TARGET : Fld := ⟨0x1500400, 0, 16, 0, .int⟩
def Reset.PHASE : Fld := ⟨0x1500400, 16, 2, 0, .int⟩
def Reset.DEFERRED : Fld := ⟨0x1500400, 18, 1, 0, .int⟩
/-- Rescue ports that are to be retrained after a hold (R453). -/
def Reset.RETRAIN : Fld := ⟨0x1500400, 19, 8, 0, .int⟩

/-- A scope is in progress, and which one. -/
def State.resetBusy (s : State) : Bool := s.flag panelSite Reg.CTL_RESET_STATUS.BUSY
def State.resetScope (s : State) : Nat := s.get panelSite Reg.CTL_RESET_STATUS.SCOPE

/-! ### What a power cycle sets back (R455) -/

/-- A die's switch opens for a reset, its registers are set back, and it asks for admission. -/
def State.cycleDie (s : State) (site : Nat) : State :=
  let s1 := s.switchOff site
  let s2 := if isCompute site then (s1.clearFlds site 0x100 0x110).leaveSquad site else s1
  ((s2.clearFlds site 0x900010 0x900020).clearFlds site 0xA00008 0xA00018).askPower site Why.RESET

/-! ### The scopes (R453, R454) -/

/-- A hub acts as R257 does and then accepts atomics again. -/
def State.restHub (s : State) (stack : Nat) : State :=
  if s.alive (siteOfStack stack) then
    ((s.stopAtomics stack).closeRecords stack).put (siteOfStack stack) Reg.HUB_CTL.ACCEPT_ATOM 1
  else s

/-- Sites that a compute reset powers in a block that has its supply: those that are not FENCED or RETIRED, and link dies that are off. -/
def State.resetRounds (s : State) (block : Nat) : State :=
  (roundSites block).foldl (fun s k =>
    if !s.alive k then s
    else if isCompute k then (if s.siteState k = Site.FENCED ∨ s.siteState k = Site.RETIRED then s else s.cycleDie k)
    else if s.flag k Reg.PWR_DIE_STATUS.VIN_SW then s
    else s.cycleDie k) s

/-- Steps 2 to 4 of a compute reset, once every squad has stopped: teardown, hubs, switches, and the compute rounds. Blocks that a hold has
switched off get `BLK_EN` back first. -/
def State.computeRounds (s : State) : State :=
  let s1 := (List.range 16).foldl (fun s n => s.stopSquad n Cause.STOP) s
  let s2 := (List.range 64).foldl State.restHub (s1.scrubSquads (List.range 16))
  let s3 := computeSites.foldl State.switchOff (s2.dropPowers fun _ => true)
  let s4 := ((List.range 8).filter fun p => !s3.portUsable p).foldl (fun s p => s.switchOff (siteOfPort p)) s3
  let off := (List.range 16).filter fun b => s4.get panelSite (Reg.PWR_BLOCK.STATE b) == 0
  let on := (List.range 16).filter fun b => s4.get panelSite (Reg.PWR_BLOCK.STATE b) == 1
  let s5 := off.foldl (fun s b => s.put panelSite (Reg.PWR_BLOCK.EN b) 1) s4
  (on.foldl State.resetRounds s5).put panelSite Reset.PHASE 2

/-- The scope in progress goes on once what it waits for has happened. -/
def State.advanceReset (s : State) : State :=
  let target := s.get panelSite Reset.TARGET
  if !s.resetBusy ∨ s.get panelSite Reset.PHASE ≠ 1 then s
  else if s.resetScope = 1 then
    (if s.maskIn 65535 Squad.RUNNING ≠ 0 ∨ s.maskIn 65535 Squad.LOADED ≠ 0 then s else s.computeRounds)
  else if s.resetScope = 2 then
    (if s.maskIn target Squad.RUNNING ≠ 0 then s
    else
      let dies := s.maskSites target
      (dies.foldl State.cycleDie (s.scrubSquads (squadList target))).put panelSite Reset.PHASE 2)
  else if (s.siteSquad target).isSome then s
  else (s.cycleDie target).put panelSite Reset.PHASE 2

/-- A compute reset begins (R453 step 1). -/
def State.startCompute (s : State) : State :=
  ((s.endCommands fun d => d.open && d.opcode / 256 == 3).driveLine 16 Cause.PANEL 2 0).put panelSite Reset.PHASE 1

/-- A port retrain begins (R454): a port that carries frames drains first. -/
def State.startPortRetrain (s : State) (port : Nat) : State :=
  let s1 := s.put panelSite Reset.PHASE 2
  if s1.portUsable port then (s1.jset port Port.THEN_TRAIN true).startDrain port true
  else if s1.portState port = Port.DRAINING then s1.jset port Port.THEN_TRAIN true
  else if s1.jflag port Reg.PWR_DIE_STATUS.VIN_SW then s1.jput port Reg.PORT_STATUS.STATE Port.TRAINING
  else s1

/-- A scope starts. -/
def State.startScope (s : State) (scope target : Nat) : State :=
  let s1 := ((s.put panelSite Reg.CTL_RESET_STATUS.BUSY 1).put panelSite Reset.TARGET target).put panelSite Reset.DEFERRED 0
  let s2 := (s1.put panelSite Reg.CTL_RESET_STATUS.SCOPE scope).put panelSite Reset.PHASE 1
  if scope = 1 then s2.startCompute.advanceReset
  else if scope = 2 then ((squadList target).foldl (fun s n => s.stopSquad n Cause.STOP) s2).advanceReset
  else if scope = 3 then
    (match s2.siteSquad target with
      | some n => (s2.loseSquad n Cause.ROSTER).advanceReset
      | none => s2.advanceReset)
  else s2.startPortRetrain target

/-- Why a scope cannot start (R452). -/
def State.resetRefusal (s : State) (scope target : Nat) : Option Nat :=
  let st := s.get panelSite Reg.THM_PANEL.STATE
  let bad := scope < 1 || 4 < scope || (scope == 2 && target == 0)
    || (scope == 3 && !(target < 256 && (isCompute target || dieKind target == .link))) || (scope == 4 && 7 < target)
  let hold := scope == 1 && (st == 2 || (st == 1 && !s.flag panelSite Reg.THM_PANEL.FLOW_OK))
  let fenced := scope == 3 && isCompute target && [Site.FENCED, Site.RETIRED, Site.INCOMING].contains (s.siteState target)
  if s.resetBusy || (s.deferred.any fun d => panelWide d.opcode d.cmd) || s.timeout.isSome then some St.BUSY
  else if bad then some St.BAD_PARAM
  else if hold || fenced then some St.WRONG_STATE
  else none

/-- A write of CTL_RESET (R452). -/
def State.writeReset (s : State) (value : Nat) : State :=
  let scope := bitsOf value 2 0
  let target := bitsOf value 18 3
  match s.resetRefusal scope target with
  | some st =>
    ((s.bump panelSite Reg.CTL_RESET_STATUS.REJECTS).put panelSite Reg.CTL_RESET_STATUS.RESULT st).put panelSite
      Reg.CTL_RESET_STATUS.SCOPE (if s.resetBusy then s.resetScope else scope)
  | none => s.startScope scope target

/-- The command that writes CTL_RESET: the scope starts once the reply has been sent (R452). -/
def State.resetCommand (s : State) (h : CmdHdr) (cmd : Instr) (value : Word) : State :=
  s.command h { op := Op.WRITE_CSR, cmd := cmd, lengthOk := h.length == 16 } fun s => (s.reply h Op.WRITE_CSR St.OK).writeReset value.toNat

/-- CTL_RESET is written with SCOPE 1 (R453). -/
def execComputeReset (h : CmdHdr) (value : Word) (s : State) : Host.Outcome State Fault Refusal :=
  .next (s.resetCommand h (.computeReset h value) value)
/-- CTL_RESET is written with SCOPE 2 (R454). -/
def execSquadReset (h : CmdHdr) (value : Word) (s : State) : Host.Outcome State Fault Refusal :=
  .next (s.resetCommand h (.squadReset h value) value)
/-- CTL_RESET is written with SCOPE 3 (R454). -/
def execDieComputeReset (h : CmdHdr) (value : Word) (s : State) : Host.Outcome State Fault Refusal :=
  .next (s.resetCommand h (.dieComputeReset h value) value)
/-- CTL_RESET is written with SCOPE 4 (R454). -/
def execPortRetrain (h : CmdHdr) (value : Word) (s : State) : Host.Outcome State Fault Refusal :=
  .next (s.resetCommand h (.portRetrain h value) value)

/-! ### The end of a scope -/

/-- The work of the scope in progress is done. -/
def State.resetReady (s : State) : Bool :=
  s.resetBusy && s.get panelSite Reset.PHASE == 2 && !(s.powerUps.any fun p => p.why == Why.RESET)
    && (s.resetScope != 1 || (List.range 16).all fun b =>
      s.get panelSite (Reg.PWR_BLOCK.STATE b) != 0 || !s.flag panelSite (Reg.PWR_BLOCK.EN b))
    && (s.resetScope != 4 || s.portState (s.get panelSite Reset.TARGET) != Port.DRAINING)

/-- A hold ends with the compute reset (R436); its rescue ports are to be retrained. -/
def State.endHold (s : State) : State :=
  if s.get panelSite Reg.THM_PANEL.STATE = 1 ∧ s.resetScope = 1 then
    (((s.put panelSite Reg.THM_PANEL.STATE 0).put panelSite Hold.CANCELLED 0).put panelSite Hold.CUT_DUE 0).put panelSite Reset.RETRAIN
      ((s.rescuePorts.map fun p => 2 ^ p).sum)
  else s

/-- The next rescue port is retrained (R453). -/
def State.nextRetrain (s : State) : State :=
  match (List.range 8).find? (s.get panelSite Reset.RETRAIN).testBit with
  | some p => if s.resetBusy then s else (s.clrBit panelSite Reset.RETRAIN p).startScope 4 p
  | none => s

/-- A reset scope ends and its result is recorded (R452). -/
def execResetDone (result : Nat) (s : State) : Host.Outcome State Fault Refusal :=
  .next (if s.resetReady then
      let r := if s.flag panelSite Reset.DEFERRED then St.DEFERRED else result % 256
      let s1 := s.endHold
      let s2 := ((s1.put panelSite Reg.CTL_RESET_STATUS.BUSY 0).put panelSite Reg.CTL_RESET_STATUS.RESULT r).bump panelSite
        Reg.CTL_RESET_STATUS.COUNT
      ((s2.put panelSite Reset.PHASE 0).notifyCtl 0x0C04 0 none (s.resetScope + 256 * r) 0).nextRetrain
    else s)

end Sys2Proof.Machine
end

