-- ==== Sys2Proof/Machine/Security.lean ====
section
/-! DEFINITION. Security, identity and life cycle (19_security_and_life_cycle): fused settings, firmware updates, authorisations, debug mode,
attestation and tamper events. -/

namespace Sys2Proof.Machine

/-- A tamper event is being answered: 1 squads stop, 2 the panel is scrubbed (R472). -/
def Sec.TAMPER_STEP : Fld := ⟨0x1500128, 0, 2, 0, .int⟩

/-! ### Identity (R469) -/

/-- The device identity public key, and its hash. -/
def State.identityPublic (s : State) : List Byte := Config.p521Public (s.get panelSite Sec.IDKEY)
def State.identityHash (s : State) : Nat := Config.sha512 s.identityPublic % 2 ^ 512

/-- The secure SRAM is wiped (R471): identity key, FW_DIGEST, challenge and debug state read zero. The owner key hash is kept in fuses. -/
def State.wipeSecrets (s : State) : State :=
  (((s.put panelSite Sec.IDKEY 0).put panelSite Sec.FW_DIGEST 0).put panelSite Reg.SEC_CHALLENGE.CHALLENGE 0).put panelSite
    Reg.SEC_STATUS.DEBUG 0

/-! ### Fuses written by `WRITE_CSR` (R457, R458) -/

/-- Life-cycle state (R464). -/
def State.lifeCycle (s : State) : Nat := s.get panelSite Reg.SEC_STATUS.LCS

/-- What a write of the envelope grade is refused with. -/
def State.gradeCheck (s : State) (v : Nat) : Check :=
  let now := s.get panelSite Reg.PWR_GRADE.GRADE
  (check (2 < s.lifeCycle) St.WRONG_STATE).orElse fun _ =>
    (check (v % 4 < now) St.BAD_PARAM).orElse fun _ =>
    check (v % 4 != now && 4 ≤ s.get panelSite Fuse.GRADES) St.FUSE_EXHAUSTED

/-- The envelope grade is fused; the caps follow (R418, R419). -/
def State.writeGrade (s : State) (v : Nat) : State :=
  if v % 4 = s.get panelSite Reg.PWR_GRADE.GRADE then s
  else ((s.put panelSite Reg.PWR_GRADE.GRADE v).bump panelSite Fuse.GRADES).updateBudgets

/-- What a write of the host port is refused with. -/
def State.hostportCheck (s : State) (v : Nat) : Check :=
  (check (1 < s.lifeCycle) St.WRONG_STATE).orElse fun _ =>
    check (v % 8 != s.provisioned && 8 ≤ s.get panelSite Reg.SEC_PROVISION.HOSTPORT_ROWS) St.FUSE_EXHAUSTED

/-- A row of the host-port designation is fused: it takes effect at the next `RESET_N`. -/
def State.writeHostport (s : State) (v : Nat) : State :=
  if v % 8 = s.provisioned then s
  else ((s.put panelSite Reg.SEC_PROVISION.HOSTPORT v).put panelSite Reg.SEC_PROVISION.HOSTPORT_SET 1).bump panelSite
    Reg.SEC_PROVISION.HOSTPORT_ROWS

/-- A write of PWR_GRADE (R457, R458). -/
def execGrade (h : CmdHdr) (value : Word) (s : State) : Host.Outcome State Fault Refusal :=
  .next (s.command h
    { op := Op.WRITE_CSR, cmd := .grade h value, lengthOk := h.length == 16, state := s.gradeCheck value.toNat }
    fun s => (s.writeGrade value.toNat).reply h Op.WRITE_CSR St.OK)

/-- A write of SEC_PROVISION (R457, R458). -/
def execHostport (h : CmdHdr) (value : Word) (s : State) : Host.Outcome State Fault Refusal :=
  .next (s.command h
    { op := Op.WRITE_CSR, cmd := .hostport h value, lengthOk := h.length == 16, state := s.hostportCheck value.toNat }
    fun s => (s.writeHostport value.toNat).reply h Op.WRITE_CSR St.OK)

/-! ### Firmware updates (R462, R463) -/

/-- The staged image: in HBM, or in RECOVERY in the boot buffer. -/
def State.stagedImage (s : State) (addr length : Nat) : List Byte :=
  if s.inRecovery then mapRead 0 s.bootBuf 0 length else (s.memBytes addr length).map (·.1)

/-- `FW_UPDATE` (R463): in RECOVERY it names the boot buffer by address 0 (R462). -/
def execFwUpdate (h : CmdHdr) (addr length : Nat) (s : State) : Host.Outcome State Fault Refusal :=
  let cmd := Instr.fwUpdate h addr length
  .next (s.command h
    { op := Op.FW_UPDATE, cmd := cmd, lengthOk := h.length == 16,
      param := check (if s.inRecovery then addr != 0 || 2 ^ 24 < length else !inHbm addr length) St.BAD_PARAM }
    fun s => s.begin h Op.FW_UPDATE cmd false)

/-- Why a staged image is not written (R463 step 1). -/
def State.updateCheck (s : State) (img : List Byte) : Option Nat :=
  (s.fwCheck img).orElse fun _ =>
    if s.get panelSite Reg.SEC_STATUS.SVN_MIN < fwSvn img ∧ 64 ≤ s.get panelSite Reg.SEC_STATUS.SVN_ROWS then some St.FUSE_EXHAUSTED else none

/-- The staged image has been verified (R463): the flash erase starts, which is the commit point, or the command ends. -/
def execFwUpdateVerified (s : State) : Host.Outcome State Fault Refusal :=
  .next (match s.deferred.find? fun d => d.opcode == Op.FW_UPDATE && d.step == 1 with
    | some d =>
      match d.cmd with
      | .fwUpdate _ addr length =>
        match s.updateCheck (s.stagedImage addr length) with
        | some st => s.finishCmd d st
        | none => { s.setDeferred { d with step := 2, slot := some St.OK } with flash := [] }
      | _ => s
    | none => s)

/-- The flash holds an image that has been read back: a security version is fused, and RECOVERY is left (R462, R463). -/
def State.flashed (s : State) (img : List Byte) : State :=
  let s1 := { s with flash := mapWrite 0 [] 0 (img.take (fwLength img)) }
  let s2 := if s1.get panelSite Reg.SEC_STATUS.SVN_MIN < fwSvn img then
      (s1.put panelSite Reg.SEC_STATUS.SVN_MIN (fwSvn img)).bump panelSite Reg.SEC_STATUS.SVN_ROWS
    else s1
  if s2.inRecovery then
    (((s2.put panelSite Reg.CTL_BOOT.STAGE 2).put panelSite Boot.WAVES 0).put panelSite Reg.SEC_STATUS.RECOVERY 0).runFirmware img
  else s2

/-- The flash has been written and read back (R463 steps 3 and 4). -/
def execFlashWriteDone (readBackOk : Bool) (s : State) : Host.Outcome State Fault Refusal :=
  .next (match s.deferred.find? fun d => d.opcode == Op.FW_UPDATE && d.step == 2 with
    | some d =>
      match d.cmd with
      | .fwUpdate _ addr length =>
        if readBackOk then (s.flashed (s.stagedImage addr length)).finishCmd d St.OK else s.finishCmd d St.HW_FAULT
      | _ => s
    | none => s)

/-! ### Authorisations (R465) -/

/-- Bytes 0–279 of an authorisation. -/
def authBytes (a : Auth) : List Byte :=
  leBytes 1 a.kind ++ leBytes 1 a.target ++ leBytes 1 a.signer ++ leBytes 5 a.reserved ++ leBytes 8 a.challenge ++ leBytes 64 a.device
    ++ leBytes 64 a.arg ++ leBytes 136 a.pubkey

/-- The signer's key is the one its slot, or the owner fuse, holds the hash of. -/
def State.signerGood (s : State) (a : Auth) : Bool :=
  let hash := Config.sha512 ((leBytes 136 a.pubkey).take 133) % 2 ^ 512
  if a.signer = 4 then s.flag panelSite Reg.SEC_STATUS.OWNER_SET && hash == s.get panelSite Fuse.OWNER
  else a.signer < 4 && s.slotGood a.signer && hash == s.get panelSite (Fuse.SLOT a.signer)

/-- An authorisation passes; `signer` says which signers the tables allow. -/
def State.authorised (s : State) (a : Auth) (signer : Nat → Bool) : Bool :=
  signer a.signer && s.signerGood a && a.challenge == s.get panelSite Reg.SEC_CHALLENGE.CHALLENGE && a.device == s.identityHash
    && Config.ecdsaVerify ((leBytes 136 a.pubkey).take 133) (authBytes a) (leBytes 132 a.signature)

/-- The parameters of an authorisation are in range: its kind and target are the command's, its reserved bytes zero. -/
def authForm (a : Auth) (kind target : Nat) : Bool := a.kind == kind && a.target == target && a.reserved == 0

/-! ### Life cycle (R464, R466) -/

/-- Signers of a transition or a revocation. -/
def lifeSigner (target arg signer : Nat) : Bool :=
  if target = 2 ∨ target = 3 then signer == 4 else signer < 4 && !(target == 8 && signer == arg % 256)

/-- ARG is as the table asks. -/
def lifeArgOk (target arg : Nat) : Bool := if target = 1 then true else if target = 8 then arg < 4 else arg == 0

/-- State conditions of `LIFECYCLE`. -/
def State.lifeState (s : State) (target arg : Nat) : Bool :=
  !s.debugMode && (if target = 8 then arg != s.get panelSite Reg.SEC_KEYS.ACTIVE_SLOT else s.lifeCycle + 1 == target && s.squadsIdle)

/-- A vendor slot is revoked (R464): its fuse write is the commit point. A slot that is revoked already takes no fuse. -/
def State.revoke (s : State) (d : Deferred) (slot : Nat) : State :=
  let mask := s.get panelSite Reg.SEC_KEYS.REVOKED
  if mask.testBit slot then s.finishCmd d St.OK
  else if 3 ≤ ((List.range 4).filter mask.testBit).length then s.finishCmd d St.FUSE_EXHAUSTED
  else (s.setBit panelSite Reg.SEC_KEYS.REVOKED slot).finishCmd d St.OK

/-- An authorised `LIFECYCLE` goes on. -/
def State.lifeBegins (s : State) (d : Deferred) (target arg : Nat) : State :=
  if target = 8 then s.revoke d arg else (s.setDeferred { d with step := 2 }).startPanelScrub

/-- The panel has been scrubbed for a transition: the fuse is written, which is the commit point, secrets are wiped and the identity key is
derived again (R466 steps 3 and 4). -/
def State.lifeMoves (s : State) (d : Deferred) (target arg : Nat) : State :=
  let s1 := s.put panelSite Reg.SEC_STATUS.LCS target
  let s2 := if target = 1 then (s1.put panelSite Fuse.OWNER arg).put panelSite Reg.SEC_STATUS.OWNER_SET 1 else s1
  (s2.wipeSecrets.deriveIdentity.notifyCtl 0x0C05 0 none target 0).finishCmd d St.OK

/-- `LIFECYCLE` (R464–R466). -/
def execLifecycle (h : CmdHdr) (target : Nat) (auth : Auth) (rsv : Nat) (s : State) : Host.Outcome State Fault Refusal :=
  let cmd := Instr.lifecycle h target auth rsv
  .next (s.command h
    { op := Op.LIFECYCLE, cmd := cmd, lengthOk := h.length == 424,
      param := check (!([1, 2, 3, 4, 8].contains target) || rsv != 0 || !authForm auth 1 target || !lifeArgOk target auth.arg) St.BAD_PARAM,
      state := check (!s.lifeState target auth.arg) St.WRONG_STATE }
    fun s =>
      let ok := s.authorised auth (lifeSigner target auth.arg)
      (s.begin h Op.LIFECYCLE cmd false).newChallenge.withDeferred h Op.LIFECYCLE fun s d =>
        if ok then s.lifeBegins d target auth.arg else s.finishCmd d St.AUTH_FAIL)

/-! ### Debug mode (R467, R468) -/

/-- Signers that may enter debug mode. -/
def State.debugSigner (s : State) (signer : Nat) : Bool := if s.lifeCycle = 1 ∨ s.lifeCycle = 2 then signer == 4 else signer < 4

/-- No squad runs, or is loaded. -/
def State.squadsStill (s : State) : Bool := s.maskIn 65535 Squad.RUNNING == 0 && s.maskIn 65535 Squad.LOADED == 0

/-- A leave of debug mode goes on to its scrub once no squad runs. -/
def State.advanceDebug (s : State) (d : Deferred) : State :=
  if d.opcode = Op.DEBUG_UNLOCK ∧ d.step = 1 ∧ s.squadsStill then (s.setDeferred { d with step := 2 }).startPanelScrub else s

/-- `DEBUG_UNLOCK` (R468). -/
def execDebugUnlock (h : CmdHdr) (action : Nat) (auth : Auth) (rsv : Nat) (s : State) : Host.Outcome State Fault Refusal :=
  let cmd := Instr.debugUnlock h action auth rsv
  .next (s.command h
    { op := Op.DEBUG_UNLOCK, cmd := cmd, lengthOk := if action = 0 then h.length == 424 else 8 ≤ h.length,
      param := check (1 < action || rsv != 0 || (action == 0 && !authForm auth 2 action)) St.BAD_PARAM,
      state := check (action == 0 && !s.squadsIdle) St.WRONG_STATE }
    fun s =>
      if action = 0 then
        let ok := s.authorised auth s.debugSigner
        (s.begin h Op.DEBUG_UNLOCK cmd false).newChallenge.withDeferred h Op.DEBUG_UNLOCK fun s d =>
          if ok then (s.setDeferred { d with step := 2, slot := some St.OK }).startPanelScrub else s.finishCmd d St.AUTH_FAIL
      else
        ((List.range 16).foldl (fun s n => s.stopSquad n Cause.STOP) (s.begin h Op.DEBUG_UNLOCK cmd true)).withDeferred h Op.DEBUG_UNLOCK
          State.advanceDebug)

/-! ### Tamper events (R472) -/

/-- The scrub of a tamper event starts once no squad runs. -/
def State.advanceTamper (s : State) : State :=
  if s.get panelSite Sec.TAMPER_STEP = 1 ∧ s.squadsStill then (s.put panelSite Sec.TAMPER_STEP 2).startPanelScrub else s

/-- A tamper event (R472): secrets are wiped, WP is driven, windows close, and a scrub follows. SEC_TAMPER keeps the cause of the first event
captured. -/
def State.tampered (s : State) (cause : Nat) : State :=
  let s1 := s.wipeSecrets.put panelSite Reg.SEC_STATUS.TAMPER 1
  let s2 := if s1.flag panelSite Reg.SEC_TAMPER.VALID then s1
    else (s1.put panelSite Reg.SEC_TAMPER.VALID 1).put panelSite Reg.SEC_TAMPER.CAUSE cause
  let s3 := ((s2.bump panelSite Reg.SEC_TAMPER.COUNT).notifyCtl 0x0C06 3 none cause 0).driveLine 16 Cause.PANEL 2 0
  ((s3.closeWindows (fun _ => true) (fun _ => St.WITHDRAWN)).put panelSite Sec.TAMPER_STEP 1).advanceTamper

/-- A tamper event (R472): cause 1 VCTL, 2 clock. -/
def execTamper (cause : Nat) (s : State) : Host.Outcome State Fault Refusal :=
  .next (if (cause = 1 ∨ cause = 2) ∧ s.flag panelSite Boot.RELEASED then s.tampered cause else s)

/-! ### What a panel-scope scrub completes (R351, R466, R468, R472) -/

/-- A command that waited for a panel-scope scrub goes on. -/
def State.scrubEnded (s : State) (d : Deferred) : State :=
  match d.cmd with
  | .scrub _ _ 1 _ => s.finishCmd d St.OK
  | .lifecycle _ target auth _ => if d.step = 2 then s.lifeMoves d target auth.arg else s
  | .debugUnlock _ action _ _ =>
    if d.step = 2 then (s.putFlag panelSite Reg.SEC_STATUS.DEBUG (action == 0)).finishCmd d St.OK else s
  | _ => s

/-- A panel-scope scrub is over. -/
def State.finishPanelScrub (s : State) : State :=
  let s1 := s.panelScrubbed
  let s2 := s.deferred.foldl State.scrubEnded s1
  if s2.get panelSite Sec.TAMPER_STEP = 2 then (s2.put panelSite Sec.TAMPER_STEP 0).deriveIdentity else s2

/-! ### Attestation (R470) -/

/-- The words that bytes spell. -/
def wordsOf (bs : List Byte) : List Nat := (List.range ((bs.length + 7) / 8)).map fun i => leNat ((bs.drop (8 * i)).take 8)

/-- FLAGS of a report. -/
def State.reportFlags (s : State) : Nat :=
  let g (f : Fld) : Nat := s.get panelSite f
  g Reg.SEC_STATUS.DEBUG + 2 * g Reg.SQD_PANEL.IMAGE_VERIFIED + 4 * g Reg.SQD_PANEL.HBM_CLEAN + 8 * g Reg.SEC_STATUS.TAMPER
    + 16 * g Reg.SEC_STATUS.RECOVERY

/-- Bytes 0–287 of a report. -/
def State.reportBody (s : State) (nonce : Nat) : List Byte :=
  let g (f : Fld) : Nat := s.get panelSite f
  let panel := if s.flag panelSite Panel.NUMBER_SET then g Panel.NUMBER else 0
  leBytes 2 1 ++ leBytes 1 s.lifeCycle ++ leBytes 1 s.reportFlags ++ leBytes 2 panel ++ leBytes 2 (g Reg.SEC_STATUS.SVN_MIN)
    ++ leBytes 8 (g Sec.FW_VERSION) ++ leBytes 2 (g Reg.SEC_STATUS.FW_SVN)
    ++ leBytes 1 (g Reg.SEC_KEYS.REVOKED + 16 * g Reg.SEC_KEYS.ACTIVE_SLOT) ++ leBytes 1 (g Reg.PWR_GRADE.GRADE)
    ++ leBytes 1 (g Reg.SEC_PROVISION.HOSTPORT + 128 * g Reg.SEC_PROVISION.HOSTPORT_SET) ++ leBytes 1 (g Reg.CTL_ROSTER_STATUS.RETIRED_USED)
    ++ leBytes 2 0 ++ leBytes 8 (s.get s.controlSite Reg.CLK_PT.TIME) ++ leBytes 64 (g Sec.FW_DIGEST)
    ++ leBytes 64 (if s.flag panelSite Reg.SQD_PANEL.IMAGE_VERIFIED then g Img.DIGEST else 0)
    ++ leBytes 64 (Config.sha512 (s.rosterWords.flatMap (leBytes 8)) % 2 ^ 512) ++ leBytes 64 nonce

/-- The report, signed with the identity key; what the signer draws at random is a free value. -/
def State.report (s : State) (nonce : Nat) : List Byte :=
  s.reportBody nonce ++ (Config.ecdsaSign (s.get panelSite Sec.IDKEY) (s.reportBody nonce) s.free.1).take 132 ++ leBytes 4 0

/-- `ATTEST` (R470). -/
def execAttest (h : CmdHdr) (nonce : Nat) (s : State) : Host.Outcome State Fault Refusal :=
  .next (s.command h { op := Op.ATTEST, cmd := .attest h nonce, lengthOk := h.length == 64 }
    fun s => s.free.2.reply h Op.ATTEST St.OK (wordsOf (s.report nonce)))

end Sys2Proof.Machine
end

