-- ==== Sys2Proof/Machine/Progress.lean ====
section
/-! DEFINITION. What goes on once a squad has stopped or paused, a save or a clear has ended, or a line has been driven (12_runs_and_swaps). -/

namespace Sys2Proof.Machine

/-- An outstanding command that waits for squads goes on. -/
def State.advanceCmd (s : State) (d : Deferred) : State :=
  if d.opcode = Op.PAUSE ∨ d.opcode = Op.HALF_TIME then s.advancePause d
  else if d.opcode = Op.STOP then s.advanceStop d
  else if d.opcode = Op.FENCE_DIE then s.advanceFence d
  else s.advanceDebug d

/-- Everything that waits for squads goes on: commands, fences, substitutions, a reset scope, the scrub of a tamper event. -/
def State.progress (s : State) : State :=
  let s1 := (s.deferred.foldl State.advanceCmd s).settleFences
  ((s1.substs.foldl State.advanceSubst s1).advanceReset).advanceTamper

/-! ### Lines and squads (R336, R337, R344, R329) -/

/-- A line is latched: a live substitution whose old die obeys it ends (R387). -/
def State.latched (s : State) (line : Nat) : State :=
  let hit := s.substs.filter fun x => x.live && (s.obey x.old).testBit line
  (hit.foldl (fun s x => s.abortSubst x 5 St.WRONG_STATE false false) (s.latchLine line)).progress

/-- A driven whistle line is latched (R336). -/
def execWhistleDriven (line : Nat) (s : State) : Host.Outcome State Fault Refusal :=
  .next (if s.lineDriven line then s.latched line else s)

/-- A whistled squad is STOPPED (R337). -/
def execSquadStopped (squad : Nat) (s : State) : Host.Outcome State Fault Refusal :=
  .next (if squad < 16 ∧ s.stopReady squad then (s.squadStops squad).progress else s)

/-- A pause is complete (R344). -/
def execSquadPaused (squad : Nat) (s : State) : Host.Outcome State Fault Refusal :=
  .next (if squad < 16 ∧ s.pauseDone squad then (s.squadPaused squad).progress else s)

/-- A squad's program has ended (R329). -/
def execSquadComplete (squad : Nat) (s : State) : Host.Outcome State Fault Refusal :=
  .next (if squad < 16 ∧ s.squadDone squad then (s.stopNow squad Cause.COMPLETE 0).progress else s)

/-- The command that waits for some squads to pause. -/
def State.pauser (s : State) (mask : Nat) : Option Deferred :=
  s.deferred.find? fun d => (d.opcode == Op.PAUSE || d.opcode == Op.HALF_TIME) && d.step == 1 && squadsOf d.cmd == mask

/-- The live substitution that waits for a squad to pause. -/
def State.pausingSubst (s : State) (mask : Nat) : Option Subst :=
  s.substs.find? fun x => x.live && x.step == 4 && ((s.liveSquad x.ldie).any fun n => 2 ^ n == mask)

/-- The pause limit runs out (R344, R387): the others keep pause pending. -/
def State.pauseLimit (s : State) (mask : Nat) : State :=
  match s.pauser mask with
  | some d => s.finishCmd d St.TIMED_OUT [s.maskIn mask Squad.PAUSED]
  | none =>
    match s.pausingSubst mask with
    | some x => s.abortSubst x 1 St.TIMED_OUT false true
    | none => s

/-- The pause limit runs out (R344). -/
def execPauseLimit (squads : BitVec 16) (s : State) : Host.Outcome State Fault Refusal := .next (s.pauseLimit squads.toNat)

/-! ### Saves (R347, R434) -/

/-- A save ends: that of a `HALF_TIME`, or of the thermal hold. -/
def State.halfTimeSaved (s : State) : State :=
  match s.deferred.find? fun d => d.opcode == Op.HALF_TIME && d.step == 2 with
  | some d =>
    let mask := squadsOf d.cmd
    (s.saveSquads (squadList mask)).finishCmd d (d.slot.getD St.OK) [s.maskIn mask Squad.PAUSED]
  | none => s.holdSaved

/-- A save ends (R347). -/
def execHalfTimeSaved (s : State) : Host.Outcome State Fault Refusal := .next s.halfTimeSaved

/-! ### Clears (R168, R350, R351) -/

/-- The clear engine of a die finishes (R168). -/
def execClearComplete (site : Nat) (s : State) : Host.Outcome State Fault Refusal :=
  .next (if isCompute site ∧ s.flag site Die.CLEARING then s.clearDie site else s)

/-- Squads whose dies an outstanding command has cleared, if it waits for that and it is done. -/
def State.scrubReady (s : State) (d : Deferred) : Bool :=
  match d.cmd with
  | .scrub _ q 0 _ => s.cleared (s.maskSites q.toNat)
  | .stop _ q true _ => d.step == 2 && s.cleared (s.maskSites q.toNat)
  | _ => false

/-- A squad scrub completes. -/
def State.finishScrub (s : State) (d : Deferred) : State :=
  if s.scrubReady d then (s.scrubSquads (squadList (squadsOf d.cmd))).finishCmd d St.OK else s

/-- A squad or panel scrub completes (R351). -/
def execScrubDone (s : State) : Host.Outcome State Fault Refusal :=
  let s1 := s.deferred.foldl State.finishScrub s
  .next (if s1.panelCleared then s1.finishPanelScrub else s1)

/-! ### Budgets (R419) -/

/-- The control die sets each compute die's budget (R419). -/
def execBudgetUpdate (s : State) : Host.Outcome State Fault Refusal := .next (if s.controlDead then s else s.updateBudgets)

end Sys2Proof.Machine
end

