-- ==== Sys2Proof/Machine/Admission.lean ====
section
/-! DEFINITION. Power-up admission, self-tests and the supply of a block (16_power_delivery R411–R415, 18_bring_up_and_reset R445, R453). -/

namespace Sys2Proof.Machine

/-! ### Admission (R411, R412) -/

/-- A power-up is admitted: the switch closes. -/
def State.admitPower (s : State) (p : PowerUp) : State :=
  (if p.why = Why.SUBST then s.substGranted p.site else s.powerOn p.site).phasePower p.site 1

/-- The power-up of a block that has waited longest is admitted if the block has room for it. -/
def State.tryAdmit (s : State) (block : Nat) : State :=
  match s.waitingPower block with
  | some p => if s.admissible p.site then s.admitPower p else s
  | none => s

/-- A block has room for a waiting power-up (R411). -/
def execAdmissionGranted (block : Nat) (s : State) : Host.Outcome State Fault Refusal := .next (s.tryAdmit block)
/-- A refused power-up is tried again (R411). -/
def execAdmissionRetry (block : Nat) (s : State) : Host.Outcome State Fault Refusal := .next (s.tryAdmit block)

/-- A die's bring-up ends without a passed self-test (R450). -/
def State.bringupLost (s : State) (site : Nat) : State := (((s.switchOff site).dieFails site).bringupFail 4 site).bringupDone

/-- The operation that asked for a power-up ends `DEFERRED`. -/
def State.deferPower (s : State) (p : PowerUp) : State :=
  let s1 := s.bump panelSite (Reg.PWR_BLOCK.DEFERRALS (siteBlock p.site))
  if p.why = Why.SUBST then s1.substDeferred p.site
  else if p.why = Why.ROLL then s1.rollFails p.site
  else if p.why = Why.BRINGUP then (s1.dropPower p.site).bringupLost p.site
  else if p.why = Why.RESET then
    let s2 := (s1.dropPower p.site).put panelSite Reset.DEFERRED 1
    if isCompute p.site then s2.ownFence p.site else s2
  else s1.dropPower p.site

/-- Admission has been refused for 100 ms (R411). -/
def execAdmissionDeferred (block : Nat) (s : State) : Host.Outcome State Fault Refusal :=
  .next (match s.waitingPower block with
    | some p => (s.deferPower p).progress
    | none => s)

/-! ### Self-tests (R384, R415, R445, R453) -/

/-- A powered link die trains its port (R447). -/
def State.trainLink (s : State) (site : Nat) : State := s.jput (portOfSite site) Reg.PORT_STATUS.STATE Port.TRAINING

/-- A die passes the self-test of its bring-up. -/
def State.bringupTested (s : State) (site : Nat) (ok : Bool) : State :=
  if !ok then s.bringupLost site
  else if isCompute site then (s.put site Die.PASSED 1).clearDie site
  else s.trainLink site

/-- The self-test after a roll call's check (R415): a die that had been fenced off returns to service by a timeout; one that fails is fenced, and
substituted by R382. -/
def State.rollTested (s : State) (site : Nat) (ok : Bool) : State :=
  if !ok then (if isCompute site then s.ownFence site else s.switchOff site)
  else if isCompute site then
    let s1 := s.clearDie site
    if s1.siteState site = Site.ACTIVE ∧ s1.flag site Reg.MESH_STATUS.LOCAL_FENCED then s1.startTimeout ⟨4, site, TimeoutTables.none⟩ else s1
  else if s.flag site Reg.PORT_CTL.AUTO_RETRAIN then s.trainLink site
  else s

/-- The self-test of a reset scope (R453, R454): a BENCH site is opened again. -/
def State.resetTested (s : State) (site : Nat) (ok : Bool) : State :=
  if !ok then (if isCompute site then s.ownFence site else s.switchOff site)
  else if isCompute site then (if s.siteState site = Site.BENCH then (s.clearDie site).switchOff site else s.clearDie site)
  else s.trainLink site

/-- A powered die's self-test has ended. -/
def State.selfTested (s : State) (p : PowerUp) (ok : Bool) : State :=
  if p.why = Why.SUBST then
    (match s.substAt p.site with
      | some x => s.substTested x ok
      | none => s)
  else if p.why = Why.ROLL then (if p.phase = 2 then (s.dropPower p.site).rollTested p.site ok else s)
  else if p.why = Why.BRINGUP then (s.dropPower p.site).bringupTested p.site ok
  else if p.why = Why.RESET then (s.dropPower p.site).resetTested p.site ok
  else if ok then (s.dropPower p.site).trainLink p.site
  else (s.dropPower p.site).switchOff p.site

/-- A powered die's self-test has ended (R384). -/
def execSelfTestDone (site : Nat) (ok : Bool) (s : State) : Host.Outcome State Fault Refusal :=
  .next (match s.powerUp site with
    | some p => if p.phase = 0 then s else (s.selfTested p ok).progress
    | none => s)

/-! ### `PWRGOOD` (R414, R415, R445) -/

/-- A block has its supply. -/
def State.supplied (s : State) (block : Nat) : State :=
  let st := s.get panelSite (Reg.PWR_BLOCK.STATE block)
  let s1 := s.put panelSite (Reg.PWR_BLOCK.PWRGOOD block) 1
  if st = 3 then s1.rollPower block
  else if st ≠ 0 then s1
  else if s.resetBusy ∧ s.resetScope = 1 then (s1.put panelSite (Reg.PWR_BLOCK.STATE block) 1).resetRounds block
  else s1.blockUp block

/-- `PWRGOOD` of a block asserts. -/
def execPwrgoodAssert (block : Nat) (s : State) : Host.Outcome State Fault Refusal :=
  .next (s.ifReleased
    (if block < 16 ∧ s.flag panelSite (Reg.PWR_BLOCK.EN block) ∧ !s.flag panelSite (Reg.PWR_BLOCK.PWRGOOD block) then s.supplied block else s))

/-- A block loses its supply (R414). A roll call that has committed ends with the status in its slot. -/
def State.blockLost (s : State) (block : Nat) : State :=
  let s1 := (s.squadsOn (vinSites block)).foldl (fun s n => s.loseSquad n Cause.ROSTER) s
  let s2 := ((s1.put panelSite (Reg.PWR_BLOCK.EN block) 0).put panelSite (Reg.PWR_BLOCK.STATE block) 2).notifyCtl 0x0A05 3 none block 0
  let s3 := (s2.blockSubsts block).blockOff block
  let s4 := { s3 with ownFences := s3.ownFences.filter fun k => siteBlock k != block }
  match s4.rollCall block with
  | some d => (s4.finishCmd d (d.slot.getD St.HW_FAULT) [d.mask]).progress
  | none => s4.progress

/-- `PWRGOOD` of a block falls (R414). -/
def execPwrgoodFall (block : Nat) (s : State) : Host.Outcome State Fault Refusal :=
  let st := s.get panelSite (Reg.PWR_BLOCK.STATE block)
  let s1 := s.put panelSite (Reg.PWR_BLOCK.PWRGOOD block) 0
  .next (s.ifReleased
    (if block < 16 ∧ s.flag panelSite (Reg.PWR_BLOCK.PWRGOOD block) then (if st = 1 ∨ st = 3 then s1.blockLost block else s1) else s))

end Sys2Proof.Machine
end

