-- ==== Sys2Proof/Machine/Thermal.lean ====
section
/-! DEFINITION. Temperatures (17_cooling): sensors, thermal ceilings, thermal resistance and caps, the coolant. -/

namespace Sys2Proof.Machine

/-! ### State beside the registers -/

/-- Governing reading of a hot-spot site at the last sample, as 16 bits (R428). -/
def Thm.GOV (k : Nat) : Fld := ⟨0x1000200 + 8 * k, 0, 16, 0, .int⟩
/-- Consecutive samples of a site with its diodes more than 3 degrees apart, more than 8 apart, and the good diode more than 8 from RO. -/
def Thm.SPLIT_RUN (k : Nat) : Fld := ⟨0x1000280 + 8 * k, 0, 7, 0, .int⟩
def Thm.FAR_RUN (k : Nat) : Fld := ⟨0x1000280 + 8 * k, 7, 4, 0, .int⟩
def Thm.RO_RUN (k : Nat) : Fld := ⟨0x1000280 + 8 * k, 11, 4, 0, .int⟩
/-- Band of Tj at the last sample (0 up to 93 degrees, 1 up to 95, 2 above, 3 from 100 on), consecutive samples in it since the ceiling last
moved, consecutive samples from 105 degrees on (R429). -/
def Thm.BAND : Fld := ⟨0x1000300, 0, 2, 0, .int⟩
def Thm.TICKS : Fld := ⟨0x1000300, 2, 4, 0, .int⟩
def Thm.HOT_RUN : Fld := ⟨0x1000300, 6, 2, 0, .int⟩
/-- Samples kept, Tj and average power of the last ten samples, and whether the die shows a rise (R433). -/
def Thm.COUNT : Fld := ⟨0x1000300, 8, 4, 0, .int⟩
def Thm.RISING : Fld := ⟨0x1000300, 12, 1, 0, .int⟩
def Thm.TEMPS : Fld := ⟨0x1000308, 0, 160, 0, .int⟩
def Thm.POWERS : Fld := ⟨0x1000310, 0, 160, 0, .int⟩
/-- Panel time, plus one, at the last `THM_THROTTLE` of a die, and at the last `THM_FLOW_MISMATCH`; 0 for none. -/
def Thm.THROTTLE_AT : Fld := ⟨0x1000318, 0, 65, 0, .int⟩
def Thm.MISMATCH_AT : Fld := ⟨0x1500500, 0, 65, 0, .int⟩

/-- Hot-spot sites of a die (R427). -/
def hotSpots (site : Nat) : Nat :=
  match dieKind site with
  | .compute => 16 | .hub => 4 | .link => 8 | .control => 2 | .capacitor => 0

/-- A die has not raised a notice within the last `span` units of its panel time. -/
def State.longAgo (s : State) (site last span : Nat) : Bool :=
  last == 0 || last + span ≤ s.get site Reg.CLK_PT.TIME + 1 || s.get site Reg.CLK_PT.TIME + 1 < last

/-! ### Governing readings (R428) -/

/-- A sensor is marked bad. -/
def State.markBad (s : State) (site k code : Nat) : State :=
  let s1 := if code = 1 then s else s.put site (Reg.THM_SITE.A_BAD k) 1
  let s2 := if code = 0 then s1 else s1.put site (Reg.THM_SITE.B_BAD k) 1
  (s2.bump site Reg.THM_DIE_EVENTS.SENSOR_NOTICES).notify site 63 0x0B03 2 (k + 16 * code) 0

/-- A count of consecutive samples goes on, or starts again. -/
def State.countRun (s : State) (site : Nat) (f : Fld) (on : Bool) : State := if on then s.bump site f else s.put site f 0

/-- Both diodes are good. -/
def State.bothGood (s : State) (site k : Nat) (r : Reading) : Int × State :=
  let apart := (r.a - r.b).natAbs
  let s1 := (s.countRun site (Thm.SPLIT_RUN k) (300 < apart)).countRun site (Thm.FAR_RUN k) (800 < apart)
  let s2 := if s1.get site (Thm.SPLIT_RUN k) = 100 ∧ s.get site (Thm.SPLIT_RUN k) = 99 then
      (s1.bump site Reg.THM_DIE_EVENTS.SENSOR_NOTICES).notify site 63 0x0B02 2 k 0
    else s1
  let nearA := (r.a - r.ro).natAbs ≤ (r.b - r.ro).natAbs
  if s2.get site (Thm.FAR_RUN k) = 10 then (if nearA then (r.a, s2.markBad site k 1) else (r.b, s2.markBad site k 0))
  else if 300 < apart then (max r.a r.b, s2)
  else s2.half (r.a + r.b)

/-- One diode is good. -/
def State.oneGood (s : State) (site k : Nat) (good ro : Int) : Int × State :=
  let s1 := s.countRun site (Thm.RO_RUN k) (800 < (good - ro).natAbs)
  if s1.get site (Thm.RO_RUN k) = 10 then (ro + 500, s1.markBad site k 2) else (good, s1)

/-- The governing reading of a site. -/
def State.govern (s : State) (site k : Nat) (r : Reading) : Int × State :=
  match s.flag site (Reg.THM_SITE.A_BAD k), s.flag site (Reg.THM_SITE.B_BAD k) with
  | false, false => s.bothGood site k r
  | false, true => s.oneGood site k r.a r.ro
  | true, false => s.oneGood site k r.b r.ro
  | true, true => (r.ro + 500, s)

/-- A site is sampled. -/
def State.sampleSite (s : State) (site k : Nat) (r : Reading) : State :=
  let s1 := ((s.put site (Reg.THM_SITE.A k) (wrap16 r.a)).put site (Reg.THM_SITE.B k) (wrap16 r.b)).put site (Reg.THM_SITE.RO_T k) (wrap16 r.ro)
  let s2 := s1.putFlag site (Reg.THM_SITE.SPLIT k) (300 < (r.a - r.b).natAbs)
  (s2.govern site k r).2.put site (Thm.GOV k) (wrap16 (s2.govern site k r).1)

/-- A site's governing reading. -/
def State.gov (s : State) (site k : Nat) : Int := signed16 (s.get site (Thm.GOV k))

/-- The site that gives Tj. -/
def State.hotSite (s : State) (site : Nat) : Nat :=
  (List.range (hotSpots site)).foldl (fun b k => if s.gov site b < s.gov site k then k else b) 0

/-- Tj and HOT_SITE (R428). -/
def State.putTj (s : State) (site : Nat) : State :=
  (s.put site Reg.THM_DIE_STATUS.TJ (wrap16 (s.gov site (s.hotSite site)))).put site Reg.THM_DIE_STATUS.HOT_SITE (s.hotSite site)

/-! ### What a die does at its temperature (R429) -/

/-- The band of a temperature. -/
def bandOf (t : Int) : Nat := if t ≤ 9300 then 0 else if t ≤ 9500 then 1 else if t < 10000 then 2 else 3

/-- A thermal ceiling of a compute or link die moves; other dies have none. -/
def State.moveCeil (s : State) (site : Nat) (down up : Nat) : State :=
  if isCompute site || dieKind site == .link then
    let code := s.get site Reg.THM_DIE_STATUS.T_CEIL
    s.setThermal site (min 72 (code + (if s.holding then 0 else up)) - down)
  else s

/-- A die enters throttle. -/
def State.throttles (s : State) (site : Nat) : State :=
  let s1 := s.bump site Reg.THM_DIE_EVENTS.THROTTLES
  if dieKind site = .hub ∨ s1.longAgo site (s1.get site Thm.THROTTLE_AT) 4000000000 then
    (s1.put site Thm.THROTTLE_AT (s1.get site Reg.CLK_PT.TIME + 1)).notify site 63 0x0B04 2 (s1.get site Reg.THM_DIE_STATUS.TJ) 0
  else s1

/-- Ten samples in a band are 1 ms. -/
def State.everyMs (s : State) (site : Nat) (f : State → State) : State :=
  if 9 ≤ s.get site Thm.TICKS then f (s.put site Thm.TICKS 0) else s.bump site Thm.TICKS

/-- The thermal ceiling follows Tj. -/
def State.followTj (s : State) (site : Nat) : State :=
  let old := s.get site Thm.BAND
  let new := bandOf (s.tj site)
  let s1 := (s.put site Thm.BAND new).put site Thm.TICKS (if new = old then s.get site Thm.TICKS else 0)
  if new = 3 then (if old = 3 then s1.moveCeil site 1 0 else (s1.throttles site).moveCeil site 4 0)
  else if new = 2 then s1.everyMs site fun s => s.moveCeil site 1 0
  else if new = 0 then s1.everyMs site fun s => s.moveCeil site 0 1
  else s1

/-- A die is at its absolute maximum. -/
def State.overtemp (s : State) (site : Nat) : State :=
  let s1 := (s.bump site Reg.THM_DIE_EVENTS.OVERTEMPS).notify site 63 0x0B05 3 (s.get site Reg.THM_DIE_STATUS.TJ) 0
  match dieKind site with
  | .compute => (s1.ownFence site).progress
  | .link => (s1.putFlag site Reg.MESH_STATUS.LOCAL_FENCED true).switchOff site
  | .hub => (List.range 32).foldl (fun s ch => s.failChannel (stackOfSite site) ch) s1
  | _ => s1

/-- LEVEL, and what follows two samples at the absolute maximum. -/
def State.levelTj (s : State) (site : Nat) : State :=
  let s1 := s.countRun site Thm.HOT_RUN (decide (10500 ≤ s.tj site))
  let run := s1.get site Thm.HOT_RUN
  let level := if 2 ≤ run then 3 else bandOf (s1.tj site) - 1
  let s2 := s1.put site Reg.THM_DIE_STATUS.LEVEL level
  if run = 2 ∧ s.get site Thm.HOT_RUN = 1 then s2.overtemp site else s2

/-! ### Loss of flow by its rate (R433) -/

/-- A sample is kept for 1 ms, and the die shows a rise or not. -/
def State.keepRise (s : State) (site : Nat) : State :=
  let t := s.get site Reg.THM_DIE_STATUS.TJ
  let p := s.get site Reg.PWR_DIE_BUDGET.AVG_1MS
  let oldT : Nat := s.get site Thm.TEMPS / 2 ^ 144
  let oldP : Nat := s.get site Thm.POWERS / 2 ^ 144
  let rising := s.get site Thm.COUNT = 10 ∧ 300 < signed16 t - signed16 oldT ∧ 10 * ((p : Int) - oldP).natAbs < oldP
  let s1 := (s.put site Thm.TEMPS (s.get site Thm.TEMPS * 2 ^ 16 + t)).put site Thm.POWERS (s.get site Thm.POWERS * 2 ^ 16 + p)
  (s1.put site Thm.COUNT (min 10 (s.get site Thm.COUNT + 1))).putFlag site Thm.RISING rising

/-- Enough dies show a rise (R433). -/
def State.rateSeen (s : State) : Bool :=
  let hot := (s.sitesIn Site.ACTIVE).filter fun k => s.flag k Thm.RISING
  16 ≤ hot.length && 4 ≤ ((hot.map siteBlock).dedup).length

/-- The sensors of a die are read (R427–R429, R433). -/
def State.sensorSample (s : State) (site : Nat) (readings : List Reading) : State :=
  let s1 := (readings.zipIdx.foldl (fun s e => s.sampleSite site e.2 e.1) s).putTj site
  let s2 := ((s1.followTj site).levelTj site)
  let s3 := if isCompute site then s2.keepRise site else s2
  if s3.rateSeen then s3.rateLoss else s3

/-- The sensors of a die are read (R428). -/
def execSensorSample (site : Nat) (readings : List Reading) (s : State) : Host.Outcome State Fault Refusal :=
  .next (if hasRouter site ∧ readings.length = hotSpots site then s.sensorSample site readings else s)

/-! ### The coolant (R425, R426) -/

/-- The lid sensors are read (R425); time in HOLD goes on (R439). -/
def execLidSample (inlet outlet : Int) (s : State) : Host.Outcome State Fault Refusal :=
  let s1 := (s.put panelSite Reg.THM_PANEL.INLET (wrap16 inlet)).put panelSite Reg.THM_PANEL.OUTLET (wrap16 outlet)
  .next (if s1.get panelSite Reg.THM_PANEL.STATE = 1 then s1.bump panelSite Reg.THM_PANEL.HOLD_MS else s1)

/-- `SET_COOLANT` (R425). -/
def execSetCoolant (h : CmdHdr) (inlet : Int) (flow rsv : Nat) (s : State) : Host.Outcome State Fault Refusal :=
  .next (s.command h
    { op := Op.SET_COOLANT, cmd := .setCoolant h inlet flow rsv, lengthOk := h.length == 8,
      param := check (inlet < 500 || 4500 < inlet || 4000 < flow || rsv != 0) St.BAD_PARAM }
    fun s =>
      ((s.put panelSite Reg.THM_COOLANT.HOST_INLET (wrap16 inlet)).put panelSite Reg.THM_COOLANT.HOST_FLOW flow).reply h Op.SET_COOLANT St.OK)

/-- Lid inlet and outlet, in 0.01 degrees. -/
def State.inletTemp (s : State) : Int := signed16 (s.get panelSite Reg.THM_PANEL.INLET)
def State.outletTemp (s : State) : Int := signed16 (s.get panelSite Reg.THM_PANEL.OUTLET)

/-- The measured coolant rise, and the expected one (R426), in 0.01 degrees. -/
def State.coolantRise (s : State) : Int := s.outletTemp - s.inletTemp
def State.expectedRise (s : State) : Rat := (s.get panelSite Reg.PWR_PANEL.POWER * 10000 : Nat) / (60 * s.get panelSite Reg.THM_COOLANT.HOST_FLOW : Nat)

/-- The rises differ by more than 30 %. -/
def State.risesDiffer (s : State) : Bool :=
  decide (3 * s.expectedRise < 10 * ((s.coolantRise : Rat) - s.expectedRise) ∨ 3 * s.expectedRise < 10 * (s.expectedRise - s.coolantRise))

/-- The coolant rise is compared with panel power (R426). -/
def execFlowCheck (held10s : Bool) (s : State) : Host.Outcome State Fault Refusal :=
  let site := s.controlSite
  .next (if s.get panelSite Reg.THM_COOLANT.HOST_FLOW ≠ 0 ∧ 3000 < s.get panelSite Reg.PWR_PANEL.POWER ∧ held10s ∧ s.risesDiffer
        ∧ s.longAgo site (s.get panelSite Thm.MISMATCH_AT) 240000000000 then
      (s.put panelSite Thm.MISMATCH_AT (s.get site Reg.CLK_PT.TIME + 1)).notifyCtl 0x0B01 2 none (s.coolantRise % 2 ^ 32).toNat
        s.expectedRise.floor.toNat
    else s)

/-! ### Thermal resistance and caps (R431, R432, R437) -/

/-- Tc, from an inlet reading (R431). -/
def State.coolantMean (s : State) (inlet : Int) : Rat := ((inlet + s.outletTemp : Int) : Rat) / 2

/-- The new estimate of a die in 0.0001 K/W. -/
def State.thetaNext (s : State) (site : Nat) : Int :=
  let mean : Rat := (((List.range 16).map (s.gov site)).sum : Rat) / 16
  let theta : Rat := (mean - s.coolantMean s.inletTemp) * 10000000 * (s.get site Die.P_COUNT : Nat) / (s.get site Die.P_SUM : Nat)
  let old : Rat := (s.get site Reg.THM_DIE_THETA.THETA : Nat)
  (old + (theta - old) / 8).floor

/-- A die updates its estimate (R431). One that its register cannot hold is a free value. -/
def State.updateTheta (s : State) (site : Nat) : State :=
  let n := s.get site Die.P_COUNT
  let s1 := if n ≠ 0 ∧ 2000000 * n ≤ s.get site Die.P_SUM then
      (if 0 ≤ s.thetaNext site ∧ s.thetaNext site < 65536 then s.put site Reg.THM_DIE_THETA.THETA (s.thetaNext site).toNat
      else s.free.2.put site Reg.THM_DIE_THETA.THETA s.free.1)
    else s
  (s1.put site Die.P_SUM 0).put site Die.P_COUNT 0

/-- Each active compute die updates its estimate (R431). -/
def execThetaUpdate (s : State) : Host.Outcome State Fault Refusal :=
  let s1 := (s.sitesIn Site.ACTIVE).foldl State.updateTheta s
  .next (s1.put panelSite Reg.THM_COOLANT.THETA_MAX
    ((s1.sitesIn Site.ACTIVE).foldl (fun m k => max m (s1.get k Reg.THM_DIE_THETA.THETA)) 0))

/-- The inlet temperature of the thermal cap: the higher of the host's and the sensor's (R425). -/
def State.capInlet (s : State) : Int := max (signed16 (s.get panelSite Reg.THM_COOLANT.HOST_INLET)) s.inletTemp

/-- The thermal die cap of an estimate, in 0.1 W (R432); none is stated where the estimate is 0. -/
def State.dieCap (s : State) (site : Nat) : Nat × State :=
  let est := s.get site Reg.THM_DIE_THETA.THETA
  if est = 0 then (s.free.1 % 821, s.free.2)
  else (min 820 ((9500 - s.coolantMean s.capInlet) * 1000 / (est : Nat)).floor.toNat, s)

/-- Thermal caps of the dies that get a budget. -/
def State.updateDieCaps (s : State) : State :=
  (s.sitesIn Site.ACTIVE ++ s.sitesIn Site.INCOMING).foldl (fun s k => (s.dieCap k).2.put k Reg.THM_DIE_THETA.P_TH (s.dieCap k).1) s

/-- The panel thermal cap (R432, R437). -/
def State.thermalCap (s : State) : Nat :=
  let old := s.get panelSite Reg.PWR_PANEL.THERMAL_CAP
  let sum := ((s.sitesIn Site.ACTIVE ++ s.sitesIn Site.INCOMING).map fun k => s.get k Reg.THM_DIE_THETA.P_TH).sum
  let target := if s.flag panelSite Reg.THM_PANEL.AIR then 2400 else min 15000 (2965 + sum / 10)
  if s.flag panelSite Reg.THM_PANEL.AIR then target else min target (old * 102 / 100)

/-- Thermal caps are computed (R432); budgets follow (R419). -/
def execThermalCapUpdate (s : State) : Host.Outcome State Fault Refusal :=
  let s1 := s.updateDieCaps
  .next (s1.put panelSite Reg.PWR_PANEL.THERMAL_CAP s1.thermalCap).updateBudgets

end Sys2Proof.Machine
end

