-- ==== Sys2Proof/Machine/Notices.lean ====
section
/-! DEFINITION. The notice queue, pushed notices and margin scans (20_errors_and_margins). -/

namespace Sys2Proof.Machine

/-- Panel time, plus one, at the last `TIMING_MARGIN` of a die (R486); 0 for none. -/
def Die.MARGIN_AT : Fld := ⟨0x1900058, 0, 65, 0, .int⟩

/-! ### The notice queue (R478–R482) -/

/-- The 32 bytes of a record (R478). -/
def noticeBytes (q : Queued) : List Byte :=
  let n := q.note
  leBytes 4 q.seq ++ leBytes 2 n.typ ++ leBytes 1 (n.cls % 8) ++ leBytes 1 (if n.loss then 1 else 0) ++ leBytes 8 n.time
    ++ leBytes 1 n.site ++ leBytes 1 (n.unit % 64) ++ leBytes 1 (n.squad % 16 + (if n.squadValid then 16 else 0)) ++ leBytes 1 0
    ++ leBytes 4 n.arg0 ++ leBytes 8 n.arg1

/-- Records the queue holds, and those that classes 0 to 2 may fill (R481). -/
def noticePlaces : Nat := 262144
def noticeLow : Nat := 261120

/-- The queue has no place for a record of a class (R481). -/
def State.noticeFull (s : State) (cls : Nat) : Bool :=
  let held := s.get panelSite Reg.CTL_NOTICE_STATUS.HELD
  noticePlaces ≤ held || (cls ≤ 2 && noticeLow ≤ held)

/-- A record enters the queue with the next SEQ, and its copy waits to be pushed (R480, R483). -/
def State.queueNotice (s : State) (n : Notice) : State :=
  let seq := s.get panelSite Reg.CTL_NOTICE_SEQ.NEXT_SEQ
  let s1 := (s.put panelSite Reg.CTL_NOTICE_SEQ.NEXT_SEQ ((seq + 1) % 2 ^ 32)).put panelSite Reg.CTL_NOTICE_STATUS.HELD
    (s.get panelSite Reg.CTL_NOTICE_STATUS.HELD + 1)
  let s2 : State := { s1 with noticeQueue := s1.noticeQueue ++ [Queued.mk seq n] }
  if s.flag panelSite Reg.CTL_NOTICE_CTL.PUSH_EN ∧ s.get panelSite Reg.CTL_NOTICE_CTL.PUSH_MIN ≤ n.cls then
    { s2 with pushes := s2.pushes ++ [Queued.mk seq n] }
  else s2

/-- A record arrives at the control die (R480, R481). -/
def State.takeNotice (s : State) (n : Notice) : State :=
  if s.noticeFull n.cls then (s.bump panelSite Reg.CTL_NOTICE_STATUS.LOST_TOTAL).bump panelSite Reg.CTL_NOTICE_SEQ.LOST_SINCE_READ
  else s.queueNotice n

/-- A die's buffered records can reach the control die (R479). -/
def State.noticesLeave (s : State) (site : Nat) : Bool :=
  site == s.controlSite || (s.alive site && s.flag site Reg.CLK_FABRIC.FAB_LOCK)

/-- The oldest record of a die's buffer reaches the control die (R479, R480). -/
def execNoticeRecord (site : Nat) (s : State) : Host.Outcome State Fault Refusal :=
  .next (match s.noticeBuf.find? fun n => n.site == site with
    | some n =>
      if s.noticesLeave site && !s.controlDead then
        let s1 : State := { s with noticeBuf := dropFirst (fun (m : Notice) => m.site == site) s.noticeBuf }
        (s1.put site Reg.DIE_NOTICE.BUFFERED (s.get site Reg.DIE_NOTICE.BUFFERED - 1)).takeNotice n
      else s
    | none => s)

/-- Where pushed records go (R483): the captain's panel by the routes of the control die's home port, or out of the host port. A host
adapter has no panel number: DPANEL is a free value then. -/
def State.pushTo (s : State) : Option (Nat × Nat × State) :=
  if s.flag panelSite Panel.CAPTAIN_SET && s.get panelSite Panel.CAPTAIN != s.ownPanel then
    match s.egress (s.homePort s.controlSite) (s.get panelSite Panel.CAPTAIN) with
    | .inl e => some (e, s.get panelSite Panel.CAPTAIN, s)
    | .inr _ => none
  else
    match s.hostPortNo with
    | some p => if s.portUsable p then some (p, s.free.1 % 4096, s.free.2) else none
    | none => none

/-- Up to 16 copies leave in one frame, or are lost (R483). -/
def State.pushNotices (s : State) : State :=
  let batch := s.pushes.take 16
  let s1 : State := { s with pushes := s.pushes.drop 16 }
  match s1.pushTo with
  | some (p, dp, s2) => s2.queueFrame p (s2.newFrame 4 dp (batch.flatMap noticeBytes) 255)
  | none => s1.bump panelSite Reg.CTL_NOTICE_CTL.PUSH_LOST batch.length

/-- Pushed copies leave (R483). -/
def execNoticePush (s : State) : Host.Outcome State Fault Refusal :=
  .next (if s.pushes.isEmpty || s.controlDead then s else s.pushNotices)

/-- The words of `READ_NOTICES` for the records it returns (R482). -/
def State.noticeWords (s : State) (qs : List Queued) : List Nat :=
  let first := match qs with
    | q :: _ => q.seq
    | [] => s.get panelSite Reg.CTL_NOTICE_SEQ.NEXT_SEQ
  (qs.length + s.get panelSite Reg.CTL_NOTICE_SEQ.LOST_SINCE_READ * 2 ^ 32) :: first :: qs.flatMap fun q => wordsOf (noticeBytes q)

/-- The oldest records leave the queue (R482). -/
def State.removeNotices (s : State) (n : Nat) : State :=
  let s1 : State := { s with noticeQueue := s.noticeQueue.drop n }
  (s1.put panelSite Reg.CTL_NOTICE_STATUS.HELD (s.get panelSite Reg.CTL_NOTICE_STATUS.HELD - n)).put panelSite
    Reg.CTL_NOTICE_SEQ.LOST_SINCE_READ 0

/-- `READ_NOTICES` (R482). -/
def execReadNotices (h : CmdHdr) (max : Nat) (peek : Bool) (rsv : Nat) (s : State) : Host.Outcome State Fault Refusal :=
  .next (s.command h
    { op := Op.READ_NOTICES, cmd := .readNotices h max peek rsv, lengthOk := h.length == 8,
      param := check (rsv != 0 || max < 1 || 127 < max) St.BAD_PARAM }
    fun s =>
      let qs := s.noticeQueue.take max
      (if peek then s else s.removeNotices qs.length).reply h Op.READ_NOTICES St.OK (s.noticeWords qs))

/-! ### Margin scans (R485) -/

/-- SITE is a die of the kind a scan reports, or 255. -/
def scanSiteOk (kind site : Nat) : Bool :=
  site == 255 || (match kind with
    | 0 => dieKind site == .link
    | 1 => isCompute site || dieKind site == .link
    | _ => isCompute site)

/-- A scan begins its own minima on a die. -/
def State.startScan (s : State) (site : Nat) : State :=
  ((((s.put site Die.SCAN_VIN (s.get site Reg.PWR_DIE_MEAS.VIN)).put site Die.SCAN_SLACK 255).put site Die.SCAN_CORE 0).put site
    Die.SCAN_CODE (s.get site Reg.CLK_CORE_STATUS.FREQ)).put site Die.SCAN_WARN 0

/-- `MARGIN_SCAN` (R485): it commits when it completes. -/
def execMarginScan (h : CmdHdr) (kind site rsv : Nat) (s : State) : Host.Outcome State Fault Refusal :=
  let cmd := Instr.marginScan h kind site rsv
  .next (s.command h
    { op := Op.MARGIN_SCAN, cmd := cmd, lengthOk := h.length == 8,
      param := check (rsv != 0 || 2 < kind || !scanSiteOk kind site) St.BAD_PARAM }
    fun s => ((List.range 256).filter fun k => isCompute k || dieKind k == .link).foldl State.startScan
      (s.begin h Op.MARGIN_SCAN cmd false))

/-- The dies a scan reports: those in service of the kind, at SITE or anywhere. -/
def State.scanSites (s : State) (kind site : Nat) : List Nat :=
  (List.range 256).filter fun k =>
    (site == 255 || k == site) && scanSiteOk kind k && k != 255
      && (if kind = 2 then s.siteState k == Site.ACTIVE else s.flag k Reg.PWR_DIE_STATUS.VIN_SW)

/-- PORT_LANEl as read. -/
def State.laneWord (s : State) (port l : Nat) : Nat :=
  s.jget port (Reg.PORT_LANE.RXPOW l) + s.jget port (Reg.PORT_LANE.BIAS l) * 2 ^ 16 + s.jget port (Reg.PORT_LANE.PREFEC l) * 2 ^ 28
    + s.jget port (Reg.PORT_LANE.UNCORR l) * 2 ^ 46 + s.jget port (Reg.PORT_LANE.LOCK l) * 2 ^ 54 + s.jget port (Reg.PORT_LANE.FAILED l) * 2 ^ 55

/-- The least element of a list of numbers that is not empty. -/
def leastInt : List Int → Int
  | [] => 0
  | x :: xs => xs.foldl min x

/-- The word of a port (R485, optical, every site). -/
def State.opticalWord (s : State) (port : Nat) : Nat :=
  let lanes := List.range 64
  let most (f : Nat → Fld) : Nat := lanes.foldl (fun m l => max m (s.jget port (f l))) 0
  wrap16 (leastInt (lanes.map fun l => signed16 (s.jget port (Reg.PORT_LANE.RXPOW l)))) + most Reg.PORT_LANE.BIAS * 2 ^ 16
    + most Reg.PORT_LANE.PREFEC * 2 ^ 28 + most Reg.PORT_LANE.UNCORR * 2 ^ 46
    + (lanes.filter fun l => s.jflag port (Reg.PORT_LANE.FAILED l)).length % 128 * 2 ^ 54 + port * 2 ^ 61

/-- NOW − BASE of a corner in mV, 0 if negative. -/
def State.cornerRise (s : State) (site n : Nat) : Nat := s.get site (Reg.PWR_CORNER.NOW n) - s.get site (Reg.PWR_CORNER.BASE n)

/-- The word of a die (R485, voltage): of two corners alike, the lower-numbered one is named. -/
def State.voltageWord (s : State) (site : Nat) : Nat :=
  let corner := (List.range 4).foldl (fun b n => if s.cornerRise site b < s.cornerRise site n then n else b) 0
  site + s.get site Die.SCAN_VIN % 2 ^ 11 * 2 ^ 8 + s.cornerRise site corner * 2 ^ 19 + corner * 2 ^ 29
    + s.get site Reg.PWR_DIE_MEAS.VCORE * 2 ^ 31

/-- Slack and core of a die's scan (R485): where no monitor warned, the lowest slack is at least 8 % and no event has told it, so it and its
core are free values. -/
def State.scanSlack (s : State) (site : Nat) : Nat × Nat × State :=
  if s.get site Die.SCAN_SLACK = 255 then (16 + s.free.1 % 240, s.free.2.free.1 % 48, s.free.2.free.2)
  else (s.get site Die.SCAN_SLACK, s.get site Die.SCAN_CORE, s)

/-- The word of a die (R485, timing). -/
def State.timingWord (s : State) (site : Nat) : Nat × State :=
  let r := s.scanSlack site
  (site + r.1 * 2 ^ 8 + r.2.1 * 2 ^ 16 + s.get site Die.SCAN_CODE * 2 ^ 22 + s.get site Die.SCAN_WARN * 2 ^ 29, r.2.2)

/-- The result words of a scan (R485). -/
def State.scanWords (s : State) (kind site : Nat) : List Nat × State :=
  let dies := s.scanSites kind site
  if kind = 0 then
    if site = 255 then (((List.range 8).filter fun p => dies.contains (siteOfPort p)).map s.opticalWord, s)
    else (dies.flatMap fun k => (List.range 64).map (s.laneWord (portOfSite k)), s)
  else if kind = 1 then (dies.map s.voltageWord, s)
  else
    dies.foldl (fun (acc : List Nat × State) k =>
      let (w, s1) := acc.2.timingWord k
      (acc.1 ++ [w], s1)) ([], s)

/-- What the scan that completes was asked for. -/
def scanAsked (d : Deferred) : Nat × Nat :=
  match d.cmd with
  | .marginScan _ kind site _ => (kind, site)
  | _ => (0, 255)

/-- A margin scan completes (R485): the oldest one. -/
def execMarginScanDone (s : State) : Host.Outcome State Fault Refusal :=
  .next (match s.outstandingOp Op.MARGIN_SCAN with
    | some d =>
      let (ws, s1) := s.scanWords (scanAsked d).1 (scanAsked d).2
      if s.controlDead then s else s1.finishCmd d St.OK ws
    | none => s)

/-! ### The check of each second (R486) -/

/-- A die's lowest slack is kept as the lowest since MIN_RESET (R402); the monitor is a free value. -/
def State.keepSlack (s : State) (site core slack : Nat) : State :=
  if slack < s.get site Reg.CLK_MARGIN.MIN_SLACK then
    ((s.free.2.put site Reg.CLK_MARGIN.MIN_SLACK slack).put site Reg.CLK_MARGIN.MIN_CORE core).put site Reg.CLK_MARGIN.MIN_MON s.free.1
  else s

/-- The lowest slack of a die over the last second is compared with SLACK_WARN. -/
def State.checkSlack (s : State) (e : Nat × Nat × Nat) : State :=
  let (site, core, slack) := e
  if s.siteState site = Site.ACTIVE ∧ isCompute site ∧ core < 48 ∧ slack < 256 then
    let s1 := s.keepSlack site core slack
    let warn := s1.get panelSite Reg.CTL_MARGIN_CTL.SLACK_WARN
    if slack < warn && s1.longAgo site (s1.get site Die.MARGIN_AT) 240000000000 then
      (s1.put site Die.MARGIN_AT (s1.get site Reg.CLK_PT.TIME + 1)).notify site 63 0x0D01 2 slack core
    else s1
  else s

/-- The check of each second (R486): each die's lowest slack, its core, in 0.5 % units. -/
def execMarginCheck (slacks : List (Nat × Nat × Nat)) (s : State) : Host.Outcome State Fault Refusal :=
  .next (if s.controlDead then s else slacks.foldl State.checkSlack s)

end Sys2Proof.Machine
end

