-- ==== Sys2Proof/Machine/Jtag.lean ====
section
/-! DEFINITION. The IEEE 1149.1 ports of the control dies (R467, R477, R502) and the I3C bus (R500, R501). -/

namespace Sys2Proof.Machine

/-! ### The IEEE 1149.1 ports -/

/-- Instruction of a control die's port: 0 BYPASS, 1 IDCODE, 2 SAMPLE/PRELOAD, 3 EXTEST, 4 FAULT_READ, 5 a private one. -/
def Jtag.INSTR : Fld := ⟨0x1000600, 0, 3, 0, .int⟩
/-- Code of a private instruction. -/
def Jtag.CODE : Fld := ⟨0x1000608, 0, 32, 0, .int⟩
/-- What the port shifts out next. -/
def Jtag.OUT : Fld := ⟨0x1000610, 0, 64, 0, .int⟩
/-- What SAMPLE/PRELOAD has put into the boundary-scan register, and whether EXTEST asks to drive the 46 contacts from it: it drives
them while `RESET_N` is asserted only. -/
def Jtag.DRIVE : Fld := ⟨0x1000618, 0, 46, 0, .int⟩
def Jtag.DRIVING : Fld := ⟨0x1000620, 0, 1, 0, .int⟩

/-- A port executes an instruction: what it shifts out, and whether it drives the contacts. -/
def State.jtag (s : State) (die instr out : Nat) (driving : Bool) : State :=
  let site := siteOfControl die
  ((s.put site Jtag.INSTR instr).put site Jtag.OUT out).putFlag site Jtag.DRIVING driving

/-- An instruction is refused or not honoured, and counted (R467, R502). -/
def State.jtagCount (s : State) : State := s.bump panelSite Reg.SEC_TAMPER.JTAG_REFUSED

/-- BYPASS: one bit that is captured as 0. -/
def execBypass (die : Nat) (s : State) : Host.Outcome State Fault Refusal := .next (if die < 2 then s.jtag die 0 0 false else s)

/-- IDCODE (R502): fixed for each die revision. -/
def execIdcode (die : Nat) (s : State) : Host.Outcome State Fault Refusal :=
  .next (if die < 2 then s.jtag die 1 (Config.idcode die % 2 ^ 32) false else s)

/-- SAMPLE/PRELOAD (R467, R502): the levels of the 46 contacts are captured, a free value here, and the scan register is loaded. -/
def execSamplePreload (die drive : Nat) (s : State) : Host.Outcome State Fault Refusal :=
  .next (if die < 2 then (s.free.2.jtag die 2 (s.free.1 % 2 ^ 46) false).put (siteOfControl die) Jtag.DRIVE drive else s)

/-- EXTEST (R502): honoured while `RESET_N` is asserted; at any other time it acts as BYPASS and is counted. -/
def execExtest (die : Nat) (s : State) : Host.Outcome State Fault Refusal :=
  .next (if 2 ≤ die then s
    else if s.flag panelSite Boot.RELEASED then (s.jtag die 0 0 false).jtagCount
    else s.free.2.jtag die 3 (s.free.1 % 2 ^ 46) true)

/-- FAULT_READ (R467, R477): the die's CTL_FAULT is shifted out. -/
def execFaultRead (die : Nat) (s : State) : Host.Outcome State Fault Refusal :=
  let site := siteOfControl die
  .next (if die < 2 then s.jtag die 4 (s.get site Reg.CTL_FAULT.FAULT + 2 * s.get site Reg.CTL_FAULT.CAUSE) false else s)

/-- Any other instruction outside debug mode (R467): it is counted and changes nothing. -/
def execJtagRefused (die : Nat) (s : State) : Host.Outcome State Fault Refusal :=
  .next (if die < 2 ∧ !s.debugMode then s.jtagCount else s)

/-- A private instruction (R467): executed in debug mode, refused otherwise. What it shifts out is a free value. -/
def execPrivateInstruction (die code : Nat) (s : State) : Host.Outcome State Fault Refusal :=
  .next (if 2 ≤ die then s
    else if s.debugMode then (s.free.2.jtag die 5 s.free.1 false).put (siteOfControl die) Jtag.CODE code
    else s.jtagCount)

/-! ### I3C (R501) -/

/-- READ as it was at the START of the transfer in progress. -/
def I3c.READ : Fld := ⟨0x1500600, 0, 1, 0, .int⟩

/-- The fields of CTL_I3C_XFER that keep what is written. -/
def State.writeXfer (s : State) (v : Nat) : State :=
  (((s.put panelSite Reg.CTL_I3C_XFER.ADDR (bitsOf v 6 0)).put panelSite Reg.CTL_I3C_XFER.READ (bitsOf v 7 7)).put panelSite
    Reg.CTL_I3C_XFER.LEN_M1 (bitsOf v 9 8)).put panelSite Reg.CTL_I3C_XFER.WDATA (bitsOf v 47 16)

/-- A private transfer begins, unless one is in progress. -/
def State.startXfer (s : State) : State :=
  if s.flag panelSite Reg.CTL_I3C_STATUS.BUSY then s.put panelSite Reg.CTL_I3C_STATUS.OVERRUN 1
  else
    (s.put panelSite Reg.CTL_I3C_STATUS.BUSY 1).put panelSite I3c.READ (s.get panelSite Reg.CTL_I3C_XFER.READ)

/-- CTL_I3C_XFER is written. -/
def State.writeI3c (s : State) (v : Nat) : State := if v.testBit 10 then (s.writeXfer v).startXfer else s.writeXfer v

/-- A write of CTL_I3C_XFER with START (R501). -/
def execI3cStart (h : CmdHdr) (value : Word) (s : State) : Host.Outcome State Fault Refusal :=
  .next (s.csrWrite h (.i3cStart h value) s.controlSite true fun s => s.writeI3c value.toNat)

/-- A transfer completes (R501): RDATA takes the bytes read, the first in bits [10:3]; what the event gives beyond them is open. -/
def execI3cDone (nack : Bool) (rdata : BitVec 32) (s : State) : Host.Outcome State Fault Refusal :=
  .next (if !s.flag panelSite Reg.CTL_I3C_STATUS.BUSY then s
    else
      let s1 := s.put panelSite Reg.CTL_I3C_STATUS.BUSY 0
      if nack then s1.put panelSite Reg.CTL_I3C_STATUS.NACK 1
      else
        let s2 := s1.put panelSite Reg.CTL_I3C_STATUS.DONE 1
        if s.flag panelSite I3c.READ then s2.put panelSite Reg.CTL_I3C_STATUS.RDATA rdata.toNat else s2)

end Sys2Proof.Machine
end

