-- ==== Sys2Proof/Machine/Loss.lean ====
section
/-! DEFINITION. Loss of clocks (R397), and the failures of the control die that `FAULT_N` reports (R477). -/

namespace Sys2Proof.Machine

/-- A generator is locked: 0 fabric, 1 core, 2 HBM PHY, 3 to 10 SerDes 0 to 7 (R391, R487). -/
def State.genLocked (s : State) (site gen : Nat) : Bool :=
  match gen with
  | 0 => s.flag site Reg.CLK_FABRIC.FAB_LOCK
  | 1 => s.flag site Reg.CLK_CORE_STATUS.CORE_LOCK
  | 2 => dieKind site == .hub && s.flag site Reg.CLK_FABRIC.AUX_LOCK
  | g => dieKind site == .link && g < 11 && (s.get site Reg.CLK_FABRIC.SERDES_LOCK).testBit (g - 3)

/-- The fabric PLL is lost: the router stops, and the active control die asserts `FAULT_N`. -/
def State.fabricLost (s : State) (site : Nat) : State :=
  let s1 := s.put site Reg.CLK_FABRIC.FAB_LOCK 0
  (if site = s.controlSite then s1.assertFault site 2 else s1).routerStops site

/-- The core generator is lost: the die is fenced (R382). A control die has no power or thermal account. -/
def State.coreLost (s : State) (site : Nat) : State :=
  let s1 := (s.put site Reg.CLK_CORE_STATUS.CORE_LOCK 0).put site Reg.CLK_CORE_STATUS.FREQ 0
  match dieKind site with
  | .compute => (s1.ownFence site).progress
  | .link => (s1.putFlag site Reg.MESH_STATUS.LOCAL_FENCED true).switchOff site
  | _ => s1

/-- The HBM PHY PLL is lost: every channel retrains (R235). -/
def State.phyLost (s : State) (site : Nat) : State :=
  (List.range 32).foldl (fun s ch => s.startRetrain (stackOfSite site) ch) (s.put site Reg.CLK_FABRIC.AUX_LOCK 0)

/-- A SerDes PLL is lost: the eight lanes it drives fail (R303). -/
def State.serdesLost (s : State) (site i : Nat) : State :=
  let p := portOfSite site
  let lanes := (List.range 8).map (8 * i + ·)
  let s1 := s.clrBit site Reg.CLK_FABRIC.SERDES_LOCK i
  let s2 := if s1.portCarries p then lanes.foldl (fun s l => s.jset p (Reg.PORT_LANE.FAILED l) true) s1 else s1
  lanes.foldl (fun s l => s.laneFails p l) s2

/-- A generator loses lock (R397). -/
def State.clockLost (s : State) (site gen : Nat) : State :=
  if !s.genLocked site gen then s
  else
    let s1 := (s.bump site Reg.CLK_FABRIC.UNLOCKS).notify site 63 0x0902 3 gen 0
    match gen with
    | 0 => s1.fabricLost site
    | 1 => s1.coreLost site
    | 2 => s1.phyLost site
    | g => s1.serdesLost site (g - 3)

/-- A generator loses lock (R397). -/
def execClockUnlock (site gen : Nat) (s : State) : Host.Outcome State Fault Refusal :=
  .next (if hasRouter site then s.clockLost site gen else s)

/-- The blocks that take `REFCLK` from a contact pair (R492). -/
def quadrantBlocks (q : Nat) : List Nat :=
  match q with
  | 0 => [0, 1, 4, 5] | 1 => [2, 3, 6, 7] | 2 => [8, 9, 12, 13] | 3 => [10, 11, 14, 15] | _ => []

/-- Every generator of a die loses lock, the fabric PLL last. -/
def State.clocksLost (s : State) (site : Nat) : State := [1, 2, 3, 4, 5, 6, 7, 8, 9, 10, 0].foldl (fun s g => s.clockLost site g) s

/-- `REFCLK` is lost at a contact pair (R397). -/
def execRefclkLoss (quadrant : Nat) (s : State) : Host.Outcome State Fault Refusal :=
  .next (((List.range 256).filter fun k => hasRouter k && (quadrantBlocks quadrant).contains (siteBlock k)).foldl State.clocksLost s)

/-- The other control die sees no heartbeat for 10 ms (R477). -/
def execHeartbeatLoss (s : State) : Host.Outcome State Fault Refusal :=
  .next (if s.flag panelSite Boot.RELEASED then s.assertFault (siteOfControl (1 - s.get panelSite Reg.CTL_BOOT.ACTIVE)) 4 else s)

/-- Firmware fails to refresh the watchdog for 100 ms (R477). -/
def execWatchdog (s : State) : Host.Outcome State Fault Refusal :=
  .next (if s.flag panelSite Boot.RELEASED then s.assertFault s.controlSite 3 else s)

end Sys2Proof.Machine
end

