-- ==== Sys2Proof/Machine/Csr.lean ====
section
/-! DEFINITION. Registers as the host reads and writes them (R6, R7), and the device and telemetry commands (13_command_interface). -/

namespace Sys2Proof.Machine

/-! ### Addresses -/

/-- First CSR window, and the size of them all (R236). -/
def csrBase : Nat := 0x0C0000000000
def csrSpan : Nat := 2 ^ 32

/-- An aligned register address (R6). -/
def csrOk (a : Nat) : Bool := a % 8 == 0 && csrBase ≤ a && a < csrBase + csrSpan
/-- Site and offset of a register address. -/
def csrSite (a : Nat) : Nat := a / 2 ^ 24 % 256
def csrOff (a : Nat) : Nat := a % 2 ^ 24

/-- The unit that an offset of a site's window belongs to, which of its kind on the die, and the offset in the first of them. -/
def unitAt (active site off : Nat) : Option (RegUnit × Nat × Nat) :=
  if !hasRouter site then none
  else if off < 0x100000 then some (.die, 0, off)
  else if off < 0x400000 ∧ isCompute site then some (.core, (off - 0x100000) / 0x10000, 0x100000 + off % 0x10000)
  else if off < 0x420000 ∧ isCompute site then some (.cluster, (off - 0x400000) / 0x10000, 0x400000 + off % 0x10000)
  else if 0x800000 ≤ off ∧ off < 0x900000 then some (.router, 0, off)
  else if 0x900000 ≤ off ∧ off < 0xA80000 then some (.die, 0, off)
  else if 0xB00000 ≤ off ∧ off < 0xB80000 then some (.die, 0, off)
  else if dieKind site = .hub then some (.hub, 0, off)
  else if dieKind site = .link then some (.port, 0, off)
  else if dieKind site = .control ∧ off = 0xE00018 then some (.die, 0, off)
  else if site = active then some (.panel, 0, off)
  else none

/-- An element of the register map covers an offset of its unit. -/
def RegRow.covers (r : RegRow) (off : Nat) : Bool :=
  r.off ≤ off && off < r.off + r.count * r.stride && (off - r.off) % r.stride == 0

/-- The fields of the register at an offset of a unit, none where no register is defined (R6). -/
def fieldsAt (u : RegUnit) (off : Nat) : List Fld :=
  match regRows.find? fun r => r.unit == u && r.covers off with
  | some r => r.fields ((off - r.off) / r.stride)
  | none => []

/-- Registers that every die of a kind holds alike are kept once: the mesh tables, and the team table. -/
def sharedOff (off : Nat) : Bool :=
  (0x8000C0 ≤ off && off < 0x8000D8) || (0x800100 ≤ off && off < 0x800190) || (0x800400 ≤ off && off < 0x800420)
    || (0x804000 ≤ off && off < 0x808000) || (0x300080 ≤ off && off < 0x3000C0)

/-- The site under which a unit's register is kept. -/
def homeOf (u : RegUnit) (site off : Nat) : Nat := if u = .panel ∨ sharedOff off then panelSite else site

/-! ### Reads -/

/-- Fields that do not apply to a die's kind read 0 (R402, R422, R438). -/
def applies (site : Nat) (f : Fld) : Bool :=
  let vin := isCompute site || dieKind site == .link
  if f.off = 0x900008 ∨ f.off = 0x900010 ∨ f.off = 0x900018 then hasCoreClock site
  else if f.off = 0xA00000 then vin || f.lo == 1 || f.lo == 10
  else if f.off = 0xA00008 ∨ f.off = 0xA00010 ∨ (0xA00020 ≤ f.off ∧ f.off < 0xA00040) then vin
  else if 0xB00040 ≤ f.off ∧ f.off < 0xB000C0 then (f.off - 0xB00040) / 8 < hotSpots site
  else true

/-- The value of a register made of stored fields: write-only fields read zero (R7). -/
def State.storedReg (s : State) (site k : Nat) (fs : List Fld) : Nat :=
  ((fs.filter fun f => f.acc != .wo && applies site f).map fun f => s.get site (f.nth k) * 2 ^ f.lo).sum

/-- An entry of a route table (R291). -/
def State.routeEntry (s : State) (site d : Nat) : Nat :=
  match s.route site d with
  | some m => m + 256
  | none => 0

/-- MESH_PORTp as read (R291): mode, span and far end follow from the alive map. -/
def State.meshPortView (s : State) (site p : Nat) : Nat :=
  s.portMode site p + s.get site (Reg.MESH_PORT.STATE p) * 2 ^ 2 + s.get site (Reg.MESH_PORT.TX_ACTIVE p) * 2 ^ 4
    + s.get site (Reg.MESH_PORT.RX_ACTIVE p) * 2 ^ 8 + s.span site p % 16 * 2 ^ 12 + (s.farSite site p).getD 0 * 2 ^ 16

/-- A die-level register as read. -/
def State.dieView (s : State) (site off : Nat) : Option Nat :=
  if off = 0x100 then some (s.obey site + (s.storedReg site 0 (fieldsAt .die off) - s.get site Reg.DIE_SIDEBAND.OBEY))
  else if off = 0x900008 ∧ hasCoreClock site then
    some (s.get site Reg.CLK_CORE_CTL.LIMIT + s.get site Reg.CLK_CORE_CTL.CEILING * 2 ^ 7 + clockFloor site * 2 ^ 14)
  else none

/-- A router register as read: identification, EMPTY, ports and the route table. -/
def State.routerView (s : State) (site off : Nat) : Option Nat :=
  if off = 0x800000 then some (site + kindCode site * 2 ^ 8)
  else if off = 0x800010 then some ((if s.routerEmpty site then 1 else 0) + s.get site Reg.MESH_STATUS.LOCAL_FENCED * 2)
  else if 0x800040 ≤ off ∧ off < 0x800060 then some (s.meshPortView site ((off - 0x800040) / 8))
  else if 0x800200 ≤ off ∧ off < 0x800400 then
    some (((List.range 4).map fun j => s.routeEntry site ((off - 0x800200) / 8 * 4 + j) * 2 ^ (16 * j)).sum)
  else none

/-- A port register as read: identification, and the numbers of the panel and its captain. -/
def State.portView (s : State) (site off : Nat) : Option Nat :=
  if off = 0x300000 then some (portOfSite site + site * 2 ^ 3 + siteBlock site * 2 ^ 11)
  else if off = 0x300010 then
    some (s.get site Reg.PORT_STATUS.STATE + s.get site Reg.PORT_STATUS.TX_SETS * 2 ^ Reg.PORT_STATUS.TX_SETS.lo
      + s.get site Reg.PORT_STATUS.RX_SETS * 2 ^ Reg.PORT_STATUS.RX_SETS.lo
      + s.get panelSite Panel.NUMBER * 2 ^ Reg.PORT_STATUS.PANEL.lo + s.get panelSite Panel.NUMBER_SET * 2 ^ Reg.PORT_STATUS.PANEL_SET.lo
      + s.get panelSite Panel.CAPTAIN * 2 ^ Reg.PORT_STATUS.CAPTAIN.lo
      + s.get panelSite Panel.CAPTAIN_SET * 2 ^ Reg.PORT_STATUS.CAPTAIN_SET.lo)
  else none

/-- A cluster register as read: queue states and pointers come from the queue (R201). -/
def State.cluView (s : State) (site k off : Nat) : Option Nat :=
  if 0x40A000 ≤ off ∧ off < 0x40C000 then some (s.qstateView ⟨site, k⟩ ((off - 0x40A000) / 8))
  else if 0x40C000 ≤ off ∧ off < 0x40E000 then some (s.qptrView ⟨site, k⟩ ((off - 0x40C000) / 8))
  else none

/-- Byte offset in the accumulator memory of the pair that CORE_MX_DBG_ADDR names (R110, R118). -/
def State.dbgPair (s : State) (c : CoreRef) : Nat :=
  s.cget c Reg.CORE_MX_DBG_ADDR.SLOT * 8192 + s.cget c Reg.CORE_MX_DBG_ADDR.INDEX * 8

/-- A core register as read. -/
def State.coreView (s : State) (site k off : Nat) : Option Nat :=
  if off = 0x100348 then some (s.rdNat (coreKey ⟨site, k⟩ Mem.ACC (s.dbgPair ⟨site, k⟩)) 8) else none

/-- A register that is more than its stored fields, as read. -/
def State.view (s : State) (u : RegUnit) (site k off : Nat) : Option Nat :=
  match u with
  | .core => s.coreView site k off
  | .cluster => s.cluView site k off
  | .hub => if off = 0x200000 then some (stackOfSite site + siteBlock site * 2 ^ 6 + stackOfSite site % 4 * 2 ^ 10 + site * 2 ^ 12) else none
  | .router => s.routerView site off
  | .port => s.portView site off
  | .panel => none
  | .die => s.dieView site off

/-- The value a register reads as (R6, R7). -/
def State.readReg (s : State) (a : Nat) : Nat :=
  let site := csrSite a
  match unitAt s.controlSite site (csrOff a) with
  | none => 0
  | some (u, k, off) => (s.view u site k off).getD (s.storedReg (homeOf u site off) k (fieldsAt u off)) % 2 ^ 64

/-- The next pair after a debug read with AUTOINC (R118): pair 1,023 is followed by pair 0 of the next slot. -/
def State.advancePair (s : State) (c : CoreRef) : State :=
  if s.cflag c Reg.CORE_MX_DBG_ADDR.AUTOINC then
    let n := (s.dbgPair c / 8 + 1) % 2 ^ 16
    (s.cput c Reg.CORE_MX_DBG_ADDR.INDEX (n % 1024)).cput c Reg.CORE_MX_DBG_ADDR.SLOT (n / 1024)
  else s

/-- CORE_MX_DBG_DATA is read on the accumulator's path (R111), and AUTOINC advances. -/
def State.afterDebugRead (s : State) (c : CoreRef) : State :=
  (s.checkRange (coreKey c Mem.ACC (s.dbgPair c)) 8).advancePair c

/-- What a read does besides. -/
def State.afterRead (s : State) (a : Nat) : State :=
  match unitAt s.controlSite (csrSite a) (csrOff a) with
  | some (u, k, off) => if u = .core ∧ off = 0x100348 then s.afterDebugRead ⟨csrSite a, k⟩ else s
  | none => s

/-- Read some registers in order. -/
def State.readRegs (s : State) (as : List Nat) : List Nat × State :=
  as.foldl (fun (acc : List Nat × State) a => (acc.1 ++ [acc.2.readReg a], acc.2.afterRead a)) ([], s)

/-! ### What a read or write is refused with -/

/-- A register of the router itself stays readable on a fenced die (R362). -/
def isRouterOff (off : Nat) : Bool := 0x800000 ≤ off && off < 0x900000

/-- The site of a register is fenced (R362). -/
def State.regFenced (s : State) (a : Nat) : Check := if isRouterOff (csrOff a) then none else s.fencedCheck (csrSite a)

/-- Registers that are read in debug mode alone: CORE_MX_DBG_DATA and CORE_FT_G (R118, R228). -/
def debugRead (active a : Nat) : Bool :=
  match unitAt active (csrSite a) (csrOff a) with
  | some (.core, _, off) => off == 0x100348 || (0x101000 ≤ off && off < 0x102800)
  | _ => false

/-- Registers that are written in debug mode alone: CORE_SCHED_CTL (R68). -/
def debugWrite (active a : Nat) : Bool :=
  match unitAt active (csrSite a) (csrOff a) with
  | some (.core, _, off) => off == 0x100000
  | _ => false

/-- A debug read of a core or thread that runs (R118, R228). -/
def State.readBusy (s : State) (a : Nat) : Check :=
  match unitAt s.controlSite (csrSite a) (csrOff a) with
  | some (.core, k, off) =>
    let c : CoreRef := ⟨csrSite a, k⟩
    let st := s.cget c Reg.CORE_SCHED_STATUS.STATE
    let t := s.cget c (Reg.CORE_FT_THREAD.STATE ((off - 0x101000) / 0x80))
    check ((off == 0x100348 && (st == 1 || st == 2)) || (0x101000 ≤ off && off < 0x102800 && (t == 1 || t == 2))) St.BUSY
  | _ => none

/-- The first check that fails among several. -/
def firstCheck : List Check → Check
  | [] => none
  | c :: cs => c.orElse fun _ => firstCheck cs

/-- What reading some registers is refused with, once their addresses are good. -/
def State.readCheck (s : State) (as : List Nat) : Check :=
  (check ((as.any (debugRead s.controlSite)) && !s.debugMode) St.NOT_PERMITTED).orElse fun _ =>
  (firstCheck (as.map s.regFenced)).orElse fun _ => firstCheck (as.map s.readBusy)

/-- Reply with registers, or wait where a site does not answer (R363). -/
def State.replyRegs (s : State) (h : CmdHdr) (op : Nat) (cmd : Instr) (as : List Nat) : State :=
  match as.find? fun a => !s.reachable (csrSite a) with
  | some a => s.noAnswer h op cmd (csrSite a)
  | none => (s.readRegs as).2.reply h op St.OK (s.readRegs as).1

/-! ### Writes -/

/-- A field is written (R7). -/
def State.writeFld (s : State) (site k v : Nat) (f : Fld) : State :=
  let x := v / 2 ^ f.lo % 2 ^ f.width
  match f.acc with
  | .rw => s.put site (f.nth k) x
  | .w1c => s.put site (f.nth k) (s.get site (f.nth k) - (s.get site (f.nth k) &&& x))
  | _ => s

/-- A write of CORE_SCHED_CTL steps the core, or makes it continue (R68). -/
def State.schedWrite (s : State) (c : CoreRef) (v : Nat) : State :=
  let s1 := if v.testBit 0 then s.stepWord c else s
  if v.testBit 13 then s1.continueCore c else s1

/-- What a write of a register does beyond its fields: each is the operation of the row that has this effect. -/
def State.writeEffect (s : State) (u : RegUnit) (site k off v : Nat) : State :=
  if u = .core ∧ off = 0x100000 then s.schedWrite ⟨site, k⟩ v
  else if u = .hub ∧ off = 0x200020 then (squadList (v % 2 ^ 32)).foldl (fun s ch => s.startRetrain (stackOfSite site) ch) s
  else if u = .die ∧ off = 0x900008 then s.settleCode site
  else if u = .die ∧ off = 0x900010 then (if v.testBit 63 then s.minReset site else s)
  else if u = .die ∧ off = 0x900018 then (if v.testBit 47 then s.slackMinReset site else s)
  else if u = .die ∧ off = 0xA00010 then (if v.testBit 46 then s.put site Reg.PWR_DIE_BUDGET.PEAK 0 else s)
  else if u = .panel ∧ off = 0xA80008 then s.writeGrade v
  else if u = .panel ∧ off = 0xD00010 then s.writeHostport v
  else s

/-- The fields of HUB_CTL but ACCEPT_ATOM are written, then that one (R257). -/
def State.writeHubCtl (s : State) (site v : Nat) : State :=
  (((fieldsAt .hub 0x200008).filter fun f => f.lo != 0).foldl (fun s f => s.writeFld site 0 v f) s).writeAccept (stackOfSite site) (v.testBit 0)

/-- The fields of a register are written, with what the write does beyond them. -/
def State.writeFields (s : State) (u : RegUnit) (site k off v : Nat) : State :=
  (((fieldsAt u off).filter (applies site)).foldl (fun s f => s.writeFld (homeOf u site off) k v f) s).writeEffect u site k off v

/-- A register is written (R6, R7). -/
def State.writeReg (s : State) (a v : Nat) : State :=
  let site := csrSite a
  match unitAt s.controlSite site (csrOff a) with
  | none => s
  | some (u, k, off) =>
    if u = .panel ∧ off = 0xF00000 then s.writeI3c v
    else if u = .hub ∧ off = 0x200008 then s.writeHubCtl site v
    else s.writeFields u site k off v

/-- What writing a register is refused with, once its address is good. -/
def State.writeCheck (s : State) (a v : Nat) : Check :=
  (check (debugWrite s.controlSite a && !s.debugMode) St.NOT_PERMITTED).orElse fun _ =>
  (s.regFenced a).orElse fun _ =>
  match unitAt s.controlSite (csrSite a) (csrOff a) with
  | some (u, _, off) => if u = .panel ∧ off = 0xA80008 then s.gradeCheck v else if u = .panel ∧ off = 0xD00010 then s.hostportCheck v else none
  | none => none

/-- The register that starts a reset scope once the reply has been sent (R452). -/
def isResetReg (active a : Nat) : Bool := csrSite a == active && csrOff a == 0xC00008

/-- `WRITE_CSR` of a register. -/
def State.csrPut (s : State) (h : CmdHdr) (cmd : Instr) (a v : Nat) : State :=
  s.command h
    { op := Op.WRITE_CSR, cmd := cmd, lengthOk := h.length == 16, param := check (!csrOk a) St.BAD_PARAM, state := s.writeCheck a v }
    fun s =>
      if isResetReg s.controlSite a then (s.reply h Op.WRITE_CSR St.OK).writeReset v
      else if s.reachable (csrSite a) then (s.writeReg a v).reply h Op.WRITE_CSR St.OK
      else s.noAnswer h Op.WRITE_CSR cmd (csrSite a)

/-! ### Commands -/

/-- The address of a register at an offset of a site's window. -/
def csrAddr (site off : Nat) : Nat := csrBase + site * 2 ^ 24 + off

/-- `READ_CSR` (R6, R365). -/
def execReadCsr (h : CmdHdr) (addr count rsv : Nat) (s : State) : Host.Outcome State Fault Refusal :=
  let as := (List.range count).map fun i => addr + 8 * i
  let cmd := Instr.readCsr h addr count rsv
  .next (s.command h
    { op := Op.READ_CSR, cmd := cmd, lengthOk := h.length == 16,
      param := check (rsv != 0 || count < 1 || 512 < count || !csrOk addr || !csrOk (addr + 8 * (count - 1))) St.BAD_PARAM,
      state := if 512 < count then none else s.readCheck as }
    fun s => s.replyRegs h Op.READ_CSR cmd as)

/-- `WRITE_CSR` (R6, R7). -/
def execWriteCsr (h : CmdHdr) (addr : Nat) (value : Word) (s : State) : Host.Outcome State Fault Refusal :=
  .next (s.csrPut h (.writeCsr h addr value) addr value.toNat)

/-- A read of CORE_MX_DBG_DATA (R118). -/
def execDbgDataRead (h : CmdHdr) (c : CoreRef) (s : State) : Host.Outcome State Fault Refusal :=
  let a := csrAddr c.site (0x100348 + c.core * 0x10000)
  let cmd := Instr.dbgDataRead h c
  .next (s.command h
    { op := Op.READ_CSR, cmd := cmd, lengthOk := h.length == 16,
      param := check (!isCompute c.site || 48 ≤ c.core) St.BAD_PARAM, state := s.readCheck [a] }
    fun s => s.replyRegs h Op.READ_CSR cmd [a])

/-- A write of HUB_CHAN_CTL (R235). -/
def execRetrain (h : CmdHdr) (stack : Nat) (value : Word) (s : State) : Host.Outcome State Fault Refusal :=
  .next (s.csrPut h (.retrain h stack value) (csrAddr (siteOfStack (stack % 64)) 0x200020) value.toNat)

/-- A write of HUB_CTL (R257). -/
def execAcceptAtom (h : CmdHdr) (stack : Nat) (value : Word) (s : State) : Host.Outcome State Fault Refusal :=
  .next (s.csrPut h (.acceptAtom h stack value) (csrAddr (siteOfStack (stack % 64)) 0x200008) value.toNat)

/-- The words of `IDENTIFY` (R365). -/
def State.identifyWords (s : State) : List Nat :=
  let g (f : Fld) : Nat := s.get panelSite f
  [g Reg.SEC_STATUS.ORDER_LB + g Reg.SEC_STATUS.LCS * 2 + g Panel.NUMBER * 2 ^ 4 + g Panel.NUMBER_SET * 2 ^ 16
      + siteBlock s.controlSite * 2 ^ 17,
    g Sec.FW_VERSION, g Reg.SEC_STATUS.FW_SVN] ++ wordsOf (leBytes 64 s.identityHash)

/-- `IDENTIFY` (R365). -/
def execIdentify (h : CmdHdr) (s : State) : Host.Outcome State Fault Refusal :=
  .next (s.command h { op := Op.IDENTIFY, cmd := .identify h, lengthOk := h.length == 0 }
    fun s => s.reply h Op.IDENTIFY St.OK s.identifyWords)

/-- The words of `GET_STATUS` (R365). -/
def State.statusWords (s : State) : List Nat :=
  [((List.range 16).map fun n => s.get panelSite (Reg.SQD_STATUS.STATE n) * 2 ^ (3 * n)).sum,
    ((List.range 8).map fun p => s.portState p * 2 ^ (3 * p)).sum,
    s.readReg (csrAddr s.controlSite 0x500000)]

/-- `GET_STATUS` (R365). -/
def execGetStatus (h : CmdHdr) (s : State) : Host.Outcome State Fault Refusal :=
  .next (s.command h { op := Op.GET_STATUS, cmd := .getStatus h, lengthOk := h.length == 0 }
    fun s => s.reply h Op.GET_STATUS St.OK s.statusWords)

/-- `ECHO` (R365). -/
def execEcho (h : CmdHdr) (bytes : List Byte) (s : State) : Host.Outcome State Fault Refusal :=
  .next (s.command h { op := Op.ECHO, cmd := .echo h bytes, lengthOk := bytes.length == h.length }
    fun s => s.reply h Op.ECHO St.OK (wordsOf bytes))

/-- `READ_COUNTERS` (R365, R484). -/
def execReadCounters (h : CmdHdr) (addrs : List Nat) (s : State) : Host.Outcome State Fault Refusal :=
  let cmd := Instr.readCounters h addrs
  .next (s.command h
    { op := Op.READ_COUNTERS, cmd := cmd, lengthOk := 8 ≤ h.length && h.length == 8 * addrs.length,
      param := (addrs.findIdx? fun a => !csrOk a).map fun i => (St.BAD_PARAM, [i]), state := s.readCheck addrs }
    fun s => s.replyRegs h Op.READ_COUNTERS cmd addrs)

/-- `n` words of free values. -/
def openWords : Nat → State → List Nat × State
  | 0, s => ([], s)
  | n + 1, s => (s.free.1 % 2 ^ 64 :: (openWords n s.free.2).1, (openWords n s.free.2).2)

/-- The bits of a scan chain as read, the last word cut: the spec gives no chain, so they are free values. -/
def State.chainBits (s : State) (bits : Nat) : List Nat × State :=
  let (ws, s1) := openWords ((bits + 63) / 64) s
  (ws.zipIdx.map fun e => e.1 % 2 ^ (bits - 64 * e.2), s1)

/-- `SCAN_ACCESS` (R365, R467): in debug mode. Chains and what they hold are not given. -/
def execScanAccess (h : CmdHdr) (site chain op bits : Nat) (data : List Byte) (rsv : Nat) (s : State) : Host.Outcome State Fault Refusal :=
  let cmd := Instr.scanAccess h site chain op bits data rsv
  .next (s.command h
    { op := Op.SCAN_ACCESS, cmd := cmd, debug := true, lengthOk := 16 ≤ h.length && h.length == 16 + data.length,
      param := check (rsv != 0 || 1 < op || !hasRouter site || 32768 < bits || (op == 1 && 8 * data.length < bits)) St.BAD_PARAM,
      state := s.fencedCheck site }
    fun s =>
      if !s.reachable site then s.noAnswer h Op.SCAN_ACCESS cmd site
      else if op = 1 then s.reply h Op.SCAN_ACCESS St.OK
      else (s.chainBits bits).2.reply h Op.SCAN_ACCESS St.OK (s.chainBits bits).1)

end Sys2Proof.Machine
end

