-- ==== Sys2Proof/Machine/Threads.lean ====
section
/-! DEFINITION. The meanings of the fetch-thread instructions (R206). -/

namespace Sys2Proof.Machine

/-- `NOP`. -/
def execNop (t : ThreadRef) (w : BitVec 32) (s : State) : Host.Outcome State Fault Refusal :=
  .next (s.runThread t 0x00 w.toNat fun s _ => .done s (s.nextPc t))

/-- `ADD` (R206, R208). -/
def execAdd (t : ThreadRef) (w : BitVec 32) (s : State) : Host.Outcome State Fault Refusal :=
  .next (s.runThread t 0x01 w.toNat fun s i => s.alu2 t i (· + ·))

/-- `SUB`. -/
def execSub (t : ThreadRef) (w : BitVec 32) (s : State) : Host.Outcome State Fault Refusal :=
  .next (s.runThread t 0x02 w.toNat fun s i => s.alu2 t i fun a b => a + 2 ^ 64 - b)

/-- `ADDI`: the immediate is sign-extended. -/
def execAddi (t : ThreadRef) (w : BitVec 32) (s : State) : Host.Outcome State Fault Refusal :=
  .next (s.runThread t 0x03 w.toNat fun s i => s.aluI t i fun a m => a + sextImm m)

/-- `AND`. -/
def execAnd (t : ThreadRef) (w : BitVec 32) (s : State) : Host.Outcome State Fault Refusal :=
  .next (s.runThread t 0x04 w.toNat fun s i => s.alu2 t i (· &&& ·))

/-- `OR`. -/
def execOr (t : ThreadRef) (w : BitVec 32) (s : State) : Host.Outcome State Fault Refusal :=
  .next (s.runThread t 0x05 w.toNat fun s i => s.alu2 t i (· ||| ·))

/-- `XOR`. -/
def execXor (t : ThreadRef) (w : BitVec 32) (s : State) : Host.Outcome State Fault Refusal :=
  .next (s.runThread t 0x06 w.toNat fun s i => s.alu2 t i (· ^^^ ·))

/-- `SHLI`. -/
def execShli (t : ThreadRef) (w : BitVec 32) (s : State) : Host.Outcome State Fault Refusal :=
  .next (s.runThread t 0x07 w.toNat fun s i => s.aluI t i fun a m => a * 2 ^ m)

/-- `SHRI`: a logical shift. -/
def execShri (t : ThreadRef) (w : BitVec 32) (s : State) : Host.Outcome State Fault Refusal :=
  .next (s.runThread t 0x08 w.toNat fun s i => s.aluI t i fun a m => a / 2 ^ m)

/-- `MULI`: the immediate is unsigned. -/
def execMuli (t : ThreadRef) (w : BitVec 32) (s : State) : Host.Outcome State Fault Refusal :=
  .next (s.runThread t 0x09 w.toNat fun s i => s.aluI t i (· * ·))

/-- `SHIN`: D := (D << 14) OR IMM. -/
def execShin (t : ThreadRef) (w : BitVec 32) (s : State) : Host.Outcome State Fault Refusal :=
  .next (s.runThread t 0x0A w.toNat fun s i => .done (s.setG t i.d (s.greg t i.d * 2 ^ 14 + i.imm) (s.gpois t i.d)) (s.nextPc t))

/-- `BEQ`. -/
def execBeq (t : ThreadRef) (w : BitVec 32) (s : State) : Host.Outcome State Fault Refusal :=
  .next (s.runThread t 0x10 w.toNat fun s i => s.branchAB t i (· == ·))

/-- `BNE`. -/
def execBne (t : ThreadRef) (w : BitVec 32) (s : State) : Host.Outcome State Fault Refusal :=
  .next (s.runThread t 0x11 w.toNat fun s i => s.branchAB t i (· != ·))

/-- `BLT`, signed. -/
def execBlt (t : ThreadRef) (w : BitVec 32) (s : State) : Host.Outcome State Fault Refusal :=
  .next (s.runThread t 0x12 w.toNat fun s i => s.branchAB t i fun a b => signedOf 64 a < signedOf 64 b)

/-- `BGE`, signed. -/
def execBge (t : ThreadRef) (w : BitVec 32) (s : State) : Host.Outcome State Fault Refusal :=
  .next (s.runThread t 0x13 w.toNat fun s i => s.branchAB t i fun a b => signedOf 64 b ≤ signedOf 64 a)

/-- `BNZD`: D := D − 1, and a branch if D is then not 0. -/
def execBnzd (t : ThreadRef) (w : BitVec 32) (s : State) : Host.Outcome State Fault Refusal :=
  .next (s.runThread t 0x14 w.toNat fun s i =>
    (s.setG t i.d (s.greg t i.d + (2 ^ 64 - 1)) false).branch t i (s.gpois t i.d) (s.greg t i.d != 1))

/-- `JMP`. -/
def execJmp (t : ThreadRef) (w : BitVec 32) (s : State) : Host.Outcome State Fault Refusal :=
  .next (s.runThread t 0x15 w.toNat fun s i => s.branch t i false true)

/-- `WAITC` (R220): it consumes nothing. -/
def execWaitc (t : ThreadRef) (w : BitVec 32) (s : State) : Host.Outcome State Fault Refusal :=
  .next (s.runThread t 0x16 w.toNat fun s i =>
    if s.gpois t i.a then .fault 0x05
    else if 2 ^ 24 ≤ s.greg t i.a then .fault 0x07
    else if s.cget (coreOfThread t) (Reg.CORE_CCOUNT.VALUE (bitsOf i.imm 3 0)) < s.greg t i.a then .wait
    else .done s (s.nextPc t))

/-- `STOP`: the thread ends (R204, R224). -/
def execThreadStop (t : ThreadRef) (w : BitVec 32) (s : State) : Host.Outcome State Fault Refusal :=
  .next (s.runThread t 0x17 w.toNat fun s _ => .done (s.setThread t Thread.DONE) (s.nextPc t))

/-- `CINC` (R219). -/
def execCinc (t : ThreadRef) (w : BitVec 32) (s : State) : Host.Outcome State Fault Refusal :=
  .next (s.runThread t 0x18 w.toNat fun s i =>
    if i.imm.testBit 4 then
      if s.gpois t i.a then .fault 0x05
      else if 2 ^ 24 ≤ s.greg t i.a then .fault 0x07
      else .done (s.addCounter (coreOfThread t) (bitsOf i.imm 3 0) (s.greg t i.a)) (s.nextPc t)
    else .done (s.addCounter (coreOfThread t) (bitsOf i.imm 3 0) (bitsOf i.imm 13 5)) (s.nextPc t))

/-- `STAT` (R206, R223). -/
def execStat (t : ThreadRef) (w : BitVec 32) (s : State) : Host.Outcome State Fault Refusal :=
  .next (s.runThread t 0x19 w.toNat fun s i =>
    .done ((s.setG t i.d (s.tget t Reg.CORE_FT_THREAD.FAILS) false).tput t Reg.CORE_FT_THREAD.FAILS 0) (s.nextPc t))

/-- Whether a request holds a fence of a scope up (R222). -/
def FetchReq.holdsFence (r : FetchReq) (scope : Nat) : Bool :=
  r.op == 0x24 || r.returns || scope == 2 || (scope == 1 && !r.remote)

/-- `FENCE` (R222). -/
def execFence (t : ThreadRef) (w : BitVec 32) (s : State) : Host.Outcome State Fault Refusal :=
  .next (s.runThread t 0x1A w.toNat fun s i =>
    if i.imm = 3 then .fault 0x01
    else if s.outstanding.any fun r => r.owner == t && r.holdsFence i.imm then .wait
    else .done s (s.nextPc t))

/-- `LD` (R206, R217). -/
def execLd (t : ThreadRef) (w : BitVec 32) (s : State) : Host.Outcome State Fault Refusal :=
  .next (s.runThread t 0x20 w.toNat fun s i =>
    if !s.room t then .wait
    else if s.gpois t i.a then .fault 0x05
    else
      s.issueReq t { blankFetch t 0x20 (s.tget t Reg.CORE_FT_THREAD.PC) (bitsOf i.imm 9 5) (s.blankReq (coreOfThread t) 1) with dreg := i.d }
        (s.greg t i.a) 8 8 id)

/-- Eight bytes of the scratchpad for a register (R210, R217): a fault code, or the state with the value taken. -/
def State.readLocal (s : State) (t : ThreadRef) (d a : Nat) (tw : Option Nat) : FetchOut :=
  if a % 8 ≠ 0 then .fault 0x03
  else if 1572864 < a + 8 then .fault 0x04
  else
    let c := coreOfThread t
    let k := coreKey c Mem.SP a
    .done ((s.checkRange k 8).takeValue t d (s.rdNat k 8) (s.rangePoison k 8) tw (s.tget t Reg.CORE_FT_THREAD.PC) Mem.SP (a / 8))
      (s.nextPc t)

/-- `LDS` (R206, R210). -/
def execLds (t : ThreadRef) (w : BitVec 32) (s : State) : Host.Outcome State Fault Refusal :=
  .next (s.runThread t 0x21 w.toNat fun s i => if s.gpois t i.a then .fault 0x05 else s.readLocal t i.d (s.greg t i.a) none)

/-- `STR` (R206): a poisoned B is written poisoned (R217). -/
def execStr (t : ThreadRef) (w : BitVec 32) (s : State) : Host.Outcome State Fault Refusal :=
  .next (s.runThread t 0x22 w.toNat fun s i =>
    if !s.room t then .wait
    else if s.gpois t i.a then .fault 0x05
    else
      let q := { s.blankReq (coreOfThread t) 3 with data := leBytes 8 (s.greg t i.b), poison := if s.gpois t i.b then 1 else 0 }
      s.issueReq t (blankFetch t 0x22 (s.tget t Reg.CORE_FT_THREAD.PC) (bitsOf i.imm 9 5) q) (s.greg t i.a) 8 8 id)

/-- `TWALK` (R212). -/
def execTwalk (t : ThreadRef) (w : BitVec 32) (s : State) : Host.Outcome State Fault Refusal :=
  .next (s.runThread t 0x23 w.toNat fun s i =>
    let ps := bitsOf i.imm 4 0
    let es := bitsOf i.imm 9 5
    let a := (s.greg t i.a + s.greg t i.b / 2 ^ ps * 8) % 2 ^ 64
    let offs := s.greg t i.b % 2 ^ ps * 2 ^ es
    if ps > 24 ∨ es > 24 then .fault 0x01
    else if !i.imm.testBit 10 && !s.room t then .wait
    else if s.gpois t i.a ∨ s.gpois t i.b then .fault 0x05
    else if i.imm.testBit 10 then s.readLocal t i.d a (some offs)
    else
      s.issueReq t { blankFetch t 0x23 (s.tget t Reg.CORE_FT_THREAD.PC) 0 (s.blankReq (coreOfThread t) 1) with dreg := i.d, tw := some offs }
        a 8 8 id)

/-- `GATHER` (R213). -/
def execGather (t : ThreadRef) (w : BitVec 32) (s : State) : Host.Outcome State Fault Refusal :=
  .next (s.runThread t 0x24 w.toNat fun s i =>
    let dv := s.reqDesc (coreOfThread t) (bitsOf i.imm 13 10)
    s.streamReq t i (if dv.testBit 2 then 6 else 0) (if dv.testBit 2 then bitsOf dv 12 3 else 0) 0 0 none)

/-- `STORE` (R214). -/
def execStoreT (t : ThreadRef) (w : BitVec 32) (s : State) : Host.Outcome State Fault Refusal :=
  .next (s.runThread t 0x25 w.toNat fun s i =>
    let dv := s.reqDesc (coreOfThread t) (bitsOf i.imm 13 10)
    s.streamReq t i (if dv.testBit 2 then 7 else 2) (if dv.testBit 2 then bitsOf dv 16 3 else 0) 0 0 none)

/-- `ATOM` (R215, R216, R217). -/
def execAtom (t : ThreadRef) (w : BitVec 32) (s : State) : Host.Outcome State Fault Refusal :=
  .next (s.runThread t 0x26 w.toNat fun s i =>
    let c := coreOfThread t
    let dv := s.reqDesc c (bitsOf i.imm 13 10)
    let aop := bitsOf dv 20 17
    let n := atomWidth aop
    if !s.room t then .wait
    else
      match descFault 0x26 i.imm dv with
      | some k => .fault k
      | none =>
        if s.gpois t i.a ∨ (aop = 9 ∧ s.gpois t i.d) then .fault 0x05
        else
          let q := { s.blankReq c 4 with
            opid := s.opId c, param := aop + (if dv.testBit 21 then 16 else 0),
            data := leBytes 8 (s.greg t i.b % 2 ^ (8 * n)) ++ (if aop = 9 then leBytes 8 (s.greg t i.d) else []),
            poison := if s.gpois t i.b then 1 else 0 }
          s.issueReq t { blankFetch t 0x26 (s.tget t Reg.CORE_FT_THREAD.PC) (bitsOf i.imm 9 5) q with
            dreg := i.d, width := if dv.testBit 21 then n else 0 } (s.greg t i.a) n n fun s => s.nextSeq c)

/-- `RED` (R214, R216). -/
def execRed (t : ThreadRef) (w : BitVec 32) (s : State) : Host.Outcome State Fault Refusal :=
  .next (s.runThread t 0x27 w.toNat fun s i =>
    let dv := s.reqDesc (coreOfThread t) (bitsOf i.imm 13 10)
    let d := s.greg t i.d
    let ordered := dv.testBit 24
    let extra := if ordered ∧ s.gpois t i.d then some 0x05 else if ordered ∧ bitsOf d 63 56 ≠ 0 then some 0x01 else none
    s.streamReq t i 5 (bitsOf dv 24 22) (if ordered then bitsOf d 23 0 else 0) (if ordered then bitsOf d 55 24 else 0) extra)

/-- The drain bound of a core's fetch unit (R224). -/
def execFetchDrainBound (c : CoreRef) (s : State) : Host.Outcome State Fault Refusal := .next (s.drainFetch c)

end Sys2Proof.Machine
end

