-- ==== Sys2Proof/Machine/Dispatch.lean ====
section
/-! DEFINITION. The dispatch of a command to its meaning: one arm per row of spec/opcode_table.json. -/

namespace Sys2Proof.Machine

/-- The effect of a command on everything but the queue. -/
def exec (i : Instr) (s : State) : Host.Outcome State Fault Refusal :=
  match i with
  | .loop c w => Sys2Proof.Machine.execLoop c w s
  | .pset c w => Sys2Proof.Machine.execPset c w s
  | .ploop c w => Sys2Proof.Machine.execPloop c w s
  | .plogic c w => Sys2Proof.Machine.execPlogic c w s
  | .ldcnt c w => Sys2Proof.Machine.execLdcnt c w s
  | .endSched c w => Sys2Proof.Machine.execEndSched c w s
  | .counterWait c w => Sys2Proof.Machine.execCounterWait c w s
  | .queueWait c w => Sys2Proof.Machine.execQueueWait c w s
  | .arriveAndWait c w => Sys2Proof.Machine.execArriveAndWait c w s
  | .arriveOnly c w => Sys2Proof.Machine.execArriveOnly c w s
  | .waitOnly c w => Sys2Proof.Machine.execWaitOnly c w s
  | .start c channel w => Sys2Proof.Machine.execStart c channel w s
  | .moveComplete c channel => Sys2Proof.Machine.execMoveComplete c channel s
  | .push c w => Sys2Proof.Machine.execPush c w s
  | .pop c w => Sys2Proof.Machine.execPop c w s
  | .openPkt c w => Sys2Proof.Machine.execOpenPkt c w s
  | .closePkt c w => Sys2Proof.Machine.execClosePkt c w s
  | .markQ c w => Sys2Proof.Machine.execMarkQ c w s
  | .rewindQ c w => Sys2Proof.Machine.execRewindQ c w s
  | .releaseQ c w => Sys2Proof.Machine.execReleaseQ c w s
  | .mac c w => Sys2Proof.Machine.execMac c w s
  | .emit c w => Sys2Proof.Machine.execEmit c w s
  | .spill c w => Sys2Proof.Machine.execSpill c w s
  | .zeroSlot c w => Sys2Proof.Machine.execZeroSlot c w s
  | .run c w => Sys2Proof.Machine.execRun c w s
  | .stepWord c => Sys2Proof.Machine.execStepWord c s
  | .continueCore c => Sys2Proof.Machine.execContinueCore c s
  | .dbgDataRead h c => Sys2Proof.Machine.execDbgDataRead h c s
  | .corePaused c => Sys2Proof.Machine.execCorePaused c s
  | .coreEnded c => Sys2Proof.Machine.execCoreEnded c s
  | .whistleDriven line => Sys2Proof.Machine.execWhistleDriven line s
  | .huddleComplete line => Sys2Proof.Machine.execHuddleComplete line s
  | .shotClock site => Sys2Proof.Machine.execShotClock site s
  | .sramPatrolRead site unit line => Sys2Proof.Machine.execSramPatrolRead site unit line s
  | .clearComplete site => Sys2Proof.Machine.execClearComplete site s
  | .inboxDelivery m => Sys2Proof.Machine.execInboxDelivery m s
  | .cell m => Sys2Proof.Machine.execCell m s
  | .closeMessage m => Sys2Proof.Machine.execCloseMessage m s
  | .credit m => Sys2Proof.Machine.execCredit m s
  | .queueSweepDone q queue => Sys2Proof.Machine.execQueueSweepDone q queue s
  | .nop t w => Sys2Proof.Machine.execNop t w s
  | .add t w => Sys2Proof.Machine.execAdd t w s
  | .sub t w => Sys2Proof.Machine.execSub t w s
  | .addi t w => Sys2Proof.Machine.execAddi t w s
  | .and t w => Sys2Proof.Machine.execAnd t w s
  | .or t w => Sys2Proof.Machine.execOr t w s
  | .xor t w => Sys2Proof.Machine.execXor t w s
  | .shli t w => Sys2Proof.Machine.execShli t w s
  | .shri t w => Sys2Proof.Machine.execShri t w s
  | .muli t w => Sys2Proof.Machine.execMuli t w s
  | .shin t w => Sys2Proof.Machine.execShin t w s
  | .beq t w => Sys2Proof.Machine.execBeq t w s
  | .bne t w => Sys2Proof.Machine.execBne t w s
  | .blt t w => Sys2Proof.Machine.execBlt t w s
  | .bge t w => Sys2Proof.Machine.execBge t w s
  | .bnzd t w => Sys2Proof.Machine.execBnzd t w s
  | .jmp t w => Sys2Proof.Machine.execJmp t w s
  | .waitc t w => Sys2Proof.Machine.execWaitc t w s
  | .threadStop t w => Sys2Proof.Machine.execThreadStop t w s
  | .cinc t w => Sys2Proof.Machine.execCinc t w s
  | .stat t w => Sys2Proof.Machine.execStat t w s
  | .fence t w => Sys2Proof.Machine.execFence t w s
  | .ld t w => Sys2Proof.Machine.execLd t w s
  | .lds t w => Sys2Proof.Machine.execLds t w s
  | .str t w => Sys2Proof.Machine.execStr t w s
  | .twalk t w => Sys2Proof.Machine.execTwalk t w s
  | .gather t w => Sys2Proof.Machine.execGather t w s
  | .storeT t w => Sys2Proof.Machine.execStoreT t w s
  | .atom t w => Sys2Proof.Machine.execAtom t w s
  | .red t w => Sys2Proof.Machine.execRed t w s
  | .fetchDrainBound c => Sys2Proof.Machine.execFetchDrainBound c s
  | .hubReply m => Sys2Proof.Machine.execHubReply m s
  | .hubRead stack r => Sys2Proof.Machine.execHubRead stack r s
  | .read8 stack r => Sys2Proof.Machine.execRead8 stack r s
  | .hubWrite stack r => Sys2Proof.Machine.execHubWrite stack r s
  | .write8 stack r => Sys2Proof.Machine.execWrite8 stack r s
  | .hubAtom stack r => Sys2Proof.Machine.execHubAtom stack r s
  | .hubRed stack r => Sys2Proof.Machine.execHubRed stack r s
  | .gatherC stack r => Sys2Proof.Machine.execGatherC stack r s
  | .storeC stack r => Sys2Proof.Machine.execStoreC stack r s
  | .partRead stack r => Sys2Proof.Machine.execPartRead stack r s
  | .partWrite stack r => Sys2Proof.Machine.execPartWrite stack r s
  | .recordTimeout stack unitAddr => Sys2Proof.Machine.execRecordTimeout stack unitAddr s
  | .dedupWindowIdle stack panel => Sys2Proof.Machine.execDedupWindowIdle stack panel s
  | .hbmPatrolRead stack unitAddr => Sys2Proof.Machine.execHbmPatrolRead stack unitAddr s
  | .zeroScrubDone stack => Sys2Proof.Machine.execZeroScrubDone stack s
  | .channelErrors stack channel => Sys2Proof.Machine.execChannelErrors stack channel s
  | .retrain h stack value => Sys2Proof.Machine.execRetrain h stack value s
  | .channelRetrainDone stack channel ok => Sys2Proof.Machine.execChannelRetrainDone stack channel ok s
  | .acceptAtom h stack value => Sys2Proof.Machine.execAcceptAtom h stack value s
  | .hubDrainBound stack => Sys2Proof.Machine.execHubDrainBound stack s
  | .hbmRailFault block => Sys2Proof.Machine.execHbmRailFault block s
  | .packetInject site p => Sys2Proof.Machine.execPacketInject site p s
  | .flit site port sub f => Sys2Proof.Machine.execFlit site port sub f s
  | .nakRepeat site port sub => Sys2Proof.Machine.execNakRepeat site port sub s
  | .multicastAck mcid ssite ldie status => Sys2Proof.Machine.execMulticastAck mcid ssite ldie status s
  | .fencedReply ldie => Sys2Proof.Machine.execFencedReply ldie s
  | .timeoutDrainDone => Sys2Proof.Machine.execTimeoutDrainDone s
  | .timeoutDrainLimit notEmpty => Sys2Proof.Machine.execTimeoutDrainLimit notEmpty s
  | .routerNoAnswer site notEmpty => Sys2Proof.Machine.execRouterNoAnswer site notEmpty s
  | .pkt port lane f => Sys2Proof.Machine.execPkt port lane f s
  | .ctrl port f nak freed => Sys2Proof.Machine.execCtrl port f nak freed s
  | .ctrlTimer port => Sys2Proof.Machine.execCtrlTimer port s
  | .rto port => Sys2Proof.Machine.execRto port s
  | .retire port sets => Sys2Proof.Machine.execRetire port sets s
  | .confirm port sets base => Sys2Proof.Machine.execConfirm port sets base s
  | .down port => Sys2Proof.Machine.execDown port s
  | .drain port => Sys2Proof.Machine.execDrain port s
  | .mgmtRepeat port => Sys2Proof.Machine.execMgmtRepeat port s
  | .laneFailure port lane => Sys2Proof.Machine.execLaneFailure port lane s
  | .fecWindow port lane rxpow bias prefec uncorr lock => Sys2Proof.Machine.execFecWindow port lane rxpow bias prefec uncorr lock s
  | .replyTimeout port entry => Sys2Proof.Machine.execReplyTimeout port entry s
  | .autoRetrain port => Sys2Proof.Machine.execAutoRetrain port s
  | .portDrainBound port => Sys2Proof.Machine.execPortDrainBound port s
  | .portTrained port txSets rxSets misplaced => Sys2Proof.Machine.execPortTrained port txSets rxSets misplaced s
  | .timeExchange port => Sys2Proof.Machine.execTimeExchange port s
  | .sync port exch => Sys2Proof.Machine.execSync port exch s
  | .followUp port exch t1 => Sys2Proof.Machine.execFollowUp port exch t1 s
  | .delayReq port exch => Sys2Proof.Machine.execDelayReq port exch s
  | .delayResp port exch t4 => Sys2Proof.Machine.execDelayResp port exch t4 s
  | .commandBadcrc port => Sys2Proof.Machine.execCommandBadcrc port s
  | .unknownOpcode h => Sys2Proof.Machine.execUnknownOpcode h s
  | .identify h => Sys2Proof.Machine.execIdentify h s
  | .getStatus h => Sys2Proof.Machine.execGetStatus h s
  | .readCsr h addr count rsv => Sys2Proof.Machine.execReadCsr h addr count rsv s
  | .writeCsr h addr value => Sys2Proof.Machine.execWriteCsr h addr value s
  | .echo h bytes => Sys2Proof.Machine.execEcho h bytes s
  | .setPowerCap h cap rsv => Sys2Proof.Machine.execSetPowerCap h cap rsv s
  | .setBlockLimits h limits => Sys2Proof.Machine.execSetBlockLimits h limits s
  | .setCoolant h inlet flow rsv => Sys2Proof.Machine.execSetCoolant h inlet flow rsv s
  | .getPowerThermal h => Sys2Proof.Machine.execGetPowerThermal h s
  | .getRoster h => Sys2Proof.Machine.execGetRoster h s
  | .fenceDie h site rsv => Sys2Proof.Machine.execFenceDie h site rsv s
  | .substitute h ldie bench mode rsv => Sys2Proof.Machine.execSubstitute h ldie bench mode rsv s
  | .retireDie h site rsv => Sys2Proof.Machine.execRetireDie h site rsv s
  | .rollCall h block rsv => Sys2Proof.Machine.execRollCall h block rsv s
  | .loadImage h base length digest => Sys2Proof.Machine.execLoadImage h base length digest s
  | .configure h squads rsv => Sys2Proof.Machine.execConfigure h squads rsv s
  | .kickoff h squads rsv => Sys2Proof.Machine.execKickoff h squads rsv s
  | .pause h squads limit rsv => Sys2Proof.Machine.execPause h squads limit rsv s
  | .halfTime h squads limit rsv => Sys2Proof.Machine.execHalfTime h squads limit rsv s
  | .resume h squads restore rsv => Sys2Proof.Machine.execResume h squads restore rsv s
  | .stop h squads teardown rsv => Sys2Proof.Machine.execStop h squads teardown rsv s
  | .scrub h squads scope rsv => Sys2Proof.Machine.execScrub h squads scope rsv s
  | .abort h port tag rsv => Sys2Proof.Machine.execAbort h port tag rsv s
  | .dataOpen h addr length dir burst ports rsv => Sys2Proof.Machine.execDataOpen h addr length dir burst ports rsv s
  | .dataClose h window rsv => Sys2Proof.Machine.execDataClose h window rsv s
  | .fill h addr length pattern => Sys2Proof.Machine.execFill h addr length pattern s
  | .setPortRoutes h flags port panel captain first team routes rsv => Sys2Proof.Machine.execSetPortRoutes h flags port panel captain first team routes rsv s
  | .portControl h port action role rsv => Sys2Proof.Machine.execPortControl h port action role rsv s
  | .fabricTimeout h tables rsv => Sys2Proof.Machine.execFabricTimeout h tables rsv s
  | .timeSync h refpanel upstream rsv => Sys2Proof.Machine.execTimeSync h refpanel upstream rsv s
  | .setTime h time => Sys2Proof.Machine.execSetTime h time s
  | .attest h nonce => Sys2Proof.Machine.execAttest h nonce s
  | .lifecycle h target auth rsv => Sys2Proof.Machine.execLifecycle h target auth rsv s
  | .debugUnlock h action auth rsv => Sys2Proof.Machine.execDebugUnlock h action auth rsv s
  | .fwUpdate h addr length => Sys2Proof.Machine.execFwUpdate h addr length s
  | .readNotices h max peek rsv => Sys2Proof.Machine.execReadNotices h max peek rsv s
  | .readCounters h addrs => Sys2Proof.Machine.execReadCounters h addrs s
  | .marginScan h kind site rsv => Sys2Proof.Machine.execMarginScan h kind site rsv s
  | .scanAccess h site chain op bits data rsv => Sys2Proof.Machine.execScanAccess h site chain op bits data rsv s
  | .cmdTmo port tag => Sys2Proof.Machine.execCmdTmo port tag s
  | .loadImageHashed => Sys2Proof.Machine.execLoadImageHashed s
  | .configureDrainEnd => Sys2Proof.Machine.execConfigureDrainEnd s
  | .configureDone => Sys2Proof.Machine.execConfigureDone s
  | .squadPaused squad => Sys2Proof.Machine.execSquadPaused squad s
  | .pauseLimit squads => Sys2Proof.Machine.execPauseLimit squads s
  | .halfTimeSaved => Sys2Proof.Machine.execHalfTimeSaved s
  | .restoreDone => Sys2Proof.Machine.execRestoreDone s
  | .scrubDone => Sys2Proof.Machine.execScrubDone s
  | .squadStopped squad => Sys2Proof.Machine.execSquadStopped squad s
  | .squadComplete squad => Sys2Proof.Machine.execSquadComplete squad s
  | .admissionGranted block => Sys2Proof.Machine.execAdmissionGranted block s
  | .admissionRetry block => Sys2Proof.Machine.execAdmissionRetry block s
  | .admissionDeferred block => Sys2Proof.Machine.execAdmissionDeferred block s
  | .selfTestDone site ok => Sys2Proof.Machine.execSelfTestDone site ok s
  | .bulkCopyDone => Sys2Proof.Machine.execBulkCopyDone s
  | .copyStall => Sys2Proof.Machine.execCopyStall s
  | .dieDead site => Sys2Proof.Machine.execDieDead site s
  | .data port window offset dlen poison last rsv bytes => Sys2Proof.Machine.execData port window offset dlen poison last rsv bytes s
  | .ack port window offset => Sys2Proof.Machine.execAck port window offset s
  | .windowDrainBound port window => Sys2Proof.Machine.execWindowDrainBound port window s
  | .marginScanDone => Sys2Proof.Machine.execMarginScanDone s
  | .flashWriteDone readBackOk => Sys2Proof.Machine.execFlashWriteDone readBackOk s
  | .powerSample site volts amps => Sys2Proof.Machine.execPowerSample site volts amps s
  | .vinUndervolt site corner mv => Sys2Proof.Machine.execVinUndervolt site corner mv s
  | .vaonOvercurrent site => Sys2Proof.Machine.execVaonOvercurrent site s
  | .phaseFail site phase => Sys2Proof.Machine.execPhaseFail site phase s
  | .islandCellFail site cell => Sys2Proof.Machine.execIslandCellFail site cell s
  | .pathSample site corner base now persistent => Sys2Proof.Machine.execPathSample site corner base now persistent s
  | .budgetUpdate => Sys2Proof.Machine.execBudgetUpdate s
  | .ceilingControl site avg1us avg1ms => Sys2Proof.Machine.execCeilingControl site avg1us avg1ms s
  | .pwrgoodFall block => Sys2Proof.Machine.execPwrgoodFall block s
  | .pwrgoodAssert block => Sys2Proof.Machine.execPwrgoodAssert block s
  | .rollCallLimit block => Sys2Proof.Machine.execRollCallLimit block s
  | .siteCheckDone site vin amps => Sys2Proof.Machine.execSiteCheckDone site vin amps s
  | .sensorSample site readings => Sys2Proof.Machine.execSensorSample site readings s
  | .lidSample inlet outlet => Sys2Proof.Machine.execLidSample inlet outlet s
  | .flowCheck held10s => Sys2Proof.Machine.execFlowCheck held10s s
  | .flowLoss byRate => Sys2Proof.Machine.execFlowLoss byRate s
  | .hbmHoldExpiry => Sys2Proof.Machine.execHbmHoldExpiry s
  | .flowRestored => Sys2Proof.Machine.execFlowRestored s
  | .thermtrip site => Sys2Proof.Machine.execThermtrip site s
  | .marginWarning site core mon slack => Sys2Proof.Machine.execMarginWarning site core mon slack s
  | .codeRise site => Sys2Proof.Machine.execCodeRise site s
  | .clockFloor site core => Sys2Proof.Machine.execClockFloor site core s
  | .clockUnlock site gen => Sys2Proof.Machine.execClockUnlock site gen s
  | .refclkLoss quadrant => Sys2Proof.Machine.execRefclkLoss quadrant s
  | .correctionEdge site count => Sys2Proof.Machine.execCorrectionEdge site count s
  | .timeUpdate site step value neg edge => Sys2Proof.Machine.execTimeUpdate site step value neg edge s
  | .minReset h site => Sys2Proof.Machine.execMinReset h site s
  | .slackMinReset h site => Sys2Proof.Machine.execSlackMinReset h site s
  | .peakReset h site => Sys2Proof.Machine.execPeakReset h site s
  | .haltNAssert => Sys2Proof.Machine.execHaltNAssert s
  | .haltNRelease => Sys2Proof.Machine.execHaltNRelease s
  | .resetNAssert => Sys2Proof.Machine.execResetNAssert s
  | .resetNRelease ctlsel flowOk => Sys2Proof.Machine.execResetNRelease ctlsel flowOk s
  | .controlDieBooted ok => Sys2Proof.Machine.execControlDieBooted ok s
  | .firmwareVerified image => Sys2Proof.Machine.execFirmwareVerified image s
  | .meshWaveDone wave failed aligns => Sys2Proof.Machine.execMeshWaveDone wave failed aligns s
  | .blkEnRaise block => Sys2Proof.Machine.execBlkEnRaise block s
  | .pwrgoodTimeout block => Sys2Proof.Machine.execPwrgoodTimeout block s
  | .hbmTrained stack failed => Sys2Proof.Machine.execHbmTrained stack failed s
  | .rosterBuild => Sys2Proof.Machine.execRosterBuild s
  | .computeReset h value => Sys2Proof.Machine.execComputeReset h value s
  | .squadReset h value => Sys2Proof.Machine.execSquadReset h value s
  | .dieComputeReset h value => Sys2Proof.Machine.execDieComputeReset h value s
  | .portRetrain h value => Sys2Proof.Machine.execPortRetrain h value s
  | .resetDone result => Sys2Proof.Machine.execResetDone result s
  | .tamper cause => Sys2Proof.Machine.execTamper cause s
  | .bypass die => Sys2Proof.Machine.execBypass die s
  | .idcode die => Sys2Proof.Machine.execIdcode die s
  | .samplePreload die drive => Sys2Proof.Machine.execSamplePreload die drive s
  | .extest die => Sys2Proof.Machine.execExtest die s
  | .faultRead die => Sys2Proof.Machine.execFaultRead die s
  | .jtagRefused die => Sys2Proof.Machine.execJtagRefused die s
  | .i3cStart h value => Sys2Proof.Machine.execI3cStart h value s
  | .i3cDone nack rdata => Sys2Proof.Machine.execI3cDone nack rdata s
  | .privateInstruction die code => Sys2Proof.Machine.execPrivateInstruction die code s
  | .noticeRecord site => Sys2Proof.Machine.execNoticeRecord site s
  | .marginCheck slacks => Sys2Proof.Machine.execMarginCheck slacks s
  | .grade h value => Sys2Proof.Machine.execGrade h value s
  | .hostport h value => Sys2Proof.Machine.execHostport h value s
  | .noticePush => Sys2Proof.Machine.execNoticePush s
  | .fwUpdateVerified => Sys2Proof.Machine.execFwUpdateVerified s
  | .thmSaveCut => Sys2Proof.Machine.execThmSaveCut s
  | .heartbeatLoss => Sys2Proof.Machine.execHeartbeatLoss s
  | .watchdog => Sys2Proof.Machine.execWatchdog s
  | .thetaUpdate => Sys2Proof.Machine.execThetaUpdate s
  | .thermalCapUpdate => Sys2Proof.Machine.execThermalCapUpdate s

end Sys2Proof.Machine
end

