-- ==== Sys2Proof/WellFormed.lean ====
section
/-! DEFINITION. Well-formed commands: every operand fits the field that carries it, and names a unit the panel has. -/

namespace Sys2Proof

/-- A core of a site (R68). -/
def CoreRef.wf (c : CoreRef) : Bool := c.site < 256 && c.core < 48
/-- A cluster of a site (R170). -/
def CluRef.wf (q : CluRef) : Bool := q.site < 256 && q.clu < 2
/-- A thread of a core (R202). -/
def ThreadRef.wf (t : ThreadRef) : Bool := t.site < 256 && t.core < 48 && t.thread < 48

/-- The fields of a stream message (R190): a cell carries 64 bytes, other messages none. -/
def StreamMsg.wf (m : StreamMsg) : Bool :=
  m.kind < 4 && m.epoch < 256 && m.ddie < 256 && m.dclu < 2 && m.dring < 8 && m.dindex < 1024 && m.dcore < 24 && m.count < 2 ^ 16
    && (m.data.length == 0 || m.data.length == 64)

/-- The fields of a hub request (R241). -/
def HubReq.wf (r : HubReq) : Bool :=
  r.opc < 256 && r.epoch < 256 && r.spanel < 4096 && r.ssite < 256 && r.sunit < 64 && r.tag < 2 ^ 16 && r.addr < 2 ^ 64
    && r.opid < 2 ^ 32 && r.param < 2 ^ 32 && r.order < 2 ^ 32 && r.group < 2 ^ 32 && r.length < 2 ^ 16 && r.reserved < 2 ^ 16
    && r.data.length ≤ 256

/-- The fields of a hub reply (R242). -/
def HubRep.wf (m : HubRep) : Bool :=
  m.status < 256 && m.epoch < 256 && m.dpanel < 4096 && m.dsite < 256 && m.dunit < 64 && m.tag < 2 ^ 16 && m.opid < 2 ^ 32
    && m.data.length ≤ 256

/-- The fields of a mesh packet (R268, R269). -/
def Packet.wf (p : Packet) : Bool :=
  p.cls < 5 && p.lane < 2 && p.plen < 2 ^ 16 && p.dest < 256 && p.dsite < 256 && p.msite < 256 && p.dunit < 64 && p.ssite < 256
    && p.sunit < 64 && p.hops < 64 && p.mcid < 2 ^ 16 && p.dld < 256 && p.expect < 256 && p.payload.length == p.plen

/-- The control word of a sub-link (R263). -/
def FlitIn.wf (f : FlitIn) : Bool :=
  f.cls < 8 && f.lane < 2 && f.seq < 512 && f.ackpos < 512 && f.naksub < 4 && f.nakpos < 512 && f.crvc < 16 && f.crcount < 16

/-- The fields of a Jorzen frame (R295). -/
def Frame.wf (f : Frame) : Bool :=
  f.typ < 16 && f.vc < 8 && f.plen ≤ 512 && f.seq < 2 ^ 32 && f.spanel < 4096 && f.dpanel < 4096 && f.hops < 16 && f.ack < 2 ^ 32
    && f.words < 32 && f.hubOp < 256 && f.payload.length ≤ 512

/-- The header of a command packet (R356). -/
def CmdHdr.wf (h : CmdHdr) : Bool :=
  h.port < 8 && h.opcode < 2 ^ 16 && h.tag < 2 ^ 16 && h.length < 2 ^ 16 && h.received < 2 ^ 16 && h.seq < 2 ^ 32 && h.tmo < 2 ^ 32
    && h.reserved < 2 ^ 112 && h.spanel < 4096

/-- A signed authorisation (R465). -/
def Auth.wf (a : Auth) : Bool :=
  a.kind < 256 && a.target < 256 && a.signer < 256 && a.challenge < 2 ^ 512 && a.device < 2 ^ 512 && a.arg < 2 ^ 512
    && a.pubkey < 2 ^ 1064 && a.signature < 2 ^ 1056

/-- A signed number that 16 bits hold. -/
def fits16 (v : Int) : Bool := decide (-32768 ≤ v) && decide (v < 32768)

/-- One reading of a hot-spot site (R427). -/
def Reading.wf (r : Reading) : Bool := fits16 r.a && fits16 r.b && fits16 r.ro

/-- A table, where it is supplied, has its entries (R365). -/
def tableWf (n bound : Nat) (t : Option (List Nat)) : Bool :=
  match t with
  | some es => es.length == n && es.all (· < bound)
  | none => true

/-- The tables of `FABRIC_TIMEOUT` (R365): the sites of the logical dies, the bytes of the
alive map and of the fenced mask, and some interleave entries. -/
def TimeoutTables.wf (t : TimeoutTables) : Bool :=
  tableWf 144 256 t.l2s && tableWf 32 256 t.alive && tableWf 18 256 t.fenced && t.ilvFirst < 2 ^ 16
    && (match t.ilv with
      | some es => es.length ≤ 900
      | none => true)

/-- A command is well formed. -/
def wellFormed : Instr → Bool
  | .loop c _ => c.wf
  | .pset c _ => c.wf
  | .ploop c _ => c.wf
  | .plogic c _ => c.wf
  | .ldcnt c _ => c.wf
  | .endSched c _ => c.wf
  | .counterWait c _ => c.wf
  | .queueWait c _ => c.wf
  | .arriveAndWait c _ => c.wf
  | .arriveOnly c _ => c.wf
  | .waitOnly c _ => c.wf
  | .start c channel _ => c.wf && channel < 2
  | .moveComplete c channel => c.wf && channel < 2
  | .push c _ => c.wf
  | .pop c _ => c.wf
  | .openPkt c _ => c.wf
  | .closePkt c _ => c.wf
  | .markQ c _ => c.wf
  | .rewindQ c _ => c.wf
  | .releaseQ c _ => c.wf
  | .mac c _ => c.wf
  | .emit c _ => c.wf
  | .spill c _ => c.wf
  | .zeroSlot c _ => c.wf
  | .run c _ => c.wf
  | .stepWord c => c.wf
  | .continueCore c => c.wf
  | .dbgDataRead h c => h.wf && c.wf
  | .corePaused c => c.wf
  | .coreEnded c => c.wf
  | .whistleDriven line => line < 17
  | .huddleComplete line => line < 16
  | .shotClock site => site < 256
  | .sramPatrolRead site unit line => site < 256 && unit < 50 && line < 2 ^ 22
  | .clearComplete site => site < 256
  | .inboxDelivery m => m.wf
  | .cell m => m.wf
  | .closeMessage m => m.wf
  | .credit m => m.wf
  | .queueSweepDone q queue => q.wf && queue < 1024
  | .nop t _ => t.wf
  | .add t _ => t.wf
  | .sub t _ => t.wf
  | .addi t _ => t.wf
  | .and t _ => t.wf
  | .or t _ => t.wf
  | .xor t _ => t.wf
  | .shli t _ => t.wf
  | .shri t _ => t.wf
  | .muli t _ => t.wf
  | .shin t _ => t.wf
  | .beq t _ => t.wf
  | .bne t _ => t.wf
  | .blt t _ => t.wf
  | .bge t _ => t.wf
  | .bnzd t _ => t.wf
  | .jmp t _ => t.wf
  | .waitc t _ => t.wf
  | .threadStop t _ => t.wf
  | .cinc t _ => t.wf
  | .stat t _ => t.wf
  | .fence t _ => t.wf
  | .ld t _ => t.wf
  | .lds t _ => t.wf
  | .str t _ => t.wf
  | .twalk t _ => t.wf
  | .gather t _ => t.wf
  | .storeT t _ => t.wf
  | .atom t _ => t.wf
  | .red t _ => t.wf
  | .fetchDrainBound c => c.wf
  | .hubReply m => m.wf
  | .hubRead stack r => stack < 64 && r.wf
  | .read8 stack r => stack < 64 && r.wf
  | .hubWrite stack r => stack < 64 && r.wf
  | .write8 stack r => stack < 64 && r.wf
  | .hubAtom stack r => stack < 64 && r.wf
  | .hubRed stack r => stack < 64 && r.wf
  | .gatherC stack r => stack < 64 && r.wf
  | .storeC stack r => stack < 64 && r.wf
  | .partRead stack r => stack < 64 && r.wf
  | .partWrite stack r => stack < 64 && r.wf
  | .recordTimeout stack unitAddr => stack < 64 && unitAddr < 2 ^ 36
  | .dedupWindowIdle stack panel => stack < 64 && panel < 4096
  | .hbmPatrolRead stack unitAddr => stack < 64 && unitAddr < 2 ^ 36
  | .zeroScrubDone stack => stack < 64
  | .channelErrors stack channel => stack < 64 && channel < 32
  | .retrain h stack _ => h.wf && stack < 64
  | .channelRetrainDone stack channel _ => stack < 64 && channel < 32
  | .acceptAtom h stack _ => h.wf && stack < 64
  | .hubDrainBound stack => stack < 64
  | .hbmRailFault block => block < 16
  | .packetInject site p => site < 256 && p.wf
  | .flit site port sub f => site < 256 && port < 4 && sub < 4 && f.wf
  | .nakRepeat site port sub => site < 256 && port < 4 && sub < 4
  | .multicastAck mcid ssite ldie status => mcid < 2 ^ 16 && ssite < 256 && ldie < 144 && status < 256
  | .fencedReply ldie => ldie < 144
  | .timeoutDrainDone => true
  | .timeoutDrainLimit notEmpty => notEmpty.all (· < 256)
  | .routerNoAnswer site notEmpty => site < 256 && notEmpty.all (· < 256)
  | .pkt port lane f => port < 8 && lane < 64 && f.wf
  | .ctrl port f _ freed => port < 8 && f.wf && freed.length == 5 && freed.all (· < 2 ^ 32)
  | .ctrlTimer port => port < 8
  | .rto port => port < 8
  | .retire port _ => port < 8
  | .confirm port _ base => port < 8 && base < 2 ^ 32
  | .down port => port < 8
  | .drain port => port < 8
  | .mgmtRepeat port => port < 8
  | .laneFailure port lane => port < 8 && lane < 64
  | .fecWindow port lane rxpow bias prefec uncorr _ => port < 8 && lane < 64 && fits16 rxpow && bias < 4096 && prefec < 2 ^ 18
      && uncorr < 256
  | .replyTimeout port entry => port < 8 && entry < 65536
  | .autoRetrain port => port < 8
  | .portDrainBound port => port < 8
  | .portTrained port _ _ misplaced => port < 8 && misplaced < 65
  | .timeExchange port => port < 8
  | .sync port exch => port < 8 && exch < 2 ^ 16
  | .followUp port exch t1 => port < 8 && exch < 2 ^ 16 && t1 < 2 ^ 64
  | .delayReq port exch => port < 8 && exch < 2 ^ 16
  | .delayResp port exch t4 => port < 8 && exch < 2 ^ 16 && t4 < 2 ^ 64
  | .commandBadcrc port => port < 8
  | .unknownOpcode h => h.wf
  | .identify h => h.wf
  | .getStatus h => h.wf
  | .readCsr h addr count rsv => h.wf && addr < 2 ^ 64 && count < 2 ^ 16 && rsv < 2 ^ 512
  | .writeCsr h addr _ => h.wf && addr < 2 ^ 64
  | .echo h bytes => h.wf && bytes.length ≤ 4096
  | .setPowerCap h cap rsv => h.wf && cap < 2 ^ 32 && rsv < 2 ^ 512
  | .setBlockLimits h limits => h.wf && limits.length == 16 && limits.all (· < 2 ^ 16)
  | .setCoolant h inlet flow rsv => h.wf && fits16 inlet && flow < 2 ^ 16 && rsv < 2 ^ 512
  | .getPowerThermal h => h.wf
  | .getRoster h => h.wf
  | .fenceDie h site rsv => h.wf && site < 256 && rsv < 2 ^ 512
  | .substitute h ldie bench mode rsv => h.wf && ldie < 256 && bench < 256 && mode < 256 && rsv < 2 ^ 512
  | .retireDie h site rsv => h.wf && site < 256 && rsv < 2 ^ 512
  | .rollCall h block rsv => h.wf && block < 256 && rsv < 2 ^ 512
  | .loadImage h base length digest => h.wf && base < 2 ^ 64 && length < 2 ^ 64 && digest < 2 ^ 512
  | .configure h _ rsv => h.wf && rsv < 2 ^ 512
  | .kickoff h _ rsv => h.wf && rsv < 2 ^ 512
  | .pause h _ limit rsv => h.wf && limit < 2 ^ 32 && rsv < 2 ^ 512
  | .halfTime h _ limit rsv => h.wf && limit < 2 ^ 32 && rsv < 2 ^ 512
  | .resume h _ _ rsv => h.wf && rsv < 2 ^ 512
  | .stop h _ _ rsv => h.wf && rsv < 2 ^ 512
  | .scrub h _ scope rsv => h.wf && scope < 256 && rsv < 2 ^ 512
  | .abort h port tag rsv => h.wf && port < 256 && tag < 2 ^ 16 && rsv < 2 ^ 512
  | .dataOpen h addr length dir burst _ rsv => h.wf && addr < 2 ^ 64 && length < 2 ^ 64 && dir < 256 && burst < 256 && rsv < 2 ^ 512
  | .dataClose h window rsv => h.wf && window < 256 && rsv < 2 ^ 512
  | .fill h addr length _ => h.wf && addr < 2 ^ 64 && length < 2 ^ 64
  | .setPortRoutes h _ port panel captain first team routes rsv => h.wf && port < 256 && panel < 2 ^ 16 && captain < 2 ^ 16
      && first < 2 ^ 16 && team.length == 32 && team.all (· < 2 ^ 16) && routes.length ≤ 1000 && rsv < 2 ^ 512
  | .portControl h port action role rsv => h.wf && port < 256 && action < 256 && role < 256 && rsv < 2 ^ 512
  | .fabricTimeout h tables rsv => h.wf && tables.wf && rsv < 2 ^ 512
  | .timeSync h refpanel upstream rsv => h.wf && refpanel < 2 ^ 16 && upstream < 256 && rsv < 2 ^ 512
  | .setTime h _ => h.wf
  | .attest h nonce => h.wf && nonce < 2 ^ 512
  | .lifecycle h target auth rsv => h.wf && target < 256 && auth.wf && rsv < 2 ^ 512
  | .debugUnlock h action auth rsv => h.wf && action < 256 && auth.wf && rsv < 2 ^ 512
  | .fwUpdate h addr length => h.wf && addr < 2 ^ 64 && length < 2 ^ 64
  | .readNotices h max _ rsv => h.wf && max < 256 && rsv < 2 ^ 512
  | .readCounters h addrs => h.wf && addrs.length ≤ 512 && addrs.all (· < 2 ^ 64)
  | .marginScan h kind site rsv => h.wf && kind < 256 && site < 256 && rsv < 2 ^ 512
  | .scanAccess h site chain op bits data rsv => h.wf && site < 256 && chain < 256 && op < 256 && bits < 2 ^ 32 && data.length ≤ 4096
      && rsv < 2 ^ 512
  | .cmdTmo port tag => port < 8 && tag < 2 ^ 16
  | .loadImageHashed => true
  | .configureDrainEnd => true
  | .configureDone => true
  | .squadPaused squad => squad < 16
  | .pauseLimit _ => true
  | .halfTimeSaved => true
  | .restoreDone => true
  | .scrubDone => true
  | .squadStopped squad => squad < 16
  | .squadComplete squad => squad < 16
  | .admissionGranted block => block < 16
  | .admissionRetry block => block < 16
  | .admissionDeferred block => block < 16
  | .selfTestDone site _ => site < 256
  | .bulkCopyDone => true
  | .copyStall => true
  | .dieDead site => site < 256
  | .data port window offset dlen poison _ rsv bytes => port < 8 && window < 256 && offset < 2 ^ 64 && dlen < 2 ^ 16
      && poison < 2 ^ 16 && rsv < 2 ^ 64 && bytes.length ≤ 496
  | .ack port window offset => port < 8 && window < 256 && offset < 2 ^ 64
  | .windowDrainBound port window => port < 8 && window < 4
  | .marginScanDone => true
  | .flashWriteDone _ => true
  | .powerSample site volts amps => site < 256 && volts.length == 4 && volts.all (· < 2 ^ 16) && amps.length == 4 && amps.all (· < 2 ^ 16)
  | .vinUndervolt site corner mv => site < 256 && corner < 4 && mv < 2 ^ 16
  | .vaonOvercurrent site => site < 256
  | .phaseFail site phase => site < 256 && phase < 8
  | .islandCellFail site cell => site < 256 && cell < 2
  | .pathSample site corner base now _ => site < 256 && corner < 4 && base < 2 ^ 16 && now < 2 ^ 16
  | .budgetUpdate => true
  | .ceilingControl site avg1us avg1ms => site < 256 && avg1us < 2 ^ 16 && avg1ms < 2 ^ 16
  | .pwrgoodFall block => block < 16
  | .pwrgoodAssert block => block < 16
  | .rollCallLimit block => block < 16
  | .siteCheckDone site vin amps => site < 256 && vin < 2 ^ 16 && amps < 2 ^ 16
  | .sensorSample site readings => site < 256 && readings.length ≤ 16 && readings.all Reading.wf
  | .lidSample inlet outlet => fits16 inlet && fits16 outlet
  | .flowCheck _ => true
  | .flowLoss _ => true
  | .hbmHoldExpiry => true
  | .flowRestored => true
  | .thermtrip site => site < 256
  | .marginWarning site core mon slack => site < 256 && core < 48 && mon < 2 && slack < 256
  | .codeRise site => site < 256
  | .clockFloor site core => site < 256 && core < 48
  | .clockUnlock site gen => site < 256 && gen < 11
  | .refclkLoss quadrant => quadrant < 4
  | .correctionEdge site count => site < 256 && count < 2 ^ 64
  | .timeUpdate site _ value _ edge => site < 256 && value < 2 ^ 64 && edge < 2 ^ 64
  | .minReset h site => h.wf && site < 256
  | .slackMinReset h site => h.wf && site < 256
  | .peakReset h site => h.wf && site < 256
  | .haltNAssert => true
  | .haltNRelease => true
  | .resetNAssert => true
  | .resetNRelease _ _ => true
  | .controlDieBooted _ => true
  | .firmwareVerified image => image.length ≤ 2 ^ 24
  | .meshWaveDone wave failed aligns => wave < 2 ^ 16 && failed.all (· < 256) && aligns.all fun e => e.1 < 256
  | .blkEnRaise block => block < 16
  | .pwrgoodTimeout block => block < 16
  | .hbmTrained stack failed => stack < 64 && failed.all (· < 32)
  | .rosterBuild => true
  | .computeReset h _ => h.wf
  | .squadReset h _ => h.wf
  | .dieComputeReset h _ => h.wf
  | .portRetrain h _ => h.wf
  | .resetDone result => result < 256
  | .tamper cause => cause < 2 ^ 4
  | .bypass die => die < 2
  | .idcode die => die < 2
  | .samplePreload die drive => die < 2 && drive < 2 ^ 46
  | .extest die => die < 2
  | .faultRead die => die < 2
  | .jtagRefused die => die < 2
  | .i3cStart h _ => h.wf
  | .i3cDone _ _ => true
  | .privateInstruction die code => die < 2 && code < 2 ^ 32
  | .noticeRecord site => site < 256
  | .marginCheck slacks => slacks.all fun e => e.1 < 256 && e.2.1 < 48 && e.2.2 < 256
  | .grade h _ => h.wf
  | .hostport h _ => h.wf
  | .noticePush => true
  | .fwUpdateVerified => true
  | .thmSaveCut => true
  | .heartbeatLoss => true
  | .watchdog => true
  | .thetaUpdate => true
  | .thermalCapUpdate => true

end Sys2Proof
end

