-- ==== Sys2Proof/Safety.lean ====
section
/-! DEFINITION. What a sound state and a safe step are, in the terms the statements use. -/

namespace Sys2Proof.Machine

/-- The canonical form of a memory: addresses strictly rising, and no byte listed that reads as an unlisted one. -/
def Memory.wf (m : List Host.Cell) : Bool := mapWf 0 m

/-- Every map of the panel is in order, and every memory, with its poison and upset marks, is in canonical form. -/
def State.canonical (s : State) : Bool :=
  risingFrom 0 s.fld && risingFrom 0 s.queues
    && Memory.wf s.sram && Memory.wf s.hbm && Memory.wf s.flash && Memory.wf s.bootBuf
    && mapWf 0 s.sramPoison && mapWf 0 s.sramUpset && mapWf 0 s.hbmPoison && mapWf 0 s.hbmUpset

/-- A step goes on: it neither faults nor refuses. -/
def State.goesOn (s : State) : Prop := ∃ t, step s = .next t

/-- Two states agree on every memory of the panel: the dies' memories and HBM, with their poison and upset marks. -/
def State.sameMemory (s t : State) : Prop :=
  t.sram = s.sram ∧ t.sramPoison = s.sramPoison ∧ t.sramUpset = s.sramUpset ∧ t.hbm = s.hbm ∧ t.hbmPoison = s.hbmPoison
    ∧ t.hbmUpset = s.hbmUpset

/-- Every field of the panel but the listed ones reads in `t` as in `s`. -/
def State.sameFields (s t : State) (but : List (Nat × Fld)) : Prop :=
  ∀ site f, (∀ e ∈ but, fldKey site f ≠ fldKey e.1 e.2) → t.get site f = s.get site f

/-- Nothing of the panel but fields has changed, and of those only the listed ones: every memory, queue, buffer and message is the same. -/
def State.onlyFields (s t : State) (but : List (Nat × Fld)) : Prop := t = { s with fld := t.fld } ∧ s.sameFields t but

/-- A field of a core, with the site and the offset it stands at. -/
def coreFld (c : CoreRef) (f : Fld) : Nat × Fld := (c.site, f.nth c.core)
/-- A field of a cluster. -/
def cluFld (q : CluRef) (f : Fld) : Nat × Fld := (q.site, f.nth q.clu)
/-- A field of the panel. -/
def panelFld (f : Fld) : Nat × Fld := (panelSite, f)
/-- A field of a port. -/
def portFld (p : Nat) (f : Fld) : Nat × Fld := (siteOfPort p, f)

/-- A thread can issue an instruction (R205): it runs or waits, its core's threads are not stopped, none of its registers is PENDING, and
a further word of the store follows. -/
def State.threadReady (s : State) (t : ThreadRef) : Prop :=
  t.wf = true ∧ (s.tget t Reg.CORE_FT_THREAD.STATE = Thread.RUN ∨ s.tget t Reg.CORE_FT_THREAD.STATE = Thread.WAIT)
    ∧ s.cget (coreOfThread t) Core.FT_STOP = 0 ∧ s.tget t Thread.PENDING = 0 ∧ s.tget t Reg.CORE_FT_THREAD.PC < 2047


/-- In `u` each listed field has its listed value, and every other field reads as in `s`. -/
def State.fieldsBecome (s u : State) (ws : List (Nat × Fld × Nat)) : Prop :=
  (∀ e ∈ ws, u.get e.1 e.2.1 = e.2.2) ∧ s.sameFields u (ws.map fun e => (e.1, e.2.1))

/-- Of the whole panel only the listed fields change, to the listed values. -/
def State.onlyBecome (s u : State) (ws : List (Nat × Fld × Nat)) : Prop := u = { s with fld := u.fld } ∧ s.fieldsBecome u ws

/-- A count after `n` more, held at its maximum (R484). -/
def State.counted (s : State) (site : Nat) (f : Fld) (n : Nat := 1) : Nat × Fld × Nat := (site, f, min (s.get site f + n) (2 ^ f.width - 1))

/-- The notice a die raises: it names the squad of a member die, and its time is panel time (R478, R487). -/
def State.dieNotice (s : State) (site unit typ cls arg0 arg1 : Nat) : Notice :=
  let member := s.get site Reg.DIE_SIDEBAND.MEMBER = 1
  { typ := typ, cls := cls, loss := s.get site Die.LOSS = 1, time := s.get site Reg.CLK_PT.TIME, site := site, unit := unit,
    squad := if member then s.get site Reg.DIE_SIDEBAND.SQUAD else 0, squadValid := member, arg0 := arg0, arg1 := arg1 }

/-- The notice the active control die raises (R478). -/
def State.ctlNotice (s : State) (typ cls : Nat) (squad : Option Nat) (arg0 arg1 : Nat) : Notice :=
  { s.dieNotice s.controlSite 63 typ cls arg0 arg1 with squad := squad.getD 0, squadValid := squad.isSome }

/-- The notices that wait in the dies after one more: a die that holds 16 drops it (R479). -/
def State.bufWith (s : State) (n : Notice) : List Notice :=
  if s.get n.site Reg.DIE_NOTICE.BUFFERED < 16 then s.noticeBuf ++ [n] else s.noticeBuf

/-- What a die counts when it raises a notice (R479, R484). -/
def State.noticeWrites (s : State) (site : Nat) : List (Nat × Fld × Nat) :=
  let room := s.get site Reg.DIE_NOTICE.BUFFERED < 16
  [s.counted site Reg.DIE_NOTICE.RAISED,
   (site, Reg.DIE_NOTICE.BUFFERED, s.get site Reg.DIE_NOTICE.BUFFERED + if room then 1 else 0),
   s.counted site Reg.DIE_NOTICE.LOST (if room then 0 else 1),
   (site, Die.LOSS, if room then 0 else 1)]
/-! ### Fetch threads -/

/-- Bits of a fetch instruction. -/
def fbits (w : BitVec 32) (hi lo : Nat) : Nat := bitsOf w.toNat hi lo

/-- The fetch instructions that write D with a value computed from A, B and IMM (R206, R208): each with the value, its POISON bit, and the
fields that it does not use. -/
def arithmetic (s : State) (t : ThreadRef) (w : BitVec 32) : List (Instr × Nat × Bool × Nat) :=
  let a := s.greg t (fbits w 21 18)
  let b := s.greg t (fbits w 17 14)
  let pa := s.gpois t (fbits w 21 18)
  let pb := s.gpois t (fbits w 17 14)
  let imm := fbits w 13 0
  [(.add t w, a + b, pa || pb, imm), (.sub t w, a + 2 ^ 64 - b, pa || pb, imm), (.and t w, a &&& b, pa || pb, imm),
   (.or t w, a ||| b, pa || pb, imm), (.xor t w, a ^^^ b, pa || pb, imm),
   (.addi t w, a + (signedOf 14 imm % 2 ^ 64).toNat, pa, fbits w 17 14), (.muli t w, a * imm, pa, fbits w 17 14),
   (.shli t w, a * 2 ^ imm, pa, fbits w 17 6), (.shri t w, a / 2 ^ imm, pa, fbits w 17 6),
   (.shin t w, s.greg t (fbits w 25 22) * 2 ^ 14 + imm, s.gpois t (fbits w 25 22), fbits w 21 14)]

/-- The branches, and `NOP`, which never branches (R206): each with whether it is taken, whether an operand is poisoned, and the fields that
it does not use. -/
def branches (s : State) (t : ThreadRef) (w : BitVec 32) : List (Instr × Bool × Bool × Nat) :=
  let a := s.greg t (fbits w 21 18)
  let b := s.greg t (fbits w 17 14)
  let p := s.gpois t (fbits w 21 18) || s.gpois t (fbits w 17 14)
  let d := fbits w 25 22
  [(.beq t w, a == b, p, d), (.bne t w, a != b, p, d), (.blt t w, decide (signedOf 64 a < signedOf 64 b), p, d),
   (.bge t w, decide (signedOf 64 b ≤ signedOf 64 a), p, d), (.jmp t w, true, false, fbits w 25 14), (.nop t w, false, false, fbits w 25 0)]

/-- In `u` the thread runs on at `pc`, and besides its state and address only the listed fields differ from those of `s`. -/
def State.threadGoesOn (s u : State) (t : ThreadRef) (pc : Nat) (but : List (Nat × Fld)) : Prop :=
  let c := coreOfThread t
  u.tget t Reg.CORE_FT_THREAD.PC = pc ∧ u.tget t Reg.CORE_FT_THREAD.STATE = Thread.RUN
    ∧ u.cget c Reg.CORE_FT_UNIT.RUNNING = s.cget c Reg.CORE_FT_UNIT.RUNNING
    ∧ s.onlyFields u ([coreFld c (Reg.CORE_FT_THREAD.PC t.thread), coreFld c (Reg.CORE_FT_THREAD.STATE t.thread),
        coreFld c Reg.CORE_FT_UNIT.RUNNING] ++ but)

/-- A memory address of a thread is aligned, has no bit above the form of R209, and lies in HBM where it names this panel (R209, R210). -/
def State.addrOk (s : State) (a size align : Nat) : Prop :=
  a % align = 0 ∧ a < 2 ^ 57 ∧ (s.addrPanel a = s.ownPanel → a % 2 ^ 44 + size ≤ 2 ^ 42)

/-- A memory address of a thread as a request carries it: its panel and the address there (R209). -/
def State.globalAddr (s : State) (a : Nat) : Nat := s.addrPanel a * 2 ^ 44 + a % 2 ^ 44

/-- In `u` the thread has sent the request `q`, under a tag of the core, which is outstanding; it runs on with the next word, with register
`pend` PENDING if one is named, and with SEQ one further if `adv` holds. Besides these, only the counts of requests and the fields `but`
differ from those of `s`. -/
def State.requestSent (s u : State) (t : ThreadRef) (q : HubReq) (pend : Option Nat) (adv : Bool) (but : List (Nat × Fld)) : Prop :=
  let c := coreOfThread t
  ∃ r : FetchReq,
    u.hubReqs = s.hubReqs ++ [r.req] ∧ u.outstanding = s.outstanding ++ [r] ∧ r.owner = t ∧ r.req = { q with tag := r.req.tag }
      ∧ u.tget t Reg.CORE_FT_THREAD.PC = s.tget t Reg.CORE_FT_THREAD.PC + 1 ∧ u.tget t Reg.CORE_FT_THREAD.STATE = Thread.RUN
      ∧ u.cget c Reg.CORE_FT_REQS.REQUESTS = min (s.cget c Reg.CORE_FT_REQS.REQUESTS + 1) (2 ^ 48 - 1)
      ∧ u.tget t Reg.CORE_FT_THREAD.OUTSTANDING = u.threadOut t ∧ u.cget c Reg.CORE_FT_UNIT.OUTSTANDING = u.coreOut c
      ∧ u.cget c Reg.CORE_FT_UNIT.SEQ = (if adv then (s.cget c Reg.CORE_FT_UNIT.SEQ + 1) % 524288 else s.cget c Reg.CORE_FT_UNIT.SEQ)
      ∧ u.cget c Reg.CORE_FT_UNIT.RUNNING = s.cget c Reg.CORE_FT_UNIT.RUNNING
      ∧ (∀ i < 16, u.gpend t i = decide (pend = some i))
      ∧ u = { s with fld := u.fld, hubReqs := u.hubReqs, outstanding := u.outstanding }
      ∧ s.sameFields u
          ([coreFld c (Reg.CORE_FT_THREAD.PC t.thread), coreFld c (Reg.CORE_FT_THREAD.STATE t.thread), coreFld c Reg.CORE_FT_UNIT.RUNNING,
           coreFld c Reg.CORE_FT_UNIT.OUTSTANDING, coreFld c Reg.CORE_FT_UNIT.SEQ, coreFld c Reg.CORE_FT_REQS.REQUESTS,
           coreFld c (Reg.CORE_FT_THREAD.OUTSTANDING t.thread), coreFld c (Reg.CORE_FT_THREAD.REISSUE t.thread),
           coreFld c (Thread.PENDING t.thread), coreFld c Core.FT_TAG] ++ but)

/-! ### The schedule -/

/-- A core's own fields of the issue of a word. -/
def issueFlds (c : CoreRef) : List (Nat × Fld) :=
  [coreFld c Reg.CORE_SCHED_STATUS.STATE, coreFld c Reg.CORE_SCHED_STATUS.SLIP_CAUSE, coreFld c Core.BRK_PASS,
   coreFld c Reg.CORE_SCHED_STATUS.ADDR, coreFld c Reg.CORE_ISSUE_COUNT.COUNT]

/-- A core runs or slips, no stop, step, pause or breakpoint is pending, its next word is not the last one, and nothing that it has
issued is still under way. -/
def State.coreRuns (s : State) (c : CoreRef) : Prop :=
  c.wf = true ∧ (s.cget c Reg.CORE_SCHED_STATUS.STATE = 1 ∨ s.cget c Reg.CORE_SCHED_STATUS.STATE = 2) ∧ s.cget c Core.STOPPING = 0
    ∧ s.cget c Core.PAST = 0 ∧ s.cget c Reg.CORE_SCHED_CTL.BREAK_EN = 0 ∧ s.cget c Core.STEPPING = 0
    ∧ s.cget c Reg.CORE_SCHED_STATUS.ADDR < 2047 ∧ s.openLoops c ≤ 4 ∧ s.cget c (Core.CH_BUSY 0) = 0 ∧ s.cget c (Core.CH_BUSY 1) = 0
    ∧ s.cget c Reg.CORE_MX_STATUS.OCC_LEFT = 0 ∧ s.cget c Reg.CORE_VX_STATUS.OCC_LEFT = 0 ∧ (∀ b ∈ s.beats, b.owner ≠ c)
    ∧ (∀ u ∈ s.flights, u.owner ≠ c) ∧ s.pausePending c.site = false

/-- No open loop of a core ends at a word. -/
def State.noLoopEnds (s : State) (c : CoreRef) (a : Nat) : Prop :=
  s.openLoops c = 0 ∨ s.cget c (Reg.CORE_LOOP_STATE.END (s.openLoops c - 1)) ≠ a

/-- A core runs, and no open loop ends at its next word. -/
def State.coreReady (s : State) (c : CoreRef) : Prop := s.coreRuns c ∧ s.noLoopEnds c (s.cget c Reg.CORE_SCHED_STATUS.ADDR)

/-- The address of a core's next word. -/
def State.wordAddr (s : State) (c : CoreRef) : Nat := s.cget c Reg.CORE_SCHED_STATUS.ADDR

/-- In `u` the core has issued its word and goes on at `addr` (R28); of the fields only those of the issue and the listed ones differ. -/
def State.coreGoesOn (s u : State) (c : CoreRef) (addr : Nat) (but : List (Nat × Fld)) : Prop :=
  u.cget c Reg.CORE_SCHED_STATUS.STATE = 1 ∧ u.cget c Reg.CORE_SCHED_STATUS.SLIP_CAUSE = 0 ∧ u.wordAddr c = addr
    ∧ u.cget c Reg.CORE_ISSUE_COUNT.COUNT = min (s.cget c Reg.CORE_ISSUE_COUNT.COUNT + 1) (2 ^ 48 - 1)
    ∧ s.sameFields u (issueFlds c ++ but)

/-- As `coreGoesOn`, and nothing but fields differs. -/
def State.wordIssued (s u : State) (c : CoreRef) (addr : Nat) (but : List (Nat × Fld)) : Prop :=
  s.coreGoesOn u c addr but ∧ u = { s with fld := u.fld }

/-- In `u` the core's word has slipped for a cycle (R48): it is due again, with the cause and the port of its wait. -/
def State.wordSlipped (s u : State) (c : CoreRef) (cause port : Nat) (but : List (Nat × Fld)) : Prop :=
  u.cget c Reg.CORE_SCHED_STATUS.STATE = 2 ∧ u.cget c Reg.CORE_SCHED_STATUS.SLIP_CAUSE = cause ∧ u.cget c Core.WAITPORT = port
    ∧ u.cget c Reg.CORE_SLIP_WAIT.COUNT = min (s.cget c Reg.CORE_SLIP_WAIT.COUNT + 1) (2 ^ 48 - 1)
    ∧ s.onlyFields u ([coreFld c Reg.CORE_SCHED_STATUS.STATE, coreFld c Reg.CORE_SCHED_STATUS.SLIP_CAUSE, coreFld c Core.WAITPORT,
        coreFld c Reg.CORE_SLIP_WAIT.COUNT] ++ but)

/-- In `u` the core has taken a schedule fault at its word (R63). -/
def State.wordFaulted (s u : State) (c : CoreRef) (code : Nat) : Prop :=
  u.cget c Reg.CORE_SCHED_STATUS.STATE = 6 ∧ u.cget c Reg.CORE_SCHED_STATUS.FAULT_CODE = code ∧ u.wordAddr c = s.wordAddr c
    ∧ u.get c.site Reg.DIE_NOTICE.RAISED = min (s.get c.site Reg.DIE_NOTICE.RAISED + 1) (2 ^ 32 - 1)
    ∧ (s.flag c.site Reg.DIE_SIDEBAND.MEMBER = true →
        (u.get panelSite Reg.SQD_LINES.WHISTLE).testBit (s.get c.site Reg.DIE_SIDEBAND.SQUAD) = true)
    ∧ s.sameMemory u ∧ u.queues = s.queues

/-- A slot's guard is in order and true (R32). -/
def State.slotLive (s : State) (c : CoreRef) (v : Nat) : Prop := badGuard v = false ∧ s.live c v = true

/-- The slots that write a predicate (R41): each with its predicate, the value, and whether its fields are in order. -/
def predicateSlots (s : State) (c : CoreRef) (w : BitVec 24) : List (Instr × Nat × Bool × Prop) :=
  let b (hi lo : Nat) : Nat := bitsOf w.toNat hi lo
  let p (i : Nat) : Bool := s.cflag c (Reg.CORE_PRED.P i)
  let i := s.iteration c (b 15 14)
  let left := s.cget c (Reg.CORE_LOOP_STATE.LEFT (b 15 14))
  [(.pset c w, b 13 10, b 14 14 == 1, b 23 15 = 0),
   (.ploop c w, b 13 10,
      (b 18 16 == 0 && i == 0) || (b 18 16 == 1 && left == 0) || (b 18 16 == 2 && i != 0) || (b 18 16 == 3 && left != 0)
        || (b 18 16 == 4 && i % 2 == 0) || (b 18 16 == 5 && i % 2 == 1),
      b 23 19 = 0 ∧ b 18 16 ≤ 5 ∧ b 15 14 < s.openLoops c),
   (.plogic c w, b 13 10,
      (b 23 22 == 0 && p (b 17 14) && p (b 21 18)) || (b 23 22 == 1 && (p (b 17 14) || p (b 21 18)))
        || (b 23 22 == 2 && p (b 17 14) != p (b 21 18)) || (b 23 22 == 3 && p (b 17 14) && !p (b 21 18)), True)]

/-- The slots of the predicate/loop, wait/huddle and queue-port fields with no bit that is reserved for every value of the rest (R41, R44,
R56): each with its bits. -/
def plainSlots (c : CoreRef) (w : BitVec 24) (q : BitVec 32) : List (Instr × Nat × Prop) :=
  let b (hi lo : Nat) : Nat := bitsOf w.toNat hi lo
  let port := bitsOf q.toNat 31 30 = 0 ∧ bitsOf q.toNat 29 20 = 0
  [(.pset c w, w.toNat, b 23 15 = 0), (.ploop c w, w.toNat, b 23 19 = 0 ∧ b 18 16 ≤ 5), (.plogic c w, w.toNat, True),
   (.ldcnt c w, w.toNat, b 23 17 = 0), (.endSched c w, w.toNat, b 23 10 = 0), (.counterWait c w, w.toNat, True),
   (.queueWait c w, w.toNat, b 19 18 ≠ 3), (.arriveAndWait c w, w.toNat, b 23 14 = 0), (.arriveOnly c w, w.toNat, b 23 14 = 0),
   (.waitOnly c w, w.toNat, b 23 14 = 0), (.push c q, q.toNat, bitsOf q.toNat 31 30 = 0), (.pop c q, q.toNat, bitsOf q.toNat 31 30 = 0),
   (.openPkt c q, q.toNat, port), (.closePkt c q, q.toNat, port), (.markQ c q, q.toNat, port), (.rewindQ c q, q.toNat, port),
   (.releaseQ c q, q.toNat, port)]

/-- A loop descriptor is in order for a `LOOP` at word `a` (R37, R38): nothing reserved is set, and its END lies after `a` and within every
open loop. -/
def State.loopLegal (s : State) (c : CoreRef) (d a : Nat) : Prop :=
  bitsOf d 63 39 = 0 ∧ (d.testBit 24 = true → bitsOf d 23 0 = 0) ∧ (d.testBit 24 = false → bitsOf d 27 25 = 0) ∧ a + 1 ≤ bitsOf d 38 28
    ∧ ∀ l < s.openLoops c, bitsOf d 38 28 ≤ s.cget c (Reg.CORE_LOOP_STATE.END l)

/-- The fields of a core's loop level. -/
def loopFlds (c : CoreRef) (l : Nat) : List (Nat × Fld) :=
  [coreFld c (Reg.CORE_LOOP_STATE.LEFT l), coreFld c (Reg.CORE_LOOP_STATE.START l), coreFld c (Reg.CORE_LOOP_STATE.END l),
   coreFld c (Reg.CORE_LOOP_STATE.OPEN l), coreFld c (Core.LOOPCOUNT l), coreFld c Reg.CORE_SCHED_STATUS.OPEN_LOOPS]

/-! ### Moves, queue ports and engines -/

/-- The fields of a move channel and of a descriptor's working addresses. -/
def moveFlds (c : CoreRef) (ch n : Nat) : List (Nat × Fld) :=
  [coreFld c (Core.CH_BUSY ch), coreFld c (Core.CH_SUSP ch), coreFld c (Core.CH_DESC ch), coreFld c (Core.CH_COUNTER ch),
   coreFld c (Core.CH_COUNT_EN ch), coreFld c (Core.CH_FILL ch), coreFld c (Core.CH_BEAT ch), coreFld c (Core.CH_ROWS ch),
   coreFld c (Core.CH_SRC ch), coreFld c (Core.CH_DST ch), coreFld c (Core.CH_WORD ch), coreFld c (Core.CH_ORDER ch),
   coreFld c (Core.MOVE_SRC n), coreFld c (Core.MOVE_DST n)]

/-- The fields that the cluster memories' arbitration writes (R156, R157). -/
def bankFlds (c : CoreRef) (q : CluRef) : List (Nat × Fld) :=
  coreFld c Reg.CORE_SLIP_BANK.COUNT :: (List.range 64).map fun b => cluFld q (Clu.BANK_PTR b)

/-- A move descriptor is in order, and its extents lie in their spaces (R54, R55). -/
def State.moveLegal (s : State) (c : CoreRef) (n : Nat) : Prop :=
  let d := s.moveDesc c n
  let src := moveExtent (s.cget c (Core.MOVE_SRC n)) d.srcStride d.rows d.beats
  let dst := moveExtent (s.cget c (Core.MOVE_DST n)) d.dstStride d.rows d.beats
  d.reserved = 0 ∧ d.srcSpace ≤ 1 ∧ d.beats ≠ 0 ∧ d.rows ≠ 0 ∧ (d.srcOther = true → d.srcSpace = 0) ∧ (d.dstOther = true → d.dstSpace = 0)
    ∧ 0 ≤ src.1 ∧ src.2 ≤ moveSpaceSize d.srcSpace ∧ 0 ≤ dst.1 ∧ dst.2 ≤ moveSpaceSize d.dstSpace

/-- No word of a range of a die's memory has an upset bit. -/
def State.noUpsets (s : State) (k n : Nat) : Prop := wordsIn s.sramUpset k n = []

/-- No word of a range of a die's memory has an upset bit or is poisoned. -/
def State.cleanRange (s : State) (k n : Nat) : Prop := s.noUpsets k n ∧ wordsIn s.sramPoison k n = []

/-- Every byte of the dies' memories outside `[k, k + n)` reads in `u` as in `s`, and HBM is the same. -/
def State.sameBytesBut (s u : State) (k n : Nat) : Prop :=
  (∀ a, (a < k ∨ k + n ≤ a) → mapGet 0 u.sram a = mapGet 0 s.sram a) ∧ u.hbm = s.hbm ∧ u.hbmPoison = s.hbmPoison
    ∧ u.hbmUpset = s.hbmUpset

/-- A queue port of a core that may be used: enabled, the core's own, of the kind, and, where it is local, its queue is not in SWEEP and its
pointers and the pool's free list are sound (R173, R198). -/
def State.qportOk (s : State) (c : CoreRef) (port kind : Nat) : Prop :=
  let q := cluOf c
  let n := s.portQueue c port
  s.pget c Reg.CLU_QPORT.EN port = 1 ∧ s.pget c Reg.CLU_QPORT.OWNER port = inCluster c ∧ s.pget c Reg.CLU_QPORT.KIND port = kind
    ∧ s.qget q Reg.CLU_QPOOL.FL_BROKEN = 0 ∧ s.qget q Clu.FL_MISMATCH = 0
    ∧ (kind < 2 → s.qget q (Reg.CLU_QSTATE.STATE n) = 1 ∧ (s.queue q n).mismatch = 0)

/-- In `u` queue `n` of the cluster is `x`, and every other queue is as in `s`. -/
def State.onlyQueue (s u : State) (q : CluRef) (n : Nat) (x : QueueSt) : Prop :=
  u.queues = mapSet QueueSt.empty s.queues (queueKey q n) x

/-- The number of the lowest free cell of a cluster's pool (log entry 16). -/
def State.freeCell (s : State) (q : CluRef) : Nat := firstFree (s.usedCells q).length 0 (s.usedCells q)

/-- A matrix slot's word issues: no slot of it is reserved, and the operation's own checks pass (R117). -/
def State.mxLegal (s : State) (c : CoreRef) (w : BitVec 64) (op : Nat) : Prop :=
  let v := withField w.toNat 9 6 op
  s.slotLive c w.toNat ∧ mxStatic v = [] ∧ mxDynamic s c v = []

/-- The fields an operation of the matrix engine writes: its occupancy, its slot's bookkeeping, and the status bits. -/
def mxFlds (c : CoreRef) (slot : Nat) : List (Nat × Fld) :=
  [coreFld c Reg.CORE_MX_STATUS.OCC_LEFT, coreFld c Reg.CORE_MX_STATUS.BUSY, coreFld c Core.MX_DRAIN,
   coreFld c (Reg.CORE_MX_SLOT_POISON.POISON slot), coreFld c (Reg.CORE_MX_SLOT_SHAPE.SHAPE slot), coreFld c Reg.CORE_MX_STATUS.OVERFLOW,
   coreFld c Reg.CORE_MX_STATUS.INVALID, coreFld c Reg.CORE_MX_STATUS.NAN_INPUT]

/-- The fields a pass writes whatever it computes: its occupancy, its counts, the claimed random numbers, the working addresses of its
descriptors, and the status bits (R90, R121, R139, R145). -/
def vxFlds (c : CoreRef) (i : VInstr) : List (Nat × Fld) :=
  [coreFld c Reg.CORE_VX_STATUS.OCC_LEFT, coreFld c Reg.CORE_VX_STATUS.BUSY, coreFld c Reg.CORE_VX_COUNTS.RUNS,
   coreFld c Reg.CORE_VX_COUNTS.POPS, coreFld c Core.FTQ_HEAD, coreFld c Reg.CORE_MX_STATUS.FTQ_COUNT, coreFld c Reg.CORE_SR_COUNT.COUNT,
   coreFld c Reg.CORE_VX_STATUS.OVERFLOW, coreFld c Reg.CORE_VX_STATUS.INVALID, coreFld c Reg.CORE_VX_STATUS.DIV_ZERO,
   coreFld c Reg.CORE_CONV_STATUS.OVERFLOW, coreFld c Reg.CORE_CONV_STATUS.NAN_ZERO, coreFld c Reg.CORE_CONV_STATUS.NAN_BLOCK,
   coreFld c Reg.CORE_CONV_STATUS.DECODE_INF]
    ++ [i.xd, i.yd, i.dd, i.rd].flatMap fun n => [coreFld c (Reg.CORE_VX_WBASE.BASE n), coreFld c (Reg.CORE_VX_WBASE.SIDE n)]

/-- No command, substitution, fence, reset or tamper scrub waits for a squad. -/
def State.settled (s : State) : Prop :=
  s.deferred = [] ∧ s.substs = [] ∧ s.ownFences = [] ∧ s.resetBusy = false ∧ s.get panelSite Sec.TAMPER_STEP = 0


/-! ### Hubs -/

/-- The reply to a hub request (R242). -/
def hubRep (r : HubReq) (status : Nat) (data : List Byte) (poison : BitVec 32) : HubRep :=
  { status := status, epoch := r.epoch, dpanel := r.spanel, dsite := r.ssite, dunit := r.sunit, tag := r.tag, opid := r.opid, poison := poison,
    data := data }

/-- Where the bytes of an HBM local address stand at its stack (R238). -/
def State.hbmAt (s : State) (a : Nat) : Nat := hbmKey (s.resolve a).1 (s.resolve a).2

/-- A stack serves requests for the `n` bytes at address `a` of its own panel: they are in HBM and in the stack, which does not scrub, whose
channel is ACTIVE, and which keeps no request back; no check symbol of the sectors is in error (R231, R235, R241, R243). -/
def State.hubServes (s : State) (stack : Nat) (r : HubReq) (n : Nat) : Prop :=
  let a := r.addr % 2 ^ 44
  stack < 64 ∧ r.wf = true ∧ r.reserved = 0 ∧ r.addr / 2 ^ 44 = s.ownPanel ∧ a + n ≤ 2 ^ 42 ∧ (s.resolve a).1 = stack
    ∧ s.scrubbing stack = false ∧ s.channelState stack (s.resolve a).2 = 0 ∧ s.hubBlocked stack = false
    ∧ sectorsIn s.hbmUpset (s.hbmAt a) n = []

/-- `t` is `s` without the request on its way, with one reply more. -/
def State.answeredBy (s t : State) (q : HubReq) (m : HubRep) : Prop :=
  t.hubReqs = dropFirst (· == q) s.hubReqs ∧ t.hubReps = s.hubReps ++ [m]

/-- In `u` the bytes `bs`, with their poison, stand at `k` of the stacks: a sector is poisoned if a poisoned byte was written to it, or if it
was and was not wholly covered (R232). Every other byte reads as in `s`. -/
def State.hbmWritten (s u : State) (k : Nat) (bs : List Byte) (pois : Nat → Bool) : Prop :=
  let n := bs.length
  (∀ i < n, mapGet 0 u.hbm (k + i) = bs.getD i 0)
    ∧ (∀ a, (a < k ∨ k + n ≤ a) → mapGet 0 u.hbm a = mapGet 0 s.hbm a)
    ∧ ∀ q, (mapGet 0 u.hbmPoison q = 1 ↔
        (∃ i < n, (k + i) / 32 = q ∧ pois i = true) ∨ (mapGet 0 s.hbmPoison q = 1 ∧ ¬ (k ≤ 32 * q ∧ 32 * q + 32 ≤ k + n)))

/-- What an atomic finds at its hub: no window or entry stands against it, its hub accepts, and its sector is not poisoned (R243, R252). -/
def State.hubAccepts (s : State) (stack : Nat) (q : HubReq) (k n : Nat) : Prop :=
  s.flag (siteOfStack stack) Reg.HUB_CTL.ACCEPT_ATOM = true ∧ s.windowFree stack q = true ∧ s.dedupEntry stack q = none
    ∧ sectorsIn s.hbmPoison k n = []

/-- In `u` the operation has an entry, performed with this result (R251). -/
def State.entered (u : State) (stack : Nat) (q : HubReq) (data : List Byte) : Prop :=
  ∃ w ∈ u.dedup, w.is stack q.spanel = true ∧ w.entries.getLast? = some ⟨q.opid, q.epoch, true, data, []⟩

/-! ### Mesh, ports and the control die's replies -/

/-- Nothing waits at a router, and nothing it has handed over is for a port unit. -/
def State.meshQuiet (s : State) (site : Nat) : Prop :=
  (∀ h ∈ s.held, h.site ≠ site) ∧ (∀ w ∈ s.meshWait, w.site ≠ site) ∧ (∀ d ∈ s.delivered, forPort d = false)

/-- The fields a router writes when it passes a packet of a class from an input to an output (R272). -/
def passFlds (site out cls : Nat) : List (Nat × Fld) :=
  [(site, Mesh.GROUP), (site, Mesh.ARB_CLASS out), (site, Mesh.ARB_LANE out cls), (site, Mesh.ARB_PORT out cls 0), (site, Mesh.ARB_PORT out cls 1),
   (site, Reg.MESH_FWD.COUNT cls)]

/-- What a port writes when it sends frames (R299, R300). -/
def sendFlds (port : Nat) : List (Nat × Fld) :=
  (siteOfPort port, Reg.PORT_SEQ.TX_NEXT) :: (List.range 5).map fun vc => (siteOfPort port, Port.TX_WORDS vc)

/-- The final reply of a deferred command. -/
def finalReply (d : Deferred) (status : Nat) (words : List Nat) : Reply :=
  ⟨d.port, d.opcode, d.tag, d.seq, status, true, words, d.dpanel, d.hostcmd⟩

/-- An outstanding command of a port that can send, of no teamcast (R358, R366). -/
def State.canEnd (s : State) (d : Deferred) : Prop :=
  d.port < 8 ∧ d.hostcmd = false ∧ s.portMute d.port = false

/-- In `t` the outstanding command has ended with its final reply (R359). -/
def State.cmdEnded (s t : State) (d : Deferred) (status : Nat) (words : List Nat) : Prop :=
  t.deferred = dropFirst (fun e => e.same d) s.deferred ∧ t.replies = s.replies ++ [finalReply d status words]

/-- What the end of a command writes: the count of outstanding commands, and what its port sends. -/
def endFlds (d : Deferred) : List (Nat × Fld) := panelFld Reg.CTL_CMD_STATUS.OUTSTANDING :: sendFlds d.port

/-- What driving a line writes: the line, and the cause and source that its squads keep (R335, R337). -/
def lineFlds (line : Nat) : List (Nat × Fld) :=
  panelFld Reg.SQD_LINES.WHISTLE :: (squadsOfLine line).flatMap fun n =>
    [panelFld (Reg.SQD_STATUS.CAUSE n), panelFld (Reg.SQD_STATUS.SOURCE n), panelFld (Reg.SQD_STATUS.SITE n)]

/-- The fields that raising a notice writes. -/
def noticeFlds (site : Nat) : List (Nat × Fld) :=
  [(site, Reg.DIE_NOTICE.RAISED), (site, Reg.DIE_NOTICE.BUFFERED), (site, Reg.DIE_NOTICE.LOST), (site, Die.LOSS)]

/-! ### Ports -/

/-- A port that takes new traffic and has nothing of its own waiting: no frame to be sent or held ahead of a missing one, no replay under way, and no
data window. -/
def State.portCalm (s : State) (port : Nat) : Prop :=
  port < 8 ∧ s.portUsable port = true ∧ s.jget port Port.REPLAYING = 0 ∧ (∀ t ∈ s.txFrames, t.port = port → t.sent = true)
    ∧ (∀ r ∈ s.rxFrames, r.port ≠ port) ∧ (∀ w ∈ s.windows, w.ports.contains port = false)

/-- The frame that the port expects, whole, for this panel, on a lane in use (R295, R300, R301). -/
def State.frameExpected (s : State) (port lane : Nat) (f : Frame) : Prop :=
  f.ok = true ∧ f.typ = 1 ∧ 1 ≤ f.plen ∧ f.plen ≤ 512 ∧ lane < 64 ∧ f.seq = s.jget port Port.RX_NEXT ∧ f.ack = s.jget port Reg.PORT_SEQ.TX_ACKED
    ∧ (lanesOf (s.jget port Reg.PORT_STATUS.RX_SETS)).contains lane = true ∧ s.jget port Port.RX_LOSS = 0
    ∧ seqLe f.ack ((s.jget port Reg.PORT_SEQ.TX_NEXT + 2 ^ 32 - 1) % 2 ^ 32) = true
    ∧ (∀ t ∈ s.txFrames, t.port ≠ port) ∧ s.flag panelSite Panel.NUMBER_SET = true
    ∧ s.get (siteOfPort port) Reg.MESH_CTL.TIMEOUT = 0

/-- What accepting a frame writes: the next SEQ, and the words its virtual channel has freed (R299, R300). -/
def State.acceptWrites (s : State) (port : Nat) (f : Frame) : List (Nat × Fld × Nat) :=
  [(siteOfPort port, Port.RX_NEXT, (f.seq + 1) % 2 ^ 32),
   (siteOfPort port, Port.FREED f.vc, (s.jget port (Port.FREED f.vc) + 1 + (f.plen + 31) / 32) % 2 ^ 32)]

/-- A CTRL frame as the port sends it: ACK is the last frame accepted (R296, R299). -/
def State.ctrlOf (s : State) (port : Nat) (nak : Bool) : Nat × PortMsg :=
  (port, .ctrl ((s.jget port Port.RX_NEXT + 2 ^ 32 - 1) % 2 ^ 32) nak ((List.range 5).map fun vc => s.jget port (Port.FREED vc)))

/-- What sending a CTRL frame writes. -/
def State.ctrlWrites (s : State) (port : Nat) : List (Nat × Fld × Nat) :=
  (List.range 5).map fun vc => (siteOfPort port, Port.FREED_SENT vc, s.jget port (Port.FREED vc))

/-! ### Host commands -/

/-- A command from the host port that nothing turns away before its own conditions (R357 to R361): whole and in sequence, of `len` parameter
bytes, on a panel whose bring-up is done, not in `END`, RECOVERY or a thermal hold, with no other command outstanding. -/
def State.takes (s : State) (h : CmdHdr) (len : Nat) : Prop :=
  (h.port < 8 ∧ h.bridged = false ∧ h.reserved = 0 ∧ h.length = len ∧ h.received = len ∧ len % 8 = 0 ∧ len ≤ 4096)
    ∧ h.seq < 2 ^ 32
    ∧ (s.flag panelSite (Reg.CTL_CMD_PORT.SEQ_VALID h.port) = true →
        h.seq = (s.get panelSite (Reg.CTL_CMD_PORT.LAST_SEQ h.port) + 1) % 2 ^ 32)
    ∧ s.hostPort h.port = true ∧ s.portMute h.port = false ∧ s.controlDead = false
    ∧ s.get panelSite Reg.SEC_STATUS.LCS ≠ 4 ∧ s.get panelSite Reg.CTL_BOOT.STAGE = 7 ∧ s.holding = false
    ∧ s.deferred = [] ∧ s.immediates = [] ∧ s.teamcasts = [] ∧ s.timeout = none

/-- What taking a command and replying to it write: sequencing, the stored replies, the counts, and what the port sends. -/
def cmdFlds (h : CmdHdr) : List (Nat × Fld) :=
  [panelFld (Reg.CTL_CMD_PORT.LAST_SEQ h.port), panelFld (Reg.CTL_CMD_PORT.SEQ_VALID h.port), panelFld (Reg.CTL_CMD_PORT.STORED h.port),
    panelFld Reg.CTL_CMD_STATUS.COMMANDS, panelFld Reg.CTL_CMD_STATUS.OUTSTANDING] ++ sendFlds h.port

/-- In `u` the command has been executed (R358, R374): its SEQ is the last one taken, it is counted, and its reply is stored and sent. -/
def State.tookCmd (s u : State) (h : CmdHdr) (r : Reply) : Prop :=
  u.get panelSite (Reg.CTL_CMD_PORT.LAST_SEQ h.port) = h.seq ∧ u.flag panelSite (Reg.CTL_CMD_PORT.SEQ_VALID h.port) = true
    ∧ u.get panelSite Reg.CTL_CMD_STATUS.COMMANDS = (s.counted panelSite Reg.CTL_CMD_STATUS.COMMANDS).2.2
    ∧ u.replies = s.replies ++ [r] ∧ u.stored.getLast? = some r

/-- In `u` the command has been answered at once (R359), with only the listed fields changed besides. -/
def State.answered (s u : State) (h : CmdHdr) (op status : Nat) (words : List Nat) (ws : List (Nat × Fld × Nat)) : Prop :=
  u = { s with
      fld := u.fld, arrived := (s.takePacket h op).arrived, stored := u.stored, txFrames := u.txFrames, fresh := u.fresh
      replies := u.replies }
    ∧ s.tookCmd u h (replyTo h op status true words) ∧ (∀ w ∈ ws, u.get w.1 w.2.1 = w.2.2)
    ∧ s.sameFields u (cmdFlds h ++ ws.map fun w => (w.1, w.2.1))

/-- In `u` the command has been accepted (R359): it is the one outstanding, its reply `ACCEPTED`, with only the listed fields changed besides. -/
def State.accepted (s u : State) (h : CmdHdr) (op : Nat) (cmd : Instr) (words : List Nat) (ws : List (Nat × Fld × Nat)) : Prop :=
  u = { s with
      fld := u.fld, arrived := (s.takePacket h op).arrived, stored := u.stored, txFrames := u.txFrames, fresh := u.fresh
      replies := u.replies, deferred := u.deferred }
    ∧ s.tookCmd u h (replyTo h op St.ACCEPTED false words)
    ∧ (∃ d, u.deferred = [d] ∧ d.port = h.port ∧ d.opcode = op ∧ d.tag = h.tag ∧ d.seq = h.seq ∧ d.cmd = cmd)
    ∧ u.get panelSite Reg.CTL_CMD_STATUS.OUTSTANDING = 1
    ∧ (∀ w ∈ ws, u.get w.1 w.2.1 = w.2.2) ∧ s.sameFields u (cmdFlds h ++ ws.map fun w => (w.1, w.2.1))

/-- The state in which a command's effect starts: its packet has been taken, and it counts as executed (R358). -/
def State.cmdState (s : State) (h : CmdHdr) (op : Nat) : State := (s.takePacket h op).executed h

/-- A register that a command reads without condition: it can be reached, its die is not fenced, and it is not one that only debug mode reads. -/
def State.readable (s : State) (a : Nat) : Prop :=
  csrOk a = true ∧ debugRead s.controlSite a = false ∧ s.regFenced a = none ∧ s.reachable (csrSite a) = true

/-- What the control die sets when it shares out power: the cap in force, panel power, the blocks' budgets and the dies' (R418, R419). -/
def budgetFlds : List (Nat × Fld) :=
  [panelFld Reg.PWR_PANEL.IN_FORCE, panelFld Reg.PWR_PANEL.POWER] ++ ((List.range 16).map fun b => panelFld (Reg.PWR_BLOCK.BUDGET b))
    ++ computeSites.map fun k => (k, Reg.PWR_DIE_BUDGET.BUDGET)

/-- In `u` the command has been accepted and has ended at once (R359): its two replies, and only the listed fields changed besides. -/
def State.acceptedEnded (s u : State) (h : CmdHdr) (op : Nat) (first : List Nat) (status : Nat) (words : List Nat)
    (ws : List (Nat × Fld × Nat)) : Prop :=
  u = { s with
      fld := u.fld, arrived := (s.takePacket h op).arrived, stored := u.stored, txFrames := u.txFrames, fresh := u.fresh
      replies := s.replies ++ [replyTo h op St.ACCEPTED false first, replyTo h op status true words] }
    ∧ u.stored.getLast? = some (replyTo h op status true words)
    ∧ u.get panelSite (Reg.CTL_CMD_PORT.LAST_SEQ h.port) = h.seq ∧ u.get panelSite Reg.CTL_CMD_STATUS.OUTSTANDING = 0
    ∧ (∀ w ∈ ws, u.get w.1 w.2.1 = w.2.2) ∧ s.sameFields u (cmdFlds h ++ ws.map fun w => (w.1, w.2.1))

/-- What starting or resuming a squad writes: its state and counts, its dies' shot clocks, and the states of their cores and threads. -/
def State.startFlds (s : State) (n : Nat) : List (Nat × Fld) :=
  [panelFld (Reg.SQD_STATUS.STATE n), panelFld (Reg.SQD_COUNTS.KICKOFFS n), panelFld Reg.SQD_PANEL.HBM_CLEAN]
    ++ (s.squadSites n).flatMap fun k => [(k, Reg.DIE_SHOT.COUNT), (k, Reg.DIE_SHOT.RUN)] ++ (coresOf k).flatMap fun c =>
      [coreFld c Reg.CORE_SCHED_STATUS.STATE, coreFld c Core.FT_STOP, coreFld c Reg.CORE_FT_UNIT.RUNNING, coreFld c (Core.CH_SUSP 0),
        coreFld c (Core.CH_SUSP 1)]
        ++ (threadsOf c).flatMap fun t =>
          [coreFld c (Reg.CORE_FT_THREAD.STATE t.thread), coreFld c (Reg.CORE_FT_THREAD.PC t.thread)]

/-- The listed fields with what they hold in `u`. -/
def State.asIn (u : State) (fs : List (Nat × Fld)) : List (Nat × Fld × Nat) := fs.map fun e => (e.1, e.2, u.get e.1 e.2)

/-- What driving a line for a cause of the control die writes: the line, and the cause of each of its squads that runs or is loaded and has none
(R335, R337). -/
def State.whistled (s : State) (line cause : Nat) : List (Nat × Fld × Nat) :=
  (panelSite, Reg.SQD_LINES.WHISTLE, s.get panelSite Reg.SQD_LINES.WHISTLE ||| 2 ^ line) ::
    (squadsOfLine line).flatMap fun n =>
      if (s.squadState n = Squad.RUNNING ∨ s.squadState n = Squad.LOADED) ∧ s.get panelSite (Reg.SQD_STATUS.CAUSE n) = 0 then
        [(panelSite, Reg.SQD_STATUS.CAUSE n, cause), (panelSite, Reg.SQD_STATUS.SOURCE n, 2), (panelSite, Reg.SQD_STATUS.SITE n, 0)] else []
end Sys2Proof.Machine
end

