-- ==== Sys2Proof/Certificates/Slice0/Obligations.lean ====
section
/-! DEFINITION. The statements for the provers, family by family. Each docstring names the rules of spec/ it formalises. -/

open Sys2Proof Sys2Proof.Machine

/-! ### The machine -/

/-- A step runs the command at the front of the queue on the state with the queue's rest. With no command waiting the panel idles: the model's
choice (log entry 2). -/
def Obligations.StepTakesTheFrontCommand : Prop :=
  (∀ (s : State) (c : Instr) (rest : List Instr), s.pending = c :: rest → step s = exec c { s with pending := rest })
  ∧ (∀ s : State, s.pending = [] → step s = .next s)

/-- Every command ends in a next state, and leaves the queue of waiting commands as it is. -/
def Obligations.EveryCommandCompletesAndLeavesQueue : Prop :=
  ∀ (c : Instr) (s : State), ∃ t, exec c s = .next t ∧ t.pending = s.pending

/-- Every step keeps the maps of the panel in order and its memories, with their poison and upset marks, in canonical form. -/
def Obligations.EveryStepKeepsCanonicalForm : Prop :=
  ∀ s t : State, s.canonical = true → step s = .next t → t.canonical = true

/-- The state after reset is canonical, has no command waiting, and holds nothing in its memories. -/
def Obligations.ResetIsCanonical : Prop :=
  State.reset.canonical = true ∧ State.reset.pending = [] ∧ State.reset.sram = [] ∧ State.reset.hbm = []

/-- `RESET_N` sets every field that is not fused back to its reset value (R8); fuses keep theirs (R457), and so do the cells of HBM and the
boot flash (log entry 62). -/
def Obligations.ResetNRestoresEveryField : Prop :=
  ∀ (s : State) (site : Nat) (f : Fld), s.canonical = true →
    ∃ t, exec .resetNAssert s = .next t
      ∧ t.get site f = (if isFuse (fldKey site f) then s.get site f else f.reset % 2 ^ f.width)
      ∧ t.sram = [] ∧ t.queues = [] ∧ t.deferred = [] ∧ t.noticeQueue = [] ∧ t.hbm = s.hbm ∧ t.flash = s.flash

/-! ### Fetch threads (08_fetch_threads) -/

/-- The arithmetic instructions write D modulo 2^64, with the OR of the POISON bits of their register sources, and the thread goes on with the
next word (R206, R208). Nothing else changes. -/
def Obligations.ThreadArithmeticWritesOneRegister : Prop :=
  ∀ (s : State) (t : ThreadRef) (w : BitVec 32), s.canonical = true → s.threadReady t →
    ∀ e ∈ arithmetic s t w, e.2.2.2 = 0 →
      let d := fbits w 25 22
      ∃ u, exec e.1 s = .next u ∧ u.greg t d = e.2.1 % 2 ^ 64 ∧ (∀ r < 16, u.gpois t r = if r = d then e.2.2.1 else s.gpois t r)
        ∧ s.threadGoesOn u t (s.tget t Reg.CORE_FT_THREAD.PC + 1)
            [coreFld (coreOfThread t) (Reg.CORE_FT_G.VALUE (t.thread * 16 + d)), coreFld (coreOfThread t) (Reg.CORE_FT_THREAD.POISONED t.thread),
             coreFld (coreOfThread t) (Thread.PENDING t.thread)]
        ∧ u.tget t Thread.PENDING = 0

/-- A branch whose operands are not poisoned goes to its own address plus the sign-extended IMM where it is taken, and to the next word where it is
not (R206, R208); `NOP` goes to the next word. No register is written. `BNZD` subtracts 1 from D and branches if D is then not 0 (R206). A
branch on a poisoned operand is thread fault `0x05` (R217): the thread is FAULTED at its own address, with the code (R226). -/
def Obligations.BranchesSetThePcOrFault : Prop :=
  (∀ (s : State) (t : ThreadRef) (w : BitVec 32), s.canonical = true → s.threadReady t →
    ∀ e ∈ branches s t w, e.2.2.1 = false → e.2.2.2 = 0 →
      let target : Int := s.tget t Reg.CORE_FT_THREAD.PC + signedOf 14 (fbits w 13 0)
      let next : Int := if e.2.1 then target else s.tget t Reg.CORE_FT_THREAD.PC + 1
      0 ≤ next → next ≤ 2047 → ∃ u, exec e.1 s = .next u ∧ s.threadGoesOn u t next.toNat [])
  ∧ (∀ (s : State) (t : ThreadRef) (w : BitVec 32), s.canonical = true → s.threadReady t → fbits w 21 14 = 0 →
    let d := fbits w 25 22
    let v := (s.greg t d + (2 ^ 64 - 1)) % 2 ^ 64
    let target : Int := s.tget t Reg.CORE_FT_THREAD.PC + signedOf 14 (fbits w 13 0)
    let next : Int := if v ≠ 0 then target else s.tget t Reg.CORE_FT_THREAD.PC + 1
    s.gpois t d = false → 0 ≤ next → next ≤ 2047 →
    ∃ u, exec (.bnzd t w) s = .next u ∧ u.greg t d = v ∧ u.gpois t d = false
      ∧ s.threadGoesOn u t next.toNat
          [coreFld (coreOfThread t) (Reg.CORE_FT_G.VALUE (t.thread * 16 + d)), coreFld (coreOfThread t) (Reg.CORE_FT_THREAD.POISONED t.thread),
           coreFld (coreOfThread t) (Thread.PENDING t.thread)])
  ∧ (∀ (s : State) (t : ThreadRef) (w : BitVec 32), s.canonical = true → s.threadReady t →
    ∀ e ∈ branches s t w, e.2.2.1 = true → e.2.2.2 = 0 →
      ∃ u, exec e.1 s = .next u ∧ u.tget t Reg.CORE_FT_THREAD.STATE = Thread.FAULTED ∧ u.tget t Reg.CORE_FT_THREAD.FAULT = 0x05
        ∧ u.tget t Reg.CORE_FT_THREAD.PC = s.tget t Reg.CORE_FT_THREAD.PC ∧ s.sameMemory u
        ∧ u.get t.site Reg.DIE_NOTICE.RAISED = min (s.get t.site Reg.DIE_NOTICE.RAISED + 1) (2 ^ 32 - 1)
        ∧ (s.flag t.site Reg.DIE_SIDEBAND.MEMBER = true →
            (u.get panelSite Reg.SQD_LINES.WHISTLE).testBit (s.get t.site Reg.DIE_SIDEBAND.SQUAD) = true))

/-- `WAITC` holds the thread until its counter has reached A and consumes nothing (R220); `CINC` adds its amount to its counter (R219); an amount of
2^24 or more in A is thread fault `0x07` for both. A `FENCE` of a thread with no request outstanding lets it go on (R222); `STOP` ends the
thread (R204); `STAT` moves FAILS to D (R206). -/
def Obligations.ThreadControlInstructions : Prop :=
  ∀ (s : State) (t : ThreadRef) (w : BitVec 32), s.canonical = true → s.threadReady t →
    let c := coreOfThread t
    let pc := s.tget t Reg.CORE_FT_THREAD.PC
    let a := s.greg t (fbits w 21 18)
    let d := fbits w 25 22
    let n := fbits w 3 0
    let add := if fbits w 4 4 = 1 then a else fbits w 13 5
    (fbits w 25 22 = 0 → fbits w 17 4 = 0 → s.gpois t (fbits w 21 18) = false → a < 2 ^ 24 → a ≤ s.cget c (Reg.CORE_CCOUNT.VALUE n) →
      ∃ u, exec (.waitc t w) s = .next u ∧ s.threadGoesOn u t (pc + 1) [])
    ∧ (fbits w 25 22 = 0 → fbits w 17 4 = 0 → s.gpois t (fbits w 21 18) = false → a < 2 ^ 24 → s.cget c (Reg.CORE_CCOUNT.VALUE n) < a →
      ∃ u, exec (.waitc t w) s = .next u ∧ u.tget t Reg.CORE_FT_THREAD.STATE = Thread.WAIT
        ∧ u.cget c Reg.CORE_FT_UNIT.RUNNING = s.cget c Reg.CORE_FT_UNIT.RUNNING
        ∧ s.onlyFields u [coreFld c (Reg.CORE_FT_THREAD.STATE t.thread), coreFld c Reg.CORE_FT_UNIT.RUNNING])
    ∧ (∀ i ∈ ([(.waitc t w), (.cinc t w)] : List Instr), fbits w 25 22 = 0 → (i = .waitc t w → fbits w 17 4 = 0) →
      (i = .cinc t w → fbits w 17 14 = 0 ∧ fbits w 4 4 = 1) → s.gpois t (fbits w 21 18) = false → 2 ^ 24 ≤ a →
      ∃ u, exec i s = .next u ∧ u.tget t Reg.CORE_FT_THREAD.STATE = Thread.FAULTED ∧ u.tget t Reg.CORE_FT_THREAD.FAULT = 0x07
        ∧ u.tget t Reg.CORE_FT_THREAD.PC = pc ∧ s.sameMemory u)
    ∧ (fbits w 25 2 = 0 → fbits w 1 0 ≠ 3 → (∀ r ∈ s.outstanding, r.owner ≠ t) →
      ∃ u, exec (.fence t w) s = .next u ∧ s.threadGoesOn u t (pc + 1) [])
    ∧ (fbits w 25 0 = 0 →
      ∃ u, exec (.threadStop t w) s = .next u ∧ u.tget t Reg.CORE_FT_THREAD.STATE = Thread.DONE
        ∧ u.cget c Reg.CORE_FT_UNIT.RUNNING = s.cget c Reg.CORE_FT_UNIT.RUNNING - 1
        ∧ s.onlyFields u [coreFld c (Reg.CORE_FT_THREAD.STATE t.thread), coreFld c Reg.CORE_FT_UNIT.RUNNING])
    ∧ (fbits w 21 0 = 0 →
      ∃ u, exec (.stat t w) s = .next u ∧ u.greg t d = s.tget t Reg.CORE_FT_THREAD.FAILS ∧ u.tget t Reg.CORE_FT_THREAD.FAILS = 0
        ∧ u.gpois t d = false
        ∧ s.threadGoesOn u t (pc + 1)
            [coreFld c (Reg.CORE_FT_G.VALUE (t.thread * 16 + d)), coreFld c (Reg.CORE_FT_THREAD.POISONED t.thread),
             coreFld c (Thread.PENDING t.thread), coreFld c (Reg.CORE_FT_THREAD.FAILS t.thread)])
    ∧ (fbits w 25 22 = 0 → fbits w 17 14 = 0 → (fbits w 4 4 = 1 → s.gpois t (fbits w 21 18) = false) → add < 2 ^ 24 →
      s.cget c (Reg.CORE_CCOUNT.VALUE n) + add < 2 ^ 24 →
      ∃ u, exec (.cinc t w) s = .next u ∧ u.cget c (Reg.CORE_CCOUNT.VALUE n) = s.cget c (Reg.CORE_CCOUNT.VALUE n) + add
        ∧ s.threadGoesOn u t (pc + 1) [coreFld c (Reg.CORE_CCOUNT.VALUE n)])

/-- `LDS` reads 8 bytes of the scratchpad into D (R206); a scratchpad `TWALK` reads its table entry there and adds the offset in the page
(R212). The words read are free of errors and poison, and the entry has VALID set. -/
def Obligations.ScratchpadLoadsWriteD : Prop :=
  ∀ (s : State) (t : ThreadRef) (w : BitVec 32), s.canonical = true → s.threadReady t →
    let c := coreOfThread t
    let d := fbits w 25 22
    let a := s.greg t (fbits w 21 18)
    let b := s.greg t (fbits w 17 14)
    let pc := s.tget t Reg.CORE_FT_THREAD.PC
    let clean (k : Nat) : Prop := mapGet 0 s.sramPoison (k / 8) = 0 ∧ mapGet 0 s.sramUpset (k / 8) = 0
    let but := [coreFld c (Reg.CORE_FT_G.VALUE (t.thread * 16 + d)), coreFld c (Reg.CORE_FT_THREAD.POISONED t.thread),
      coreFld c (Thread.PENDING t.thread)]
    (fbits w 17 0 = 0 → s.gpois t (fbits w 21 18) = false → a % 8 = 0 → a + 8 ≤ 1572864 → clean (coreKey c Mem.SP a) →
      ∃ u, exec (.lds t w) s = .next u ∧ u.greg t d = s.rdNat (coreKey c Mem.SP a) 8 ∧ u.gpois t d = false ∧ s.threadGoesOn u t (pc + 1) but)
    ∧ (let ps := fbits w 4 0
       let es := fbits w 9 5
       let e := (a + b / 2 ^ ps * 8) % 2 ^ 64
       let v := s.rdNat (coreKey c Mem.SP e) 8
       fbits w 13 11 = 0 → fbits w 10 10 = 1 → ps ≤ 24 → es ≤ 24 → s.gpois t (fbits w 21 18) = false → s.gpois t (fbits w 17 14) = false →
       e % 8 = 0 → e + 8 ≤ 1572864 → clean (coreKey c Mem.SP e) → v.testBit 63 = true →
       ∃ u, exec (.twalk t w) s = .next u ∧ u.greg t d = (v % 2 ^ 57 + b % 2 ^ ps * 2 ^ es) % 2 ^ 64 ∧ u.gpois t d = false
         ∧ s.threadGoesOn u t (pc + 1) but)

/-- `LD`, `STR`, a memory `TWALK` and `ATOM` send one request each, with the address in the panel's form, and make D PENDING where a value comes
back (R205, R209, R215–R217). `GATHER`, `STORE` and `RED` send one request each: a place for 256 bytes, or 256 bytes of the scratchpad with
their poison (R213, R214). With POSTINC, A then advances by ASTEP × 32 and B by 256 (R207). -/
def Obligations.ThreadRequestsAndMessagesAreSent : Prop :=
  (∀ (s : State) (t : ThreadRef) (w : BitVec 32), s.canonical = true → s.threadReady t → s.room t = true →
    let d := fbits w 25 22
    let a := s.greg t (fbits w 21 18)
    let b := s.greg t (fbits w 17 14)
    let dv := s.reqDesc (coreOfThread t) (fbits w 13 10)
    let n := atomWidth (bitsOf dv 20 17)
    let walk := (a + b / 2 ^ fbits w 4 0 * 8) % 2 ^ 64
    let base := s.blankReq (coreOfThread t)
    let pb : BitVec 32 := if s.gpois t (fbits w 17 14) then 1 else 0
    s.gpois t (fbits w 21 18) = false →
    (fbits w 17 10 = 0 → fbits w 4 0 = 0 → s.addrOk a 8 8 →
      ∃ u, exec (.ld t w) s = .next u ∧ s.requestSent u t { base 1 with addr := s.globalAddr a } (some d) false [])
    ∧ (fbits w 25 22 = 0 → fbits w 13 10 = 0 → fbits w 4 0 = 0 → s.addrOk a 8 8 →
      ∃ u, exec (.str t w) s = .next u ∧ s.requestSent u t { base 3 with addr := s.globalAddr a, data := leBytes 8 b, poison := pb } none
        false [])
    ∧ (fbits w 13 10 = 0 → fbits w 4 0 ≤ 24 → fbits w 9 5 ≤ 24 → s.gpois t (fbits w 17 14) = false → s.addrOk walk 8 8 →
      ∃ u, exec (.twalk t w) s = .next u ∧ s.requestSent u t { base 1 with addr := s.globalAddr walk } (some d) false [])
    ∧ (fbits w 3 0 = 0 → descFault 0x26 (fbits w 13 0) dv = none → (bitsOf dv 20 17 = 9 → s.gpois t d = false) → s.addrOk a n n →
      ∃ u, exec (.atom t w) s = .next u
        ∧ s.requestSent u t { base 4 with
            addr := s.globalAddr a, opid := s.opId (coreOfThread t), param := bitsOf dv 20 17 + (if dv.testBit 21 then 16 else 0),
            data := leBytes 8 (b % 2 ^ (8 * n)) ++ (if bitsOf dv 20 17 = 9 then leBytes 8 (s.greg t d) else []), poison := pb }
            (if dv.testBit 21 then some d else none) true []))
  ∧ (∀ (s : State) (t : ThreadRef) (w : BitVec 32), s.canonical = true → s.threadReady t → s.room t = true →
    let c := coreOfThread t
    let ra := fbits w 21 18
    let rb := fbits w 17 14
    let d := s.greg t (fbits w 25 22)
    let dv := s.reqDesc c (fbits w 13 10)
    let conv := dv.testBit 2
    let key := coreKey c Mem.SP (s.greg t rb)
    let n := if conv then convFootprint dv else 256
    let al := if conv then 1 else 256
    let ord := dv.testBit 24
    let q := { s.blankReq c 5 with addr := s.globalAddr (s.greg t ra), data := s.rd key 256, poison := BitVec.ofNat 32 (s.wordMask key 256) }
    let post := fbits w 4 4 = 1
    let but := if post then [coreFld c (Reg.CORE_FT_G.VALUE (t.thread * 16 + ra)), coreFld c (Reg.CORE_FT_G.VALUE (t.thread * 16 + rb)),
      coreFld c (Reg.CORE_FT_THREAD.POISONED t.thread)] else []
    let regs (u : State) : Prop :=
      u.greg t ra = (if post then (((s.greg t ra : Int) + signedOf 16 (bitsOf dv 47 32) * 32) % 2 ^ 64).toNat else s.greg t ra)
        ∧ u.greg t rb = (if post then (s.greg t rb + 256) % 2 ^ 64 else s.greg t rb) ∧ (∀ r < 16, u.gpois t r = s.gpois t r)
    s.gpois t ra = false → s.gpois t rb = false → ra ≠ rb → fbits w 3 0 = 0 → s.greg t rb % 64 = 0 →
    s.greg t rb + 256 ≤ localSize (bitsOf dv 1 0) → wordsIn s.sramUpset key 256 = [] →
    (fbits w 25 22 = 0 → descFault 0x24 (fbits w 13 0) dv = none → s.addrOk (s.greg t ra) n al →
      ∃ u, exec (.gather t w) s = .next u ∧ regs u
        ∧ s.requestSent u t { q with opc := if conv then 6 else 0, param := if conv then bitsOf dv 12 3 else 0, data := [], poison := 0 } none
            false but
        ∧ (u.outstanding.getLast?.map fun r => (r.lspace, r.laddr)) = some (bitsOf dv 1 0, s.greg t rb))
    ∧ (fbits w 25 22 = 0 → descFault 0x25 (fbits w 13 0) dv = none → s.addrOk (s.greg t ra) n al →
      ∃ u, exec (.storeT t w) s = .next u ∧ regs u
        ∧ s.requestSent u t { q with opc := if conv then 7 else 2, param := if conv then bitsOf dv 16 3 else 0 } none false but)
    ∧ (descFault 0x27 (fbits w 13 0) dv = none → (ord = true → s.gpois t (fbits w 25 22) = false ∧ bitsOf d 63 56 = 0) →
      s.addrOk (s.greg t ra) 256 256 →
      ∃ u, exec (.red t w) s = .next u ∧ regs u
        ∧ s.requestSent u t { q with
            opid := s.opId c, param := bitsOf dv 24 22, order := if ord then bitsOf d 23 0 else 0,
            group := if ord then bitsOf d 55 24 else 0 } none true but))

/-! ### The schedule (02_core_schedule) -/

/-- `PSET`, `PLOOP` and `PLOGIC` write their predicate and nothing else, and the core goes on with the next word (R28, R36, R41). A slot whose
guard is false has no effect: the word issues, and nothing but the core's address and counts changes (R35). -/
def Obligations.PredicateSlotsAndGuards : Prop :=
  (∀ (s : State) (c : CoreRef) (w : BitVec 24), s.canonical = true → s.coreReady c → s.slotLive c w.toNat →
    ∀ e ∈ predicateSlots s c w, e.2.2.2 →
      ∃ u, exec e.1 s = .next u ∧ u.cflag c (Reg.CORE_PRED.P e.2.1) = e.2.2.1
        ∧ s.wordIssued u c (s.wordAddr c + 1) [coreFld c (Reg.CORE_PRED.P e.2.1)])
  ∧ (∀ (s : State) (c : CoreRef) (w : BitVec 24) (q : BitVec 32), s.canonical = true → s.coreReady c →
    ∀ e ∈ plainSlots c w q, e.2.2 → s.live c e.2.1 = false →
      ∃ u, exec e.1 s = .next u ∧ s.wordIssued u c (s.wordAddr c + 1) [])

/-- `LOOP` at the level of the number of open loops opens a loop of n iterations from the next word on; with n = 0 its body does not issue, and the
word after END is next where no loop around it ends there (R37, R38). At the END of the innermost loop the core returns to the first word of
its body while iterations are left, and closes the loop otherwise (R39). -/
def Obligations.LoopsOpenRepeatAndClose : Prop :=
  (∀ (s : State) (c : CoreRef) (w : BitVec 24), s.canonical = true → s.coreReady c → s.slotLive c w.toNat →
    let a := s.wordAddr c
    let l := s.openLoops c
    let d := s.loopDesc c (bitsOf w.toNat 16 12)
    let fin := bitsOf d 38 28
    let n := if d.testBit 24 then s.cget c (Reg.CORE_LOOPCNT.VALUE (bitsOf d 27 25)) else bitsOf d 23 0
    bitsOf w.toNat 23 17 = 0 → bitsOf w.toNat 11 10 = l → l < 4 → s.loopLegal c d a →
    (0 < n → ∃ u, exec (.loop c w) s = .next u ∧ s.wordIssued u c (a + 1) (loopFlds c l) ∧ u.openLoops c = l + 1
      ∧ u.cget c (Reg.CORE_LOOP_STATE.START l) = a + 1 ∧ u.cget c (Reg.CORE_LOOP_STATE.END l) = fin
      ∧ u.cget c (Reg.CORE_LOOP_STATE.LEFT l) = n - 1 ∧ u.cflag c (Reg.CORE_LOOP_STATE.OPEN l) = true)
    ∧ (n = 0 → fin < 2047 → s.noLoopEnds c fin → ∃ u, exec (.loop c w) s = .next u ∧ s.wordIssued u c (fin + 1) []))
  ∧ (∀ (s : State) (c : CoreRef) (w : BitVec 24) (l : Nat), s.canonical = true → s.coreRuns c → s.slotLive c w.toNat → s.openLoops c = l + 1 →
    s.cget c (Reg.CORE_LOOP_STATE.END l) = s.wordAddr c → bitsOf w.toNat 23 15 = 0 →
    let p := coreFld c (Reg.CORE_PRED.P (bitsOf w.toNat 13 10))
    let left := s.cget c (Reg.CORE_LOOP_STATE.LEFT l)
    (left ≠ 0 → ∃ u, exec (.pset c w) s = .next u ∧ u.cget c (Reg.CORE_LOOP_STATE.LEFT l) = left - 1
      ∧ s.wordIssued u c (s.cget c (Reg.CORE_LOOP_STATE.START l)) [p, coreFld c (Reg.CORE_LOOP_STATE.LEFT l)])
    ∧ (left = 0 → (l = 0 ∨ s.cget c (Reg.CORE_LOOP_STATE.END (l - 1)) ≠ s.wordAddr c) →
      ∃ u, exec (.pset c w) s = .next u ∧ u.openLoops c = l ∧ u.cflag c (Reg.CORE_LOOP_STATE.OPEN l) = false
        ∧ s.wordIssued u c (s.wordAddr c + 1) (p :: loopFlds c l)))

/-- `LDCNT` copies a completion counter into a count register and sets the counter to 0 (R40); `END` ends the core's schedule: nothing more
issues (R66). -/
def Obligations.LdcntCopiesAndEndStops : Prop :=
  ∀ (s : State) (c : CoreRef) (w : BitVec 24), s.canonical = true → s.coreReady c → s.slotLive c w.toNat →
    let ctr := bitsOf w.toNat 16 13
    let reg := bitsOf w.toNat 12 10
    (bitsOf w.toNat 23 17 = 0 → s.ringCounter c ctr = false → ∃ u, exec (.ldcnt c w) s = .next u
      ∧ u.cget c (Reg.CORE_LOOPCNT.VALUE reg) = s.cget c (Reg.CORE_CCOUNT.VALUE ctr) ∧ u.cget c (Reg.CORE_CCOUNT.VALUE ctr) = 0
      ∧ s.wordIssued u c (s.wordAddr c + 1) [coreFld c (Reg.CORE_LOOPCNT.VALUE reg), coreFld c (Reg.CORE_CCOUNT.VALUE ctr)])
    ∧ (bitsOf w.toNat 23 10 = 0 → ∃ u, exec (.endSched c w) s = .next u ∧ u.cget c Core.STOPPING = 2
      ∧ s.wordIssued u c (s.wordAddr c + 1) [coreFld c Core.STOPPING]
      ∧ ∀ (w' : BitVec 24), exec (.pset c w') u = .next u)

/-- A counter wait is met when the counter is at least N, and its word then consumes N; before that the core slips for a cycle with SLIP_CAUSE 1
(R45, R48). On the counter of an inbox ring the lines that the wait before held are released (R160). A queue wait whose condition holds issues
and consumes nothing; otherwise the core slips with SLIP_CAUSE 2 (R46, R48, R183). On a port that is not enabled, not the core's own, or of a
kind that the condition does not fit it is schedule fault `0x09` (R173, R198); condition 3 is reserved. -/
def Obligations.CounterAndQueueWaitsIssueOrSlip : Prop :=
  (∀ (s : State) (c : CoreRef) (w : BitVec 24), s.canonical = true → s.coreReady c → s.slotLive c w.toNat →
    let ctr := bitsOf w.toNat 11 8
    let n := bitsOf w.toNat 23 12
    let v := s.cget c (Reg.CORE_CCOUNT.VALUE ctr)
    (n ≤ v → s.ringCounter c ctr = false → ∃ u, exec (.counterWait c w) s = .next u ∧ u.cget c (Reg.CORE_CCOUNT.VALUE ctr) = v - n
      ∧ s.wordIssued u c (s.wordAddr c + 1) [coreFld c (Reg.CORE_CCOUNT.VALUE ctr)])
    ∧ (v < n → ∃ u, exec (.counterWait c w) s = .next u ∧ s.wordSlipped u c 1 0 [])
    ∧ (∀ r < 8, s.cget c (Reg.CORE_INBOX_DESC.EN r) = 1 → s.cget c (Reg.CORE_INBOX_DESC.COUNTER r) = ctr →
      (∀ r' < 8, s.cget c (Reg.CORE_INBOX_DESC.EN r') = 1 → s.cget c (Reg.CORE_INBOX_DESC.COUNTER r') = ctr → r' = r) →
      s.cget c (Reg.CORE_INBOX_STATE.HELD r) = 0 → n ≤ v →
      ∃ u, exec (.counterWait c w) s = .next u ∧ u.cget c (Reg.CORE_CCOUNT.VALUE ctr) = v - n
        ∧ u.cget c (Reg.CORE_INBOX_STATE.HELD r) = n ∧ u.cget c (Reg.CORE_INBOX_STATE.FILLED r) = s.cget c (Reg.CORE_INBOX_STATE.FILLED r)
        ∧ s.wordIssued u c (s.wordAddr c + 1) [coreFld c (Reg.CORE_CCOUNT.VALUE ctr), coreFld c (Reg.CORE_INBOX_STATE.HELD r),
            coreFld c (Reg.CORE_INBOX_STATE.FILLED r)]))
  ∧ (∀ (s : State) (c : CoreRef) (w : BitVec 24), s.canonical = true → s.coreReady c → s.slotLive c w.toNat →
    let port := bitsOf w.toNat 17 8
    let cond := bitsOf w.toNat 19 18
    (cond < 3 → waitDynamic s c port cond = [] →
      (queueCond s c port cond (bitsOf w.toNat 23 20) = true →
        ∃ u, exec (.queueWait c w) s = .next u ∧ s.wordIssued u c (s.wordAddr c + 1) [])
      ∧ (queueCond s c port cond (bitsOf w.toNat 23 20) = false →
        ∃ u, exec (.queueWait c w) s = .next u ∧ s.wordSlipped u c 2 (port + 1) []))
    ∧ (cond < 3 → waitDynamic s c port cond ≠ [] → ∃ u, exec (.queueWait c w) s = .next u ∧ s.wordFaulted u c 0x09)
    ∧ (cond = 3 → ∃ u, exec (.queueWait c w) s = .next u ∧ s.wordFaulted u c 0x01))

/-- Huddles on a line of the core's mask (R47): an arrival makes the line OUTSTANDING; arrive only issues at once; arrive and wait, and wait
only, slip until the round completes, and then return the line to NONE. -/
def Obligations.HuddlesArriveWaitAndTake : Prop :=
  ∀ (s : State) (c : CoreRef) (w : BitVec 24), s.canonical = true → s.coreReady c → s.slotLive c w.toNat → bitsOf w.toNat 23 14 = 0 →
    let line := bitsOf w.toNat 11 8
    let h := s.cget c (Core.HUDDLE line)
    let waiting := s.cget c Core.WAITLINE = line + 1
    let next := s.wordAddr c + 1
    (s.cget c Reg.CORE_POISON_CTL.HUDDLE_MASK).testBit line = true → s.cget c Reg.CORE_POISON_CTL.HALT_PENDING = 0 →
    (h ≠ 1 → ∃ u, exec (.arriveOnly c w) s = .next u ∧ u.cget c (Core.HUDDLE line) = 1 ∧ s.wordIssued u c next [coreFld c (Core.HUDDLE line)])
    ∧ (h ≠ 1 → ¬ waiting → ∃ u, exec (.arriveAndWait c w) s = .next u ∧ u.cget c (Core.HUDDLE line) = 1 ∧ u.cget c Core.WAITLINE = line + 1
      ∧ s.wordSlipped u c 4 0 [coreFld c (Core.HUDDLE line), coreFld c Core.WAITLINE])
    ∧ (h = 1 → waiting → ∃ u, exec (.arriveAndWait c w) s = .next u ∧ s.wordSlipped u c 4 0 [])
    ∧ (h = 2 → waiting → ∃ u, exec (.arriveAndWait c w) s = .next u ∧ u.cget c (Core.HUDDLE line) = 0 ∧ u.cget c Core.WAITLINE = 0
      ∧ s.wordIssued u c next [coreFld c (Core.HUDDLE line), coreFld c Core.WAITLINE])
    ∧ (h = 1 → ∃ u, exec (.waitOnly c w) s = .next u ∧ s.wordSlipped u c 4 0 [])
    ∧ (h = 2 → ∃ u, exec (.waitOnly c w) s = .next u ∧ u.cget c (Core.HUDDLE line) = 0
      ∧ s.wordIssued u c next [coreFld c (Core.HUDDLE line), coreFld c Core.WAITLINE])

/-- Schedule faults stop the core at its word, raise a notice and drive the squad's line (R63): a huddle on a line outside the mask, an
arrival on an OUTSTANDING line and a wait only on a line in state NONE are `0x07` (R47); `LDCNT` of a ring's counter is `0x0B` (R161); a
`PLOOP` of a level that is not open is `0x03`; a reserved bit of a slot is `0x01`. -/
def Obligations.ScheduleFaultsStopTheCore : Prop :=
  ∀ (s : State) (c : CoreRef) (w : BitVec 24), s.canonical = true → s.coreRuns c → s.slotLive c w.toNat →
    let b (hi lo : Nat) : Nat := bitsOf w.toNat hi lo
    let line := b 11 8
    let h := s.cget c (Core.HUDDLE line)
    let mask := (s.cget c Reg.CORE_POISON_CTL.HUDDLE_MASK).testBit line
    ∀ e ∈ ([(.arriveOnly c w, 0x07, b 23 14 = 0 ∧ (mask = false ∨ h = 1)),
        (.arriveAndWait c w, 0x07, b 23 14 = 0 ∧ (mask = false ∨ (h = 1 ∧ s.cget c Core.WAITLINE ≠ line + 1))),
        (.waitOnly c w, 0x07, b 23 14 = 0 ∧ (mask = false ∨ h = 0)),
        (.ldcnt c w, 0x0B, b 23 17 = 0 ∧ s.ringCounter c (b 16 13) = true),
        (.ploop c w, 0x03, b 23 19 = 0 ∧ b 18 16 ≤ 5 ∧ s.openLoops c ≤ b 15 14),
        (.pset c w, 0x01, b 23 15 ≠ 0), (.endSched c w, 0x01, b 23 10 ≠ 0), (.loop c w, 0x01, b 23 17 ≠ 0)] :
          List (Instr × Nat × Prop)), e.2.2 →
      ∃ u, exec e.1 s = .next u ∧ s.wordFaulted u c e.2.1

/-- `START` of a move takes its descriptor's working addresses, advances them under ADV, and reads the first beat in the same cycle (R53–R55): the
beat, with its poison, is to be written 6 cycles later, or 8 where either end is the other cluster's memory; the channel stays busy while beats
are left. When the last beat of a move is written its bytes stand at the destination with their poison, and its counter has gone up by 1 under
COUNT_EN; nothing else of the memories changes (R42, R55, R165). -/
def Obligations.MovesReadAndWriteBeats : Prop :=
  (∀ (s : State) (c : CoreRef) (w : BitVec 24) (ch : Nat), s.canonical = true → s.coreReady c → s.slotLive c w.toNat → ch < 2 →
    let n := bitsOf w.toNat 12 8
    let d := s.moveDesc c n
    let src := s.cget c (Core.MOVE_SRC n)
    let dst := s.cget c (Core.MOVE_DST n)
    let key := moveKey c d.srcSpace d.srcOther src
    let adv := w.toNat.testBit 18
    let last := decide (d.beats * d.rows = 1)
    let q : CluRef := ⟨c.site, if d.srcOther then 1 - c.core / 24 else c.core / 24⟩
    bitsOf w.toNat 23 19 = 0 → s.moveLegal c n → (w.toNat.testBit 17 = true → s.ringCounter c (bitsOf w.toNat 16 13) = false) →
    s.noUpsets key 128 → (d.srcSpace = 1 → spBank src ≠ spBank (src + 1)) →
    ∃ u b, exec (.start c ch w) s = .next u ∧ u = { s with fld := u.fld, beats := s.beats ++ [b] }
      ∧ s.coreGoesOn u c (s.wordAddr c + 1) (moveFlds c ch n ++ if d.srcSpace = 0 then bankFlds c q else [])
      ∧ b.owner = c ∧ b.channel = ch ∧ b.left = (if d.srcOther || d.dstOther then 8 else 6) ∧ b.space = d.dstSpace ∧ b.other = d.dstOther
      ∧ b.addr = dst ∧ b.data = s.rd key 128 ∧ b.poison = poisonMask (s.rdP key 128) ∧ b.last = last
      ∧ b.counter = bitsOf w.toNat 16 13 ∧ b.countEn = w.toNat.testBit 17
      ∧ u.cflag c (Core.CH_BUSY ch) = !last
      ∧ u.cget c (Core.MOVE_SRC n) = (if adv then (((src : Int) + d.srcInc) % 2 ^ 20).toNat else src)
      ∧ u.cget c (Core.MOVE_DST n) = (if adv then (((dst : Int) + d.dstInc) % 2 ^ 20).toNat else dst))
  ∧ (∀ (s : State) (c : CoreRef) (ch : Nat) (b : Beat), s.canonical = true → c.wf = true → ch < 2 → s.cget c Reg.CORE_SCHED_STATUS.STATE ≠ 5 →
    s.cget c (Core.CH_SUSP ch) = 0 → s.cget c (Core.CH_BUSY ch) = 0 → (s.beats.filter fun x => x.owner == c && x.channel == ch) = [b] →
    b.data.length = 128 → b.last = true → s.cget c (Reg.CORE_CCOUNT.VALUE b.counter) < 0xFFFFFF →
    let k := moveKey c b.space b.other b.addr
    ∃ u, exec (.moveComplete c ch) s = .next u ∧ u.rd k 128 = b.data ∧ s.sameBytesBut u k 128
      ∧ (∀ i < 16, (mapGet 0 u.sramPoison (k / 8 + i) = 1 ↔ ∃ j < 8, b.poison.testBit (8 * i + j) = true))
      ∧ u.beats = s.beats.filter (fun x => !(x.owner == c && x.channel == ch))
      ∧ u.cget c (Reg.CORE_CCOUNT.VALUE b.counter) = s.cget c (Reg.CORE_CCOUNT.VALUE b.counter) + (if b.countEn then 1 else 0)
      ∧ s.sameFields u [coreFld c (Reg.CORE_CCOUNT.VALUE b.counter)])

/-- `PUSH` on a local CREDITED port spends a credit, takes a free cell of the pool and links the tile buffer's 64 bytes at the queue's tail; in an
open packet the first cell carries the length slot (R178, R179, R186). On a route port the cell leaves in a CELL message (R190). -/
def Obligations.PushLinksOrSendsACell : Prop :=
  ∀ (s : State) (c : CoreRef) (w : BitVec 32), s.canonical = true → s.coreReady c → s.slotLive c w.toNat → bitsOf w.toNat 31 30 = 0 →
    let q := cluOf c
    let p := bitsOf w.toNat 19 10
    let n := s.portQueue c p
    let x := s.queue q n
    let k := tileCell c (bitsOf w.toNat 21 20) (bitsOf w.toNat 29 22)
    let pkt := s.pget c Reg.CLU_QPSTATE.PKT_OPEN p = 1
    let cells := s.pget c Reg.CLU_QPSTATE.PKT_CELLS p
    let first : Bool := decide (pkt ∧ cells = 0)
    let portFlds := [cluFld q (Reg.CLU_QPSTATE.CREDITS p), cluFld q (Reg.CLU_QPSTATE.PKT_CELLS p), cluFld q Reg.CLU_QPOOL.FREE]
    s.pget c Reg.CLU_QPORT.LOSSY p = 0 → s.pget c Reg.CLU_QPSTATE.CREDITS p ≠ 0 → cells + 1 < lenMax → s.cleanRange k 64 →
    (s.qportOk c p 0 → s.qget q (Reg.CLU_QCFG.MODE n) = 0 → s.qget q (Reg.CLU_QCFG.ARR_MODE n) ≠ 1 →
      ∃ u, exec (.push c w) s = .next u
        ∧ s.onlyQueue u q n
            { x with
              cells := x.cells ++ [⟨s.freeCell q, if first then 1 else 0, if first then lenMax else 0, s.cget c Reg.CORE_SCHED_STATUS.EPOCH,
                false, false⟩]
              openPkt := if first then some 1 else x.openPkt.map (· + 1) }
        ∧ u.rd (cellKey q (s.freeCell q)) 64 = s.rd k 64 ∧ s.sameBytesBut u (cellKey q (s.freeCell q)) 64
        ∧ u.qget q (Reg.CLU_QPSTATE.CREDITS p) = s.qget q (Reg.CLU_QPSTATE.CREDITS p) - 1
        ∧ u.qget q Reg.CLU_QPOOL.FREE = s.qget q Reg.CLU_QPOOL.FREE - 1
        ∧ (pkt → u.qget q (Reg.CLU_QPSTATE.PKT_CELLS p) = cells + 1)
        ∧ s.coreGoesOn u c (s.wordAddr c + 1) portFlds)
    ∧ (s.qportOk c p 2 → s.pget c Reg.CLU_QPORT.RING p = 0 →
      ∃ u, exec (.push c w) s = .next u
        ∧ s.coreGoesOn u c (s.wordAddr c + 1) portFlds
        ∧ u = { s with
          fld := u.fld
          streamOut := s.streamOut ++ [
            { kind := 0, epoch := s.cget c Reg.CORE_SCHED_STATUS.EPOCH, ddie := s.pget c Reg.CLU_QPORT.DDIE p,
              dclu := s.pget c Reg.CLU_QPORT.DCLU p, ring := false, dring := 0, dindex := s.pget c Reg.CLU_QPORT.DQUEUE p, dcore := 0,
              first := first, poison := 0, count := 0, data := s.rd k 64 }] }
        ∧ u.qget q (Reg.CLU_QPSTATE.CREDITS p) = s.qget q (Reg.CLU_QPSTATE.CREDITS p) - 1
        ∧ (pkt → u.qget q (Reg.CLU_QPSTATE.PKT_CELLS p) = cells + 1))

/-- `POP` writes the cell at RPTR into the tile buffer and moves RPTR on; the cell stays held (R184, R185). The cell is a data cell of a queue
without automatic release. -/
def Obligations.PopReadsTheCellAtRptr : Prop :=
  ∀ (s : State) (c : CoreRef) (w : BitVec 32), s.canonical = true → s.coreReady c → s.slotLive c w.toNat → bitsOf w.toNat 31 30 = 0 →
    let q := cluOf c
    let p := bitsOf w.toNat 19 10
    let n := s.portQueue c p
    let x := s.queue q n
    let k := tileCell c (bitsOf w.toNat 21 20) (bitsOf w.toNat 29 22)
    s.qportOk c p 1 → s.qget q (Reg.CLU_QCFG.AUTO_REL n) = 0 → 0 < x.readable (s.qget q (Reg.CLU_QCFG.CUT n)) →
    ∀ y, x.cells[x.rptr]? = some y → y.kind ≠ 2 → y.cellNo < 32768 → s.cleanRange (cellKey q y.cellNo) 64 →
    ∃ u, exec (.pop c w) s = .next u ∧ u.rd k 64 = s.rd (cellKey q y.cellNo) 64 ∧ s.sameBytesBut u k 64
      ∧ s.onlyQueue u q n { x with cells := x.cells.set x.rptr { y with popped := true }, rptr := x.rptr + 1 }
      ∧ s.coreGoesOn u c (s.wordAddr c + 1) []

/-- `OPEN` opens a packet on the port with no cell; `CLOSE` closes it, and the number of its cells becomes the length of the open packet of a local
queue, or leaves in a CLOSE message (R186, R190). `MARK` sets the mark to RPTR, `REWIND` RPTR to the mark, and `RELEASE` frees the cells before
RPTR, whose credits return to the producer (R179, R185). -/
def Obligations.PacketsOpenCloseAndRewind : Prop :=
  (∀ (s : State) (c : CoreRef) (w : BitVec 32), s.canonical = true → s.coreReady c → s.slotLive c w.toNat → bitsOf w.toNat 31 20 = 0 →
    let q := cluOf c
    let p := bitsOf w.toNat 19 10
    let n := s.portQueue c p
    let x := s.queue q n
    let pkt := s.pget c Reg.CLU_QPSTATE.PKT_OPEN p
    let cells := s.pget c Reg.CLU_QPSTATE.PKT_CELLS p
    let flds := [cluFld q (Reg.CLU_QPSTATE.PKT_OPEN p), cluFld q (Reg.CLU_QPSTATE.PKT_CELLS p)]
    s.lossyPort c p = false → s.pget c Reg.CLU_QPORT.RING p = 0 →
    (pkt = 0 → (s.qportOk c p 0 ∨ s.qportOk c p 2) →
      ∃ u, exec (.openPkt c w) s = .next u ∧ u.pget c Reg.CLU_QPSTATE.PKT_OPEN p = 1 ∧ u.pget c Reg.CLU_QPSTATE.PKT_CELLS p = 0
        ∧ s.wordIssued u c (s.wordAddr c + 1) flds)
    ∧ (pkt = 1 → cells ≠ 0 → s.qportOk c p 0 → x.openPkt.isSome = true → s.qget q (Reg.CLU_QCFG.ARR_MODE n) = 0 →
      ∃ u, exec (.closePkt c w) s = .next u ∧ u.pget c Reg.CLU_QPSTATE.PKT_OPEN p = 0 ∧ u.pget c Reg.CLU_QPSTATE.PKT_CELLS p = 0
        ∧ s.onlyQueue u q n
            { x with cells := x.cells.map fun y => if y.kind = 1 ∧ y.len = lenMax then { y with len := cells } else y
                     openPkt := none }
        ∧ s.coreGoesOn u c (s.wordAddr c + 1) flds ∧ s.sameMemory u)
    ∧ (pkt = 1 → cells ≠ 0 → s.qportOk c p 2 →
      ∃ u, exec (.closePkt c w) s = .next u ∧ u.pget c Reg.CLU_QPSTATE.PKT_OPEN p = 0 ∧ u.pget c Reg.CLU_QPSTATE.PKT_CELLS p = 0
        ∧ s.coreGoesOn u c (s.wordAddr c + 1) flds
        ∧ u = { s with
          fld := u.fld
          streamOut := s.streamOut ++ [
            { kind := 1, epoch := s.cget c Reg.CORE_SCHED_STATUS.EPOCH, ddie := s.pget c Reg.CLU_QPORT.DDIE p,
              dclu := s.pget c Reg.CLU_QPORT.DCLU p, ring := false, dring := 0, dindex := s.pget c Reg.CLU_QPORT.DQUEUE p, dcore := 0,
              first := false, poison := 0, count := cells, data := [] }] }))
  ∧ (∀ (s : State) (c : CoreRef) (w : BitVec 32), s.canonical = true → s.coreReady c → s.slotLive c w.toNat → bitsOf w.toNat 31 20 = 0 →
    let q := cluOf c
    let p := bitsOf w.toNat 19 10
    let n := s.portQueue c p
    let x := s.queue q n
    let core := s.qget q (Reg.CLU_QSRC.PCORE n)
    let port := s.qget q (Reg.CLU_QSRC.PPORT n)
    let next := s.wordAddr c + 1
    s.qportOk c p 1 → s.qget q (Reg.CLU_QCFG.AUTO_REL n) = 0 →
    (∃ u, exec (.markQ c w) s = .next u ∧ s.onlyQueue u q n { x with mark := x.rptr } ∧ s.coreGoesOn u c next [] ∧ s.sameMemory u)
    ∧ (∃ u, exec (.rewindQ c w) s = .next u ∧ s.onlyQueue u q n { x with rptr := x.mark } ∧ s.coreGoesOn u c next [] ∧ s.sameMemory u)
    ∧ (0 < x.rptr → x.rptr ≤ x.held → x.pendDrops = 0 → s.qget q (Reg.CLU_QCFG.MODE n) = 0 →
      s.qget q Reg.CLU_QPOOL.FREE + x.rptr < 2 ^ 16 →
      ∃ u, exec (.releaseQ c w) s = .next u ∧ s.sameMemory u
        ∧ s.onlyQueue u q n { x with cells := x.cells.drop x.rptr, rptr := 0, mark := 0 }
        ∧ u.qget q Reg.CLU_QPOOL.FREE = s.qget q Reg.CLU_QPOOL.FREE + x.rptr
        ∧ (if s.ldieOf q.site = some (core / 48) ∧ core % 48 / 24 = q.clu ∧ s.qget q (Reg.CLU_QPORT.KIND port) = 0 then
            u.qget q (Reg.CLU_QPSTATE.CREDITS port) = (s.qget q (Reg.CLU_QPSTATE.CREDITS port) + x.rptr) % 2 ^ 16
              ∧ s.coreGoesOn u c next [cluFld q Reg.CLU_QPOOL.FREE, cluFld q (Reg.CLU_QPSTATE.CREDITS port)]
          else
            s.coreGoesOn u c next [cluFld q Reg.CLU_QPOOL.FREE]
              ∧ ∃ m, u.streamOut = s.streamOut ++ [m] ∧ m.kind = 2 ∧ m.count = x.rptr ∧ m.dindex = port ∧ m.ddie = core / 48)))

/-! ### The engines (04_matrix_engine, 05_vector_engine) -/

/-- `ZERO` sets a slot to +0 with its SHAPE and POISON 0 (R98); `MAC` of one group adds the group's terms to each accumulator, or to +0 with INIT
(R104–R109), occupies the engine for the group's cycles and counts it. `EMIT` takes an entry of the finished-tile queue and fills it with the
slot's values, each added exactly to the wide buffer's under MERGE and rounded once; CLEAR then zeroes the slot (R103, R114, R116). `SPILL`
writes the slot's values to the wide buffer, added to it without INIT, and zeroes the slot (R113). Nothing is poisoned. -/
def Obligations.MatrixOperationsWriteTheSlot : Prop :=
  (∀ (s : State) (c : CoreRef) (w : BitVec 64), s.canonical = true → s.coreReady c →
    let m := mxSlot w.toNat
    let key := slotKey c m.slot
    let next := s.wordAddr c + 1
    (s.mxLegal c w 4 →
      ∃ u, exec (.zeroSlot c w) s = .next u ∧ (∀ x ∈ u.slotBits c m.slot, x = 0) ∧ s.sameBytesBut u key 8192
        ∧ u.cget c (Reg.CORE_MX_SLOT_SHAPE.SHAPE m.slot) = m.shape ∧ u.cget c (Reg.CORE_MX_SLOT_POISON.POISON m.slot) = 0
        ∧ u.cget c Reg.CORE_MX_STATUS.OCC_LEFT = 0 ∧ s.coreGoesOn u c next (mxFlds c m.slot))
    ∧ (∀ a b cyc, Fmt.ofCode m.afmt = some a → Fmt.ofCode m.bfmt = some b → pairCycles a b = some cyc → m.kg = 0 → s.mxLegal c w 1 →
      let mm := shapeM m.shape
      let nn := shapeN m.shape
      let ka := coreKey c Mem.OPA (m.aaddr * 64)
      let kb := coreKey c Mem.OPB (m.baddr * 64)
      let na := mm * (groupBytes a + a.sideBytes)
      let nb := nn * (groupBytes b + b.sideBytes)
      let rows := opLines a mm (s.rd ka na)
      let cols := opLines b nn (s.rd kb nb)
      let old := if m.init then List.replicate 2048 0 else s.slotBits c m.slot
      s.cleanRange ka na → s.cleanRange kb nb → (m.init = false → s.cleanRange key 8192) → (∀ l ∈ rows ++ cols, l.malformed = false) →
      ∃ u, exec (.mac c w) s = .next u
        ∧ u.slotBits c m.slot = ((old.zip (rows.flatMap fun r => cols.map fun k => groupTerms (a.bits = 16) r k)).map fun p =>
            toFP32 (accumulate (ofFP32 p.1) p.2).1)
        ∧ s.sameBytesBut u key 8192 ∧ u.cget c Reg.CORE_MX_STATUS.OCC_LEFT = cyc - 1
        ∧ u.cget c Reg.CORE_MX_GROUPS.COUNT = min (s.cget c Reg.CORE_MX_GROUPS.COUNT + 1) (2 ^ 48 - 1)
        ∧ s.coreGoesOn u c next (coreFld c Reg.CORE_MX_GROUPS.COUNT :: mxFlds c m.slot)))
  ∧ (∀ (s : State) (c : CoreRef) (w : BitVec 64), s.canonical = true → s.coreReady c →
    let m := mxSlot w.toNat
    let key := slotKey c m.slot
    let wide := wideKey c m.wide
    let i := (s.cget c Core.FTQ_HEAD + s.cget c Reg.CORE_MX_STATUS.FTQ_COUNT) % 8
    let next := s.wordAddr c + 1
    let bits := s.slotBits c m.slot
    s.cleanRange key 8192 → s.cget c (Reg.CORE_MX_SLOT_POISON.POISON m.slot) = 0 →
    (s.mxLegal c w 2 → (m.merge = true → s.cleanRange wide 16384) →
      ∃ u, exec (.emit c w) s = .next u
        ∧ unpackCodes 32 2048 (u.rdNat (ftqKey c i) 8192)
            = (if m.merge then (bits.zip (s.wideBits c m.wide)).map fun p =>
                toFP32 (round32 false ((ofFP64 p.2).add (ofFP32 p.1))).1 else bits)
        ∧ leNat (u.rd (ftqKey c i + 8192) 1) = s.slotShape c m.slot ∧ leNat (u.rd (ftqKey c i + 8193) 1) = m.tag
        ∧ leNat (u.rd (ftqKey c i + 8194) 1) = (if m.merge then 2 else 0)
        ∧ (m.init = true → ∀ x ∈ u.slotBits c m.slot, x = 0) ∧ (m.init = false → u.slotBits c m.slot = bits)
        ∧ u.cget c Reg.CORE_MX_STATUS.FTQ_COUNT = s.cget c Reg.CORE_MX_STATUS.FTQ_COUNT + 1
        ∧ u.cget c Reg.CORE_MX_STATUS.OCC_LEFT = 15
        ∧ s.coreGoesOn u c next (coreFld c Reg.CORE_MX_STATUS.FTQ_COUNT :: coreFld c Reg.CORE_MX_EMITS.EMITS :: mxFlds c m.slot))
    ∧ (s.mxLegal c w 3 → (m.init = false → s.cleanRange wide 16384) →
      ∃ u, exec (.spill c w) s = .next u
        ∧ u.wideBits c m.wide = (bits.zip (s.wideBits c m.wide)).map (fun p =>
            if m.init then toFP64 (ofFP32 p.1) else toFP64 ((ofFP64 p.2).add (ofFP32 p.1)))
        ∧ (∀ x ∈ u.slotBits c m.slot, x = 0) ∧ u.cget c Reg.CORE_MX_STATUS.OCC_LEFT = 15
        ∧ u.cget c Reg.CORE_MX_EMITS.SPILLS = min (s.cget c Reg.CORE_MX_EMITS.SPILLS + 1) (2 ^ 32 - 1)
        ∧ s.coreGoesOn u c next (coreFld c Reg.CORE_MX_EMITS.SPILLS :: mxFlds c m.slot)))

/-- `RUN` runs one pass: it is counted, occupies the engine for its chunks, claims its random numbers, and advances the working BASE of X under
ADVX (R88, R119, R121, R137, R139). No word of the core's memories is poisoned or upset, and no two lines that the first chunk reads share a
scratchpad bank. A pass of one row of at most 64 FP32 positions from one tile buffer to another writes each unmasked position's value, taken
through A1, A2 and FUNC (R119, R131, R132, R135), and no other byte outside the row of D. -/
def Obligations.RunOccupiesAdvancesAndWrites : Prop :=
  (∀ (s : State) (c : CoreRef) (w : BitVec 64), s.canonical = true → s.coreReady c → s.slotLive c w.toNat →
    let v := withField w.toNat 9 6 1
    let i := s.vinstr c v
    let x := s.tdesc c i.xd
    let reads := (s.tileUses c v 0).filterMap fun u => match u with
      | (0, .spRead ls) => some ls
      | _ => none
    vxStatic s c v = [] → vxDynamic s c v = [] → s.tileFault c v 0 = [] → s.cleanRange (coreKey c 0 0) (2 ^ 29) →
    (leNat (s.rd (ftqKey c (s.cget c Core.FTQ_HEAD) + 8194) 1)).testBit 0 = false →
    (∀ a ∈ reads.flatten, ∀ b ∈ reads.flatten, a ≠ b → spBank a ≠ spBank b) →
    ∃ u, exec (.run c w) s = .next u
      ∧ u.cget c Reg.CORE_VX_COUNTS.RUNS = min (s.cget c Reg.CORE_VX_COUNTS.RUNS + 1) (2 ^ 32 - 1)
      ∧ u.cget c Reg.CORE_VX_STATUS.OCC_LEFT = passCycles i x - 1
      ∧ u.cget c Reg.CORE_SR_COUNT.COUNT
          = (s.cget c Reg.CORE_SR_COUNT.COUNT + (if i.dEn ∧ i.rmode = 4 ∧ ¬ i.bf16 then x.size 0 * x.rows else 0)) % 2 ^ 48
      ∧ u.cget c (Reg.CORE_VX_WBASE.BASE i.xd)
          = (if v.testBit 16 ∨ (v.testBit 17 ∧ i.yd = i.xd) ∨ (v.testBit 18 ∧ i.dd = i.xd) ∨ (v.testBit 19 ∧ i.rd = i.xd) then
              (((x.base : Int) + x.inc) % 2 ^ 21).toNat else x.base)
      ∧ s.coreGoesOn u c (s.wordAddr c + 1) (vxFlds c i))
  ∧ (∀ (s : State) (c : CoreRef) (w : BitVec 64), s.canonical = true → s.coreReady c → s.slotLive c w.toNat →
    let v := withField w.toNat 9 6 1
    let i := s.vinstr c v
    let x := s.tdesc c i.xd
    let d := s.tdesc c i.dd
    let kx := coreKey c Mem.TILE (x.tbuf * 16384 + x.base)
    let kd := coreKey c Mem.TILE (d.tbuf * 16384 + d.base)
    vxStatic s c v = [] → vxDynamic s c v = [] → s.cleanRange (coreKey c 0 0) (2 ^ 29) →
    x.space = 0 → d.space = 0 → x.fmt = .fp32 → d.fmt = .fp32 → i.dEn = true → i.yEn = false → i.rEn = false → i.bf16 = false → i.rmode ≠ 4 →
    x.bcast = false → x.size 0 ≤ 64 → x.rows = 1 → x.size 0 ≤ x.valid 0 → 0 < x.valid 1 → 0 < x.valid 2 → 0 < x.valid 3 →
    ∃ u, exec (.run c w) s = .next u
      ∧ (∀ e < x.size 0, u.rdNat (kd + 4 * e) 4
          = (Fmt.fp32.encodeElem ((RMode.ofCode i.rmode).getD .rne) (!i.ovmode) 0
              (lane s c i (ofFP32 (s.rdNat (kx + 4 * e) 4)) (.fin false 0 0)).1).1)
      ∧ s.sameBytesBut u kd (4 * x.size 0) ∧ s.coreGoesOn u c (s.wordAddr c + 1) (vxFlds c i))

/-! ### Debug, pauses, halts and huddles (02, 12) -/

/-- In debug mode `STEP` at a breakpoint issues the word of the schedule memory at ADDR and returns to BREAK; here a word of no operation.
`CONTINUE` sets the core running, past the breakpoint at its word (R68). A core that stopped at a pause huddle is PAUSED once it has drained,
and one that issued `END` is ENDED once its moves have run (R64, R66); here nothing is under way. -/
def Obligations.BreaksPausesAndEndings : Prop :=
  (∀ (s : State) (c : CoreRef), s.canonical = true → c.wf = true → s.flag panelSite Reg.SEC_STATUS.DEBUG = true →
    s.cget c Reg.CORE_SCHED_STATUS.STATE = 7 →
    let r := s.cput c Reg.CORE_SCHED_STATUS.STATE 1
    let k := coreKey c Mem.SCHED (s.wordAddr c * 32)
    (r.coreReady c → s.rdNat k 32 = 0 → s.noUpsets k 32 →
      ∃ u, exec (.stepWord c) s = .next u ∧ u.cget c Reg.CORE_SCHED_STATUS.STATE = 7 ∧ u.wordAddr c = s.wordAddr c + 1
        ∧ u.cget c Reg.CORE_ISSUE_COUNT.COUNT = min (s.cget c Reg.CORE_ISSUE_COUNT.COUNT + 1) (2 ^ 48 - 1)
        ∧ s.onlyFields u (coreFld c Core.STEPPING :: issueFlds c))
    ∧ (∃ u, exec (.continueCore c) s = .next u ∧ u.cget c Reg.CORE_SCHED_STATUS.STATE = 1
        ∧ u.cget c Core.BRK_PASS = 1 ∧ s.onlyFields u [coreFld c Reg.CORE_SCHED_STATUS.STATE, coreFld c Core.BRK_PASS]))
  ∧ (∀ (s : State) (c : CoreRef), s.canonical = true → c.wf = true → s.cget c Reg.CORE_SCHED_STATUS.STATE = 1 →
    s.cget c (Core.CH_BUSY 0) = 0 → s.cget c (Core.CH_BUSY 1) = 0 → (∀ b ∈ s.beats, b.owner ≠ c) → (∀ u ∈ s.flights, u.owner ≠ c) →
    let flds := [coreFld c Reg.CORE_SCHED_STATUS.STATE, coreFld c Core.STOPPING, coreFld c Reg.CORE_MX_STATUS.OCC_LEFT,
      coreFld c Reg.CORE_MX_STATUS.BUSY, coreFld c Reg.CORE_VX_STATUS.OCC_LEFT, coreFld c Reg.CORE_VX_STATUS.BUSY]
    (s.cget c Core.STOPPING = 1 → ∃ u, exec (.corePaused c) s = .next u ∧ u.cget c Reg.CORE_SCHED_STATUS.STATE = 3 ∧ s.onlyFields u flds)
    ∧ (s.cget c Core.STOPPING = 2 → s.pausePending c.site = false →
      ∃ u, exec (.coreEnded c) s = .next u ∧ u.cget c Reg.CORE_SCHED_STATUS.STATE = 4 ∧ s.onlyFields u flds))

/-- A driven whistle line is latched by every compute die that obeys it, and the line falls; each core of such a die that ran, slipped or stood at
a breakpoint is HALTED, and one that was IDLE, ENDED or FAULTED keeps its STATE, unless the die's squad is PAUSED (R65, R335, R336). -/
def Obligations.WhistleHaltsTheDies : Prop :=
  ∀ (s : State) (line : Nat), s.canonical = true → s.settled → line < 16 → (s.get panelSite Reg.SQD_LINES.WHISTLE).testBit line = true →
    ∃ u, exec (.whistleDriven line) s = .next u ∧ (u.get panelSite Reg.SQD_LINES.WHISTLE).testBit line = false ∧ s.sameMemory u
      ∧ ∀ k, isCompute k = true → (s.obey k).testBit line = true → (u.get k Reg.DIE_SIDEBAND.LATCH).testBit line = true
        ∧ ((∀ n, s.squadOf k = some n → s.squadState n ≠ Squad.PAUSED) → ∀ c < 48,
            let st := s.cget ⟨k, c⟩ Reg.CORE_SCHED_STATUS.STATE
            u.cget ⟨k, c⟩ Reg.CORE_SCHED_STATUS.STATE = (if st = 1 ∨ st = 2 ∨ st = 7 then 5 else st))

/-- A huddle whose cores have all arrived completes while the gate of its line is open: each core's line is COMPLETED, the squad's shot clocks
start again at 0, and the huddle is counted (R47, R338, R340). At the squad's limit a die that counts drives its squad's line, stops counting,
and raises `SHOT_CLOCK` (R341). -/
def Obligations.HuddlesCompleteAndShotClockWhistles : Prop :=
  (∀ (s : State) (line n : Nat), s.canonical = true → line < 16 → s.huddleCores line ≠ [] →
    (∀ c ∈ s.huddleCores line, s.cget c (Core.HUDDLE line) = 1) → (s.get panelSite Reg.SQD_LINES.GATE).testBit line = false →
    s.lineSquad line = some n →
    ∃ u, exec (.huddleComplete line) s = .next u ∧ s.sameMemory u
      ∧ (∀ c ∈ s.huddleCores line, u.cget c (Core.HUDDLE line) = 2)
      ∧ (∀ k ∈ s.squadSites n, u.get k Reg.DIE_SHOT.COUNT = 0)
      ∧ u.get panelSite (Reg.SQD_COUNTS.HUDDLES n)
          = min (s.get panelSite (Reg.SQD_COUNTS.HUDDLES n) + 1) (2 ^ (Reg.SQD_COUNTS.HUDDLES n).width - 1)
      ∧ s.sameFields u ((s.huddleCores line).map (fun c => coreFld c (Core.HUDDLE line))
          ++ (s.squadSites n).map (fun k => (k, Reg.DIE_SHOT.COUNT)) ++ [panelFld (Reg.SQD_COUNTS.HUDDLES n)]))
  ∧ (∀ (s : State) (site n : Nat), s.canonical = true → isCompute site = true → s.squadOf site = some n → s.squadState n = Squad.RUNNING →
    s.flag site Reg.DIE_SHOT.RUN = true → s.dieDone site = false →
    ∃ u, exec (.shotClock site) s = .next u ∧ (u.get panelSite Reg.SQD_LINES.WHISTLE).testBit n = true
      ∧ u.get site Reg.DIE_SHOT.RUN = 0 ∧ s.sameMemory u ∧ u.queues = s.queues
      ∧ (s.get panelSite (Reg.SQD_STATUS.CAUSE n) = 0 → u.get panelSite (Reg.SQD_STATUS.CAUSE n) = Cause.SHOT_CLOCK
          ∧ u.get panelSite (Reg.SQD_STATUS.SITE n) = site))

/-- The patrol scrubber counts and rewrites a word of its line with one upset bit, and leaves every byte and every poison mark (R164, R167); the
clear engine leaves zeros, no poison and empty queues in its die (R168). -/
def Obligations.PatrolRewritesAndClearZeroes : Prop :=
  ∀ (s : State), s.canonical = true →
    (∀ site unit line w, site < 256 → unit < 48 → line < 24576 → s.qget ⟨site, unit / 24⟩ Reg.CLU_MEM_SCRUB.SP_EN = 1 →
      wordsIn s.sramUpset (sramKey site unit Mem.SP (line * 64)) 64 = [w] → mapGet 0 s.sramUpset w = 1 → mapGet 0 s.sramPoison w = 0 →
      ∃ u, exec (.sramPatrolRead site unit line) s = .next u ∧ mapGet 0 u.sramUpset w = 0 ∧ u.sram = s.sram ∧ u.sramPoison = s.sramPoison
        ∧ u.cget ⟨site, unit⟩ Reg.CORE_MEM_CE.SP
            = min (s.cget ⟨site, unit⟩ Reg.CORE_MEM_CE.SP + 1) (2 ^ Reg.CORE_MEM_CE.SP.width - 1))
    ∧ (∀ site, isCompute site = true → s.flag site Die.CLEARING = true →
      ∃ u, exec (.clearComplete site) s = .next u ∧ u.flag site Die.CLEARING = false
        ∧ (∀ a, a / 2 ^ 35 = site → mapGet 0 u.sram a = 0) ∧ (∀ a, a / 2 ^ 35 ≠ site → mapGet 0 u.sram a = mapGet 0 s.sram a)
        ∧ (∀ w, w / 2 ^ 32 = site → mapGet 0 u.sramPoison w = 0)
        ∧ (∀ q n, q < 2 → n < 1024 → u.queue ⟨site, q⟩ n = QueueSt.empty) ∧ u.hbm = s.hbm
        ∧ ∀ q < 2, u.qget ⟨site, q⟩ Reg.CLU_QPOOL.FREE = 32768)

/-! ### Stream messages and inbox rings (06, 07) -/

/-- Messages of the destination's epoch (R159, R179, R186, R190): a CELL for a CREDITED queue is linked at the tail of the queue with its data and
poison; a CLOSE writes the length of the open packet; a CREDIT adds to the port's credits; a delivery to a ring with a free line writes the line
and counts it. -/
def Obligations.StreamMessagesArrive : Prop :=
  ∀ (s : State) (m : StreamMsg), s.canonical = true → m.wf = true → (s.siteOf m.ddie) < 256 →
    let q := s.destCluster m
    let n := m.dindex
    let x := s.queue q n
    let ring : CoreRef := ⟨q.site, q.clu * 24 + m.dcore⟩
    let line := coreKey ring Mem.SP ((s.cget ring (Reg.CORE_INBOX_DESC.BASE m.dring) + s.cget ring (Reg.CORE_INBOX_STATE.WPTR m.dring)) * 64)
    let ctr := s.cget ring (Reg.CORE_INBOX_DESC.COUNTER m.dring)
    let filled := s.cget ring (Reg.CORE_INBOX_STATE.FILLED m.dring)
    (m.ring = false → m.epoch = s.qget q Reg.CLU_QPOOL.EPOCH → s.qget q Reg.CLU_QPOOL.FL_BROKEN = 0 →
      s.qget q (Reg.CLU_QSTATE.STATE n) = 1 → s.qget q (Reg.CLU_QCFG.MODE n) = 0 → s.qget q (Reg.CLU_QCFG.ARR_MODE n) = 0 → x.mismatch = 0 →
      (s.qget q Clu.FL_MISMATCH = 0 → m.data.length = 64 → ∃ u, exec (.cell m) s = .next u
        ∧ s.onlyQueue u q n
            { x with
              cells := x.cells ++ [⟨s.freeCell q, if m.first then 1 else 0, if m.first then lenMax else 0, m.epoch, false, false⟩]
              openPkt := if m.first then some 1 else x.openPkt.map (· + 1) }
        ∧ u.rd (cellKey q (s.freeCell q)) 64 = m.data ∧ s.sameBytesBut u (cellKey q (s.freeCell q)) 64
        ∧ (∀ i < 8, mapGet 0 u.sramPoison (cellKey q (s.freeCell q) / 8 + i) = if m.poison.toNat.testBit i then 1 else 0)
        ∧ u.qget q Reg.CLU_QPOOL.FREE = s.qget q Reg.CLU_QPOOL.FREE - 1 ∧ s.sameFields u [cluFld q Reg.CLU_QPOOL.FREE])
      ∧ (x.openPkt.isSome = true → ∃ u, exec (.closeMessage m) s = .next u ∧ s.sameMemory u ∧ u.fld = s.fld
        ∧ s.onlyQueue u q n
            { x with cells := x.cells.map fun y => if y.kind = 1 ∧ y.len = lenMax then { y with len := m.count } else y
                     openPkt := none })
      ∧ ∃ u, exec (.credit m) s = .next u
        ∧ u.qget q (Reg.CLU_QPSTATE.CREDITS n) = (s.qget q (Reg.CLU_QPSTATE.CREDITS n) + m.count) % 2 ^ 16
        ∧ s.sameFields u [cluFld q (Reg.CLU_QPSTATE.CREDITS n)] ∧ s.sameMemory u ∧ u.queues = s.queues)
    ∧ (m.epoch = s.cget ring Reg.CORE_SCHED_STATUS.EPOCH → s.cget ring (Reg.CORE_INBOX_DESC.EN m.dring) = 1 →
      filled < s.cget ring (Reg.CORE_INBOX_DESC.SIZE m.dring) → s.cget ring (Reg.CORE_CCOUNT.VALUE ctr) < 0xFFFFFF → m.data.length = 64 →
      ∃ u, exec (.inboxDelivery m) s = .next u ∧ u.rd line 64 = m.data ∧ s.sameBytesBut u line 64
        ∧ u.cget ring (Reg.CORE_INBOX_STATE.FILLED m.dring) = filled + 1
        ∧ u.cget ring (Reg.CORE_INBOX_STATE.WPTR m.dring)
            = (s.cget ring (Reg.CORE_INBOX_STATE.WPTR m.dring) + 1) % s.cget ring (Reg.CORE_INBOX_DESC.SIZE m.dring)
        ∧ u.cget ring (Reg.CORE_CCOUNT.VALUE ctr) = s.cget ring (Reg.CORE_CCOUNT.VALUE ctr) + 1 ∧ u.queues = s.queues)

/-- A message of another epoch is discarded and counted, and changes no queue and no memory (R192, R333). The sweep of a damaged queue ends (R196):
the queue is empty and active again, its cells are free, the reset is counted, and a LOSSY queue holds one gap marker with the cells lost. -/
def Obligations.StaleMessagesAndSweeps : Prop :=
  (∀ (s : State) (m : StreamMsg), s.canonical = true → m.wf = true → s.siteOf m.ddie < 256 → m.ring = false →
    let q := s.destCluster m
    m.epoch ≠ s.qget q Reg.CLU_QPOOL.EPOCH →
    ∀ i ∈ [Instr.cell m, .closeMessage m, .credit m],
      ∃ u, exec i s = .next u ∧ s.sameMemory u ∧ u.queues = s.queues
        ∧ u.qget q Reg.CLU_QSTALE.STALE = min (s.qget q Reg.CLU_QSTALE.STALE + 1) (2 ^ Reg.CLU_QSTALE.STALE.width - 1))
  ∧ (∀ (s : State) (q : CluRef) (n : Nat), s.canonical = true → q.wf = true → n < 1024 → s.qget q (Reg.CLU_QSTATE.STATE n) = 2 →
    let x := s.queue q n
    let resets := min (s.qget q (Reg.CLU_QSTATE.RESETS n) + 1) 255
    (s.qget q (Reg.CLU_QCFG.MODE n) = 0 → ∃ u, exec (.queueSweepDone q n) s = .next u ∧ s.onlyQueue u q n QueueSt.empty
      ∧ u.qget q (Reg.CLU_QSTATE.STATE n) = 1 ∧ u.qget q (Reg.CLU_QSTATE.RESETS n) = resets
      ∧ u.qget q Reg.CLU_QPOOL.FREE = (s.qget q Reg.CLU_QPOOL.FREE + x.held) % 2 ^ 16 ∧ s.sameMemory u)
    ∧ (s.qget q (Reg.CLU_QCFG.MODE n) = 1 → ∃ u y, exec (.queueSweepDone q n) s = .next u ∧ (u.queue q n).cells = [y]
      ∧ y.kind = 2 ∧ y.reset = true
      ∧ y.len = min (x.sweepDrops + x.pendDrops + (x.cells.map fun k => if k.kind = 2 then k.len else 1).sum) lenMax
      ∧ u.qget q (Reg.CLU_QSTATE.STATE n) = 1 ∧ u.qget q (Reg.CLU_QSTATE.RESETS n) = resets))


/-- A reply to a core ends its request (R218, R223): the four lines of a `GATHER`, or D, are written; the counter increment is made; nothing else
changes. A failed request also completes. At the drain bound the requests still outstanding are withdrawn: after a pause each is kept as a
reissue record, in order; after a whistle they are gone, D of a read is poisoned, they are counted in WITHDRAWN, and one notice names their
number; a core with none changes nothing (R223, R224). -/
def Obligations.RepliesCompleteAndDrainBoundWithdraws : Prop :=
  (∀ (s : State) (m : HubRep) (r : FetchReq), s.canonical = true → isCompute m.dsite = true → m.dunit < 48 → m.dpanel = s.ownPanel →
    let c : CoreRef := ⟨m.dsite, m.dunit⟩
    let t := r.owner
    let g := Reg.CORE_FT_G.VALUE (t.thread * 16 + r.dreg)
    let mine (x : FetchReq) : Bool := x.ofCore c && x.req.tag == m.tag
    let left := s.outstanding.filter fun x => !mine x
    let ends : List (Nat × Fld × Nat) :=
      [(c.site, (Reg.CORE_FT_THREAD.OUTSTANDING t.thread).nth c.core, (left.filter fun x => x.owner == t).length % 2 ^ 6),
       (c.site, (Reg.CORE_FT_THREAD.REISSUE t.thread).nth c.core, (s.reissue.filter fun x => x.owner == t).length % 2 ^ 6),
       (c.site, Reg.CORE_FT_UNIT.OUTSTANDING.nth c.core, (left.filter fun x => x.ofCore c).length % 2 ^ 10),
       (c.site, (Reg.CORE_CCOUNT.VALUE r.ctr).nth c.core, s.cget c (Reg.CORE_CCOUNT.VALUE r.ctr) + if r.ctrEn then 1 else 0)]
    let writesD (v : Nat) (p : Bool) : List (Nat × Fld × Nat) :=
      [(c.site, g.nth c.core, v), (c.site, (Reg.CORE_FT_THREAD.POISONED t.thread).nth c.core, maskWith (s.tget t Reg.CORE_FT_THREAD.POISONED) r.dreg p),
       (c.site, (Thread.PENDING t.thread).nth c.core, maskWith (s.tget t Thread.PENDING) r.dreg false)]
    m.epoch = s.cget c Reg.CORE_SCHED_STATUS.EPOCH → s.outstanding.filter mine = [r] → r.thread < 48 → r.ctr < 16 → r.dreg < 16 →
    s.cget c (Reg.CORE_CCOUNT.VALUE r.ctr) < 0xFFFFFF →
    (m.status ≤ 1 → r.op ≠ 0x24 → r.returns = false →
      ∃ u, exec (.hubReply m) s = .next u
        ∧ u = { s with fld := u.fld, outstanding := left, hubReps := u.hubReps } ∧ s.fieldsBecome u ends)
    ∧ (m.status ≤ 1 → r.op ≠ 0x24 → r.returns = true → m.poison.toNat.testBit 0 = false → ∀ v,
      v = (let x := leNat (m.data.take 8); if r.width = 0 then x else x % 2 ^ (8 * r.width)) →
      (∀ o, r.tw = some o → v.testBit 63 = true) →
      ∃ u, exec (.hubReply m) s = .next u
        ∧ u = { s with fld := u.fld, outstanding := left, hubReps := u.hubReps }
        ∧ s.fieldsBecome u (ends ++ writesD ((match r.tw with | some o => bitsOf v 56 0 + o | none => v) % 2 ^ 64) false))
    ∧ (m.status ≤ 1 → r.op = 0x24 → m.data.length = 256 → r.localKey % 8 = 0 →
      ∃ u, exec (.hubReply m) s = .next u
        ∧ u = { s with fld := u.fld, outstanding := left, hubReps := u.hubReps, sram := u.sram, sramPoison := u.sramPoison, sramUpset := u.sramUpset }
        ∧ s.fieldsBecome u ends ∧ u.rd r.localKey 256 = m.data ∧ s.sameBytesBut u r.localKey 256
        ∧ u.bytePoison r.localKey 256 = (List.range 256).map fun i => m.poison.toNat.testBit (i / 8))
    ∧ (1 < m.status → r.op ≠ 0x24 →
      let kind := if m.status = 0x31 then 2 else if m.status = 0x30 ∨ m.status = 0x32 ∨ m.status = 0x33 then 1 else 3
      let n := s.dieNotice c.site c.core 0x0301 3 (r.thread + kind * 64) (r.pc + bitsOf r.req.addr 55 44 * 2 ^ 32)
      s.cget c Reg.CORE_FT_ERR_LOG.VALID = 1 →
      ∃ u v, exec (.hubReply m) s = .next u
        ∧ u = { s with fld := u.fld, outstanding := left, hubReps := u.hubReps, noticeBuf := s.bufWith n, fresh := u.fresh }
        ∧ s.fieldsBecome u (ends ++ s.noticeWrites c.site ++ (if r.returns then writesD v true else [])
          ++ [(c.site, (Reg.CORE_FT_THREAD.FAILS t.thread).nth c.core, min 255 (s.tget t Reg.CORE_FT_THREAD.FAILS + 1)),
              s.counted c.site ((if kind = 2 then Reg.CORE_FT_FAILS.IN_DOUBT else Reg.CORE_FT_FAILS.UNDELIVERED).nth c.core)])))
  ∧ (∀ (s : State) (c : CoreRef), s.canonical = true → c.wf = true →
    let mine := s.outstanding.filter fun r => r.ofCore c
    let left := s.outstanding.filter fun r => !r.ofCore c
    let counts := coreFld c Reg.CORE_FT_UNIT.OUTSTANDING :: mine.flatMap fun r =>
      [coreFld c (Reg.CORE_FT_THREAD.OUTSTANDING r.thread), coreFld c (Reg.CORE_FT_THREAD.REISSUE r.thread)]
    (s.cget c Core.FT_STOP = 1 →
      ∃ u, exec (.fetchDrainBound c) s = .next u
        ∧ u = { s with fld := u.fld, outstanding := left, reissue := s.reissue ++ mine } ∧ s.sameFields u counts)
    ∧ (s.cget c Core.FT_STOP = 2 → mine ≠ [] → s.cget c Reg.CORE_FT_ERR_LOG.VALID = 1 →
      (∀ r ∈ mine, r.thread < 48 ∧ r.dreg < 16 ∧ r.op ≠ 0x24 ∧ r.ctrEn = false) →
      ∃ u, exec (.fetchDrainBound c) s = .next u
        ∧ u = { s with
          fld := u.fld
          outstanding := left
          noticeBuf := s.bufWith (s.dieNotice c.site c.core 0x0302 0 mine.length 0)
          fresh := u.fresh }
        ∧ u.cget c Reg.CORE_FT_FAILS.WITHDRAWN = min (s.cget c Reg.CORE_FT_FAILS.WITHDRAWN + mine.length) (2 ^ 16 - 1)
        ∧ (∀ r ∈ mine, r.returns = true → u.gpois r.owner r.dreg = true ∧ u.gpend r.owner r.dreg = false)
        ∧ (∀ e ∈ s.noticeWrites c.site, u.get e.1 e.2.1 = e.2.2)
        ∧ s.sameFields u (counts ++ [coreFld c Reg.CORE_FT_FAILS.WITHDRAWN] ++ noticeFlds c.site
          ++ mine.flatMap fun r => [coreFld c (Reg.CORE_FT_THREAD.FAILS r.thread), coreFld c (Reg.CORE_FT_G.VALUE (r.thread * 16 + r.dreg)),
            coreFld c (Reg.CORE_FT_THREAD.POISONED r.thread), coreFld c (Thread.PENDING r.thread)]))
    ∧ (mine = [] → s.cget c Core.FT_STOP ≠ 2 → exec (.fetchDrainBound c) s = .next s))


/-! ### Hubs -/

/-- A hub answers a read with the bytes at the address and the poison of their words, and changes nothing (R231, R241, R242); a write leaves the
bytes and their poison, merging sectors it covers in part, and changes no other byte (R232). -/
def Obligations.HubsReadAndWrite : Prop :=
  ∀ (s : State) (stack : Nat) (r : HubReq), s.canonical = true → r.opid = 0 → r.param = 0 → r.order = 0 → r.group = 0 →
    let a := r.addr % 2 ^ 44
    let k := s.hbmAt a
    let part := r.length ≠ 0 ∧ a % 256 + r.length ≤ 256
    let whole := r.length = 0 ∧ a % 256 = 0
    let eight := r.length = 0 ∧ a % 8 = 0
    (∀ e ∈ [(Instr.hubRead stack r, 0, 256, whole), (.read8 stack r, 1, 8, eight), (.partRead stack r, 8, r.length, part)],
      e.2.2.2 → s.hubServes stack r e.2.2.1 →
      ∃ u p, exec e.1 s = .next u ∧ u = { s with hubReqs := u.hubReqs, hubReps := u.hubReps }
        ∧ s.answeredBy u { r with opc := e.2.1 } (hubRep r 0 (mapRead 0 s.hbm k e.2.2.1) p)
        ∧ ∀ j < 32, (p.getLsbD j = true ↔ ∃ i < e.2.2.1, i / 8 = j ∧ mapGet 0 s.hbmPoison ((k + i) / 32) = 1))
    ∧ (∀ e ∈ [(Instr.hubWrite stack r, 2, 256, whole), (.write8 stack r, 3, 8, eight), (.partWrite stack r, 9, r.length, part)],
      e.2.2.2 → s.hubServes stack r e.2.2.1 →
      ∃ u, exec e.1 s = .next u
        ∧ u = { s with hubReqs := u.hubReqs, hubReps := u.hubReps, hbm := u.hbm, hbmPoison := u.hbmPoison }
        ∧ s.answeredBy u { r with opc := e.2.1 } (hubRep r 0 [] 0)
        ∧ s.hbmWritten u k ((List.range e.2.2.1).map fun i => r.data.getD i 0) (fun i => r.poison.getLsbD (i / 8)))

/-- A converting read answers with its elements decoded and converted to the compute format, a converting write stores its values encoded, for
the formats and regions of R254 and R255; besides memory only the sticky status bits of the conversions may change (R258). -/
def Obligations.HubsConvert : Prop :=
  ∀ (s : State) (stack : Nat) (r : HubReq) (p : HubPlan) (m c : Fmt), s.canonical = true → stack < 64 → r.wf = true →
    let flags := [Reg.HUB_CONV_STATUS.OVERFLOW, Reg.HUB_CONV_STATUS.NAN_ZERO, Reg.HUB_CONV_STATUS.NAN_BLOCK, Reg.HUB_CONV_STATUS.DECODE_INF].map
      fun f => (siteOfStack stack, f)
    let bytes (t : State) (ps : List Piece) : List Byte := ps.flatMap fun x => mapRead 0 t.hbm x.key x.len
    let ready (q : HubReq) : Prop := s.hubCheck stack q = .inr p ∧ convFmts q = some (m, c) ∧ p.elems ≠ []
      ∧ (p.elems.headD ⟨stack, 0, 0⟩).stack = stack ∧ s.hubBlocked stack = false
      ∧ ∀ x ∈ p.all, s.scrubbing x.stack = false ∧ s.channelState x.stack x.saddr = 0 ∧ sectorsIn s.hbmUpset x.key x.len = []
        ∧ sectorsIn s.hbmPoison x.key x.len = []
    (let q := { r with opc := 6 }
     ready q →
      ∃ u data, exec (.gatherC stack r) s = .next u
        ∧ u = { s with fld := u.fld, hubReqs := u.hubReqs, hubReps := u.hubReps } ∧ s.sameFields u flags
        ∧ s.answeredBy u q (hubRep r 0 data 0) ∧ data.length = convCount q * c.bits / 8
        ∧ ∀ e < convCount q,
            let code := (unpackCodes m.bits (convCount q) (leNat (bytes s p.elems))).getD e 0
            let side := leNat (((bytes s p.sides).drop (e / 32 * m.sideBytes)).take m.sideBytes)
            leNat ((data.drop (e * (c.bits / 8))).take (c.bits / 8)) = (gatherElem c (m.decodeElem (e % 32) code side)).1)
    ∧ (let q := { r with opc := 7 }
       let rm := (RMode.ofCode (bitsOf r.param 12 10)).getD .rne
       let draw (e : Nat) : Nat := if rm = .sr then s.hubDraw stack q m e else 0
       let value (e : Nat) : FVal := c.decodeElem 0 ((unpackCodes c.bits (convCount q) (leNat ((List.range 256).map fun i => r.data.getD i 0))).getD e 0) 0
       ready q → r.poison = 0 →
       (∀ x ∈ p.elems, ∀ y ∈ p.sides, x.key + x.len ≤ y.key ∨ y.key + y.len ≤ x.key) →
      ∃ u, exec (.storeC stack r) s = .next u
        ∧ u = { s with fld := u.fld, hubReqs := u.hubReqs, hubReps := u.hubReps, hbm := u.hbm }
        ∧ s.sameFields u flags ∧ s.answeredBy u q (hubRep r 0 [] 0)
        ∧ (∀ a, (∀ x ∈ p.all, a < x.key ∨ x.key + x.len ≤ a) → mapGet 0 u.hbm a = mapGet 0 s.hbm a)
        ∧ (m.block = false → ∀ e < convCount q,
            (unpackCodes m.bits (convCount q) (leNat (bytes u p.elems))).getD e 0 = (m.encodeElem rm (!r.param.testBit 13) (draw e) (value e)).1)
        ∧ (m.block = true → ∀ j < convCount q / 32,
            let blk := encodeBlock m rm ((List.range 32).map fun i => draw (32 * j + i)) ((List.range 32).map fun i => value (32 * j + i))
            leNat (((bytes u p.elems).drop (j * m.blockBytes)).take m.blockBytes) = packCodes m.bits blk.1 % 2 ^ (8 * m.blockBytes)
              ∧ leNat (((bytes u p.sides).drop (j * m.sideBytes)).take m.sideBytes) = blk.2.1 % 2 ^ (8 * m.sideBytes)))

/-- An atomic replaces its operand in memory by its result and answers with the old value where RETURN asks for it; the operation keeps an
entry, and its duplicate is answered from that entry and not performed again (R245, R251, R253). -/
def Obligations.HubsPerformAtomicsOnce : Prop :=
  ∀ (s : State) (stack : Nat) (r : HubReq), s.canonical = true → r.order = 0 → r.group = 0 → r.length = 0 → r.param % 16 < 10 → r.param < 32 →
    let q := { r with opc := 4 }
    let n := atomWidth (r.param % 16)
    let a := r.addr % 2 ^ 44
    let k := s.hbmAt a
    let old := leNat (mapRead 0 s.hbm k n)
    let x := leNat (r.data.take 8) % 2 ^ (8 * n)
    let result := (atomResult (r.param % 16) old x (leNat ((r.data.drop 8).take 8))).getD old
    let back : List Byte := if r.param.testBit 4 then leBytes 8 old else []
    a % n = 0 → s.hubServes stack r n →
    (s.hubAccepts stack q k n → r.poison.getLsbD 0 = false →
      ∃ u, exec (.hubAtom stack r) s = .next u ∧ s.answeredBy u q (hubRep r 0 back 0)
        ∧ s.hbmWritten u k (leBytes n result) (fun _ => false) ∧ u.entered stack q back
        ∧ u = { s with fld := u.fld, hubReqs := u.hubReqs, hubReps := u.hubReps, hbm := u.hbm, hbmPoison := u.hbmPoison, dedup := u.dedup }
        ∧ s.sameFields u [(siteOfStack stack, Reg.HUB_DEDUP.WINDOWS)])
    ∧ (∀ e, s.flag (siteOfStack stack) Reg.HUB_CTL.ACCEPT_ATOM = true → s.dedupEntry stack q = some e → e.performed = true →
      ∃ u, exec (.hubAtom stack r) s = .next u ∧ s.answeredBy u q (hubRep r 1 e.data 0)
        ∧ u = { s with fld := u.fld, hubReqs := u.hubReqs, hubReps := u.hubReps }
        ∧ s.fieldsBecome u [s.counted (siteOfStack stack) Reg.HUB_DEDUP.DUPLICATES])
    ∧ (s.flag (siteOfStack stack) Reg.HUB_CTL.ACCEPT_ATOM = false →
      ∃ u, exec (.hubAtom stack r) s = .next u ∧ s.answeredBy u q (hubRep r 0x20 [] 0)
        ∧ u = { s with hubReqs := u.hubReqs, hubReps := u.hubReps })

/-- A reduction without order adds its contribution to the unit (R246). Contributions of an ordered one are applied by rank (R247): the first
rank of a new record is applied and answered, a later rank is held without an answer, and a rank outside the record is refused. -/
def Obligations.HubsReduceByRank : Prop :=
  ∀ (s : State) (stack : Nat) (r : HubReq), s.canonical = true → r.length = 0 → r.param < 8 → r.param % 4 < 3 → r.data.length = 256 →
    let q := { r with opc := 5 }
    let a := r.addr % 2 ^ 44
    let k := s.hbmAt a
    let unit := (s.resolve a).2
    let site := siteOfStack stack
    let sum := redSum (r.param % 4) (mapRead 0 s.hbm k 256) r.data
    let rank := r.order % 2 ^ 12
    let count := r.order / 2 ^ 12 + 1
    let gid := r.group % 2 ^ 24
    let replace : Bool := r.group.testBit 24
    let fields : List (Nat × Fld) := [(site, Reg.HUB_DEDUP.WINDOWS), (site, Reg.HUB_ORDERED.OPEN), (site, Reg.HUB_ORDERED.HELD)]
    a % 256 = 0 → s.hubServes stack r 256 → s.hubAccepts stack q k 256 →
    (r.param < 4 → r.order = 0 → r.group = 0 →
      ∃ u, exec (.hubRed stack r) s = .next u ∧ s.answeredBy u q (hubRep r 0 [] 0) ∧ u.entered stack q []
        ∧ s.hbmWritten u k sum (fun i => r.poison.getLsbD (i / 8))
        ∧ u = { s with fld := u.fld, hubReqs := u.hubReqs, hubReps := u.hubReps, hbm := u.hbm, hbmPoison := u.hbmPoison, dedup := u.dedup }
        ∧ s.sameFields u fields)
    ∧ (4 ≤ r.param → r.order < 2 ^ 24 → r.group < 2 ^ 25 → s.record stack unit = none → s.openRecords stack < 2048 →
      (rank = 0 →
        ∃ u, exec (.hubRed stack r) s = .next u ∧ s.answeredBy u q (hubRep r 0 [] 0) ∧ u.entered stack q []
          ∧ s.hbmWritten u k (if replace then r.data else sum) (fun i => r.poison.getLsbD (i / 8))
          ∧ u.record stack unit = (if count = 1 then none else some ⟨stack, unit, gid, count, r.param % 4, replace, 1, 1, []⟩)
          ∧ u = { s with fld := u.fld, hubReqs := u.hubReqs, hubReps := u.hubReps, hbm := u.hbm, hbmPoison := u.hbmPoison, dedup := u.dedup,
                         hubRecords := u.hubRecords }
          ∧ s.sameFields u fields)
      ∧ (0 < rank → rank < count → s.heldCount stack < 8192 →
        ∃ u, exec (.hubRed stack r) s = .next u ∧ u.hubReqs = dropFirst (· == q) s.hubReqs
          ∧ u.record stack unit = some ⟨stack, unit, gid, count, r.param % 4, replace, 0, 2 ^ rank, [(rank, q)]⟩
          ∧ u = { s with fld := u.fld, hubReqs := u.hubReqs, dedup := u.dedup, hubRecords := u.hubRecords } ∧ s.sameFields u fields)
      ∧ (count ≤ rank →
        ∃ u, exec (.hubRed stack r) s = .next u ∧ s.answeredBy u q (hubRep r 0x14 [] 0)
          ∧ u = { s with fld := u.fld, hubReqs := u.hubReqs, hubReps := u.hubReps, dedup := u.dedup }
          ∧ s.sameFields u ((site, Reg.HUB_ORDERED.REFUSED) :: fields)
          ∧ u.get site Reg.HUB_ORDERED.REFUSED = min (s.get site Reg.HUB_ORDERED.REFUSED + 1) (2 ^ Reg.HUB_ORDERED.REFUSED.width - 1)))


/-- The patrol scrubber corrects and rewrites a sector with one error, and counts a pass at the last unit (R233); the end of a zero scrub leaves
the stack ACTIVE with every byte zero and no poison (R234); an idle deduplication window of another panel is freed (R252). Persistent errors
make a channel retrain; a retrain ends ACTIVE, or FAILED after the third failure in a row (R235). A record that times out, or that the drain
bound finds open, is closed: its held contributions are answered, its unit is poisoned, and a notice names it (R250, R257). A failed HBM rail
fails every channel of its block (R416). -/
def Obligations.HubsScrubAndRecordsFail : Prop :=
  (∀ (s : State) (stack : Nat), s.canonical = true → stack < 64 →
    let site := siteOfStack stack
    (∀ a, s.get site Reg.HUB_CTL.PATROL_EN = 1 → s.scrubbing stack = false → a % 256 = 0 → a < 2 ^ 36 →
      let pass := s.counted site Reg.HUB_SCRUB.PASSES (if a = 2 ^ 36 - 256 then 1 else 0)
      (sectorsIn s.hbmUpset (hbmKey stack a) 256 = [] →
        ∃ u, exec (.hbmPatrolRead stack a) s = .next u ∧ s.onlyBecome u [pass])
      ∧ ∀ q, sectorsIn s.hbmUpset (hbmKey stack a) 256 = [q] → mapGet 0 s.hbmUpset q = 1 → mapGet 0 s.hbmPoison q = 0 →
        s.get site Reg.HUB_CTL.CE_THRESHOLD = 0 → s.get site Reg.HUB_ERR_LOG.VALID = 1 →
        ∃ u, exec (.hbmPatrolRead stack a) s = .next u
          ∧ u = { s with fld := u.fld, hbmUpset := mapErase s.hbmUpset q }
          ∧ s.fieldsBecome u [pass, s.counted site Reg.HUB_CE.CORRECTED, s.counted site Hub.CE_SINCE])
    ∧ (s.scrubbing stack = true → s.get site Hub.READY = 1 →
      ∃ u, exec (.zeroScrubDone stack) s = .next u
        ∧ u = { s with fld := u.fld, hbm := u.hbm, hbmPoison := u.hbmPoison, hbmUpset := u.hbmUpset }
        ∧ s.fieldsBecome u [(site, Reg.HUB_SCRUB.ACTIVE, 0), (site, Reg.HUB_STATUS.STATE, 1), s.counted site Reg.HUB_SCRUB.ZERO_SCRUBS]
        ∧ (∀ a, mapGet 0 u.hbm a = if a / 2 ^ 36 = stack then 0 else mapGet 0 s.hbm a)
        ∧ (∀ q, mapGet 0 u.hbmPoison q = if q / 2 ^ 31 = stack then 0 else mapGet 0 s.hbmPoison q)
        ∧ (∀ q, mapGet 0 u.hbmUpset q = if q / 2 ^ 31 = stack then 0 else mapGet 0 s.hbmUpset q))
    ∧ (∀ panel w, panel ≠ s.ownPanel → s.get site Reg.HUB_CTL.DEDUP_IDLE ≠ 0 → s.dedup.filter (fun x => x.is stack panel) = [w] →
      ∃ u, exec (.dedupWindowIdle stack panel) s = .next u
        ∧ u = { s with fld := u.fld, dedup := s.dedup.filter fun x => !x.is stack panel }
        ∧ s.sameFields u [(site, Reg.HUB_DEDUP.WINDOWS)]
        ∧ u.get site Reg.HUB_DEDUP.WINDOWS = (u.windowsOf stack + 1) % 2 ^ Reg.HUB_DEDUP.WINDOWS.width))
  ∧ (∀ (s : State) (stack : Nat), s.canonical = true → stack < 64 →
    let site := siteOfStack stack
    let chan (ch : Nat) : Fld := Reg.HUB_CHAN_STATUS.CHAN ch
    (∀ ch < 32, s.get site (chan ch) = 0 → ∃ u, exec (.channelErrors stack ch) s = .next u ∧ s.onlyBecome u [(site, chan ch, 1)])
    ∧ (∀ ch < 32, s.get site (chan ch) = 1 → s.hubWaits = [] →
      (∃ u, exec (.channelRetrainDone stack ch true) s = .next u
        ∧ s.onlyBecome u [(site, chan ch, 0), (site, Hub.RETRIES ch, 0), (site, Reg.CLK_FABRIC.AUX_LOCK, 1)])
      ∧ (s.get site (Hub.RETRIES ch) < 2 →
        ∃ u, exec (.channelRetrainDone stack ch false) s = .next u
          ∧ s.onlyBecome u [(site, Hub.RETRIES ch, s.get site (Hub.RETRIES ch) + 1)])
      ∧ (s.get site (Hub.RETRIES ch) = 2 → (∀ c ∈ s.hubRecords, c.stack ≠ stack) → s.get site Reg.HUB_STATUS.FAILED < 32 →
        ∃ u, exec (.channelRetrainDone stack ch false) s = .next u
          ∧ u = { s with fld := u.fld, noticeBuf := s.bufWith (s.dieNotice site 63 0x0402 3 ch 0) }
          ∧ s.fieldsBecome u ([(site, chan ch, 2), (site, Hub.RETRIES ch, 3), (site, Reg.HUB_STATUS.FAILED, s.get site Reg.HUB_STATUS.FAILED + 1)]
            ++ s.noticeWrites site)))
    ∧ (∀ unit c, s.record stack unit = some c → unit % 256 = 0 → (∀ h ∈ c.held, h.2.wf = true ∧ h.2.spanel < 4096) →
      ∃ u, exec (.recordTimeout stack unit) s = .next u
        ∧ u = { s with
          fld := u.fld
          hubReps := u.hubReps
          hubRecords := s.hubRecords.filter fun d => !d.is stack unit
          dedup := u.dedup
          hbmPoison := u.hbmPoison
          hbmUpset := u.hbmUpset
          noticeBuf := s.bufWith (s.dieNotice site 63 0x0403 3 c.gid unit) }
        ∧ (∀ h ∈ c.held, hubRep h.2 0x21 [] 0 ∈ u.hubReps)
        ∧ (∀ q, mapGet 0 u.hbmPoison q = if hbmKey stack unit / 256 = q / 8 then 1 else mapGet 0 s.hbmPoison q)
        ∧ u.get site Reg.HUB_ORDERED.ABORTS = min (s.get site Reg.HUB_ORDERED.ABORTS + 1) (2 ^ 16 - 1)
        ∧ s.sameFields u ([(site, Reg.HUB_ORDERED.ABORTS), (site, Reg.HUB_ORDERED.OPEN), (site, Reg.HUB_ORDERED.HELD),
            (site, Reg.HUB_DEDUP.DUPLICATES)] ++ noticeFlds site))
    ∧ (s.get site Hub.DRAINING = 1 →
      ∃ u, exec (.hubDrainBound stack) s = .next u ∧ u.get site Hub.DRAINING = 0
        ∧ u.hubRecords = s.hubRecords.filter (fun d => d.stack != stack)
        ∧ (∀ c ∈ s.hubRecords, c.stack = stack → c.unitAddr % 256 = 0 →
            ∀ i < 8, mapGet 0 u.hbmPoison (hbmKey stack c.unitAddr / 32 + i) = 1)
        ∧ u = { s with
          fld := u.fld
          hubReps := u.hubReps
          hubRecords := u.hubRecords
          dedup := u.dedup
          hbmPoison := u.hbmPoison
          hbmUpset := u.hbmUpset
          noticeBuf := u.noticeBuf }
        ∧ s.sameFields u ([(site, Hub.DRAINING), (site, Reg.HUB_ORDERED.ABORTS), (site, Reg.HUB_ORDERED.OPEN), (site, Reg.HUB_ORDERED.HELD)]
            ++ noticeFlds site))
    ∧ ∀ block < 16, s.hubWaits = [] → s.hubRecords = [] →
      ∃ u, exec (.hbmRailFault block) s = .next u ∧ u = { s with fld := u.fld, noticeBuf := u.noticeBuf }
        ∧ (∀ i < 4, ∀ ch < 32, u.get (siteOfStack (4 * block + i)) (chan ch) = 2)
        ∧ s.sameFields u ((List.range 4).flatMap fun i =>
            let k := siteOfStack (4 * block + i)
            (k, Reg.HUB_STATUS.FAILED) :: ((List.range 32).map fun ch => (k, chan ch)) ++ noticeFlds k))


/-! ### Mesh -/

/-- A unicast packet that a unit injects gets its header completed and leaves on the output of its route: the unit at its destination has it, or
its flits are in the replay buffer of the link, dealt in order and charged to the credits (R264, R268, R271, R272, R275). A control or link die
that injects a multicast keeps a record of it (R283). A flit that arrives in order is accepted, and a whole packet for the local unit handed on; one
that fails its parity is counted and NAKed (R264, R265). Acknowledgements free flits, and credits return (R263, R271). -/
def Obligations.MeshCarriesPackets : Prop :=
  ∀ (s : State) (site : Nat), s.canonical = true → s.alive site = true → s.meshQuiet site →
    (∀ p m, p.wf = true → p.mcast = false → 1 ≤ p.plen → p.plen ≤ 496 → s.get site Reg.MESH_CTL.TIMEOUT = 0 →
      let dst := if p.toDie then s.siteOf p.dest else p.dest
      let full : Packet := { p with
        lane := if m = site then 1 else 0, mcopy := false, toDie := false, dsite := dst, msite := m, ssite := site, hops := 0, mcid := 0, dld := 0,
        mask := 0, expect := 0 }
      let out := (routeOut site full).1
      let q := (routeOut site full).2
      s.route site dst = some m →
      (out = 4 → s.get site Reg.MESH_STATUS.LOCAL_FENCED = 0 → forPort ⟨site, q⟩ = false →
        ∃ u, exec (.packetInject site p) s = .next u ∧ u = { s with fld := u.fld, delivered := s.delivered ++ [⟨site, q⟩] }
          ∧ s.sameFields u (passFlds site 4 p.cls)
          ∧ u.get site (Reg.MESH_FWD.COUNT p.cls) = min (s.get site (Reg.MESH_FWD.COUNT p.cls) + 1) (2 ^ (Reg.MESH_FWD.COUNT p.cls).width - 1))
      ∧ (out < 4 → s.canSend site out q = true →
        let vc := vcOf q.cls q.lane
        let sent := { q with hops := min 255 (hopCount site ((s.farSite site out).getD site)) }
        ∃ u fs, exec (.packetInject site p) s = .next u ∧ u = { s with fld := u.fld, txFlits := s.txFlits ++ fs }
          ∧ fs.length = packetFlits q
          ∧ (∀ i < fs.length, ∃ x, fs[i]? = some x ∧ x.site = site ∧ x.port = out
              ∧ x.flit.pos = (s.get site (Mesh.TX_NEXT out) + i) % 512
              ∧ x.flit.data = (List.range 64).map fun j => (packetBytes sent).getD (64 * i + j) 0)
          ∧ u.get site (Mesh.TX_NEXT out) = (s.get site (Mesh.TX_NEXT out) + fs.length) % 512
          ∧ u.get site (Mesh.CREDIT out vc) = s.get site (Mesh.CREDIT out vc) - fs.length
          ∧ s.sameFields u (passFlds site out p.cls ++ [(site, Mesh.TX_NEXT out), (site, Mesh.TX_LAST out), (site, Mesh.CREDIT out vc)])))
    ∧ (∀ p, p.wf = true → p.mcast = true → 1 ≤ p.plen → p.plen ≤ 472 → p.mask ≠ 0 → (dieKind site = .control ∨ dieKind site = .link) →
      ∃ u, exec (.packetInject site p) s = .next u ∧ s.sameMemory u
        ∧ ⟨site, p.mcid, (destsOf p).length, p.mask, 0, 0⟩ ∈ u.mcasts)
    ∧ (∀ port sub f, port < 4 → sub < 4 → f.wf = true → s.portDown site port = false →
      (s.get site (Reg.MESH_PORT.RX_ACTIVE port)).testBit sub = true → s.get site (Mesh.RX_NAK port sub) = 0 →
      let p := packetOf (leBytes 64 f.data.toNat)
      let q := (routeOut site p).2
      (f.parityOk = true → f.eccOk = true → f.valid = true → f.head = true → f.tail = true → f.ackv = false → f.nakv = false → f.crv = false →
        f.seq = s.get site (Mesh.RX_NEXT port) → (∀ r ∈ s.rxFlits, ¬ (r.site = site ∧ r.port = port)) → p.mcast = false → p.mcopy = false →
        p.cls < 5 → (routeOut site p).1 = 4 → s.get site Reg.MESH_STATUS.LOCAL_FENCED = 0 → forPort ⟨site, q⟩ = false →
        ∃ u, exec (.flit site port sub f) s = .next u ∧ u = { s with fld := u.fld, delivered := s.delivered ++ [⟨site, q⟩] }
          ∧ u.get site (Mesh.RX_NEXT port) = (f.seq + 1) % 512 ∧ u.get site (Mesh.RX_POS port sub) = f.seq
          ∧ u.get site (Mesh.RX_FAILS port sub) = 0
          ∧ s.sameFields u (passFlds site 4 p.cls ++ [(site, Mesh.RX_NEXT port), (site, Mesh.RX_POS port sub), (site, Mesh.RX_FAILS port sub),
              (site, Mesh.CREDIT_DUE port (vcOf p.cls p.lane))]))
      ∧ (f.parityOk = false → s.get site (Mesh.RX_FAILS port sub) < 7 →
        ∃ u, exec (.flit site port sub f) s = .next u
          ∧ s.onlyBecome u [s.counted site (Reg.MESH_PERR.RXFAIL port), (site, Mesh.RX_FAILS port sub, s.get site (Mesh.RX_FAILS port sub) + 1),
              (site, Mesh.RX_NAK port sub, 1)])
      ∧ (f.parityOk = true → f.valid = false → f.nakv = false →
        let back := min 16 (s.get site (Mesh.CREDIT port f.crvc) + f.crcount + 1)
        ∃ u, exec (.flit site port sub f) s = .next u
          ∧ u = { s with
            fld := u.fld
            txFlits := if f.ackv then
                s.txFlits.filter fun t => !(t.site == site && t.port == port && (f.ackpos + 512 - t.flit.pos) % 512 < 256)
              else s.txFlits }
          ∧ s.fieldsBecome u [(site, Mesh.CREDIT port f.crvc, if f.crv then back else s.get site (Mesh.CREDIT port f.crvc))]))
    ∧ (∀ port sub, port < 4 → sub < 4 → s.portDown site port = false → s.get site (Mesh.RX_NAK port sub) = 1 →
      let active := s.get site (Reg.MESH_PORT.RX_ACTIVE port)
      (s.get site (Mesh.RX_FAILS port sub) < 7 →
        ∃ u, exec (.nakRepeat site port sub) s = .next u
          ∧ s.onlyBecome u [(site, Mesh.RX_FAILS port sub, s.get site (Mesh.RX_FAILS port sub) + 1)])
      ∧ (s.get site (Mesh.RX_FAILS port sub) = 7 → active ≠ 2 ^ sub →
        ∃ u, exec (.nakRepeat site port sub) s = .next u
          ∧ u = { s with fld := u.fld, noticeBuf := s.bufWith (s.dieNotice site 63 0x0502 2 (port + 4 * sub + 16) 0) }
          ∧ s.fieldsBecome u ([(site, Mesh.RX_FAILS port sub, 8), (site, Reg.MESH_PORT.RX_ACTIVE port, maskWith active sub false),
              (site, Reg.MESH_PORT.STATE port, 1)] ++ s.noticeWrites site)))

/-- A destination of a multicast acknowledges it once, with its status (R283). A timeout that ends well puts its tables in force and clears TIMEOUT
everywhere; one whose drain is not complete leaves the tables, and one whose router does not answer drives WP and leaves TIMEOUT set; the command
ends with its status and the map of the routers (R289, R290). A fenced reply is taken (R285). -/
def Obligations.TimeoutsAndAcknowledgements : Prop :=
  ∀ s : State, s.canonical = true →
    (∀ ssite mcid ldie status m pre post, s.mcasts = pre ++ m :: post → (∀ x ∈ pre, ¬ (x.ssite = ssite ∧ x.mcid = mcid)) →
      m.ssite = ssite → m.mcid = mcid → m.left.getLsbD ldie = true → ldie < 144 → status < 3 →
      ∃ u m', exec (.multicastAck mcid ssite ldie status) s = .next u ∧ u = { s with mcasts := pre ++ m' :: post }
        ∧ m'.ssite = ssite ∧ m'.mcid = mcid ∧ m'.expect = m.expect
        ∧ ∀ i < 144, m'.left.getLsbD i = (m.left.getLsbD i && i != ldie)
          ∧ m'.fenced.getLsbD i = (m.fenced.getLsbD i || (i == ldie && status == 1))
          ∧ m'.unreachable.getLsbD i = (m.unreachable.getLsbD i || (i == ldie && status == 2)))
    ∧ (∀ ldie pre post x, ldie < 144 →
      (let isIt (d : SitePacket) : Bool := d.site == s.controlSite && d.packet.cls == 3 && d.packet.sunit == 6
          && d.packet.payload == leBytes 2 0 ++ [BitVec.ofNat 8 ldie, 1, 0, 0, 0, 0]
       s.delivered = pre ++ x :: post → isIt x = true → (∀ y ∈ pre, isIt y = false) →
       exec (.fencedReply ldie) s = .next { s with delivered := pre ++ post }))
    ∧ ∀ r d, s.timeout = some r → r.kind = 0 → s.outstandingOp Op.FABRIC_TIMEOUT = some d → d.slot = none → s.canEnd d → s.waitTimeouts = [] →
      s.meshWait = [] → s.arrived = [] → (∀ x ∈ s.delivered, forPort x = false) →
      let words (sites : List Nat) : List Nat :=
        (List.range 4).map fun w => ((List.range 64).filter fun i => (64 * w + i) ∈ sites).foldl (fun m i => m ||| 2 ^ i) 0
      let quiet : List (Nat × Fld) := (List.range 256).map fun k => (k, Reg.MESH_CTL.TIMEOUT)
      (s.drained r = true → r.tables.alive = none →
        ∃ u, exec .timeoutDrainDone s = .next u ∧ u.timeout = none ∧ s.cmdEnded u d 0 []
          ∧ (∀ k < 256, u.get k Reg.MESH_CTL.TIMEOUT = 0)
          ∧ (∀ i < 144, u.get panelSite (Reg.MESH_L2S.SITE i) = s.siteNext r i % 256
              ∧ u.get panelSite (Reg.MESH_FENCED.FENCED i) = if s.fencedNext r i then 1 else 0)
          ∧ (∀ e, r.tables.ilv = some e → r.tables.ilvFirst + e.length ≤ 4096 → ∀ i < e.length,
              u.get panelSite (Reg.MESH_ILV.ENTRY (r.tables.ilvFirst + i)) = (e.getD i 0).toNat % 2 ^ 17)
          ∧ u = { s with fld := u.fld, timeout := none, deferred := u.deferred, replies := u.replies, stored := u.stored, txFrames := u.txFrames,
                         fresh := u.fresh }
          ∧ s.sameFields u (quiet ++ endFlds d
              ++ ((List.range 144).flatMap fun i => [panelFld (Reg.MESH_L2S.SITE i), panelFld (Reg.MESH_FENCED.FENCED i)])
              ++ ((List.range ((r.tables.ilv.map (·.length)).getD 0)).map fun i => panelFld (Reg.MESH_ILV.ENTRY (r.tables.ilvFirst + i)))))
      ∧ (∀ left : List Nat, (∀ k ∈ left, k < 256) →
        ∃ u, exec (.timeoutDrainLimit left) s = .next u ∧ u.timeout = none ∧ s.cmdEnded u d 0x22 (words left)
          ∧ (∀ k < 256, u.get k Reg.MESH_CTL.TIMEOUT = 0)
          ∧ u.noticeBuf = s.bufWith (s.ctlNotice 0x0506 3 none left.dedup.length 0)
          ∧ u = { s with fld := u.fld, timeout := none, deferred := u.deferred, replies := u.replies, stored := u.stored, txFrames := u.txFrames,
                         fresh := u.fresh, noticeBuf := u.noticeBuf }
          ∧ s.sameFields u (quiet ++ endFlds d ++ noticeFlds s.controlSite))
      ∧ (∀ site left, site < 256 → (∀ k ∈ left, k < 256) → s.aliveNext r site = true →
        ∃ u, exec (.routerNoAnswer site left) s = .next u ∧ u.timeout = none ∧ s.cmdEnded u d 0x30 (words (site :: left))
          ∧ (u.get panelSite Reg.SQD_LINES.WHISTLE).testBit 16 = true
          ∧ u.noticeBuf = s.bufWith (s.ctlNotice 0x0506 3 none (site :: left).dedup.length 0)
          ∧ u = { s with fld := u.fld, timeout := none, deferred := u.deferred, replies := u.replies, stored := u.stored, txFrames := u.txFrames,
                         fresh := u.fresh, noticeBuf := u.noticeBuf }
          ∧ s.sameFields u (endFlds d ++ lineFlds 16 ++ noticeFlds s.controlSite))


/-! ### Ports -/

/-- The expected frame is accepted: a request or reply for this panel goes on to its unit, one for another panel leaves by its route (R300, R306);
a failed frame on its lane is lost, and one NAK is sent (R301). A CTRL frame frees the held frames that its ACK covers and brings credits, and with
NAK the first held frame is sent again with REPLAY (R299, R301); one is sent when its timer runs out; RTO replays as well. -/
def Obligations.PortsCarryFrames : Prop :=
  ∀ (s : State) (port : Nat), s.canonical = true → s.portCalm port →
    let site := siteOfPort port
    (∀ lane f, s.frameExpected port lane f →
      let bytes := f.payload.take f.plen
      (f.vc = 0 → f.dpanel = s.ownPanel →
        ∃ u, exec (.pkt port lane f) s = .next u ∧ u = { s with fld := u.fld, hubReqs := s.hubReqs ++ [hubReqOf bytes] }
          ∧ s.fieldsBecome u (s.acceptWrites port f))
      ∧ (f.vc = 1 → f.dpanel = s.ownPanel →
        ∃ u, exec (.pkt port lane f) s = .next u ∧ u = { s with fld := u.fld, hubReps := s.hubReps ++ [hubRepOf bytes] }
          ∧ s.fieldsBecome u (s.acceptWrites port f))
      ∧ (f.vc = 3 → f.dpanel = s.ownPanel →
        ∃ u, exec (.pkt port lane f) s = .next u ∧ u = { s with fld := u.fld, arrived := s.arrived ++ [⟨port, lane, false, f⟩] }
          ∧ s.fieldsBecome u (s.acceptWrites port f))
      ∧ (∀ e, f.vc < 2 → f.dpanel ≠ s.ownPanel → f.hops < s.jget port Reg.PORT_CTL.MAX_HOPS → s.egress port f.dpanel = .inl e → e ≠ port →
        ∃ u, exec (.pkt port lane f) s = .next u ∧ u = { s with fld := u.fld, txFrames := u.txFrames }
          ∧ (∀ w ∈ s.acceptWrites port f, u.get w.1 w.2.1 = w.2.2)
          ∧ s.sameFields u ((s.acceptWrites port f).map (fun w => (w.1, w.2.1)) ++ sendFlds e)
          ∧ (∃ t ∈ u.txFrames, t.port = e ∧ t.frame.payload = f.payload ∧ t.frame.dpanel = f.dpanel ∧ t.frame.spanel = f.spanel)))
    ∧ (∀ f, f.ok = false → s.jget port Port.RX_LOSS = 0 → s.expectedLane port < 64 →
      ∃ u, exec (.pkt port (s.expectedLane port) f) s = .next u
        ∧ u = { s with fld := u.fld, portOut := s.portOut ++ [s.ctrlOf port true] }
        ∧ s.fieldsBecome u ([(site, Port.RX_LOSS, 1), s.counted site Reg.PORT_RETRY.NAKS_SENT] ++ s.ctrlWrites port))
    ∧ (∀ (f : Frame) (freed : List Nat), f.ok = true → freed.length = 5 → (∀ x ∈ freed, x < 2 ^ 32) →
      seqLe f.ack ((s.jget port Reg.PORT_SEQ.TX_NEXT + 2 ^ 32 - 1) % 2 ^ 32) = true → seqLe (s.jget port Reg.PORT_SEQ.TX_ACKED) f.ack = true →
      f.ack < 2 ^ 32 →
      let left := s.txFrames.filter fun t => !(t.port == port && t.sent && seqLe t.frame.seq f.ack)
      let credits : List (Nat × Fld × Nat) := (site, Reg.PORT_SEQ.TX_ACKED, f.ack) ::
        (List.range 5).map fun vc => (site, Port.FAR_FREED vc, freed.getD vc 0)
      (∃ u, exec (.ctrl port f false freed) s = .next u ∧ u = { s with fld := u.fld, txFrames := left } ∧ s.fieldsBecome u credits)
      ∧ (∀ t rest, left.filter (fun x => x.port == port) = t :: rest → (s.jget port Port.REPLAYED = 0 ∨ s.jget port Port.ACK_AT ≠ f.ack) →
        (rest.all fun x => x != t) = true →
        ∃ u, exec (.ctrl port f true freed) s = .next u
          ∧ u = { s with
            fld := u.fld
            txFrames := left.map fun x =>
              if x = t then { x with doubt := true, frame := { x.frame with replay := true } } else if x.port = port then { x with doubt := false } else x }
          ∧ s.fieldsBecome u (credits ++ [(site, Port.REPLAYED, 1), (site, Port.ACK_AT, f.ack), (site, Reg.PORT_RETRY.CONSEC, 1),
              s.counted site Reg.PORT_RETRY.REPLAYS, (site, Port.REPLAYING, if rest = [] then 0 else 1)])))
    ∧ (∃ u, exec (.ctrlTimer port) s = .next u ∧ u = { s with fld := u.fld, portOut := s.portOut ++ [s.ctrlOf port false] }
        ∧ s.fieldsBecome u (s.ctrlWrites port))
    ∧ (∀ t rest, s.txFrames.filter (fun x => x.port == port) = t :: rest → (rest.all fun x => x != t) = true →
      (s.jget port Port.REPLAYED = 0 ∨ s.jget port Port.ACK_AT ≠ s.jget port Reg.PORT_SEQ.TX_ACKED) →
      ∃ u, exec (.rto port) s = .next u
        ∧ u = { s with
          fld := u.fld
          txFrames := s.txFrames.map fun x => if x = t then { x with doubt := true, frame := { x.frame with replay := true } } else x }
        ∧ s.fieldsBecome u [(site, Port.REPLAYED, 1), (site, Port.ACK_AT, s.jget port Reg.PORT_SEQ.TX_ACKED), (site, Reg.PORT_RETRY.CONSEC, 1),
            s.counted site Reg.PORT_RETRY.REPLAYS, (site, Port.REPLAYING, if rest = [] then 0 else 1)])

/-- A receiving lane that fails retires its set while two are left, and the sender's end follows and confirms (R303); with fewer, or on a DOWN from the
far end, the port is DOWN (R311). A drain takes no new traffic and ends DISABLED (R315); unanswered MGMT frames are repeated (R296). -/
def Obligations.PortsDegradeAndDrain : Prop :=
  ∀ (s : State) (port : Nat), s.canonical = true → s.portCalm port → (∀ t ∈ s.txFrames, t.port ≠ port) →
    let site := siteOfPort port
    let notice (typ cls a0 : Nat) : List Notice := s.bufWith (s.dieNotice site 63 typ cls a0 0)
    let tx := s.jget port Reg.PORT_STATUS.TX_SETS
    let rx := s.jget port Reg.PORT_STATUS.RX_SETS
    let goesDown (u : State) (cause : Nat) (more : List (Nat × Fld × Nat)) : Prop :=
      u = { s with fld := u.fld, portOut := s.portOut ++ [(port, .mgmt 2 0 0), (port, .mgmt 2 0 0), (port, .mgmt 2 0 0)],
                   noticeBuf := notice 0x0604 3 cause }
        ∧ s.fieldsBecome u ([(site, Reg.PORT_STATUS.STATE, 6), (site, Reg.PORT_STATUS.TX_SETS, 0), (site, Reg.PORT_STATUS.RX_SETS, 0)]
            ++ more ++ s.noticeWrites site)
    (∀ sets : BitVec 4, sets.toNat &&& tx = sets.toNat → sets.toNat ≠ tx → 2 ≤ setCount sets.toNat →
      let base := (s.jget port Reg.PORT_SEQ.TX_ACKED + 1) % 2 ^ 32
      ∃ u, exec (.retire port sets) s = .next u
        ∧ u = { s with fld := u.fld, portOut := s.portOut ++ [(port, .mgmt 1 sets.toNat base)], noticeBuf := notice 0x0602 2 (2 * sets.toNat) }
        ∧ s.fieldsBecome u ([(site, Reg.PORT_STATUS.TX_SETS, sets.toNat), (site, Port.TX_BASE, base), (site, Reg.PORT_STATUS.STATE, 3)]
            ++ s.noticeWrites site))
    ∧ (∀ base, base < 2 ^ 32 → s.jget port Port.RETIRING = 1 →
      ∃ u, exec (.confirm port (BitVec.ofNat 4 rx) base) s = .next u ∧ s.onlyBecome u [(site, Port.RX_BASE, base), (site, Port.RETIRING, 0)])
    ∧ (∃ u, exec (.down port) s = .next u ∧ goesDown u 2 [])
    ∧ (∃ u, exec (.drain port) s = .next u ∧ s.onlyBecome u [(site, Reg.PORT_STATUS.STATE, 4), (site, Port.DRAIN_SENT, 0)])
    ∧ (∃ u, exec (.mgmtRepeat port) s = .next u
        ∧ u = { s with portOut := s.portOut ++ if s.jget port Port.RETIRING = 1 then [(port, .mgmt 0 rx 0)] else [] })
    ∧ (∀ lane < 64, rx.testBit (lane / 16) = true →
      let left := rx - 2 ^ (lane / 16)
      (2 ≤ setCount left → (left.testBit (s.expectedLane port / 16) = true ∨ s.jget port Port.RX_LOSS = 1) →
        ∃ u, exec (.laneFailure port lane) s = .next u
          ∧ u = { s with fld := u.fld, portOut := s.portOut ++ [(port, .mgmt 0 left 0)], noticeBuf := notice 0x0602 2 (1 + 2 * left) }
          ∧ s.fieldsBecome u ([(site, Reg.PORT_LANE.FAILED lane, 1), (site, Reg.PORT_STATUS.RX_SETS, left), (site, Port.RETIRING, 1),
              (site, Reg.PORT_STATUS.STATE, 3)] ++ s.noticeWrites site))
      ∧ (setCount left < 2 →
        ∃ u, exec (.laneFailure port lane) s = .next u ∧ goesDown u 0 [(site, Reg.PORT_LANE.FAILED lane, 1)]))

/-- The end of a 1 ms window records a lane's readings (R321). A request that has had no reply in time is answered `IN_DOUBT` (R308). A DOWN port
retrains (R311); a drain that reaches its bound leaves the port DISABLED (R315); a port that has trained is UP on four sets each way and NARROW on
fewer, with SEQ and ACK afresh, and stays in TRAINING with lanes out of place (R293, R300, R447). -/
def Obligations.PortsMeasureAndTrain : Prop :=
  ∀ (s : State) (port : Nat), s.canonical = true → port < 8 →
    let site := siteOfPort port
    let notice (typ cls a0 : Nat) : List Notice := s.bufWith (s.dieNotice site 63 typ cls a0 0)
    (∀ lane (rxpow : Int) bias prefec uncorr, lane < 64 → s.portCarries port = true → -32768 ≤ rxpow → rxpow < 32768 → bias < 4096 →
      prefec < 262143 → uncorr < 256 →
      let warn := s.jget port Reg.PORT_MARGIN_CTL.PREFEC_WARN
      signed16 (s.jget port Reg.PORT_MARGIN_CTL.RXPOW_MIN) ≤ rxpow → bias ≤ s.jget port Reg.PORT_MARGIN_CTL.BIAS_MAX →
      (warn = 0 ∨ prefec < warn) → (uncorr = 0 ∨ s.jget port (Port.BAD_UNCORR lane) < 3) →
      ∃ u, exec (.fecWindow port lane rxpow bias prefec uncorr true) s = .next u
        ∧ s.onlyBecome u [(site, Reg.PORT_LANE.RXPOW lane, (rxpow % 65536).toNat), (site, Reg.PORT_LANE.BIAS lane, bias),
            (site, Reg.PORT_LANE.PREFEC lane, prefec), (site, Reg.PORT_LANE.UNCORR lane, uncorr), (site, Reg.PORT_LANE.LOCK lane, 1),
            (site, Port.BEYOND lane 0, 0), (site, Port.BEYOND lane 1, 0), (site, Port.BEYOND lane 2, 0),
            (site, Port.BAD_UNCORR lane, if uncorr = 0 then 0 else s.jget port (Port.BAD_UNCORR lane) + 1), (site, Port.BAD_PREFEC lane, 0)])
    ∧ (∀ e, s.proxies.filter (fun x => x.port == port && x.index == e.index) = [e] → e.port = port → s.proxyWait = [] →
      s.portState e.via ≠ 4 → e.req.wf = true →
      ∃ u, exec (.replyTimeout port e.index) s = .next u
        ∧ u = { s with
          fld := u.fld
          proxies := s.proxies.filter fun x => !(x.port == port && x.index == e.index)
          hubReps := s.hubReps ++ [hubRep e.req 0x31 [] 0] }
        ∧ s.fieldsBecome u [s.counted site Reg.PORT_OUTSTANDING.TIMEOUTS, s.counted site Reg.PORT_RESULTS.IN_DOUBT,
            (site, Reg.PORT_OUTSTANDING.ENTRIES, ((s.proxies.filter fun x => x.port == port).length - 1) % 2 ^ 17)])
    ∧ (s.portState port = 6 → s.jget port Reg.PORT_CTL.AUTO_RETRAIN = 1 → s.jget port Reg.PWR_DIE_STATUS.VIN_SW = 1 →
      ∃ u, exec (.autoRetrain port) s = .next u ∧ s.onlyBecome u [(site, Reg.PORT_STATUS.STATE, 1)])
    ∧ (s.portState port = 4 → s.jget port Port.DRAIN_SENT = 1 → s.jget port Port.THEN_TRAIN = 0 → (∀ t ∈ s.txFrames, t.port ≠ port) →
      (∀ r ∈ s.rxFrames, r.port ≠ port) → (∀ e ∈ s.proxies, e.via ≠ port) → s.deferred = [] →
      ∃ u, exec (.portDrainBound port) s = .next u
        ∧ s.onlyBecome u [(site, Reg.PORT_STATUS.STATE, 5), (site, Reg.PORT_STATUS.TX_SETS, 0), (site, Reg.PORT_STATUS.RX_SETS, 0),
            (site, Port.DRAIN_SENT, 0), (site, Port.THEN_TRAIN, 0)])
    ∧ (s.portState port = 1 → s.get panelSite Reg.CTL_BOOT.STAGE = 7 →
      (∀ tx rx : BitVec 4, 2 ≤ setCount tx.toNat → 2 ≤ setCount rx.toNat → s.deferred = [] → (∀ t ∈ s.txFrames, t.port ≠ port) →
        s.get panelSite Reg.THM_PANEL.AIR = 0 → s.holding = false →
        ∃ u, exec (.portTrained port tx rx 0) s = .next u
          ∧ u = { s with fld := u.fld, rxFrames := s.rxFrames.filter fun r => r.port != port, noticeBuf := notice 0x0605 0 (tx.toNat &&& rx.toNat) }
          ∧ u.portState port = (if tx = 15 ∧ rx = 15 then 2 else 3) ∧ u.jget port Reg.PORT_STATUS.TX_SETS = tx.toNat
          ∧ u.jget port Reg.PORT_STATUS.RX_SETS = rx.toNat ∧ u.jget port Reg.PORT_SEQ.TX_NEXT = 0
          ∧ u.jget port Reg.PORT_SEQ.TX_ACKED = 2 ^ 32 - 1 ∧ u.jget port Port.RX_NEXT = 0 ∧ u.jget port Port.RX_LOSS = 0
          ∧ (∀ vc < 5, u.jget port (Port.TX_WORDS vc) = 0 ∧ u.jget port (Port.FREED vc) = 0)
          ∧ ∀ k f, k ≠ site → f.off < 2 ^ 26 → f.lo < 64 → u.get k f = s.get k f)
      ∧ (∀ (tx rx : BitVec 4) (n : Nat), n ≠ 0 →
        ∃ u, exec (.portTrained port tx rx n) s = .next u ∧ u = { s with fld := u.fld, noticeBuf := notice 0x0601 2 n }
          ∧ s.fieldsBecome u ((site, Port.TRIED, 1) :: s.noticeWrites site)))

/-- The messages of a time exchange (R319): SYNC and FOLLOW_UP from the upstream panel, DELAY_REQ in answer, DELAY_RESP with t4; the offset, less
the asymmetry, and the delay follow from the four times (R320), and the control die corrects panel time by a slew. A correction edge (R398): E
advances by 4,000 and the slew step, and panel time becomes E + ALIGN unless that would lower it; a difference of more than 2 units is a slip.
A step sets E and may lower panel time, and it cancels pending slew (R400). An update waits for its apply edge; one that comes late is counted
and applies at the next edge. -/
def Obligations.PanelTimeIsExchangedAndCorrected : Prop :=
  (∀ (s : State) (port : Nat), s.canonical = true → port < 8 → s.portUsable port = true →
    let site := siteOfPort port
    let now := s.jget port Reg.CLK_PT.TIME
    let up := s.jget port Reg.PORT_TIME.UPSTREAM
    (up = 0 → s.flag panelSite Panel.REF_SET = true → s.jget port Reg.PORT_CTL.ROLE = 0 →
      let e := (s.jget port Port.EXCH + 1) % 65536
      ∃ u, exec (.timeExchange port) s = .next u ∧ u = { s with fld := u.fld, portOut := s.portOut ++ [(port, .time 0 e 0), (port, .time 1 e now)] }
        ∧ s.fieldsBecome u [(site, Port.EXCH, e), (site, Port.T1, now)])
    ∧ (∀ e, e < 65536 → up = 1 → s.jget port Port.EXCH_STEP = 0 →
      ∃ u, exec (.sync port e) s = .next u ∧ s.onlyBecome u [(site, Port.EXCH, e), (site, Port.EXCH_STEP, 1), (site, Port.T2, now)])
    ∧ (∀ t1, t1 < 2 ^ 64 → up = 1 → s.jget port Port.EXCH_STEP = 1 →
      let e := s.jget port Port.EXCH
      ∃ u, exec (.followUp port e t1) s = .next u ∧ u = { s with fld := u.fld, portOut := s.portOut ++ [(port, .time 2 e 0)] }
        ∧ s.fieldsBecome u [(site, Port.T1, t1), (site, Port.T3, now), (site, Port.EXCH_STEP, 2)])
    ∧ (∀ e, exec (.delayReq port e) s = .next { s with portOut := s.portOut ++ [(port, .time 3 e now)] })
    ∧ (∀ t4 : Nat, t4 < 2 ^ 64 → up = 1 → s.jget port Port.EXCH_STEP = 2 →
      let t (f : Fld) : Int := s.jget port f
      let there : Int := t Port.T2 - t Port.T1
      let back : Int := t4 - t Port.T3
      let off := (there - back) / 2 - signed16 (s.jget port Reg.PORT_TIME_ASYM.ASYM)
      (there - back) % 2 = 0 → (there + back) % 2 = 0 → off.natAbs ≤ 4000 → off ≠ 0 →
      ∃ u, exec (.delayResp port (s.jget port Port.EXCH) t4) s = .next u
        ∧ u = { s with
          fld := u.fld
          timeOut := s.timeOut ++ s.timeSites.map fun k =>
            ⟨k, false, off.natAbs, decide (0 < off), s.get s.controlSite Die.EDGE + applyAhead⟩ }
        ∧ s.fieldsBecome u [(site, Reg.PORT_TIME.OFFSET, (off % 2 ^ 32).toNat), (site, Reg.PORT_TIME.DELAY, ((there + back) / 2 % 2 ^ 24).toNat),
            (site, Reg.PORT_TIME.SYNCED, 1), (site, Port.EXCH_STEP, 0)]))
  ∧ (∀ (s : State) (site : Nat), s.canonical = true → hasRouter site = true →
    let k := s.get site Die.EDGE + 1
    let align := signed8 (s.get site Reg.CLK_PT_STATUS.ALIGN)
    let pending : Int := if s.flag site Reg.CLK_PT_STATUS.PEND_SIGN then -(s.get site Reg.CLK_PT_STATUS.PENDING : Int) else s.get site Reg.CLK_PT_STATUS.PENDING
    let slewIs (v : Int) : List (Nat × Fld × Nat) :=
      [(site, Reg.CLK_PT_STATUS.PENDING, min v.natAbs 65535), (site, Reg.CLK_PT_STATUS.PEND_SIGN, if v < 0 then 1 else 0)]
    (∀ count : Nat, s.immediates = [] → k < 2 ^ 64 → count < 2 ^ 64 →
      let ticks : Nat × Fld × Nat := (site, Reg.CLK_TICK.TICKS, (s.get site Reg.CLK_TICK.TICKS + 100) % 2 ^ 48)
      let aligned : Nat × Fld × Nat := (site, Reg.CLK_PT_STATUS.ALIGNED, s.get site Die.MEASURED)
      ((∀ x ∈ s.timeSteps, x.site = site → k < x.edge) →
        let from_ := s.get site Die.SLEW_FROM
        let d : Int := if pending = 0 ∨ k < from_ ∨ (k - from_) % 3 ≠ 0 then 0 else if pending < 0 then -1 else 1
        let e := wrap64 ((s.get site Die.EDGE_VALUE : Int) + 4000 + d)
        let target := wrap64 (e + align)
        let diff : Int := (target : Int) - count
        let slips : Bool := 2 < diff.natAbs
        let now := max target count
        (slips = true → s.get site Die.SLIP_AT = 0) →
        ∃ u, exec (.correctionEdge site count) s = .next u
          ∧ u = { s with
            fld := u.fld
            noticeBuf := if slips then s.bufWith { s.dieNotice site 63 0x0903 2 0 (wrap64 diff) with time := now } else s.noticeBuf }
          ∧ s.fieldsBecome u ([(site, Die.EDGE, k), ticks, (site, Die.EDGE_VALUE, e), (site, Reg.CLK_PT.TIME, now), aligned]
              ++ slewIs (pending - d)
              ++ if slips then [s.counted site Reg.CLK_PT_STATUS.SLIPS] ++ u.asIn [(site, Die.SLIP_AT)] ++ s.noticeWrites site else []))
      ∧ (∀ x : TimeUpdate, s.timeSteps = [x] → x.site = site → x.edge ≤ k →
        let e := x.value + 4000 * (k - x.edge)
        ∃ u, exec (.correctionEdge site count) s = .next u ∧ u = { s with fld := u.fld, timeSteps := [] }
          ∧ s.fieldsBecome u ([(site, Die.EDGE, k), ticks, (site, Die.EDGE_VALUE, e % 2 ^ 64), (site, Reg.CLK_PT.TIME, wrap64 (e + align)), aligned]
              ++ slewIs 0)))
    ∧ (∀ step value neg edge,
      let x : TimeUpdate := ⟨site, step, value, neg, edge⟩
      let late : Bool := edge < k
      ∃ u, exec (.timeUpdate site step value neg edge) s = .next u
        ∧ u = { s with
          fld := u.fld
          timeOut := dropFirst (· == x) s.timeOut
          timeSteps := if step then s.timeSteps ++ [x] else s.timeSteps }
        ∧ s.fieldsBecome u ([s.counted site Reg.CLK_PT_STATUS.LATE (if late then 1 else 0)]
            ++ if step then [] else slewIs (pending + if neg then -(value : Int) else value)
              ++ if s.get site Reg.CLK_PT_STATUS.PENDING = 0 then [(site, Die.SLEW_FROM, (if late then k else edge) % 2 ^ 64)] else [])))


/-! ### Host commands -/

/-- The commands that only ask are answered at once with what the panel holds (R359, R365): the words of each, of `READ_CSR` the registers in
order, of `READ_COUNTERS` those named, of `ECHO` the bytes. `READ_NOTICES` removes what it returns unless it peeks (R482); a debug read of a pair
answers it and steps the address with AUTOINC (R118). -/
def Obligations.HostQueriesAnswer : Prop :=
  ∀ (s : State) (h : CmdHdr), s.canonical = true →
    (∀ e ∈ ([(.identify h, Op.IDENTIFY, State.identifyWords), (.getStatus h, Op.GET_STATUS, State.statusWords),
             (.getPowerThermal h, Op.GET_POWER_THERMAL, State.powerWords), (.getRoster h, Op.GET_ROSTER, State.rosterWords)] :
          List (Instr × Nat × (State → List Nat))), s.takes h 0 →
      ∃ u, exec e.1 s = .next u ∧ s.answered u h e.2.1 St.OK (e.2.2 (s.cmdState h e.2.1)) [])
    ∧ (∀ bytes : List Byte, s.takes h bytes.length → ∃ u, exec (.echo h bytes) s = .next u ∧ s.answered u h Op.ECHO St.OK (wordsOf bytes) [])
    ∧ (∀ nonce, s.takes h 64 →
      ∃ u, exec (.attest h nonce) s = .next u ∧ s.answered u h Op.ATTEST St.OK (wordsOf ((s.cmdState h Op.ATTEST).report nonce)) [])
    ∧ (∀ (addr count : Nat), s.takes h 16 → 1 ≤ count → count ≤ 512 → (∀ i < count, s.readable (addr + 8 * i)) →
      ∃ u, exec (.readCsr h addr count 0) s = .next u
        ∧ s.answered u h Op.READ_CSR St.OK ((List.range count).map fun i => (s.cmdState h Op.READ_CSR).readReg (addr + 8 * i)) [])
    ∧ (∀ addrs : List Nat, s.takes h (8 * addrs.length) → addrs ≠ [] → (∀ a ∈ addrs, s.readable a) →
      ∃ u, exec (.readCounters h addrs) s = .next u
        ∧ s.answered u h Op.READ_COUNTERS St.OK (addrs.map (s.cmdState h Op.READ_COUNTERS).readReg) [])
    ∧ (∀ max, s.takes h 8 → 1 ≤ max → max ≤ 127 →
      let qs := s.noticeQueue.take max
      (∃ u, exec (.readNotices h max true 0) s = .next u ∧ s.answered u h Op.READ_NOTICES St.OK (s.noticeWords qs) [])
      ∧ (s.noticeQueue.length = s.get panelSite Reg.CTL_NOTICE_STATUS.HELD →
        ∃ u, exec (.readNotices h max false 0) s = .next u
          ∧ { s with noticeQueue := s.noticeQueue.drop max }.answered u h Op.READ_NOTICES St.OK (s.noticeWords qs)
              [(panelSite, Reg.CTL_NOTICE_STATUS.HELD, s.noticeQueue.length - max), (panelSite, Reg.CTL_NOTICE_SEQ.LOST_SINCE_READ, 0)]))
    ∧ (∀ c : CoreRef, c.wf = true → s.takes h 16 → s.debugMode = true → s.reachable c.site = true →
      s.flag c.site Reg.MESH_STATUS.LOCAL_FENCED = false → s.cget c Reg.CORE_SCHED_STATUS.STATE ≠ 1 → s.cget c Reg.CORE_SCHED_STATUS.STATE ≠ 2 →
      wordsIn s.sramUpset (coreKey c Mem.ACC (s.dbgPair c)) 8 = [] →
      let n := (s.dbgPair c / 8 + 1) % 2 ^ 16
      ∃ u, exec (.dbgDataRead h c) s = .next u
        ∧ s.answered u h Op.READ_CSR St.OK [s.rdNat (coreKey c Mem.ACC (s.dbgPair c)) 8]
            (if s.cget c Reg.CORE_MX_DBG_ADDR.AUTOINC = 1 then
              [(c.site, Reg.CORE_MX_DBG_ADDR.INDEX.nth c.core, n % 1024), (c.site, Reg.CORE_MX_DBG_ADDR.SLOT.nth c.core, n / 1024)] else []))

/-- Settings take effect before their reply (R359): the power cap (R418) and the block limits (R413) with the budgets that follow, the coolant
(R425), the panel's number, captain, team and routes (R304, R305, R317), the time reference (R319), and registers at large (R7). `SET_TIME` sends
a step to every die, and replies when its edge has passed (R400); a scan of the chains is answered with that many bits. -/
def Obligations.HostSettingsApply : Prop :=
  ∀ (s : State) (h : CmdHdr), s.canonical = true →
    (∀ cap, s.takes h 8 → 1000 ≤ cap → cap ≤ 15000 →
      let force := min (min cap (s.get panelSite Reg.PWR_PANEL.THERMAL_CAP)) s.gradeCap
      ∃ u, exec (.setPowerCap h cap 0) s = .next u ∧ u.get panelSite Reg.PWR_PANEL.HOST_CAP = cap
        ∧ s.answered u h Op.SET_POWER_CAP St.OK [force]
            ((panelSite, Reg.PWR_PANEL.HOST_CAP, cap) :: (panelSite, Reg.PWR_PANEL.IN_FORCE, force) :: budgetFlds.tail.map fun e =>
              (e.1, e.2, u.get e.1 e.2)))
    ∧ (∀ limits : List Nat, s.takes h 32 → limits.length = 16 → (∀ a ∈ limits, a = 0 ∨ (100 ≤ a ∧ a ≤ 1000)) →
      let limit (b : Nat) : Nat := if limits.getD b 0 = 0 then s.get panelSite (Reg.PWR_BLOCK.LIMIT b) else limits.getD b 0
      ∃ u, exec (.setBlockLimits h limits) s = .next u
        ∧ (∀ b < 16, u.get panelSite (Reg.PWR_BLOCK.BUDGET b) = limit b * 17 / 11 % 2 ^ (Reg.PWR_BLOCK.BUDGET b).width)
        ∧ s.answered u h Op.SET_BLOCK_LIMITS St.OK []
            (((List.range 16).map fun b => (panelSite, Reg.PWR_BLOCK.LIMIT b, limit b)) ++ budgetFlds.map fun e => (e.1, e.2, u.get e.1 e.2)))
    ∧ (∀ (inlet : Int) (flow : Nat), s.takes h 8 → 500 ≤ inlet → inlet ≤ 4500 → flow ≤ 4000 →
      ∃ u, exec (.setCoolant h inlet flow 0) s = .next u
        ∧ s.answered u h Op.SET_COOLANT St.OK []
            [(panelSite, Reg.THM_COOLANT.HOST_INLET, inlet.toNat), (panelSite, Reg.THM_COOLANT.HOST_FLOW, flow)])
    ∧ (∀ (flags : BitVec 8) (port panel captain first : Nat) (team : List Nat) (routes : List (BitVec 32)),
      s.takes h (80 + 8 * ((routes.length + 1) / 2)) → flags.toNat ≤ 15 → port < 8 → panel < 4096 → captain < 4096 → team.length = 32 →
      (∀ e ∈ team, e ≤ 65535 ∧ bitsOf e 14 12 = 0) → routes.length ≤ 1000 → first + routes.length ≤ 4096 → (∀ r ∈ routes, r.toNat < 256) →
      s.squadsIdle = true → s.proxies = [] →
      let team' := if flags.getLsbD 2 then (List.range 32).flatMap fun i =>
          [(panelSite, Reg.PORT_TEAM.PANEL i, bitsOf (team.getD i 0) 11 0), (panelSite, Reg.PORT_TEAM.VALID i, bitsOf (team.getD i 0) 15 15)] else []
      ∃ u, exec (.setPortRoutes h flags port panel captain first team routes 0) s = .next u
        ∧ s.answered u h Op.SET_PORT_ROUTES St.OK []
            ((if flags.getLsbD 0 then [(panelSite, Panel.NUMBER, panel), (panelSite, Panel.NUMBER_SET, 1)] else [])
              ++ (if flags.getLsbD 1 then [(panelSite, Panel.CAPTAIN, captain), (panelSite, Panel.CAPTAIN_SET, 1)] else []) ++ team'
              ++ (if flags.getLsbD 3 then routes.zipIdx.map fun e => (siteOfPort port, Reg.PORT_ROUTE.ENTRY (first + e.2), e.1.toNat) else [])))
    ∧ (∀ refpanel upstream, s.takes h 8 → refpanel < 4096 → (upstream < 8 ∨ upstream = 255) → s.flag panelSite Panel.NUMBER_SET = true →
      ∃ u, exec (.timeSync h refpanel upstream 0) s = .next u
        ∧ s.answered u h Op.TIME_SYNC St.OK []
            ([(panelSite, Panel.REF, refpanel), (panelSite, Panel.REF_SET, 1)]
              ++ (List.range 8).map fun p => (siteOfPort p, Reg.PORT_TIME.UPSTREAM, if p = upstream then 1 else 0)))
    ∧ (∀ time : Word, s.takes h 8 →
      let edge := s.get s.controlSite Die.EDGE + 257
      ∃ u d, exec (.setTime h time) s = .next u ∧ d.port = h.port ∧ d.opcode = Op.SET_TIME ∧ d.tag = h.tag ∧ d.seq = h.seq ∧ d.amount = edge
        ∧ u = { s with
          fld := u.fld
          arrived := (s.takePacket h Op.SET_TIME).arrived
          immediates := [d]
          timeOut := s.timeOut ++ s.timeSites.map fun k => ⟨k, true, (time.toNat + 4000 * 256) % 2 ^ 64, false, edge⟩ }
        ∧ s.sameFields u (cmdFlds h))
    ∧ (∀ addr (value : Word) k off, s.takes h 16 → csrOk addr = true → unitAt s.controlSite (csrSite addr) (csrOff addr) = some (.port, k, off) →
      s.regFenced addr = none → s.reachable (csrSite addr) = true → sharedOff off = false →
      let x (f : Fld) : Nat := value.toNat / 2 ^ f.lo % 2 ^ f.width
      let fs := fieldsAt .port off
      (∀ f ∈ fs, ∀ e ∈ cmdFlds h, fldKey (csrSite addr) (f.nth k) ≠ fldKey e.1 e.2) →
      ∃ u, exec (.writeCsr h addr value) s = .next u
        ∧ s.answered u h Op.WRITE_CSR St.OK []
            ((fs.filter fun f => f.acc == .rw || f.acc == .w1c).map fun f =>
              (csrSite addr, f.nth k, if f.acc = .rw then x f else s.get (csrSite addr) (f.nth k) &&& (2 ^ f.width - 1 - x f))))
    ∧ (∀ site chain bits (data : List Byte), s.debugMode = true → hasRouter site = true → s.reachable site = true →
      s.flag site Reg.MESH_STATUS.LOCAL_FENCED = false → bits ≤ 32768 →
      (s.takes h 16 → ∃ u words, exec (.scanAccess h site chain 0 bits [] 0) s = .next u ∧ words.length = (bits + 63) / 64
        ∧ s.answered u h Op.SCAN_ACCESS St.OK words [])
      ∧ (s.takes h (16 + data.length) → bits ≤ 8 * data.length →
        ∃ u, exec (.scanAccess h site chain 1 bits data 0) s = .next u ∧ s.answered u h Op.SCAN_ACCESS St.OK [] []))


/-- A register with an effect of its own is written by `WRITE_CSR` (R7): HUB_CHAN_CTL starts the named channels' retrains (R235), HUB_CTL stops
or restores the acceptance of atomics (R257), the MIN_RESET and PEAK_RESET bits set their minima and peak back (R402, R422), CTL_I3C_XFER with START
begins a transfer or notes an overrun (R501), PWR_GRADE and SEC_PROVISION fuse a value, or nothing where it is in force (R457, R458). -/
def Obligations.RegisterWritesAct : Prop :=
  ∀ (s : State) (h : CmdHdr), s.canonical = true → s.takes h 16 →
    let ok (site : Nat) : Prop := hasRouter site = true ∧ s.reachable site = true ∧ s.flag site Reg.MESH_STATUS.LOCAL_FENCED = false
    let runs (i : Instr) (ws : List (Nat × Fld × Nat)) : Prop := ∃ u, exec i s = .next u ∧ s.answered u h Op.WRITE_CSR St.OK [] ws
    (∀ stack (value : Word), stack < 64 → ok (siteOfStack stack) →
      let site := siteOfStack stack
      runs (.retrain h stack value)
          (((List.range 32).filter value.getLsbD).map fun ch =>
            (site, Reg.HUB_CHAN_STATUS.CHAN ch, max 1 (s.get site (Reg.HUB_CHAN_STATUS.CHAN ch))))
      ∧ (s.flag site Hub.DRAINING = false → (∀ c ∈ s.hubRecords, c.stack ≠ stack) →
        runs (.acceptAtom h stack value)
          ([Reg.HUB_CTL.ACCEPT_ATOM, Reg.HUB_CTL.PATROL_EN, Reg.HUB_CTL.RTIMEOUT, Reg.HUB_CTL.DEDUP_IDLE, Reg.HUB_CTL.CE_THRESHOLD].map (fun f =>
              (site, f, value.toNat / 2 ^ f.lo % 2 ^ f.width))
            ++ [(site, Hub.DRAINING, if value.getLsbD 0 = false ∧ s.flag site Reg.HUB_CTL.ACCEPT_ATOM = true then 1 else 0)])))
    ∧ (∀ site, ok site →
      runs (.minReset h site) [(site, Reg.CLK_CORE_STATUS.MIN_CODE, s.get site Reg.CLK_CORE_STATUS.FREQ % 2 ^ 7)]
      ∧ runs (.slackMinReset h site) [(site, Reg.CLK_MARGIN.MIN_SLACK, 255)]
      ∧ runs (.peakReset h site) [(site, Reg.PWR_DIE_BUDGET.PEAK, 0)])
    ∧ (∀ value : Word, value.getLsbD 10 = true → s.flag s.controlSite Reg.MESH_STATUS.LOCAL_FENCED = false →
      let x (f : Fld) : Nat × Fld × Nat := (panelSite, f, value.toNat / 2 ^ f.lo % 2 ^ f.width)
      runs (.i3cStart h value)
        ([x Reg.CTL_I3C_XFER.ADDR, x Reg.CTL_I3C_XFER.READ, x Reg.CTL_I3C_XFER.LEN_M1, x Reg.CTL_I3C_XFER.WDATA]
          ++ if s.flag panelSite Reg.CTL_I3C_STATUS.BUSY then [(panelSite, Reg.CTL_I3C_STATUS.OVERRUN, 1)]
            else [(panelSite, Reg.CTL_I3C_STATUS.BUSY, 1), (panelSite, I3c.READ, value.toNat / 2 ^ 7 % 2)]))
    ∧ (∀ value : Word, s.lifeCycle ≤ 2 →
      let now := s.get panelSite Reg.PWR_GRADE.GRADE
      let v := value.toNat % 4
      (v = now → runs (.grade h value) [])
      ∧ (now < v → s.get panelSite Fuse.GRADES < 4 →
        ∃ u, exec (.grade h value) s = .next u
          ∧ s.answered u h Op.WRITE_CSR St.OK [] ((panelSite, Reg.PWR_GRADE.GRADE, v) :: (panelSite, Fuse.GRADES, s.get panelSite Fuse.GRADES + 1) ::
              budgetFlds.map fun e => (e.1, e.2, u.get e.1 e.2))))
    ∧ (∀ value : Word, s.lifeCycle ≤ 1 →
      let v := value.toNat % 8
      let rows := s.get panelSite Reg.SEC_PROVISION.HOSTPORT_ROWS
      (v = s.provisioned → runs (.hostport h value) [])
      ∧ (v ≠ s.provisioned → rows < 8 →
        runs (.hostport h value) [(panelSite, Reg.SEC_PROVISION.HOSTPORT, v), (panelSite, Reg.SEC_PROVISION.HOSTPORT_SET, 1),
          (panelSite, Reg.SEC_PROVISION.HOSTPORT_ROWS, rows + 1)]))

/-- A write of CTL_RESET replies, and then starts its scope (R452): with a squad running a compute reset drives WP with cause PANEL (R453), and a
squad or die reset whistles that squad (R454); a BENCH die is power-cycled, and a DOWN port trains (R454). While a scope is BUSY the write changes
nothing else, is counted, and RESULT is `BUSY`. -/
def Obligations.ResetScopesStart : Prop :=
  ∀ (s : State) (h : CmdHdr) (value : Word), s.canonical = true → s.takes h 16 →
    let scope := bitsOf value.toNat 2 0
    let target := bitsOf value.toNat 18 3
    let starts (i : Instr) (t : State) (ws : List (Nat × Fld × Nat)) : Prop :=
      ∃ u, exec i s = .next u
        ∧ t.answered u h Op.WRITE_CSR St.OK [] ([(panelSite, Reg.CTL_RESET_STATUS.BUSY, 1), (panelSite, Reg.CTL_RESET_STATUS.SCOPE, scope),
            (panelSite, Reset.TARGET, target), (panelSite, Reset.DEFERRED, 0)] ++ ws)
    let whistled (line cause : Nat) : List (Nat × Fld × Nat) := (panelSite, Reset.PHASE, 1) :: s.whistled line cause
    (s.resetBusy = false →
      (∀ n < 16, scope = 1 → s.squadState n = Squad.RUNNING → starts (.computeReset h value) s (whistled 16 Cause.PANEL))
      ∧ (∀ n < 16, scope = 2 → target = 2 ^ n → s.squadState n = Squad.RUNNING → starts (.squadReset h value) s (whistled n Cause.STOP))
      ∧ (∀ n < 16, scope = 3 → isCompute target = true → s.siteState target = Site.ACTIVE → s.siteSquad target = some n →
        s.squadState n = Squad.RUNNING → starts (.dieComputeReset h value) s (whistled n Cause.ROSTER))
      ∧ (scope = 3 → isCompute target = true → s.siteState target = Site.BENCH → s.siteSquad target = none → s.powerUp target = none →
        ∃ u, exec (.dieComputeReset h value) s = .next u ∧ u.get target Reg.PWR_DIE_STATUS.VIN_SW = 0
          ∧ u.powerUps = s.powerUps ++ [⟨target, Why.RESET, 0⟩] ∧ u.get panelSite Reset.PHASE = 2 ∧ u.resetBusy = true)
      ∧ (scope = 4 → target < 8 → target ≠ h.port → s.portState target = Port.DOWN → s.jget target Reg.PWR_DIE_STATUS.VIN_SW = 1 →
        starts (.portRetrain h value) s [(panelSite, Reset.PHASE, 2), (siteOfPort target, Reg.PORT_STATUS.STATE, Port.TRAINING)]))
    ∧ (s.resetBusy = true → ∀ e ∈ ([.computeReset h value, .squadReset h value, .dieComputeReset h value, .portRetrain h value] : List Instr),
      ∃ u, exec e s = .next u
        ∧ s.answered u h Op.WRITE_CSR St.OK [] [s.counted panelSite Reg.CTL_RESET_STATUS.REJECTS,
            (panelSite, Reg.CTL_RESET_STATUS.RESULT, St.BUSY)])


/-! ### Runs -/

/-- `KICKOFF` starts its LOADED squads (R334): RUNNING, their dies' shot clocks run, each core receives kick-off and its enabled threads run.
`RESUME` without restore lets PAUSED squads go on (R349), with restore it waits for the die slots once the headers allow it. `PAUSE` and `HALF_TIME`
set pause pending (R343), `STOP` whistles (R350), a squad `SCRUB` starts the clears (R351), `LOAD_IMAGE` clears IMAGE_VERIFIED (R327), `CONFIGURE`
goes on once the image has passed its checks (R330), and ends with the code of the one that failed. -/
def Obligations.RunCommandsStart : Prop :=
  ∀ (s : State) (h : CmdHdr) (squads : BitVec 16), s.canonical = true → squads ≠ 0 →
    let ns := squadList squads.toNat
    (s.takes h 8 → (∀ n ∈ ns, s.squadState n = Squad.LOADED) →
      ∃ u, exec (.kickoff h squads 0) s = .next u
        ∧ s.answered u h Op.KICKOFF St.OK [] (u.asIn (ns.flatMap s.startFlds))
        ∧ u.get panelSite Reg.SQD_PANEL.HBM_CLEAN = 0
        ∧ ∀ n ∈ ns, u.squadState n = Squad.RUNNING
            ∧ u.get panelSite (Reg.SQD_COUNTS.KICKOFFS n) = (s.counted panelSite (Reg.SQD_COUNTS.KICKOFFS n)).2.2
            ∧ ∀ k ∈ s.squadSites n, u.get k Reg.DIE_SHOT.COUNT = 0 ∧ u.get k Reg.DIE_SHOT.RUN = 1
                ∧ ∀ c ∈ coresOf k, s.cget c Reg.CORE_SCHED_STATUS.STATE = 0 →
                    u.cget c Reg.CORE_SCHED_STATUS.STATE = 1 ∧ ∀ t ∈ threadsOf c,
                      u.tget t Reg.CORE_FT_THREAD.STATE
                        = if s.tget t Reg.CORE_FT_THREAD.EN = 1 then Thread.RUN else s.tget t Reg.CORE_FT_THREAD.STATE)
    ∧ (s.takes h 8 → s.reissue = [] → (∀ n ∈ ns, s.squadState n = Squad.PAUSED ∧ s.flag panelSite (Reg.SQD_STATUS.LATCHED n) = false) →
      ∃ u, exec (.resume h squads false 0) s = .next u
        ∧ s.acceptedEnded u h Op.RESUME [] St.OK [] (u.asIn (ns.flatMap s.startFlds))
        ∧ ∀ n ∈ ns, u.squadState n = Squad.RUNNING
            ∧ ∀ k ∈ s.squadSites n, u.get k Reg.DIE_SHOT.RUN = 1
                ∧ ∀ c ∈ coresOf k, (s.cget c Reg.CORE_SCHED_STATUS.STATE = 3 → u.cget c Reg.CORE_SCHED_STATUS.STATE = 1)
                    ∧ ∀ t ∈ threadsOf c, s.tget t Reg.CORE_FT_THREAD.STATE = Thread.HELD → u.tget t Reg.CORE_FT_THREAD.STATE = Thread.RUN)
    ∧ (s.takes h 8 → s.flag panelSite Reg.SQD_PANEL.IMAGE_VERIFIED = true → (∀ n ∈ ns, s.squadState n = Squad.PAUSED ∨ s.squadState n = Squad.SCRUBBED) →
      ns.all s.evacOk = true →
      ∃ u, exec (.resume h squads true 0) s = .next u ∧ s.accepted u h Op.RESUME (.resume h squads true 0) [] [])
    ∧ (s.takes h 8 → ns ≠ [] → (∀ n ∈ ns, s.squadState n = Squad.RUNNING) →
      (∀ n ∈ ns, ∀ k ∈ s.squadSites n, ∀ c ∈ coresOf k, s.cget c Reg.CORE_SCHED_STATUS.STATE ≠ 4) →
      let pending := ns.map fun n => (panelSite, Reg.SQD_STATUS.PAUSE_PENDING n, 1)
      (∀ limit, ∃ u, exec (.pause h squads limit 0) s = .next u ∧ s.accepted u h Op.PAUSE (.pause h squads limit 0) [] pending)
      ∧ (s.flag panelSite Reg.SQD_PANEL.IMAGE_VERIFIED = true →
        ∀ limit, ∃ u, exec (.halfTime h squads limit 0) s = .next u ∧ s.accepted u h Op.HALF_TIME (.halfTime h squads limit 0) [] pending))
    ∧ (∀ n < 16, ∀ teardown, s.takes h 8 → squads.toNat = 2 ^ n → s.squadState n = Squad.RUNNING →
      ∃ u, exec (.stop h squads teardown 0) s = .next u ∧ s.accepted u h Op.STOP (.stop h squads teardown 0) [] (s.whistled n Cause.STOP))
    ∧ (s.takes h 8 → (∀ n ∈ ns, s.squadState n ≠ Squad.RUNNING) →
      ∃ u, exec (.scrub h squads 0 0) s = .next u
        ∧ s.accepted u h Op.SCRUB (.scrub h squads 0 0) []
            (((s.maskSites squads.toNat).filter fun k => s.flag k Reg.PWR_DIE_STATUS.VIN_SW).map fun k => (k, Die.CLEARING, 1)))
    ∧ (∀ base length digest, s.takes h 80 → base % 4096 = 0 → length % 4096 = 0 → 0 < length → length ≤ 2 ^ 36 → base + length ≤ 2 ^ 42 →
      digest < 2 ^ 512 → s.squadsIdle = true → s.flag panelSite Reg.SQD_PANEL.HBM_CLEAN = true → s.windows = [] →
      let verified := [(panelSite, Reg.SQD_PANEL.IMAGE_VERIFIED, 0)]
      let i := Instr.loadImage h base length digest
      ∃ u, exec i s = .next u
        ∧ if s.headerOk base length then s.accepted u h Op.LOAD_IMAGE i [] verified
          else s.acceptedEnded u h Op.LOAD_IMAGE [] St.BAD_PARAM [] verified)
    ∧ (s.takes h 8 → s.flag panelSite Reg.SQD_PANEL.IMAGE_VERIFIED = true →
      (∀ n ∈ ns, s.squadState n = Squad.IDLE ∨ s.squadState n = Squad.SCRUBBED ∨ s.squadState n = Squad.LOADED ∨ s.squadState n = Squad.STOPPED) →
      let i := Instr.configure h squads 0
      ∃ u, exec i s = .next u
        ∧ match s.imageCheck squads.toNat with
          | none => s.accepted u h Op.CONFIGURE i [] []
          | some e => s.acceptedEnded u h Op.CONFIGURE [] St.BAD_PARAM [e.1, e.2] [])

/-- A squad's states change as the table says (R329): PAUSED once every core and thread is held (R344), STOPPED once every die has latched (R337) or
its program has ended, with a notice. The outstanding command ends: `LOAD_IMAGE` with what the digest says (R327), `CONFIGURE` after its sections
(R331), a `PAUSE` at its limit (R344), `HALF_TIME` after the save (R347), `RESUME` after the restore (R349), `SCRUB` after the clears (R351). -/
def Obligations.RunEventsComplete : Prop :=
  ∀ (s : State), s.canonical = true →
    let others (mask : Nat) (u : State) : Prop := ∀ k f, isCompute k = true → f.off < 2 ^ 26 → f.lo < 64 →
      (∀ n ∈ squadList mask, k ∉ s.squadSites n ∧ k ∉ (s.squadEntry n).list.filterMap s.activeSite) → u.get k f = s.get k f
    (∀ n < 16, s.settled →
      (s.pauseDone n = true → ∃ u, exec (.squadPaused n) s = .next u
        ∧ s.onlyBecome u ([(panelSite, Reg.SQD_STATUS.STATE n, Squad.PAUSED), (panelSite, Reg.SQD_STATUS.PAUSE_PENDING n, 0)]
            ++ (s.squadSites n).map fun k => (k, Reg.DIE_SHOT.RUN, 0)))
      ∧ (let stops (cause source site cls : Nat) (u : State) : Prop :=
          u = { s with fld := u.fld, noticeBuf := s.bufWith (s.ctlNotice 0x0701 cls (some n) cause (site + source * 256)) }
            ∧ s.fieldsBecome u ([(panelSite, Reg.SQD_STATUS.STATE n, Squad.STOPPED), (panelSite, Reg.SQD_STATUS.PAUSE_PENDING n, 0),
                (panelSite, Reg.SQD_STATUS.CAUSE n, cause), (panelSite, Reg.SQD_STATUS.SOURCE n, source), (panelSite, Reg.SQD_STATUS.SITE n, site)]
                ++ (s.squadSites n).map (fun k => (k, Reg.DIE_SHOT.RUN, 0)) ++ s.noticeWrites s.controlSite)
        (s.stopReady n = true → ∃ u, exec (.squadStopped n) s = .next u
          ∧ stops (s.get panelSite (Reg.SQD_STATUS.CAUSE n)) (s.get panelSite (Reg.SQD_STATUS.SOURCE n)) (s.get panelSite (Reg.SQD_STATUS.SITE n))
              (if s.get panelSite (Reg.SQD_STATUS.CAUSE n) = Cause.COMPLETE ∨ s.get panelSite (Reg.SQD_STATUS.CAUSE n) = Cause.STOP then 0 else 3) u)
        ∧ (s.squadDone n = true → ∃ u, exec (.squadComplete n) s = .next u ∧ stops Cause.COMPLETE 0 0 0 u)))
    ∧ (∀ d, s.deferred = [d] → s.canEnd d →
      (∀ h base length digest, d.cmd = .loadImage h base length digest → d.opcode = Op.LOAD_IMAGE → base < 2 ^ 64 → length < 2 ^ 64 →
        digest < 2 ^ 512 →
        let good := Config.sha512 ((s.memBytes base length).map (·.1)) % 2 ^ 512 = digest
        ∃ u, exec .loadImageHashed s = .next u ∧ s.cmdEnded u d (if good then St.OK else St.AUTH_FAIL) [] ∧ s.sameMemory u
          ∧ u.get panelSite Reg.SQD_PANEL.IMAGE_VERIFIED = (if good then 1 else s.get panelSite Reg.SQD_PANEL.IMAGE_VERIFIED)
          ∧ s.sameFields u (endFlds d ++ if good then
              [panelFld Img.BASE, panelFld Img.LEN, panelFld Img.DIGEST, panelFld Reg.SQD_PANEL.EVAC_RANGE, panelFld Reg.SQD_PANEL.IMAGE_VERIFIED]
            else []))
      ∧ (∀ h squads rsv, d.cmd = .configure h squads rsv → d.opcode = Op.CONFIGURE →
        (d.step = 1 → ∃ u, exec .configureDrainEnd s = .next u ∧ u.deferred = [{ d with step := 2, slot := some St.OK }]
          ∧ u.get panelSite Reg.SQD_PANEL.LAST_EPOCH = s.nextEpoch squads.toNat % 256
          ∧ (∀ n ∈ squadList squads.toNat, u.get panelSite (Reg.SQD_STATUS.EPOCH n) = s.nextEpoch squads.toNat % 256
              ∧ u.get panelSite (Reg.SQD_STATUS.CAUSE n) = 0)
          ∧ u.hbm = s.hbm ∧ u.sram = s.sram ∧ others squads.toNat u)
        ∧ (d.step = 2 → ∃ u, exec .configureDone s = .next u ∧ s.cmdEnded u d St.OK [] ∧ u.hbm = s.hbm ∧ others squads.toNat u
          ∧ ∀ n ∈ squadList squads.toNat, u.squadState n = Squad.LOADED))
      ∧ (∀ h squads limit rsv, d.cmd = .pause h squads limit rsv → d.opcode = Op.PAUSE → d.step = 1 →
        ∃ u, exec (.pauseLimit squads) s = .next u ∧ s.cmdEnded u d St.TIMED_OUT [s.maskIn squads.toNat Squad.PAUSED] ∧ s.sameMemory u
          ∧ s.sameFields u (endFlds d))
      ∧ (∀ h squads limit rsv, d.cmd = .halfTime h squads limit rsv → d.opcode = Op.HALF_TIME → d.step = 2 →
        ∃ u, exec .halfTimeSaved s = .next u ∧ s.cmdEnded u d (d.slot.getD St.OK) [s.maskIn squads.toNat Squad.PAUSED]
          ∧ u.get panelSite Reg.SQD_PANEL.EVAC_VALID = 1 ∧ u.sram = s.sram ∧ others 0 u
          ∧ ∀ n ∈ squadList squads.toNat, (u.get panelSite Reg.SQD_PANEL.SAVED).testBit n = true
            ∧ u.get panelSite (Reg.SQD_STATUS.SAVED_HALTED n) = if s.squadState n = Squad.STOPPED then 1 else 0)
      ∧ (∀ h squads rsv, d.cmd = .resume h squads true rsv → d.opcode = Op.RESUME →
        ∃ u, exec .restoreDone s = .next u ∧ s.cmdEnded u d St.OK [] ∧ u.hbm = s.hbm ∧ others squads.toNat u
          ∧ u.get panelSite Reg.SQD_PANEL.LAST_EPOCH = s.nextEpoch squads.toNat % 256
          ∧ ∀ n ∈ squadList squads.toNat, u.squadState n = Squad.RUNNING)
      ∧ (∀ h squads rsv, d.cmd = .scrub h squads 0 rsv → d.opcode = Op.SCRUB → s.cleared (s.maskSites squads.toNat) = true →
        s.flag panelSite Panel.SCRUBBING = false →
        ∃ u, exec .scrubDone s = .next u ∧ s.cmdEnded u d St.OK [] ∧ s.sameMemory u
          ∧ ∀ n ∈ squadList squads.toNat, u.squadState n
              = if s.squadState n = Squad.LOADED ∨ s.squadState n = Squad.STOPPED ∨ s.squadState n = Squad.PAUSED then Squad.SCRUBBED
                else s.squadState n))


/-! ### The roster, power-ups and the supply of blocks -/

/-- `FENCE_DIE` whistles the squad of its die (R379), or fences the die at once; `SUBSTITUTE` asks for admission of its bench die (R384);
`RETIRE_DIE` writes one fuse entry (R388). A live substitution's bulk copy leaves every memory but the pools on the new die, and its timeout starts
(R385); one that stalls is given up (R387). A die found dead is bridged by a timeout and its site FENCED, with a notice (R380). -/
def Obligations.RosterChanges : Prop :=
  ∀ (s : State), s.canonical = true → s.ownFences = [] → s.resetBusy = false → s.get panelSite Sec.TAMPER_STEP = 0 →
    let used := s.get panelSite Reg.CTL_ROSTER_STATUS.RETIRED_USED
    let counts : List (Nat × Fld) := [panelFld Reg.CTL_ROSTER_STATUS.BENCH, panelFld Reg.CTL_ROSTER_STATUS.UNPLACED]
    (∀ h site, s.takes h 8 → isCompute site = true → s.substs = [] →
      (∀ n, s.siteSquad site = some n → s.squadState n = Squad.RUNNING → s.siteState site = Site.ACTIVE →
        ∃ u, exec (.fenceDie h site 0) s = .next u ∧ s.accepted u h Op.FENCE_DIE (.fenceDie h site 0) [] (s.whistled n Cause.ROSTER))
      ∧ (s.siteSquad site = none → s.siteState site = Site.BENCH →
        ∃ u, exec (.fenceDie h site 0) s = .next u ∧ u.siteState site = Site.FENCED ∧ u.get site Reg.PWR_DIE_STATUS.VIN_SW = 0
          ∧ u.get site Reg.MESH_STATUS.LOCAL_FENCED = 1 ∧ u.deferred = []
          ∧ u.replies = s.replies ++ [replyTo h Op.FENCE_DIE St.ACCEPTED false [], replyTo h Op.FENCE_DIE St.OK true []]
          ∧ ∀ k, k ≠ site → u.siteState k = s.siteState k)
      ∧ (s.siteState site = Site.FENCED → s.rosterDie site = none → used < 48 →
        (∀ i < 48, s.get panelSite (Reg.CTL_ROSTER_FUSE.VALID i) = if i < used then 1 else 0) →
        ∃ u, exec (.retireDie h site 0) s = .next u
          ∧ s.acceptedEnded u h Op.RETIRE_DIE [] St.OK [47 - used]
              ([(panelSite, Reg.CTL_ROSTER_FUSE.SITE used, site), (panelSite, Reg.CTL_ROSTER_FUSE.ROUTER_DEAD used, if s.alive site then 0 else 1),
                (panelSite, Reg.CTL_ROSTER_FUSE.VALID used, 1), (panelSite, Reg.CTL_ROSTER_SITE.STATE site, Site.RETIRED),
                (panelSite, Reg.CTL_ROSTER_STATUS.RETIRED_USED, used + 1)] ++ u.asIn counts)))
    ∧ (∀ h ldie bench, s.takes h 8 → ldie < 144 → isCompute bench = true → s.siteState bench = Site.BENCH → s.alive bench = true →
      s.liveSquad ldie = none → s.substs = [] → s.powerUp bench = none →
      let old := s.get panelSite (Reg.CTL_ROSTER_LDIE.SITE ldie)
      let i := Instr.substitute h ldie bench 0 0
      ∃ u, exec i s = .next u
        ∧ ({ s with substs := [⟨false, false, ldie, bench, old, false, 2⟩], powerUps := s.powerUps ++ [⟨bench, Why.SUBST, 0⟩] } : State).accepted u
            h Op.SUBSTITUTE i [] [(panelSite, Reg.PWR_BLOCK.ADMIT_BUSY (siteBlock bench), 1), (panelSite, Reg.CTL_ROSTER_STATUS.SUB_ACTIVE, 1),
              (panelSite, Reg.CTL_ROSTER_STATUS.SUB_LIVE, 0), (panelSite, Reg.CTL_ROSTER_STATUS.SUB_LDIE, ldie),
              (panelSite, Reg.CTL_ROSTER_STATUS.SUB_BENCH, bench), (panelSite, Reg.CTL_ROSTER_STATUS.SUB_STEP, 2)])
    ∧ (∀ x : Subst, s.substs = [x] → x.live = true → x.step = 5 → x.own = false → s.timeout = none → x.old < 256 → x.bench < 256 →
      x.old ≠ x.bench →
      (∃ u, exec .bulkCopyDone s = .next u ∧ u.substs = [{ x with step := 6 }] ∧ u.timeout = some ⟨1, x.bench, TimeoutTables.none⟩
        ∧ (∀ o < 2 ^ 35, keyMem o ≠ Mem.POOL → mapGet 0 u.sram (sramKey x.bench 0 0 0 + o) = mapGet 0 s.sram (sramKey x.old 0 0 0 + o))
        ∧ (∀ a, a / 2 ^ 35 ≠ x.bench → mapGet 0 u.sram a = mapGet 0 s.sram a) ∧ u.hbm = s.hbm
        ∧ (∀ k < 256, hasRouter k = true → s.alive k = true → u.get k Reg.MESH_CTL.TIMEOUT = 1))
      ∧ (∀ d, s.deferred = [d] → s.canEnd d → d.opcode = Op.SUBSTITUTE → d.slot = none → x.running = false → s.siteState x.bench = Site.INCOMING →
        isCompute x.bench = true → s.get s.controlSite Reg.DIE_NOTICE.BUFFERED < 16 →
        ∃ u, exec .copyStall s = .next u ∧ u.substs = [] ∧ s.cmdEnded u d St.HW_FAULT [] ∧ u.siteState x.bench = Site.BENCH
          ∧ u.get x.bench Reg.PWR_DIE_STATUS.VIN_SW = 0 ∧ u.hbm = s.hbm ∧ ∃ n ∈ u.noticeBuf, n.typ = 0x0803 ∧ n.arg0 = 2 ∧ n.arg1 = x.ldie))
    ∧ (∀ site, hasRouter site = true → s.alive site = true → site ≠ s.controlSite → s.substs = [] → s.timeout = none → s.waitTimeouts = [] →
      s.siteSquad site = none → s.get s.controlSite Reg.DIE_NOTICE.BUFFERED ≤ 8 →
      ((List.range 4).any fun p => (s.farSite site p).any fun f => s.portDown f ((p + 2) % 4)) = true → dieKind site ≠ .link →
      ∃ u, exec (.dieDead site) s = .next u ∧ u.timeout = some ⟨2, site, TimeoutTables.none⟩ ∧ u.hbm = s.hbm
        ∧ (∃ n ∈ u.noticeBuf, n.typ = 0x0801 ∧ n.arg0 = (s.rosterDie site).getD 255 ∧ n.arg1 = site)
        ∧ (isCompute site = true → s.siteState site ≠ Site.RETIRED → u.siteState site = Site.FENCED)
        ∧ ∀ k < 256, hasRouter k = true → s.alive k = true → u.get k Reg.MESH_CTL.TIMEOUT = 1)

/-- A power-up that its block has room for closes the die's switch (R411); one refused for 100 ms ends its operation `DEFERRED`. A die that passes
its bring-up self-test is cleared, one that fails is opened and counted (R445, R450). A `ROLL_CALL` opens the block's switches (R415), commits at
`PWRGOOD` and fails at 100 ms without it; a site outside the check's limits is opened and FENCED. A block whose `PWRGOOD` falls is in FAULT, and
one that gets it has its supply and starts its rounds (R414, R445). -/
def Obligations.PowerUpsAndBlocks : Prop :=
  ∀ (s : State), s.canonical = true → s.ownFences = [] → s.resetBusy = false → s.get panelSite Sec.TAMPER_STEP = 0 →
    (∀ b p, s.waitingPower b = some p → s.powerUps.filter (fun x => x.site == p.site) = [p] → b < 16 →
      (∀ i ∈ ([.admissionGranted b, .admissionRetry b] : List Instr),
        (s.admissible p.site = false → exec i s = .next s)
        ∧ (s.admissible p.site = true → p.why ≠ Why.SUBST → isCompute p.site = true →
          ∃ u, exec i s = .next u
            ∧ u = { s with
              fld := u.fld
              fresh := u.fresh
              powerUps := s.powerUps.map fun x => if x.site = p.site then { x with phase := 1 } else x }
            ∧ u.get p.site Reg.PWR_DIE_STATUS.VIN_SW = 1 ∧ u.get p.site Reg.CLK_CORE_STATUS.CORE_LOCK = 1
            ∧ u.get p.site Reg.PWR_DIE_STATUS.PHASE_OK = 255 - s.get p.site Die.PHASES_OUT
            ∧ u.get p.site Reg.CLK_CORE_STATUS.FREQ ≤ u.effCeiling p.site
            ∧ ∀ k f, k ≠ p.site → f.off < 2 ^ 26 → f.lo < 64 → u.get k f = s.get k f))
      ∧ (∀ d x, p.why = Why.SUBST → s.substs = [x] → x.bench = p.site → x.own = false → s.deferred = [d] → s.canEnd d → d.opcode = Op.SUBSTITUTE →
        d.slot = none → s.waitTimeouts = [] → s.timeout = none →
        ∃ u, exec (.admissionDeferred b) s = .next u ∧ s.cmdEnded u d St.DEFERRED [] ∧ u.substs = []
          ∧ u.powerUps = s.powerUps.filter (fun y => y.site != p.site)
          ∧ u.get panelSite (Reg.PWR_BLOCK.DEFERRALS b) = (s.counted panelSite (Reg.PWR_BLOCK.DEFERRALS b)).2.2 ∧ s.sameMemory u))
    ∧ (∀ p, s.powerUps = [p] → p.phase ≠ 0 → p.why = Why.BRINGUP → isCompute p.site = true → s.settled → s.get panelSite Reg.CTL_BOOT.STAGE < 5 →
      (∃ u, exec (.selfTestDone p.site true) s = .next u ∧ u.powerUps = [] ∧ u.flag p.site Die.PASSED = true
        ∧ u.get p.site Reg.PWR_DIE_STATUS.VIN_SW = s.get p.site Reg.PWR_DIE_STATUS.VIN_SW
        ∧ (∀ a, mapGet 0 u.sram a = if a / 2 ^ 35 = p.site then 0 else mapGet 0 s.sram a) ∧ u.hbm = s.hbm)
      ∧ (s.flag p.site Die.FAILED = false →
        ∃ u, exec (.selfTestDone p.site false) s = .next u ∧ u.powerUps = [] ∧ u.get p.site Reg.PWR_DIE_STATUS.VIN_SW = 0
          ∧ u.flag p.site Die.FAILED = true ∧ u.get panelSite Reg.CTL_BOOT.DIE_FAILS = (s.counted panelSite Reg.CTL_BOOT.DIE_FAILS).2.2
          ∧ u.noticeBuf = s.bufWith (s.ctlNotice 0x0C03 3 none 4 p.site) ∧ u.hbm = s.hbm))
    ∧ (∀ h block, s.takes h 8 → block < 16 → linkBlocks.contains block = false → s.squadsOn (vinSites block) = [] → s.substs = [] →
      s.powerUps = [] →
      ∃ u, exec (.rollCall h block 0) s = .next u ∧ s.tookCmd u h (replyTo h Op.ROLL_CALL St.ACCEPTED false [])
        ∧ (∃ d, u.deferred = [d] ∧ d.opcode = Op.ROLL_CALL ∧ d.cmd = .rollCall h block 0 ∧ d.slot = none)
        ∧ u.get panelSite (Reg.PWR_BLOCK.STATE block) = 3 ∧ u.get panelSite (Reg.PWR_BLOCK.EN block) = 1
        ∧ u.get panelSite (Reg.PWR_BLOCK.PWRGOOD block) = 0 ∧ (∀ k ∈ vinSites block, u.get k Reg.PWR_DIE_STATUS.VIN_SW = 0) ∧ u.hbm = s.hbm
        ∧ ∀ k, isCompute k = true → siteBlock k ≠ block → ∀ f, f.off < 2 ^ 26 → f.lo < 64 → u.get k f = s.get k f)
    ∧ (∀ d h block, s.deferred = [d] → s.canEnd d → d.opcode = Op.ROLL_CALL → d.cmd = .rollCall h block 0 → block < 16 →
      s.get panelSite (Reg.PWR_BLOCK.STATE block) = 3 → s.substs = [] →
      (s.flag panelSite (Reg.PWR_BLOCK.PWRGOOD block) = false → d.slot = none →
        ∃ u, exec (.rollCallLimit block) s = .next u ∧ s.cmdEnded u d St.HW_FAULT [] ∧ s.sameMemory u
          ∧ u.get panelSite (Reg.PWR_BLOCK.EN block) = 0 ∧ u.get panelSite (Reg.PWR_BLOCK.STATE block) = 2
          ∧ s.sameFields u (endFlds d ++ [panelFld (Reg.PWR_BLOCK.EN block), panelFld (Reg.PWR_BLOCK.STATE block)]))
      ∧ (s.flag panelSite Boot.RELEASED = true →
        s.flag panelSite (Reg.PWR_BLOCK.PWRGOOD block) = false → s.flag panelSite (Reg.PWR_BLOCK.EN block) = true → s.powerUps = [] →
        (vinSites block).any s.alive = true → (∀ k ∈ vinSites block, s.alive k = true → isCompute k = true → s.siteState k = Site.ACTIVE) →
        ∃ u, exec (.pwrgoodAssert block) s = .next u ∧ u.deferred = [{ d with slot := some St.OK }]
          ∧ u.get panelSite (Reg.PWR_BLOCK.PWRGOOD block) = 1
          ∧ u.powerUps = (vinSites block).filterMap fun k => if s.alive k then some (PowerUp.mk k Why.ROLL 0) else none)
      ∧ (∀ p vin amps, s.powerUps = [p] → p.why = Why.ROLL → p.phase = 1 → siteBlock p.site = block → isCompute p.site = true → d.mask = 0 →
        s.flag panelSite (Reg.PWR_BLOCK.PWRGOOD block) = true → d.slot = some St.OK → s.siteState p.site = Site.ACTIVE →
        (1650 ≤ vin → amps ≤ 600 →
          ∃ u, exec (.siteCheckDone p.site vin amps) s = .next u ∧ s.cmdEnded u d St.OK [0] ∧ u.powerUps = [{ p with phase := 2 }]
            ∧ u.get panelSite (Reg.PWR_BLOCK.STATE block) = 1 ∧ s.sameMemory u)
        ∧ ((vin < 1650 ∨ 600 < amps) → s.rosterDie p.site = none →
          ∃ u, exec (.siteCheckDone p.site vin amps) s = .next u ∧ s.cmdEnded u { d with mask := 2 ^ sitePos p.site } St.OK [2 ^ sitePos p.site]
            ∧ u.powerUps = [] ∧ u.siteState p.site = Site.FENCED ∧ u.get p.site Reg.PWR_DIE_STATUS.VIN_SW = 0
            ∧ u.get p.site Reg.PWR_DIE_STATUS.FENCE_CAUSE = 3)))
    ∧ (∀ block, block < 16 → s.settled → s.flag panelSite Boot.RELEASED = true →
      (s.flag panelSite (Reg.PWR_BLOCK.PWRGOOD block) = true → s.squadsOn (vinSites block) = [] →
        (s.get panelSite (Reg.PWR_BLOCK.STATE block) = 1 → linkBlocks.contains block = false →
          ∃ u, exec (.pwrgoodFall block) s = .next u ∧ u.get panelSite (Reg.PWR_BLOCK.PWRGOOD block) = 0
            ∧ u.get panelSite (Reg.PWR_BLOCK.EN block) = 0 ∧ u.get panelSite (Reg.PWR_BLOCK.STATE block) = 2
            ∧ (∀ k ∈ vinSites block, u.get k Reg.PWR_DIE_STATUS.VIN_SW = 0) ∧ u.hbm = s.hbm
            ∧ u.noticeBuf = s.bufWith (s.ctlNotice 0x0A05 3 none block 0)
            ∧ ∀ k, isCompute k = true → siteBlock k ≠ block → ∀ f, f.off < 2 ^ 26 → f.lo < 64 → u.get k f = s.get k f)
        ∧ (s.get panelSite (Reg.PWR_BLOCK.STATE block) = 2 →
          ∃ u, exec (.pwrgoodFall block) s = .next u ∧ s.onlyBecome u [(panelSite, Reg.PWR_BLOCK.PWRGOOD block, 0)]))
      ∧ (s.flag panelSite (Reg.PWR_BLOCK.EN block) = true → s.flag panelSite (Reg.PWR_BLOCK.PWRGOOD block) = false →
        s.get panelSite (Reg.PWR_BLOCK.STATE block) = 0 → s.powerUps = [] → s.inRecovery = false →
        ∃ u, exec (.pwrgoodAssert block) s = .next u ∧ u.get panelSite (Reg.PWR_BLOCK.PWRGOOD block) = 1
          ∧ u.get panelSite (Reg.PWR_BLOCK.STATE block) = 1
          ∧ u.powerUps = (roundSites block).filterMap fun k => if s.bringsUp k then some (PowerUp.mk k Why.BRINGUP 0) else none))


/-! ### Data windows, fills and margin scans -/

/-- `DATA_OPEN` takes the lowest free window number (R369): a write window waits for DATA, and each message in order becomes requests to memory
(R371); one out of place is counted and closes the window. Each burst that is in memory is acknowledged, and the window ends with its last (R371).
`DATA_CLOSE` of no window is `ALREADY_DONE`; of an idle one it answers after the window's final reply; at the drain bound what is open is withdrawn
(R373). `FILL` sends its first request; `MARGIN_SCAN` starts its minima and ends with the words of its kind (R485). -/
def Obligations.WindowsFillsAndScans : Prop :=
  ∀ (s : State), s.canonical = true →
    (∀ h addr length, ∀ burst : Nat, s.takes h 24 → 1 ≤ length → addr + length ≤ 2 ^ 42 →
      12 ≤ burst → burst ≤ 20 → s.windows = [] → s.flag panelSite Reg.SQD_PANEL.IMAGE_VERIFIED = false → s.portUsable h.port = true →
      let i := Instr.dataOpen h (2 ^ 56 + addr) length 0 burst 0 0
      let w : Window := ⟨0, h.port, [h.port], h.tag, false, 2 ^ burst, s.ownPanel * 2 ^ 44 + addr, length, [0], [0], [], [], 0, 0, none, []⟩
      h.tag < 65536 →
      ∃ u, exec i s = .next u
        ∧ ({ s with windows := [w] } : State).accepted u h Op.DATA_OPEN i [0]
            [(siteOfPort h.port, Reg.PORT_DATA_WIN.OPEN 0, 1), (siteOfPort h.port, Reg.PORT_DATA_WIN.DIR 0, 0),
              (siteOfPort h.port, Reg.PORT_DATA_WIN.BURST 0, burst - 12), (siteOfPort h.port, Reg.PORT_DATA_WIN.PORTS 0, 2 ^ h.port),
              (siteOfPort h.port, Reg.PORT_DATA_WIN.TAG 0, h.tag), (siteOfPort h.port, Reg.PORT_DATA_DONE.DONE 0, 0)])
    ∧ (∀ h n, s.takes h 8 → n < 4 → (∀ w ∈ s.windows, ¬ (w.arrival = h.port ∧ w.number = n)) →
      ∃ u, exec (.dataClose h n 0) s = .next u ∧ s.answered u h Op.DATA_CLOSE St.ALREADY_DONE [] [])
    ∧ (∀ (w : Window) d, s.windows = [w] → w.ports = [w.arrival] → w.arrival < 8 → w.closers = [] → s.deferred = [d] → s.canEnd d →
      d.slot = none → d.opcode = Op.DATA_OPEN → d.port = w.arrival → d.tag = w.tag → w.number < 4 → w.length ≤ 2 ^ 42 → 0 < w.burst →
      let site := siteOfPort w.arrival
      (∀ bytes : List Byte, w.read = false → w.closing = none → 1 ≤ bytes.length → bytes.length ≤ 496 → s.get panelSite Reg.CTL_BOOT.STAGE = 7 →
        (∀ off, w.next = [off] → off + bytes.length ≤ w.length → (w.addr + off) % 256 = 0 → bytes.length = 256 →
          (w.addr + off) / 2 ^ 44 = s.ownPanel → w.reqs = [] → s.proxies = [] →
          ∃ u, exec (.data w.arrival w.number off 256 0 false 0 bytes) s = .next u
            ∧ u = { s with
              fld := u.fld
              arrived := u.arrived
              windows := [{ w with next := [off + 256], reqs := [⟨0, off, 256⟩] }]
              hubReqs := s.hubReqs ++ [⟨2, 0, s.ownPanel, site, 63, 0, w.addr + off, 0, 0, 0, 0, 0, 0, 0, bytes⟩] }
            ∧ s.sameFields u [])
        ∧ (∀ off o, w.next = [o] → off ≠ o → w.reqs = [] →
          ∃ u, exec (.data w.arrival w.number off bytes.length 0 false 0 bytes) s = .next u ∧ u.windows = [] ∧ s.sameMemory u
            ∧ s.cmdEnded u d St.BAD_PARAM [w.done, w.poisoned]
            ∧ u.jget w.arrival Port.DATA_DROPS = (s.counted site Port.DATA_DROPS).2.2))
      ∧ (w.read = false → w.closing = none → w.reqs = [] → w.next = [w.length] → w.done < w.length → w.length ≤ (w.done / w.burst + 1) * w.burst →
        ∃ u, exec (.ack w.arrival w.number w.length) s = .next u ∧ u.windows = [] ∧ s.sameMemory u
          ∧ s.cmdEnded u d St.OK [w.length, w.poisoned] ∧ u.jget w.arrival (Reg.PORT_DATA_DONE.DONE w.number) = w.length
          ∧ u.jget w.arrival (Reg.PORT_DATA_WIN.OPEN w.number) = 0)
      ∧ (∀ st w2, w.closing = some (st, w2) → w.reqs ≠ [] → st ≠ St.HW_FAULT →
        ∃ u, exec (.windowDrainBound w.arrival w.number) s = .next u ∧ u.windows = [] ∧ s.sameMemory u
          ∧ s.cmdEnded u d (if st = St.OK then St.WITHDRAWN else st) [w.done, w.poisoned]))
    ∧ (∀ h addr (pattern : Word), s.takes h 24 → addr / 2 ^ 44 = s.ownPanel → addr < 2 ^ 56 → addr % 2 ^ 44 + 256 ≤ 2 ^ 42 → addr % 256 = 0 →
      s.flag panelSite Reg.SQD_PANEL.IMAGE_VERIFIED = false →
      let i := Instr.fill h addr 256 pattern
      ∃ u, exec i s = .next u
        ∧ ({ s with hubReqs := s.hubReqs ++ [⟨2, 0, s.ownPanel, s.controlSite, 63, 0, addr, 0, 0, 0, 0, 0, 0, 0,
              (List.range 256).map fun k => BitVec.ofNat 8 (pattern.toNat / 2 ^ (8 * (k % 8)))⟩] } : State).accepted u h Op.FILL i [] [])
    ∧ (∀ h kind site, s.takes h 8 → kind ≤ 2 → scanSiteOk kind site = true →
      let i := Instr.marginScan h kind site 0
      ∃ u, exec i s = .next u
        ∧ s.accepted u h Op.MARGIN_SCAN i []
            (((List.range 256).filter fun k => isCompute k || dieKind k == .link).flatMap fun k =>
              [(k, Die.SCAN_VIN, s.get k Reg.PWR_DIE_MEAS.VIN), (k, Die.SCAN_SLACK, 255), (k, Die.SCAN_CORE, 0),
                (k, Die.SCAN_CODE, s.get k Reg.CLK_CORE_STATUS.FREQ), (k, Die.SCAN_WARN, 0)]))
    ∧ (∀ d h kind site, s.deferred = [d] → s.canEnd d → d.opcode = Op.MARGIN_SCAN → d.cmd = .marginScan h kind site 0 → s.controlDead = false →
      ∃ u, exec .marginScanDone s = .next u ∧ s.cmdEnded u d St.OK (s.scanWords kind site).1 ∧ s.sameMemory u
        ∧ s.sameFields u (endFlds d))


/-! ### Refusals, `ABORT`, TMO, and the commands of ports and routers -/

/-- The checks of R357 in order: a packet that fails its CRC is discarded, counted and told by a notice; one that is cut short is answered
`BAD_LENGTH` without being executed; one out of sequence is answered with the SEQ expected and counted (R358); an opcode of no table is
`BAD_OPCODE`; a command from a port without host authority is `NOT_PERMITTED` (R361); a length that is not the command's is `BAD_LENGTH`. -/
def Obligations.CommandsAreChecked : Prop :=
  ∀ (s : State) (h : CmdHdr), s.canonical = true →
    let sent (i : Instr) (op status : Nat) (words : List Nat) (ws : List (Nat × Fld × Nat)) : Prop :=
      ∃ u, exec i s = .next u
        ∧ u = { s with
          fld := u.fld, arrived := (s.takePacket h op).arrived, txFrames := u.txFrames, fresh := u.fresh
          replies := s.replies ++ [replyTo h op status true words] }
        ∧ (∀ w ∈ ws, u.get w.1 w.2.1 = w.2.2) ∧ s.sameFields u (sendFlds h.port ++ ws.map fun w => (w.1, w.2.1))
    (s.controlDead = false → ∀ port < 8, ∃ u, exec (.commandBadcrc port) s = .next u
      ∧ u = { s with fld := u.fld, noticeBuf := s.bufWith (s.ctlNotice 0x0703 1 none port 0) }
      ∧ s.fieldsBecome u (s.counted panelSite Reg.CTL_CMD_STATUS.BADCRC :: s.noticeWrites s.controlSite))
    ∧ (∀ len, s.takes h len → opcodes.contains h.opcode = false →
      ∃ u, exec (.unknownOpcode h) s = .next u ∧ s.answered u h h.opcode St.BAD_OPCODE [] [])
    ∧ (h.port < 8 → h.bridged = false → s.controlDead = false → s.portMute h.port = false → h.received < h.length →
      sent (.identify h) Op.IDENTIFY St.BAD_LENGTH [] [] ∧ ∀ cap rsv, sent (.setPowerCap h cap rsv) Op.SET_POWER_CAP St.BAD_LENGTH [] [])
    ∧ (let next := (s.get panelSite (Reg.CTL_CMD_PORT.LAST_SEQ h.port) + 1) % 2 ^ 32
      h.port < 8 → h.bridged = false → s.controlDead = false → s.portMute h.port = false → h.length = 0 → h.received = 0 →
      s.flag panelSite (Reg.CTL_CMD_PORT.SEQ_VALID h.port) = true → h.seq ≠ next → (∀ r ∈ s.stored, ¬ (r.port = h.port ∧ r.seq = h.seq)) →
      sent (.identify h) Op.IDENTIFY St.BAD_PARAM [next] [s.counted panelSite (Reg.CTL_CMD_PORT.SEQ_REJECTS h.port)])
    ∧ (s.takes h 0 → ∀ cap rsv, ∃ u, exec (.setPowerCap h cap rsv) s = .next u ∧ s.answered u h Op.SET_POWER_CAP St.BAD_LENGTH [] [])
    ∧ (h.port < 8 → h.bridged = false → s.controlDead = false → s.portMute h.port = false → h.length = 8 → h.received = 8 → h.seq < 2 ^ 32 →
      s.flag panelSite (Reg.CTL_CMD_PORT.SEQ_VALID h.port) = false → s.hostPort h.port = false →
      ∀ cap rsv, ∃ u, exec (.setPowerCap h cap rsv) s = .next u ∧ s.answered u h Op.SET_POWER_CAP St.NOT_PERMITTED [] [])

/-- A command's final status is the first that is offered to its slot (R367): `ABORT` ends an open command as `ABORTED` and is answered `OK`, finds
another `ALREADY_DONE`, and names no command otherwise; its TMO ends it as `TIMED_OUT` (R363). `PORT_CONTROL` sets the role, trains a port that
does not carry, and drains one that does (R315); `FABRIC_TIMEOUT` puts TIMEOUT in every alive router (R289). -/
def Obligations.AbortTimeoutAndPortControl : Prop :=
  ∀ (s : State) (h : CmdHdr), s.canonical = true →
    (∀ d : Deferred, s.deferred = [d] → s.canEnd d → ({ s with deferred := [] } : State).takes h 8 → d.tag < 65536 → d.tag ≠ h.tag →
      (∀ hc squads rsv, d.cmd = .configure hc squads rsv → d.opcode = Op.CONFIGURE →
        (d.slot = none → ∃ u, exec (.abort h d.port d.tag 0) s = .next u ∧ u.deferred = [] ∧ s.sameMemory u
          ∧ u.replies = s.replies ++ [replyTo h Op.ABORT St.OK true [], finalReply d St.ABORTED []]
          ∧ s.sameFields u (cmdFlds h ++ endFlds d))
        ∧ (d.slot ≠ none → ∃ u, exec (.abort h d.port d.tag 0) s = .next u ∧ s.answered u h Op.ABORT St.ALREADY_DONE [] [])
        ∧ (d.slot = none → ∃ u, exec (.cmdTmo d.port d.tag) s = .next u ∧ s.cmdEnded u d St.TIMED_OUT [] ∧ s.sameMemory u
          ∧ s.sameFields u (endFlds d))))
    ∧ (∀ port tag, s.takes h 8 → port < 8 → tag < 65536 → (∀ r ∈ s.stored, ¬ (r.port = port ∧ r.tag = tag)) →
      ∃ u, exec (.abort h port tag 0) s = .next u ∧ s.answered u h Op.ABORT St.BAD_PARAM [] [])
    ∧ (∀ port role, s.takes h 8 → port < 8 → port ≠ h.port → s.proxies = [] → s.windows = [] →
      (role ≤ 1 → ∃ u, exec (.portControl h port 2 role 0) s = .next u
        ∧ s.acceptedEnded u h Op.PORT_CONTROL [] St.OK [] [(siteOfPort port, Reg.PORT_CTL.ROLE, role)])
      ∧ (s.portState port = Port.DOWN → s.alive (siteOfPort port) = true → s.jget port Reg.PWR_DIE_STATUS.VIN_SW = 1 →
        s.flag panelSite Reg.THM_PANEL.AIR = false →
        ∃ u, exec (.portControl h port 1 0 0) s = .next u
          ∧ s.accepted u h Op.PORT_CONTROL (.portControl h port 1 0 0) [] [(siteOfPort port, Reg.PORT_STATUS.STATE, Port.TRAINING)])
      ∧ (∀ t, s.portUsable port = true → (∀ x ∈ s.txFrames, x.port = port → x.sent = true) → t ∈ s.txFrames → t.port = port →
        ∃ u, exec (.portControl h port 0 0 0) s = .next u
          ∧ ({ s with portOut := s.portOut ++ [(port, .mgmt 3 0 0)] } : State).accepted u h Op.PORT_CONTROL (.portControl h port 0 0 0) []
              [(siteOfPort port, Reg.PORT_STATUS.STATE, Port.DRAINING), (siteOfPort port, Port.DRAIN_SENT, 1)]))
    ∧ (∀ force, s.takes h 208 → s.held = [] → (∀ n < 16, s.squadState n ≠ Squad.RUNNING) →
      let i := Instr.fabricTimeout h { TimeoutTables.none with force := force } 0
      ∃ u, exec i s = .next u
        ∧ ({ s with timeout := some ⟨0, 0, { TimeoutTables.none with force := force }⟩ } : State).accepted u h Op.FABRIC_TIMEOUT i []
            (((List.range 256).filter fun k => hasRouter k && s.alive k).map fun k => (k, Reg.MESH_CTL.TIMEOUT, 1)))

/-! ### Security -/

/-- `FW_UPDATE` waits for its staged image, whose checks end it or start the erase (R463); the image read back stands in the boot flash. `LIFECYCLE`
and `DEBUG_UNLOCK` use up the challenge (R465): without a good authorisation they end `AUTH_FAIL`; otherwise a panel scrub starts, or the slot is
revoked (R464 to R468). A tamper event wipes the secrets, drives WP and starts a scrub (R471, R472). -/
def Obligations.SecurityCommands : Prop :=
  ∀ (s : State), s.canonical = true → s.windows = [] → s.hubRecords = [] →
    (∀ h addr length, s.takes h 16 → addr + length ≤ 2 ^ 42 →
      ∃ u, exec (.fwUpdate h addr length) s = .next u ∧ s.accepted u h Op.FW_UPDATE (.fwUpdate h addr length) [] [])
    ∧ (∀ d h addr length, s.deferred = [d] → s.canEnd d → d.opcode = Op.FW_UPDATE → d.cmd = .fwUpdate h addr length → s.inRecovery = false →
      let img := (s.memBytes addr length).map (·.1)
      (d.step = 1 → ∃ u, exec .fwUpdateVerified s = .next u ∧ s.sameMemory u
        ∧ match s.updateCheck img with
          | some st => s.cmdEnded u d st [] ∧ u.flash = s.flash ∧ s.sameFields u (endFlds d)
          | none => u = { s with flash := [], deferred := [{ d with step := 2, slot := some St.OK }] })
      ∧ (d.step = 2 → ∀ good, ∃ u, exec (.flashWriteDone good) s = .next u ∧ s.sameMemory u
        ∧ s.cmdEnded u d (if good then St.OK else St.HW_FAULT) []
        ∧ u.flash = (if good then mapWrite 0 [] 0 (img.take (fwLength img)) else s.flash)
        ∧ u.get panelSite Reg.SEC_STATUS.SVN_MIN = (if good then max (s.get panelSite Reg.SEC_STATUS.SVN_MIN) (fwSvn img) % 2 ^ Reg.SEC_STATUS.SVN_MIN.width
            else s.get panelSite Reg.SEC_STATUS.SVN_MIN)
        ∧ s.sameFields u (endFlds d ++ [panelFld Reg.SEC_STATUS.SVN_MIN, panelFld Reg.SEC_STATUS.SVN_ROWS])))
    ∧ (∀ h target (auth : Auth), s.takes h 424 → [1, 2, 3, 4, 8].contains target = true → authForm auth 1 target = true →
      lifeArgOk target auth.arg = true → s.lifeState target auth.arg = true → auth.arg < 2 ^ 512 →
      let i := Instr.lifecycle h target auth 0
      let revoked := s.get panelSite Reg.SEC_KEYS.REVOKED
      ∃ u, exec i s = .next u ∧ s.sameMemory u ∧ u.get panelSite Reg.SEC_STATUS.LCS = s.get panelSite Reg.SEC_STATUS.LCS
        ∧ if (s.cmdState h Op.LIFECYCLE).authorised auth (lifeSigner target auth.arg) = false then
            s.acceptedEnded u h Op.LIFECYCLE [] St.AUTH_FAIL [] (u.asIn [panelFld Reg.SEC_CHALLENGE.CHALLENGE])
          else if target = 8 then
            (3 ≤ ((List.range 4).filter revoked.testBit).length ∨ revoked.testBit auth.arg = true ∨
              s.acceptedEnded u h Op.LIFECYCLE [] St.OK []
                ((panelSite, Reg.SEC_KEYS.REVOKED, revoked ||| 2 ^ auth.arg) :: u.asIn [panelFld Reg.SEC_CHALLENGE.CHALLENGE]))
          else
            u.get panelSite Panel.SCRUBBING = 1 ∧ s.tookCmd u h (replyTo h Op.LIFECYCLE St.ACCEPTED false [])
              ∧ (∃ d, u.deferred = [d] ∧ d.cmd = i ∧ d.step = 2 ∧ d.slot = none))
    ∧ (∀ h (auth : Auth), s.squadsIdle = true →
      (s.takes h 424 → authForm auth 2 0 = true →
        ∃ u, exec (.debugUnlock h 0 auth 0) s = .next u ∧ s.sameMemory u ∧ u.debugMode = s.debugMode
          ∧ if (s.cmdState h Op.DEBUG_UNLOCK).authorised auth (s.cmdState h Op.DEBUG_UNLOCK).debugSigner = false then
              s.acceptedEnded u h Op.DEBUG_UNLOCK [] St.AUTH_FAIL [] (u.asIn [panelFld Reg.SEC_CHALLENGE.CHALLENGE])
            else
              u.get panelSite Panel.SCRUBBING = 1 ∧ s.tookCmd u h (replyTo h Op.DEBUG_UNLOCK St.ACCEPTED false [])
                ∧ ∃ d, u.deferred = [d] ∧ d.cmd = .debugUnlock h 0 auth 0 ∧ d.step = 2 ∧ d.slot = some St.OK)
      ∧ (s.takes h 8 →
        ∃ u, exec (.debugUnlock h 1 auth 0) s = .next u ∧ s.sameMemory u ∧ u.get panelSite Panel.SCRUBBING = 1
          ∧ s.tookCmd u h (replyTo h Op.DEBUG_UNLOCK St.ACCEPTED false [])
          ∧ ∃ d, u.deferred = [d] ∧ d.cmd = .debugUnlock h 1 auth 0 ∧ d.step = 2 ∧ d.slot = some St.OK))
    ∧ (∀ cause, (cause = 1 ∨ cause = 2) → s.flag panelSite Boot.RELEASED = true → s.flag panelSite Reg.SEC_TAMPER.VALID = false →
      s.squadsStill = true →
      ∃ u, exec (.tamper cause) s = .next u ∧ s.sameMemory u ∧ u.get panelSite Sec.IDKEY = 0 ∧ u.get panelSite Sec.FW_DIGEST = 0
        ∧ u.get panelSite Reg.SEC_CHALLENGE.CHALLENGE = 0 ∧ u.debugMode = false ∧ u.get panelSite Reg.SEC_STATUS.TAMPER = 1
        ∧ u.get panelSite Reg.SEC_TAMPER.VALID = 1 ∧ u.get panelSite Reg.SEC_TAMPER.CAUSE = cause
        ∧ u.get panelSite Reg.SEC_TAMPER.COUNT = (s.counted panelSite Reg.SEC_TAMPER.COUNT).2.2
        ∧ (u.get panelSite Reg.SQD_LINES.WHISTLE).testBit 16 = true ∧ u.get panelSite Panel.SCRUBBING = 1
        ∧ u.noticeBuf = s.bufWith (s.ctlNotice 0x0C06 3 none cause 0))


/-! ### Power delivery -/

/-- A sample sets a die's measurements and its block's draw (R406); under-voltage and an over-current open switches (R405); a failed phase or island
cell lowers the die's cap or is told (R407, R408), and a persistent drop above 15 mV is told (R410); a die's codes follow its averages (R420).
The budgets of R419: no die above its own cap, no block above its sum, the whole within the pool. -/
def Obligations.PowerEventsAndBudgets : Prop :=
  ∀ (s : State) (site : Nat), s.canonical = true →
    let notice (typ cls a0 a1 : Nat) : List Notice := s.bufWith (s.dieNotice site 63 typ cls a0 a1)
    let codes : List (Nat × Fld) := [(site, Reg.CLK_CORE_CTL.CEILING), (site, Reg.CLK_CORE_STATUS.FREQ), (site, Reg.CLK_CORE_STATUS.DOWN_STEPS),
      (site, Reg.CLK_CORE_STATUS.MIN_CODE), (site, Die.SCAN_CODE)]
    (∀ volts amps : List Nat, isCompute site = true → volts.length = 4 → amps.length = 4 → (∀ v ∈ volts, v < 2048) → (∀ a ∈ amps, a < 4096) →
      s.flag site Reg.PWR_DIE_STATUS.VIN_SW = true → s.get site Reg.CLK_CORE_STATUS.FREQ = 60 →
      let power := ((List.range 4).map fun c => volts.getD c 0 * amps.getD c 0).sum
      let low := volts.foldl min (volts.headD 0)
      let draw := Reg.PWR_BLOCK.DRAW (siteBlock site)
      ∃ u, exec (.powerSample site volts amps) s = .next u ∧ u = { s with fld := u.fld, fresh := s.fresh + 1 }
        ∧ u.get panelSite draw = ((vinSites (siteBlock site)).map fun k => u.get k Reg.PWR_DIE_MEAS.IVIN).sum % 2 ^ draw.width
        ∧ s.fieldsBecome u (((List.range 4).flatMap fun c =>
              [(site, Reg.PWR_CORNER.V c, volts.getD c 0), (site, Reg.PWR_CORNER.I c, amps.getD c 0)])
            ++ [(site, Reg.PWR_DIE_MEAS.IVIN, amps.sum / 10), (site, Reg.PWR_DIE_MEAS.POWER, power / 100000 % 2 ^ 11), (site, Reg.PWR_DIE_MEAS.VCORE, 750),
              (site, Reg.PWR_DIE_MEAS.VIN, low), (site, Die.SCAN_VIN, min low (s.get site Die.SCAN_VIN)), s.counted site Die.P_SUM power,
              s.counted site Die.P_COUNT, (panelSite, draw, u.get panelSite draw)]))
    ∧ (∀ corner mv, isCompute site = true → corner < 4 → mv < 1600 → s.flag site Reg.PWR_DIE_STATUS.VIN_SW = true → s.substs = [] →
      s.siteSquad site = none → s.siteState site = Site.ACTIVE → s.ownFences = [] →
      ∃ u, exec (.vinUndervolt site corner mv) s = .next u ∧ u.get site Reg.PWR_DIE_STATUS.VIN_SW = 0 ∧ u.get site Reg.PWR_DIE_STATUS.FENCE_CAUSE = 5
        ∧ u.get site Reg.MESH_STATUS.LOCAL_FENCED = 1 ∧ u.get site Reg.PWR_DIE_EVENTS.UV_EVENTS = (s.counted site Reg.PWR_DIE_EVENTS.UV_EVENTS).2.2
        ∧ u.ownFences = [site] ∧ u.noticeBuf = notice 0x0A01 3 corner mv ∧ u.hbm = s.hbm
        ∧ ∀ k f, k ≠ site → f.off < 2 ^ 26 → f.lo < 64 → u.get k f = s.get k f)
    ∧ (hasRouter site = true → s.flag site Reg.PWR_DIE_STATUS.VAON_SW = true →
      ∃ u, exec (.vaonOvercurrent site) s = .next u ∧ u.get site Reg.PWR_DIE_STATUS.VAON_SW = 0 ∧ u.get site Reg.PWR_DIE_STATUS.FENCE_CAUSE = 4
        ∧ (∀ x ∈ u.held, x.site ≠ site) ∧ s.sameMemory u)
    ∧ (∀ phase < 8, isCompute site = true → s.flag site Reg.PWR_DIE_STATUS.VIN_SW = true →
      (s.get site Reg.PWR_DIE_STATUS.PHASE_OK).testBit phase = true →
      let left := s.get site Reg.PWR_DIE_STATUS.PHASE_OK - 2 ^ phase
      let n := phasesIn left
      6 ≤ n →
      ∃ u, exec (.phaseFail site phase) s = .next u ∧ u = { s with fld := u.fld, noticeBuf := notice 0x0A02 2 (phase + 8 * n) 0 }
        ∧ s.fieldsBecome u ([(site, Die.PHASES_OUT, s.get site Die.PHASES_OUT ||| 2 ^ phase), (site, Reg.PWR_DIE_STATUS.PHASE_OK, left),
              s.counted site Reg.PWR_DIE_EVENTS.PHASE_FAILS,
              (site, Reg.PWR_DIE_STATUS.CAP, min (if n = 7 then 73 else 63) (s.get site Reg.PWR_DIE_STATUS.CAP))]
            ++ (if n = 6 then (site, Reg.PWR_DIE_STATUS.CLK_LIMIT, 48) :: u.asIn codes else []) ++ s.noticeWrites site)
        ∧ (n = 6 → u.get site Reg.CLK_CORE_CTL.CEILING ≤ 48))
    ∧ (∀ cell < 2, isCompute site = true → s.get site Reg.PWR_DIE_STATUS.ISLAND_OK = 3 →
      ∃ u, exec (.islandCellFail site cell) s = .next u ∧ u = { s with fld := u.fld, noticeBuf := notice 0x0A03 2 cell 0 }
        ∧ s.fieldsBecome u ([(site, Reg.PWR_DIE_STATUS.ISLAND_OK, 3 - 2 ^ cell), s.counted site Reg.PWR_DIE_EVENTS.ISLAND_FAILS] ++ s.noticeWrites site))
    ∧ (∀ corner base now, onVin site = true → corner < 4 → base ≤ now → now < 1024 → s.flag site Reg.PWR_DIE_STATUS.VIN_SW = true →
      s.get site (Die.PATH corner) = 0 →
      (now ≤ base + 15 → ∀ p, ∃ u, exec (.pathSample site corner base now p) s = .next u
        ∧ s.onlyBecome u [(site, Reg.PWR_CORNER.BASE corner, base), (site, Reg.PWR_CORNER.NOW corner, now)])
      ∧ (base + 15 < now → now ≤ base + 40 →
        ∃ u, exec (.pathSample site corner base now true) s = .next u
          ∧ u = { s with fld := u.fld, noticeBuf := notice 0x0A04 2 (corner + 4 * 15) (now - base) }
          ∧ s.fieldsBecome u ([(site, Reg.PWR_CORNER.BASE corner, base), (site, Reg.PWR_CORNER.NOW corner, now), (site, Die.PATH corner, 1),
              s.counted site Reg.PWR_DIE_EVENTS.PATH_NOTICES] ++ s.noticeWrites site)))
    ∧ (∀ avg1us avg1ms, isCompute site = true → s.flag site Reg.PWR_DIE_STATUS.VIN_SW = true → avg1ms < 1024 →
      let p := s.get site Reg.PWR_DIE_BUDGET.BUDGET
      let code := s.get site Die.P_CEIL
      code ≤ 72 →
      let high := 11 * p < 10 * avg1us
      let next := if high then code - 4 else if p < avg1ms then code - 1 else if 100 * avg1ms < 95 * p then min 72 (code + 1) else code
      ∃ u, exec (.ceilingControl site avg1us avg1ms) s = .next u
        ∧ s.onlyBecome u ([(site, Reg.PWR_DIE_BUDGET.AVG_1MS, avg1ms),
            (site, Reg.PWR_DIE_BUDGET.PEAK, max (min avg1us 1023) (s.get site Reg.PWR_DIE_BUDGET.PEAK)), (site, Die.P_CEIL, next),
            s.counted site Reg.PWR_DIE_BUDGET.LIMIT_EVENTS (if high then 1 else 0)] ++ u.asIn codes)
        ∧ u.get site Reg.CLK_CORE_CTL.CEILING ≤ next)
    ∧ (s.controlDead = false →
      let served := computeSites.filter fun k => s.siteState k == Site.ACTIVE || s.siteState k == Site.INCOMING
      ∃ u, exec .budgetUpdate s = .next u ∧ u = { s with fld := u.fld } ∧ s.sameFields u budgetFlds
        ∧ u.get panelSite Reg.PWR_PANEL.IN_FORCE = s.capInForce
        ∧ (∀ b < 16, u.get panelSite (Reg.PWR_BLOCK.BUDGET b) = s.get panelSite (Reg.PWR_BLOCK.LIMIT b) * 17 / 11 % 2 ^ 11)
        ∧ (∀ k ∈ served, u.get k Reg.PWR_DIE_BUDGET.BUDGET ≤ 10 * s.get k Reg.PWR_DIE_STATUS.CAP
            ∧ u.get k Reg.PWR_DIE_BUDGET.BUDGET ≤ s.get k Reg.THM_DIE_THETA.P_TH)
        ∧ (served.map fun k => u.get k Reg.PWR_DIE_BUDGET.BUDGET).sum ≤ 10 * (s.capInForce - s.fixedPower)
        ∧ (∀ b < 16, (((served.filter fun k => siteBlock k == b).map fun k => u.get k Reg.PWR_DIE_BUDGET.BUDGET).sum : Rat) ≤ max 0 (s.blockRoom b)))


/-! ### Temperatures and the coolant -/

/-- Where every sensor of a die reads the same temperature, in 0.01 degrees, that is Tj (R428), and the thermal ceiling follows it (R429); the
second sample at 105 degrees fences a compute die, switches a link die off and fails a hub's channels. 110 degrees trips (R430). Estimates and
thermal caps follow R431 and R432. -/
def Obligations.TemperaturesAct : Prop :=
  ∀ (s : State) (site : Nat), s.canonical = true →
    let codes : List (Nat × Fld) := [(site, Reg.CLK_CORE_CTL.CEILING), (site, Reg.CLK_CORE_STATUS.FREQ), (site, Reg.CLK_CORE_STATUS.DOWN_STEPS),
      (site, Reg.CLK_CORE_STATUS.MIN_CODE), (site, Die.SCAN_CODE)]
    (∀ t : Int, -32768 ≤ t → t < 32768 → hasRouter site = true → s.flag panelSite Reg.THM_CTL.RATE_EN = false →
      (∀ k < 16, s.flag site (Reg.THM_SITE.A_BAD k) = false ∧ s.flag site (Reg.THM_SITE.B_BAD k) = false) →
      s.get site Reg.THM_DIE_STATUS.T_CEIL ≤ 72 →
      let i := Instr.sensorSample site (List.replicate (hotSpots site) ⟨t, t, t⟩)
      let old := s.get site Thm.BAND
      let band := if t ≤ 9300 then 0 else if t ≤ 9500 then 1 else if t < 10000 then 2 else 3
      let ceil := s.get site Reg.THM_DIE_STATUS.T_CEIL
      let ms : Bool := old = band ∧ 9 ≤ s.get site Thm.TICKS
      let run := if 10500 ≤ t then min 3 (s.get site Thm.HOT_RUN + 1) else 0
      let throttles : Bool := band = 3 ∧ old ≠ 3
      ((10500 ≤ t → s.get site Thm.HOT_RUN ≠ 1) → s.get site Thm.THROTTLE_AT = 0 →
        ∃ u, exec i s = .next u
          ∧ u = { s with
            fld := u.fld
            noticeBuf := if throttles then s.bufWith (s.dieNotice site 63 0x0B04 2 (wrap16 t) 0) else s.noticeBuf }
          ∧ s.fieldsBecome u (((List.range (hotSpots site)).flatMap fun k =>
                [(site, Reg.THM_SITE.A k, wrap16 t), (site, Reg.THM_SITE.B k, wrap16 t), (site, Reg.THM_SITE.RO_T k, wrap16 t),
                  (site, Reg.THM_SITE.SPLIT k, 0), (site, Thm.SPLIT_RUN k, 0), (site, Thm.FAR_RUN k, 0), (site, Thm.GOV k, wrap16 t)])
              ++ [(site, Reg.THM_DIE_STATUS.TJ, wrap16 t), (site, Reg.THM_DIE_STATUS.HOT_SITE, 0), (site, Thm.BAND, band),
                (site, Thm.HOT_RUN, run), (site, Reg.THM_DIE_STATUS.LEVEL, if 2 ≤ run then 3 else band - 1),
                s.counted site Reg.THM_DIE_EVENTS.THROTTLES (if throttles then 1 else 0),
                (site, Reg.THM_DIE_STATUS.T_CEIL,
                  if isCompute site = false ∧ dieKind site ≠ .link then ceil
                  else if band = 3 then ceil - (if old = 3 then 1 else 4)
                  else if band = 2 ∧ ms then ceil - 1
                  else if band = 0 ∧ ms ∧ s.holding = false then min 72 (ceil + 1)
                  else ceil)]
              ++ u.asIn (codes ++ [(site, Thm.TICKS), (site, Thm.THROTTLE_AT), (site, Thm.TEMPS), (site, Thm.POWERS), (site, Thm.COUNT),
                (site, Thm.RISING)])
              ++ (if throttles then s.noticeWrites site else [])))
      ∧ (10500 ≤ t → s.get site Thm.HOT_RUN = 1 → old = 3 → s.get site Reg.DIE_NOTICE.BUFFERED < 16 → s.settled → s.siteSquad site = none →
        ∃ u, exec i s = .next u ∧ u.get site Reg.THM_DIE_STATUS.LEVEL = 3 ∧ u.get site Reg.THM_DIE_STATUS.TJ = wrap16 t
          ∧ u.get site Reg.THM_DIE_EVENTS.OVERTEMPS = (s.counted site Reg.THM_DIE_EVENTS.OVERTEMPS).2.2
          ∧ s.dieNotice site 63 0x0B05 3 (wrap16 t) 0 ∈ u.noticeBuf
          ∧ (isCompute site = true → s.siteState site = Site.ACTIVE → u.siteState site = Site.FENCED
            ∧ u.get site Reg.PWR_DIE_STATUS.VIN_SW = 0 ∧ u.get site Reg.MESH_STATUS.LOCAL_FENCED = 1)
          ∧ (dieKind site = .link → u.get site Reg.PWR_DIE_STATUS.VIN_SW = 0 ∧ u.get site Reg.MESH_STATUS.LOCAL_FENCED = 1)
          ∧ (dieKind site = .hub → ∀ ch < 32, u.get site (Reg.HUB_CHAN_STATUS.CHAN ch) = 2)))
    ∧ (isCompute site = true →
      ∃ u, exec (.thermtrip site) s = .next u ∧ u.get site Reg.THM_DIE_STATUS.TRIP = 1 ∧ u.get site Reg.PWR_DIE_STATUS.VIN_SW = 0
        ∧ u.get s.controlSite Reg.CTL_FAULT.FAULT = 1 ∧ (s.flag s.controlSite Reg.CTL_FAULT.FAULT = false → u.get s.controlSite Reg.CTL_FAULT.CAUSE = 5)
        ∧ u.hbm = s.hbm ∧ ∀ k f, k ≠ site → k ≠ s.controlSite → f.off < 2 ^ 26 → f.lo < 64 → u.get k f = s.get k f)
    ∧ (let served := s.sitesIn Site.ACTIVE
      let coolant : Rat := (((signed16 (s.get panelSite Reg.THM_PANEL.INLET) + signed16 (s.get panelSite Reg.THM_PANEL.OUTLET) : Int)) : Rat) / 2
      ∃ u, exec .thetaUpdate s = .next u ∧ u = { s with fld := u.fld, fresh := u.fresh }
        ∧ s.sameFields u (panelFld Reg.THM_COOLANT.THETA_MAX
            :: served.flatMap fun k => [(k, Die.P_SUM), (k, Die.P_COUNT), (k, Reg.THM_DIE_THETA.THETA)])
        ∧ (∀ k ∈ served, u.get k Reg.THM_DIE_THETA.THETA ≤ u.get panelSite Reg.THM_COOLANT.THETA_MAX)
        ∧ ∀ k ∈ served,
          let n := s.get k Die.P_COUNT
          let sum := s.get k Die.P_SUM
          let mean : Rat := ((((List.range 16).map fun j => signed16 (s.get k (Thm.GOV j))).sum : Int) : Rat) / 16
          let est := s.get k Reg.THM_DIE_THETA.THETA
          let next : Int := ((est : Rat) + ((mean - coolant) * 10000000 * (n : Rat) / (sum : Rat) - (est : Rat)) / 8).floor
          u.get k Die.P_SUM = 0 ∧ u.get k Die.P_COUNT = 0
            ∧ (n = 0 ∨ sum < 2000000 * n → u.get k Reg.THM_DIE_THETA.THETA = est)
            ∧ (n ≠ 0 → 2000000 * n ≤ sum → 0 ≤ next → next < 65536 → u.get k Reg.THM_DIE_THETA.THETA = next.toNat))
    ∧ (let served := s.sitesIn Site.ACTIVE ++ s.sitesIn Site.INCOMING
      let inlet : Int := max (signed16 (s.get panelSite Reg.THM_COOLANT.HOST_INLET)) (signed16 (s.get panelSite Reg.THM_PANEL.INLET))
      let coolant : Rat := ((inlet + signed16 (s.get panelSite Reg.THM_PANEL.OUTLET) : Int) : Rat) / 2
      let old := s.get panelSite Reg.PWR_PANEL.THERMAL_CAP
      ∃ u, exec .thermalCapUpdate s = .next u ∧ u = { s with fld := u.fld, fresh := u.fresh }
        ∧ s.sameFields u (panelFld Reg.PWR_PANEL.THERMAL_CAP :: budgetFlds ++ served.map fun k => (k, Reg.THM_DIE_THETA.P_TH))
        ∧ (∀ k ∈ served, s.get k Reg.THM_DIE_THETA.THETA ≠ 0 →
            u.get k Reg.THM_DIE_THETA.P_TH = min 820 ((9500 - coolant) * 1000 / (s.get k Reg.THM_DIE_THETA.THETA : Rat)).floor.toNat)
        ∧ u.get panelSite Reg.PWR_PANEL.IN_FORCE = u.capInForce
        ∧ (s.flag panelSite Reg.THM_PANEL.AIR = true → u.get panelSite Reg.PWR_PANEL.THERMAL_CAP = 2400)
        ∧ (s.flag panelSite Reg.THM_PANEL.AIR = false → u.get panelSite Reg.PWR_PANEL.THERMAL_CAP =
            min (min 15000 (2965 + (served.map fun k => u.get k Reg.THM_DIE_THETA.P_TH).sum / 10)) (old * 102 / 100)))

/-- The lid's sensors (R425), the check of the coolant's rise (R426), loss of flow and the steps of the thermal hold (R433, R434), and the return
of flow (R436). `FAULT_N` after a lost heartbeat or an expired watchdog (R477). -/
def Obligations.FlowLossHoldsThePanel : Prop :=
  ∀ (s : State), s.canonical = true →
    let st := s.get panelSite Reg.THM_PANEL.STATE
    let air := s.flag panelSite Reg.THM_PANEL.AIR
    let rescue := ((List.range 8).filter (s.get panelSite Reg.THM_CTL.RESCUE_PORTS).testBit).take 2
    (∀ inlet outlet : Int, ∃ u, exec (.lidSample inlet outlet) s = .next u
      ∧ s.onlyBecome u [(panelSite, Reg.THM_PANEL.INLET, wrap16 inlet), (panelSite, Reg.THM_PANEL.OUTLET, wrap16 outlet),
          s.counted panelSite Reg.THM_PANEL.HOLD_MS (if st = 1 then 1 else 0)])
    ∧ (let flow := s.get panelSite Reg.THM_COOLANT.HOST_FLOW
      let power := s.get panelSite Reg.PWR_PANEL.POWER
      let rise : Int := signed16 (s.get panelSite Reg.THM_PANEL.OUTLET) - signed16 (s.get panelSite Reg.THM_PANEL.INLET)
      let expected : Rat := (power * 10000 : Nat) / (60 * flow : Nat)
      let off : Rat := max ((rise : Rat) - expected) (expected - rise)
      (∀ held, flow = 0 ∨ power ≤ 3000 ∨ held = false ∨ 10 * off ≤ 3 * expected → exec (.flowCheck held) s = .next s)
      ∧ (flow ≠ 0 → 3000 < power → 3 * expected < 10 * off → s.get panelSite Thm.MISMATCH_AT = 0 →
        ∃ u, exec (.flowCheck true) s = .next u
          ∧ u = { s with
            fld := u.fld
            noticeBuf := s.bufWith (s.ctlNotice 0x0B01 2 none (rise % 2 ^ 32).toNat expected.floor.toNat) }
          ∧ s.fieldsBecome u (u.asIn [(panelSite, Thm.MISMATCH_AT)] ++ s.noticeWrites s.controlSite)))
    ∧ (∀ byRate, (air = true ∨ st ≠ 0 ∨ (byRate = true ∧ s.flag panelSite Reg.THM_CTL.RATE_EN = false)
        ∨ (byRate = false ∧ s.flag panelSite Reg.THM_PANEL.FLOW_OK = false)) → s.flag panelSite Boot.RELEASED = true →
      ∃ u, exec (.flowLoss byRate) s = .next u ∧ s.onlyBecome u [(panelSite, Reg.THM_PANEL.FLOW_OK, if byRate then s.get panelSite Reg.THM_PANEL.FLOW_OK else 0)])
    ∧ (∀ byRate, air = false → st = 0 → (byRate = true → s.flag panelSite Reg.THM_CTL.RATE_EN = true) →
      (byRate = false → s.flag panelSite Reg.THM_PANEL.FLOW_OK = true) → s.deferred = [] → s.substs = [] →
      s.flag panelSite Boot.RELEASED = true →
      (∀ p ∈ rescue, s.portCarries p = false) →
      let saves := if s.flag panelSite Reg.SQD_PANEL.IMAGE_VERIFIED then
        ((List.range 16).filterMap fun n => if s.squadState n = Squad.RUNNING ∨ s.squadState n = Squad.PAUSED then some (2 ^ n) else none).sum else 0
      ∃ u, exec (.flowLoss byRate) s = .next u
        ∧ u = { s with fld := u.fld, noticeBuf := s.bufWith (s.ctlNotice 0x0B06 3 none (if byRate then 1 else 0) 0) }
        ∧ s.fieldsBecome u ([(panelSite, Reg.THM_PANEL.FLOW_OK, if byRate then s.get panelSite Reg.THM_PANEL.FLOW_OK else 0), (panelSite, Reg.THM_PANEL.STATE, 1),
              (panelSite, Reg.THM_PANEL.HOLD_MS, 0),
              (panelSite, Hold.SAVES, saves), (panelSite, Hold.CUT_DUE, 1), (panelSite, Hold.CANCELLED, 0)]
            ++ s.noticeWrites s.controlSite ++ s.whistled 16 Cause.PANEL
            ++ computeSites.flatMap fun k => (k, Reg.THM_DIE_STATUS.T_CEIL, 0) :: (k, Reg.CLK_CORE_CTL.CEILING, 0)
              :: u.asIn [(k, Reg.CLK_CORE_STATUS.FREQ), (k, Reg.CLK_CORE_STATUS.DOWN_STEPS), (k, Reg.CLK_CORE_STATUS.MIN_CODE), (k, Die.SCAN_CODE)]))
    ∧ (st = 1 → s.flag panelSite Hold.CUT_DUE = true → s.deferred = [] → s.substs = [] → s.ownFences = [] → s.resetBusy = false →
      s.get s.controlSite Reg.DIE_NOTICE.BUFFERED < 16 →
      let left := s.get panelSite Hold.SAVES
      ∃ u, exec .thmSaveCut s = .next u ∧ u.powerUps = [] ∧ u.hbm = s.hbm ∧ u.snapshots = s.snapshots
        ∧ u.get panelSite Reg.SQD_PANEL.SAVED = s.get panelSite Reg.SQD_PANEL.SAVED &&& (65535 - left)
        ∧ (left ≠ 0 → s.ctlNotice 0x0B07 3 none left 0 ∈ u.noticeBuf)
        ∧ (∀ k, isCompute k = true → u.get k Reg.PWR_DIE_STATUS.VIN_SW = 0)
        ∧ (∀ p < 8, u.get (siteOfPort p) Reg.PWR_DIE_STATUS.VIN_SW = if p ∈ rescue then s.get (siteOfPort p) Reg.PWR_DIE_STATUS.VIN_SW else 0)
        ∧ (∀ b < 16, u.get panelSite (Reg.PWR_BLOCK.EN b) =
            if ∃ p ∈ rescue, siteBlock (siteOfPort p) = b then s.get panelSite (Reg.PWR_BLOCK.EN b) else 0)
        ∧ ∀ k, u.siteState k = s.siteState k)
    ∧ (st = 1 → s.flag panelSite Hold.CANCELLED = false → s.flag panelSite Hold.CUT_DUE = false →
      s.get s.controlSite Reg.DIE_NOTICE.BUFFERED < 16 →
      ∃ u, exec .hbmHoldExpiry s = .next u ∧ u.hbm = [] ∧ u.hbmPoison = [] ∧ u.snapshots = [] ∧ u.get panelSite Reg.THM_PANEL.STATE = 2
        ∧ (∀ k < 64, u.get (siteOfStack k) Reg.HUB_STATUS.STATE = 3) ∧ (∀ p ∈ rescue, u.get (siteOfPort p) Reg.PWR_DIE_STATUS.VIN_SW = 0)
        ∧ s.ctlNotice 0x0B08 4 none 0 0 ∈ u.noticeBuf ∧ u.get s.controlSite Reg.CTL_FAULT.FAULT = 1
        ∧ (s.flag s.controlSite Reg.CTL_FAULT.FAULT = false → u.get s.controlSite Reg.CTL_FAULT.CAUSE = 6))
    ∧ (s.flag panelSite Boot.RELEASED = true → st = 1 ∨ s.get panelSite Reg.CTL_BOOT.STAGE ≠ 3 →
      ∃ u, exec .flowRestored s = .next u
        ∧ s.onlyBecome u [(panelSite, Reg.THM_PANEL.FLOW_OK, 1), (panelSite, Hold.CANCELLED, if st = 1 then 1 else s.get panelSite Hold.CANCELLED)])
    ∧ (s.flag panelSite Boot.RELEASED = true →
      let other := siteOfControl (1 - s.get panelSite Reg.CTL_BOOT.ACTIVE)
      (∃ u, exec .heartbeatLoss s = .next u ∧ s.onlyBecome u (if s.flag other Reg.CTL_FAULT.FAULT then [] else
        [(other, Reg.CTL_FAULT.FAULT, 1), (other, Reg.CTL_FAULT.CAUSE, 4)]))
      ∧ ∃ u, exec .watchdog s = .next u ∧ s.onlyBecome u (if s.flag s.controlSite Reg.CTL_FAULT.FAULT then [] else
        [(s.controlSite, Reg.CTL_FAULT.FAULT, 1), (s.controlSite, Reg.CTL_FAULT.CAUSE, 3)]))


/-! ### Clocks and panel time -/

/-- A margin warning takes one step down and keeps the lowest slack (R395, R402); the code rises to the effective ceiling of R394 and not beyond it;
at the floor a notice (R396). What the loss of each generator does (R397). The check of each second warns (R486). -/
def Obligations.ClockCodesAndLocks : Prop :=
  ∀ (s : State) (site : Nat), s.canonical = true →
    let freq := s.get site Reg.CLK_CORE_STATUS.FREQ
    let lock := s.flag site Reg.CLK_CORE_STATUS.CORE_LOCK
    let notice (typ cls a0 a1 : Nat) : List Notice := s.bufWith (s.dieNotice site 63 typ cls a0 a1)
    let lower (f : Fld) (v : Nat) (b : Bool) : Nat × Fld × Nat := (site, f, if b then v else s.get site f)
    (∀ core mon slack, isCompute site = true → core < 48 → mon < 2 → slack < 16 → lock = true →
      let least : Bool := slack < s.get site Reg.CLK_MARGIN.MIN_SLACK
      let scan : Bool := slack < s.get site Die.SCAN_SLACK
      let step : Bool := 0 < freq
      let min_ (f : Fld) : Nat × Fld × Nat := lower f (min (freq - 1) (s.get site f)) step
      ∃ u, exec (.marginWarning site core mon slack) s = .next u
        ∧ s.onlyBecome u [s.counted site Reg.CLK_MARGIN.WARNINGS, s.counted site Die.SCAN_WARN, lower Reg.CLK_MARGIN.MIN_SLACK slack least,
            lower Reg.CLK_MARGIN.MIN_CORE core least, lower Reg.CLK_MARGIN.MIN_MON mon least, lower Die.SCAN_SLACK slack scan,
            lower Die.SCAN_CORE core scan, (site, Reg.CLK_CORE_STATUS.FREQ, freq - 1),
            s.counted site Reg.CLK_CORE_STATUS.DOWN_STEPS (if step then 1 else 0), min_ Reg.CLK_CORE_STATUS.MIN_CODE, min_ Die.SCAN_CODE])
    ∧ (isCompute site = true ∨ dieKind site = .link ∨ dieKind site = .control → lock = true →
      let floor := if dieKind site = .link then 16 else 0
      let top := if dieKind site = .link then 32 else if dieKind site = .control then 16 else 72
      let ceiling := max floor (min (min (s.get site Reg.CLK_CORE_CTL.CEILING) (s.get site Reg.CLK_CORE_CTL.LIMIT)) top)
      ∃ u, exec (.codeRise site) s = .next u
        ∧ s.onlyBecome u [(site, Reg.CLK_CORE_STATUS.FREQ, if freq < ceiling then freq + 1 else freq)])
    ∧ (∀ core, isCompute site = true → core < 48 → lock = true →
      (freq ≠ 0 → exec (.clockFloor site core) s = .next s)
      ∧ (freq = 0 → s.get site Die.FLOOR_AT = 0 →
        ∃ u, exec (.clockFloor site core) s = .next u ∧ u = { s with fld := u.fld, noticeBuf := notice 0x0901 2 core 0 }
          ∧ s.fieldsBecome u ([s.counted site Reg.CLK_CORE_STATUS.FLOORS] ++ u.asIn [(site, Die.FLOOR_AT)] ++ s.noticeWrites site)))
    ∧ (hasRouter site = true → s.settled → s.siteSquad site = none →
      (∀ gen, s.genLocked site gen = false → exec (.clockUnlock site gen) s = .next s)
      ∧ (∀ gen, s.genLocked site gen = true →
        ∃ u, exec (.clockUnlock site gen) s = .next u ∧ u.genLocked site gen = false
          ∧ u.hbm = s.hbm ∧ u.hbmPoison = s.hbmPoison
          ∧ u.get site Reg.CLK_FABRIC.UNLOCKS = (s.counted site Reg.CLK_FABRIC.UNLOCKS).2.2
          ∧ (s.get site Reg.DIE_NOTICE.BUFFERED < 16 → s.dieNotice site 63 0x0902 3 gen 0 ∈ u.noticeBuf)
          ∧ (gen = 0 → (∀ x ∈ u.held, x.site ≠ site) ∧ (∀ x ∈ u.txFlits, x.site ≠ site)
            ∧ (site = s.controlSite → u.get site Reg.CTL_FAULT.FAULT = 1))
          ∧ (gen = 1 → isCompute site = true → s.siteState site = Site.ACTIVE → u.siteState site = Site.FENCED
            ∧ u.get site Reg.PWR_DIE_STATUS.VIN_SW = 0 ∧ u.get site Reg.MESH_STATUS.LOCAL_FENCED = 1)
          ∧ (gen = 2 → ∀ ch < 32, u.get site (Reg.HUB_CHAN_STATUS.CHAN ch) =
              let c := s.get site (Reg.HUB_CHAN_STATUS.CHAN ch); if c = 0 then 1 else c)
          ∧ (3 ≤ gen → s.portCarries (portOfSite site) = true → ∀ l < 64, 8 * (gen - 3) ≤ l → l < 8 * (gen - 3) + 8 →
              u.get site (Reg.PORT_LANE.FAILED l) = 1)))
    ∧ (∀ quadrant < 4, s.settled → (∀ k, s.siteSquad k = none) →
      let blocks := (List.range 16).filter fun b => b % 4 / 2 == quadrant % 2 && b / 8 == quadrant / 2
      ∃ u, exec (.refclkLoss quadrant) s = .next u ∧ u.hbm = s.hbm
        ∧ (∀ k < 256, hasRouter k = true → siteBlock k ∈ blocks → ∀ gen < 11, u.genLocked k gen = false)
        ∧ ∀ k < 256, hasRouter k = true → siteBlock k ∉ blocks → u.genLocked k 0 = s.genLocked k 0)
    ∧ (∀ core slack, s.controlDead = false → isCompute site = true → s.siteState site = Site.ACTIVE → core < 48 → slack < 256 →
      s.get site Die.MARGIN_AT = 0 →
      let least : Bool := slack < s.get site Reg.CLK_MARGIN.MIN_SLACK
      let warns : Bool := slack < s.get panelSite Reg.CTL_MARGIN_CTL.SLACK_WARN
      ∃ u, exec (.marginCheck [(site, core, slack)]) s = .next u
        ∧ u = { s with
          fld := u.fld
          fresh := s.fresh + if least then 1 else 0
          noticeBuf := if warns then notice 0x0D01 2 slack core else s.noticeBuf }
        ∧ s.fieldsBecome u ([lower Reg.CLK_MARGIN.MIN_SLACK slack least, lower Reg.CLK_MARGIN.MIN_CORE core least]
            ++ (if least then u.asIn [(site, Reg.CLK_MARGIN.MIN_MON)] else [])
            ++ if warns then u.asIn [(site, Die.MARGIN_AT)] ++ s.noticeWrites site else []))


/-! ### `HALT_N`, `RESET_N` and bring-up -/

/-- `HALT_N` drives WP while it is held (R339); while `RESET_N` is asserted it, `FLOW_OK` and `PWRGOOD` are ignored (R494). At the release of
`RESET_N` the straps choose the control die and air mode (R441, R437); the booting die runs, or the other one does, or `FAULT_N` is asserted (R441);
verified firmware runs and any other is a RECOVERY (R442). A reset scope ends with its result (R452). -/
def Obligations.ContactsAndBoot : Prop :=
  ∀ (s : State), s.canonical = true →
    let stage := s.get panelSite Reg.CTL_BOOT.STAGE
    let wp := s.get panelSite Reg.SQD_LINES.WHISTLE
    let on := s.flag panelSite Boot.RELEASED
    (∀ byRate block, on = false → exec .haltNAssert s = .next s ∧ exec .haltNRelease s = .next s ∧ exec (.flowLoss byRate) s = .next s
      ∧ exec .flowRestored s = .next s ∧ exec (.pwrgoodAssert block) s = .next s ∧ exec (.pwrgoodFall block) s = .next s)
    ∧ (on = true → ∃ u, exec .haltNAssert s = .next u
      ∧ s.onlyBecome u ([(panelSite, Reg.SQD_LINES.HALT_N, 1), (panelSite, Reg.SQD_LINES.WHISTLE, wp ||| 2 ^ 16)]
          ++ (List.range 16).flatMap fun n =>
            if (s.squadState n = Squad.RUNNING ∨ s.squadState n = Squad.LOADED) ∧ s.get panelSite (Reg.SQD_STATUS.CAUSE n) = 0 then
              [(panelSite, Reg.SQD_STATUS.CAUSE n, Cause.HALT_N), (panelSite, Reg.SQD_STATUS.SOURCE n, 3), (panelSite, Reg.SQD_STATUS.SITE n, 0)]
            else []))
    ∧ (let seen := computeSites.all fun k => (s.get k Reg.DIE_SIDEBAND.LATCH).testBit 16
      let held := s.flag panelSite Reg.SQD_LINES.HALT_N
      on = true → ∃ u, exec .haltNRelease s = .next u
        ∧ s.onlyBecome u [(panelSite, Reg.SQD_LINES.HALT_N, 0),
            (panelSite, Reg.SQD_LINES.WHISTLE, if held && seen then wp &&& (2 ^ 16 - 1) else wp)])
    ∧ (∀ ctlsel flowOk, s.flag panelSite Boot.RELEASED = false →
      let host := if s.flag panelSite Reg.SEC_PROVISION.HOSTPORT_SET then s.get panelSite Reg.SEC_PROVISION.HOSTPORT else 0
      let air := s.flag panelSite Reg.SEC_STATUS.ORDER_LB && !flowOk
      let bit (b : Bool) : Nat := if b then 1 else 0
      let controls := [siteOfControl 0, siteOfControl 1]
      host < 8 →
      ∃ u, exec (.resetNRelease ctlsel flowOk) s = .next u ∧ u = { s with fld := u.fld, fresh := u.fresh }
        ∧ s.fieldsBecome u ([(panelSite, Boot.RELEASED, 1), (panelSite, Reg.CTL_BOOT.CTLSEL, bit ctlsel), (panelSite, Reg.CTL_BOOT.ACTIVE, bit ctlsel),
              (panelSite, Reg.THM_PANEL.FLOW_OK, bit flowOk), (panelSite, Reg.THM_PANEL.AIR, bit air), (siteOfPort host, Reg.PORT_CTL.HOSTPORT, 1),
              (siteOfPort host, Reg.PORT_CTL.ROLE, 1), (panelSite, Reg.THM_CTL.RESCUE_PORTS, 2 ^ host)]
            ++ (((List.range 256).filter hasRouter).map fun k => (k, Reg.CLK_FABRIC.FAB_LOCK, 1))
            ++ ((List.range 64).map fun k => (siteOfStack k, Reg.CLK_FABRIC.AUX_LOCK, 1))
            ++ (controls.map fun k => (k, Reg.CLK_CORE_STATUS.CORE_LOCK, 1))
            ++ u.asIn ((panelSite, Reg.SEC_CHALLENGE.CHALLENGE) :: controls.map fun k => (k, Reg.CLK_CORE_STATUS.FREQ)))
        ∧ ∀ k ∈ controls, u.get k Reg.CLK_CORE_STATUS.FREQ ≤ s.effCeiling k)
    ∧ (s.flag panelSite Boot.RELEASED = true → stage = 0 → s.controlDead = false →
      let failed := s.get panelSite Reg.CTL_BOOT.ACTIVE
      let other := siteOfControl (1 - failed)
      (∃ u, exec (.controlDieBooted true) s = .next u
        ∧ s.onlyBecome u ((panelSite, Reg.CTL_BOOT.STAGE, 1) :: u.asIn [(panelSite, Sec.IDKEY)]) ∧ u.get panelSite Sec.IDKEY = s.identityKey % 2 ^ 521)
      ∧ (s.flag panelSite Reg.CTL_BOOT.FALLBACK = false →
        ∃ u, exec (.controlDieBooted false) s = .next u
          ∧ u = { s with fld := u.fld, noticeBuf := s.bufWith { s.dieNotice other 63 0x0C01 2 (13 + failed) 0 with squad := 0, squadValid := false } }
          ∧ s.fieldsBecome u ([(panelSite, Reg.CTL_BOOT.FALLBACK, 1), (panelSite, Reg.CTL_BOOT.ACTIVE, 1 - failed)] ++ s.noticeWrites other))
      ∧ (s.flag panelSite Reg.CTL_BOOT.FALLBACK = true → (∀ d < 2, s.flag (siteOfControl d) Reg.CTL_FAULT.FAULT = false) →
        ∃ u, exec (.controlDieBooted false) s = .next u
          ∧ s.onlyBecome u ([0, 1].flatMap fun d => [(siteOfControl d, Reg.CTL_FAULT.FAULT, 1), (siteOfControl d, Reg.CTL_FAULT.CAUSE, 1)])))
    ∧ (∀ image, stage = 1 → s.controlDead = false →
      ∃ u, exec (.firmwareVerified image) s = .next u
        ∧ if s.fwCheck image = none then
          u = { s with fld := u.fld, fresh := s.fresh + 1 }
            ∧ s.fieldsBecome u ([(panelSite, Reg.CTL_BOOT.STAGE, 2), (panelSite, Reg.SEC_STATUS.FW_SVN, fwSvn image),
                (panelSite, Reg.SEC_KEYS.ACTIVE_SLOT, fwSlot image), (panelSite, Sec.FW_VERSION, fwField image 8 8),
                (panelSite, Sec.FW_DIGEST, Config.sha512 (image.take (fwLength image)) % 2 ^ 512)] ++ u.asIn [(panelSite, Reg.CTL_I3C_STATUS.TARGETS)])
          else u = { s with fld := u.fld, noticeBuf := s.bufWith (s.ctlNotice 0x0C03 3 none 1 s.controlSite) }
            ∧ s.fieldsBecome u ([(panelSite, Reg.CTL_BOOT.STAGE, 8), (panelSite, Reg.SEC_STATUS.RECOVERY, 1)] ++ s.noticeWrites s.controlSite))
    ∧ (∀ result < 256, s.resetBusy = true → s.get panelSite Reset.PHASE = 2 → s.powerUps = [] → s.get panelSite Reset.RETRAIN = 0 →
      (s.resetScope = 2 ∨ s.resetScope = 3 ∨ (s.resetScope = 4 ∧ s.portState (s.get panelSite Reset.TARGET) ≠ Port.DRAINING)
        ∨ (s.resetScope = 1 ∧ s.get panelSite Reg.THM_PANEL.STATE = 0 ∧ ∀ b < 16, s.get panelSite (Reg.PWR_BLOCK.STATE b) ≠ 0)) →
      let r := if s.flag panelSite Reset.DEFERRED then St.DEFERRED else result
      ∃ u, exec (.resetDone result) s = .next u
        ∧ u = { s with fld := u.fld, noticeBuf := s.bufWith (s.ctlNotice 0x0C04 0 none (s.resetScope + 256 * r) 0) }
        ∧ s.fieldsBecome u ([(panelSite, Reg.CTL_RESET_STATUS.BUSY, 0), (panelSite, Reg.CTL_RESET_STATUS.RESULT, r),
              s.counted panelSite Reg.CTL_RESET_STATUS.COUNT, (panelSite, Reset.PHASE, 0)] ++ s.noticeWrites s.controlSite))

/-- A wave leaves the routers of it that fail not alive (R443); with the last one time starts, ALIGN is kept, and the first tables place every
logical die on its home site, fenced (R444). Blocks get their supply in order, and one without `PWRGOOD` is in FAULT (R445). A hub that has trained
its channels scrubs its stack (R446). The roster places logical dies on home sites that can carry them, and no site carries two (R378, R448). -/
def Obligations.BringUpProceeds : Prop :=
  ∀ (s : State), s.canonical = true → s.controlDead = false →
    let stage := s.get panelSite Reg.CTL_BOOT.STAGE
    let last := lastWave s.controlSite
    let alives : List (Nat × Fld) := (List.range 256).flatMap fun k => [panelFld (Reg.MESH_ALIVE.ALIVE k), panelFld (Reg.CTL_ROSTER_SITE.ALIVE k)]
    (∀ wave failed aligns, stage = 2 → wave = s.get panelSite Boot.WAVES + 1 →
      let fails (k : Nat) : Bool := hasRouter k && hopCount s.controlSite k == wave && failed.contains k
      (wave < last →
        ∃ u, exec (.meshWaveDone wave failed aligns) s = .next u ∧ u = { s with fld := u.fld, noticeBuf := u.noticeBuf }
          ∧ s.sameFields u (panelFld Boot.WAVES :: panelFld Reg.CTL_BOOT.DIE_FAILS :: alives ++ noticeFlds s.controlSite
              ++ ((List.range 256).map fun k => (k, Die.FAILED)))
          ∧ u.get panelSite Boot.WAVES = wave ∧ (∀ k < 256, u.alive k = (s.alive k && !fails k))
          ∧ (∀ k < 256, fails k = true → u.get k Die.FAILED = 1))
      ∧ (wave = last →
        ∃ u, exec (.meshWaveDone wave failed aligns) s = .next u ∧ u.get panelSite Reg.CTL_BOOT.STAGE = 3
          ∧ (∀ k < 256, u.alive k = (s.alive k && !fails k && !s.routerDead k))
          ∧ (∀ k < 256, u.alive k = true → u.get k Reg.CLK_PT.TIME = 0 ∧ u.get k Reg.CLK_TICK.TICKS = 0 ∧ u.get k Die.EDGE_VALUE = 0)
          ∧ (∀ k < 256, u.alive k = true → ∀ a, aligns.find? (fun e => e.1 == k) = some a →
              (a.2.natAbs ≤ 127 → signed8 (u.get k Reg.CLK_PT_STATUS.ALIGN) = a.2) ∧ (127 < a.2.natAbs → u.get k Die.FAILED = 1))
          ∧ (∀ d < 144, u.get panelSite (Reg.MESH_L2S.SITE d) = homeSite d ∧ u.get panelSite (Reg.MESH_FENCED.FENCED d) = 1)
          ∧ (∀ k, isCompute k = true → u.get k Reg.MESH_STATUS.LOCAL_FENCED = 1) ∧ s.sameMemory u))
    ∧ (∀ block < 16, stage = 3 → s.flag panelSite (Reg.PWR_BLOCK.PWRGOOD block) = false →
      let raised := s.get panelSite Boot.RAISED
      (raised = 2 ^ block - 1 →
        ∃ u, exec (.blkEnRaise block) s = .next u ∧ s.onlyBecome u [(panelSite, Reg.PWR_BLOCK.EN block, 1), (panelSite, Boot.RAISED, 2 ^ (block + 1) - 1)])
      ∧ (raised.testBit block = true ∨ (∃ b < block, raised.testBit b = false) → exec (.blkEnRaise block) s = .next s))
    ∧ (∀ block < 16, s.flag panelSite (Reg.PWR_BLOCK.EN block) = true → s.flag panelSite (Reg.PWR_BLOCK.PWRGOOD block) = false →
      s.get panelSite (Reg.PWR_BLOCK.STATE block) = 0 → s.get s.controlSite Reg.DIE_NOTICE.BUFFERED ≤ 14 →
      let sites := (vinSites block).filter isCompute
      ∃ u, exec (.pwrgoodTimeout block) s = .next u
        ∧ u = { s with
          fld := u.fld
          noticeBuf := s.noticeBuf ++ [s.ctlNotice 0x0A05 3 none block 0,
            { s.ctlNotice 0x0C03 3 none 5 (256 * block) with loss := false }] }
        ∧ s.fieldsBecome u ([(panelSite, Reg.PWR_BLOCK.EN block, 0), (panelSite, Reg.PWR_BLOCK.STATE block, 2),
              (panelSite, Reg.CTL_BOOT.BLOCK_FAULTS, s.get panelSite Reg.CTL_BOOT.BLOCK_FAULTS ||| 2 ^ block),
              s.counted panelSite Reg.CTL_BOOT.DIE_FAILS (sites.filter fun k => !s.flag k Die.FAILED).length]
            ++ (sites.map fun k => (k, Die.FAILED, 1)) ++ u.asIn (noticeFlds s.controlSite)))
    ∧ (∀ stack failed, stack < 64 → 3 ≤ stage → stage ≤ 7 → s.alive (siteOfStack stack) = true → s.flag (siteOfStack stack) Hub.READY = false →
      s.scrubbing stack = false → s.hubRecords = [] → s.hubWaits = [] →
      let site := siteOfStack stack
      ∃ u, exec (.hbmTrained stack failed) s = .next u
        ∧ u = { s with fld := u.fld, noticeBuf := u.noticeBuf, dedup := s.dedup.filter fun w => w.stack != stack }
        ∧ u.scrubbing stack = true ∧ u.get site Reg.HUB_STATUS.STATE = 2
        ∧ (∀ ch < 32, u.get site (Reg.HUB_CHAN_STATUS.CHAN ch) = if ch ∈ failed then 2 else s.get site (Reg.HUB_CHAN_STATUS.CHAN ch)))
    ∧ (stage = 3 ∨ stage = 4 → s.timeout = none → s.flag panelSite Reg.THM_PANEL.FLOW_OK = true →
      (∀ b < 16, s.get panelSite (Reg.PWR_BLOCK.STATE b) = 1 ∨ s.get panelSite (Reg.PWR_BLOCK.STATE b) = 2) → s.powerUps = [] →
      let siteOf (u : State) (d : Nat) : Nat := u.get panelSite (Reg.CTL_ROSTER_LDIE.SITE d)
      let placed (u : State) (d : Nat) : Bool := u.flag panelSite (Reg.CTL_ROSTER_LDIE.PLACED d)
      ∃ u, exec .rosterBuild s = .next u ∧ u.get panelSite Reg.CTL_BOOT.STAGE = 4 ∧ u.timeout = some ⟨3, 0, TimeoutTables.none⟩
        ∧ (∀ d < 144, s.usable (homeSite d) = true → placed u d = true ∧ siteOf u d = homeSite d)
        ∧ (∀ d < 144, placed u d = true → s.usable (siteOf u d) = true ∧ u.siteState (siteOf u d) = Site.ACTIVE)
        ∧ (∀ d < 144, ∀ e < 144, placed u d = true → placed u e = true → siteOf u d = siteOf u e → d = e)
        ∧ (∀ k, isCompute k = true →
            (s.retired k = true → u.siteState k = Site.RETIRED)
            ∧ (s.retired k = false → s.usable k = false → u.siteState k = Site.FENCED)
            ∧ (s.usable k = true → u.siteState k = Site.ACTIVE ∨ u.siteState k = Site.BENCH))
        ∧ s.sameMemory u)


/-! ### Notices, the IEEE 1149.1 ports and I3C -/

/-- A record takes the panel time of the die that raises it. The oldest record of a die enters the queue with the next SEQ and waits to be pushed
where that is asked for, or is dropped and counted where its class has no place left (R480, R481, R483); a record has 32 bytes (R478). Pushed
copies leave in one frame of at most 16 on VC 4, or are counted as lost (R483). -/
def Obligations.NoticesAreQueuedAndPushed : Prop :=
  ∀ (s : State), s.canonical = true → s.controlDead = false →
    let held := s.get panelSite Reg.CTL_NOTICE_STATUS.HELD
    let seq := s.get panelSite Reg.CTL_NOTICE_SEQ.NEXT_SEQ
    (∀ site front n back, s.noticeBuf = front ++ n :: back → n.site = site → (∀ m ∈ front, m.site ≠ site) →
      (site = s.controlSite ∨ (s.alive site = true ∧ s.flag site Reg.CLK_FABRIC.FAB_LOCK = true)) →
      let full := 262144 ≤ held ∨ (n.cls ≤ 2 ∧ 261120 ≤ held)
      let pushed := s.flag panelSite Reg.CTL_NOTICE_CTL.PUSH_EN = true ∧ s.get panelSite Reg.CTL_NOTICE_CTL.PUSH_MIN ≤ n.cls
      let left : Nat × Fld × Nat := (site, Reg.DIE_NOTICE.BUFFERED, s.get site Reg.DIE_NOTICE.BUFFERED - 1)
      (full →
        ∃ u, exec (.noticeRecord site) s = .next u ∧ u = { s with fld := u.fld, noticeBuf := front ++ back }
          ∧ s.fieldsBecome u [left, s.counted panelSite Reg.CTL_NOTICE_STATUS.LOST_TOTAL, s.counted panelSite Reg.CTL_NOTICE_SEQ.LOST_SINCE_READ])
      ∧ (¬ full →
        ∃ u, exec (.noticeRecord site) s = .next u
          ∧ u = { s with
            fld := u.fld
            noticeBuf := front ++ back
            noticeQueue := s.noticeQueue ++ [⟨seq, n⟩]
            pushes := if pushed then s.pushes ++ [⟨seq, n⟩] else s.pushes }
          ∧ s.fieldsBecome u [left, (panelSite, Reg.CTL_NOTICE_SEQ.NEXT_SEQ, (seq + 1) % 2 ^ 32), (panelSite, Reg.CTL_NOTICE_STATUS.HELD, held + 1)]))
    ∧ (∀ n : Notice, s.get n.site Reg.DIE_NOTICE.BUFFERED < 16 →
      (s.raise n).noticeBuf = s.noticeBuf ++ [{ n with time := s.get n.site Reg.CLK_PT.TIME, loss := s.flag n.site Die.LOSS }])
    ∧ (∀ q : Queued, (noticeBytes q).length = 32)
    ∧ (s.pushes = [] → exec .noticePush s = .next s)
    ∧ (s.pushes ≠ [] → s.flag panelSite Panel.CAPTAIN_SET = false →
      (s.hostPortNo = none →
        ∃ u, exec .noticePush s = .next u ∧ u = { s with fld := u.fld, pushes := s.pushes.drop 16 }
          ∧ s.fieldsBecome u [s.counted panelSite Reg.CTL_NOTICE_CTL.PUSH_LOST (min 16 s.pushes.length)])
      ∧ (∀ p, s.hostPortNo = some p → s.portUsable p = true →
        ∃ u, exec .noticePush s = .next u
          ∧ u = { s with fld := u.fld, pushes := s.pushes.drop 16, txFrames := u.txFrames, fresh := s.fresh + 1 } ∧ s.sameFields u (sendFlds p)
          ∧ ∃ t ∈ u.txFrames, t.port = p ∧ t.frame.vc = 4 ∧ t.frame.payload = (s.pushes.take 16).flatMap noticeBytes))

/-- The instructions of a control die's IEEE 1149.1 port (R467, R502): FAULT_READ shifts out CTL_FAULT, EXTEST drives the contacts only while
`RESET_N` is asserted, and every other instruction outside debug mode is counted and changes nothing. An I3C transfer ends with its bytes or a
NACK (R501). -/
def Obligations.DebugPortsAndI3c : Prop :=
  ∀ (s : State) (die : Nat), s.canonical = true → die < 2 →
    let site := siteOfControl die
    let runs (instr out driving : Nat) : List (Nat × Fld × Nat) := [(site, Jtag.INSTR, instr), (site, Jtag.OUT, out), (site, Jtag.DRIVING, driving)]
    let freeRuns (u : State) (instr driving : Nat) : List (Nat × Fld × Nat) :=
      [(site, Jtag.INSTR, instr), (site, Jtag.DRIVING, driving)] ++ u.asIn [(site, Jtag.OUT)]
    let refused := s.counted panelSite Reg.SEC_TAMPER.JTAG_REFUSED
    (∃ u, exec (.bypass die) s = .next u ∧ s.onlyBecome u (runs 0 0 0))
    ∧ (∃ u, exec (.idcode die) s = .next u ∧ s.onlyBecome u (runs 1 (Config.idcode die % 2 ^ 32) 0))
    ∧ (∀ drive, ∃ u, exec (.samplePreload die drive) s = .next u ∧ u = { s with fld := u.fld, fresh := s.fresh + 1 }
        ∧ s.fieldsBecome u (freeRuns u 2 0 ++ [(site, Jtag.DRIVE, drive % 2 ^ 46)]))
    ∧ (s.flag panelSite Boot.RELEASED = true → ∃ u, exec (.extest die) s = .next u ∧ s.onlyBecome u (runs 0 0 0 ++ [refused]))
    ∧ (s.flag panelSite Boot.RELEASED = false → ∃ u, exec (.extest die) s = .next u ∧ u = { s with fld := u.fld, fresh := s.fresh + 1 }
        ∧ s.fieldsBecome u (freeRuns u 3 1))
    ∧ (∃ u, exec (.faultRead die) s = .next u
        ∧ s.onlyBecome u (runs 4 (s.get site Reg.CTL_FAULT.FAULT + 2 * s.get site Reg.CTL_FAULT.CAUSE) 0))
    ∧ (s.debugMode = false → ∀ code, ∀ i ∈ ([.jtagRefused die, .privateInstruction die code] : List Instr),
        ∃ u, exec i s = .next u ∧ s.onlyBecome u [refused])
    ∧ (s.debugMode = true → ∀ code, ∃ u, exec (.privateInstruction die code) s = .next u ∧ u = { s with fld := u.fld, fresh := s.fresh + 1 }
        ∧ s.fieldsBecome u (freeRuns u 5 0 ++ [(site, Jtag.CODE, code % 2 ^ 32)]))
    ∧ (∀ nack rdata,
        let busy := s.flag panelSite Reg.CTL_I3C_STATUS.BUSY
        let mark : Nat × Fld × Nat := if nack then (panelSite, Reg.CTL_I3C_STATUS.NACK, 1) else (panelSite, Reg.CTL_I3C_STATUS.DONE, 1)
        let read := if nack = false ∧ s.flag panelSite I3c.READ = true then [(panelSite, Reg.CTL_I3C_STATUS.RDATA, rdata.toNat)] else []
        ∃ u, exec (.i3cDone nack rdata) s = .next u
          ∧ s.onlyBecome u (if busy then [(panelSite, Reg.CTL_I3C_STATUS.BUSY, 0), mark] ++ read else []))
end

