-- ==== Sys2Proof/Laws/Maps.lean ====
section
/-! SUPPORT. Laws of sparse maps: what a write leaves, and that every operation keeps the canonical form. -/

namespace Sys2Proof.Machine

variable {β : Type}

theorem rising_cons {lo k : Nat} {v : β} {m : SMap β} :
    risingFrom lo ((k, v) :: m) = true ↔ lo ≤ k ∧ risingFrom (k + 1) m = true := by
  simp [risingFrom]

theorem rising_mono {lo lo' : Nat} (h : lo' ≤ lo) {m : SMap β} (hm : risingFrom lo m = true) : risingFrom lo' m = true := by
  cases m with
  | nil => rfl
  | cons e m => obtain ⟨k, v⟩ := e; rw [rising_cons] at hm ⊢; exact ⟨by omega, hm.2⟩

/-- Below its first key a rising map lists nothing. -/
theorem mapGet_below (d : β) {lo key : Nat} (hk : key < lo) {m : SMap β} (hm : risingFrom lo m = true) : mapGet d m key = d := by
  cases m with
  | nil => rfl
  | cons e m =>
    obtain ⟨k, v⟩ := e
    rw [rising_cons] at hm
    simp [mapGet, show key ≠ k by omega, show key < k by omega]

/-! ### Insert and erase -/

theorem mapGet_insert_same (d : β) (key : Nat) (x : β) (m : SMap β) : mapGet d (mapInsert m key x) key = x := by
  induction m with
  | nil => simp [mapInsert, mapGet]
  | cons e m ih =>
    obtain ⟨k, v⟩ := e
    unfold mapInsert
    split
    · simp_all [mapGet]
    · split <;> simp_all [mapGet]

theorem mapGet_insert_other (d : β) {key other lo : Nat} (h : other ≠ key) (x : β) {m : SMap β} (hm : risingFrom lo m = true) :
    mapGet d (mapInsert m key x) other = mapGet d m other := by
  induction m generalizing lo with
  | nil => simp [mapInsert, mapGet, h]
  | cons e m ih =>
    obtain ⟨k, v⟩ := e
    rw [rising_cons] at hm
    unfold mapInsert
    split
    · rename_i hk; subst hk; simp [mapGet, h]
    · split
      · by_cases h1 : other < key
        · simp [mapGet, h, h1, show other ≠ k by omega, show other < k by omega]
        · simp [mapGet, h, h1]
      · simp [mapGet, ih hm.2]

theorem mapGet_erase_same (d : β) {key lo : Nat} {m : SMap β} (hm : risingFrom lo m = true) : mapGet d (mapErase m key) key = d := by
  induction m generalizing lo with
  | nil => rfl
  | cons e m ih =>
    obtain ⟨k, v⟩ := e
    rw [rising_cons] at hm
    unfold mapErase
    split
    · rename_i hk; subst hk; exact mapGet_below d (Nat.lt_succ_self _) hm.2
    · split
      · simp_all [mapGet]
      · simp_all [mapGet]; exact ih hm.2

theorem mapGet_erase_other (d : β) {key other lo : Nat} (h : other ≠ key) {m : SMap β} (hm : risingFrom lo m = true) :
    mapGet d (mapErase m key) other = mapGet d m other := by
  induction m generalizing lo with
  | nil => rfl
  | cons e m ih =>
    obtain ⟨k, v⟩ := e
    rw [rising_cons] at hm
    unfold mapErase
    split
    · rename_i hk; subst hk
      by_cases h1 : other < key
      · rw [mapGet_below d (show other < key + 1 by omega) hm.2]; simp [mapGet, h, h1]
      · simp [mapGet, h, h1]
    · split
      · rfl
      · simp [mapGet, ih hm.2]

theorem rising_insert {lo key : Nat} (hk : lo ≤ key) (x : β) {m : SMap β} (hm : risingFrom lo m = true) :
    risingFrom lo (mapInsert m key x) = true := by
  induction m generalizing lo with
  | nil => simp [mapInsert, risingFrom, hk]
  | cons e m ih =>
    obtain ⟨k, v⟩ := e
    rw [rising_cons] at hm
    unfold mapInsert
    split
    · rename_i h; subst h; exact rising_cons.2 ⟨hk, hm.2⟩
    · split
      · exact rising_cons.2 ⟨hk, rising_cons.2 ⟨by omega, hm.2⟩⟩
      · exact rising_cons.2 ⟨hm.1, ih (by omega) hm.2⟩

theorem rising_erase {lo key : Nat} {m : SMap β} (hm : risingFrom lo m = true) : risingFrom lo (mapErase m key) = true := by
  induction m generalizing lo with
  | nil => rfl
  | cons e m ih =>
    obtain ⟨k, v⟩ := e
    have hm' := hm
    rw [rising_cons] at hm
    unfold mapErase
    split
    · exact rising_mono (by omega) hm.2
    · split
      · exact hm'
      · exact rising_cons.2 ⟨hm.1, ih hm.2⟩

theorem rising_filter (p : Nat × β → Bool) {lo : Nat} {m : SMap β} (hm : risingFrom lo m = true) :
    risingFrom lo (m.filter p) = true := by
  induction m generalizing lo with
  | nil => rfl
  | cons e m ih =>
    obtain ⟨k, v⟩ := e
    rw [rising_cons] at hm
    by_cases hp : p (k, v) = true
    · rw [List.filter_cons_of_pos hp]; exact rising_cons.2 ⟨hm.1, ih hm.2⟩
    · rw [List.filter_cons_of_neg hp]; exact rising_mono (by omega) (ih hm.2)

theorem rising_put {m : SMap β} (hm : risingFrom 0 m = true) (es : List (Nat × β)) : risingFrom 0 (mapPut m es) = true := by
  unfold mapPut
  induction es generalizing m with
  | nil => exact hm
  | cons e es ih => exact ih (rising_insert (Nat.zero_le _) _ hm)

/-! ### Writes with a default -/

variable [DecidableEq β]

theorem rising_set (d : β) (key : Nat) (x : β) {m : SMap β} (hm : risingFrom 0 m = true) : risingFrom 0 (mapSet d m key x) = true := by
  unfold mapSet; split
  · exact rising_erase hm
  · exact rising_insert (Nat.zero_le _) _ hm

theorem mapGet_set_same (d : β) (key : Nat) (x : β) {m : SMap β} (hm : risingFrom 0 m = true) : mapGet d (mapSet d m key x) key = x := by
  unfold mapSet; split
  · rename_i h; subst h; exact mapGet_erase_same _ hm
  · exact mapGet_insert_same d key x m

/-- The default a map is read with may differ from the one it is written with: fields have a reset value each. -/
theorem mapGet_set_other (d e : β) {key other : Nat} (h : other ≠ key) (x : β) {m : SMap β} (hm : risingFrom 0 m = true) :
    mapGet e (mapSet d m key x) other = mapGet e m other := by
  unfold mapSet; split
  · exact mapGet_erase_other e h hm
  · exact mapGet_insert_other e h x hm

/-! ### The canonical form -/

theorem wf_iff {d : β} {m : SMap β} : mapWf d m = true ↔ risingFrom 0 m = true ∧ ∀ e ∈ m, e.2 ≠ d := by
  simp [mapWf, List.all_eq_true]

omit [DecidableEq β] in
theorem mem_insert {e : Nat × β} {key : Nat} {x : β} {m : SMap β} (h : e ∈ mapInsert m key x) : e = (key, x) ∨ e ∈ m := by
  induction m with
  | nil => simpa [mapInsert] using h
  | cons a m ih =>
    obtain ⟨k, v⟩ := a
    unfold mapInsert at h
    split at h
    · rename_i hk; subst hk
      rcases List.mem_cons.1 h with h | h
      · exact .inl h
      · exact .inr (List.mem_cons_of_mem _ h)
    · split at h
      · rcases List.mem_cons.1 h with h | h
        · exact .inl h
        · exact .inr h
      · rcases List.mem_cons.1 h with h | h
        · exact .inr (h ▸ List.mem_cons_self)
        · exact (ih h).imp id (List.mem_cons_of_mem _)

omit [DecidableEq β] in
theorem mem_erase {e : Nat × β} {key : Nat} {m : SMap β} (h : e ∈ mapErase m key) : e ∈ m := by
  induction m with
  | nil => exact h
  | cons a m ih =>
    obtain ⟨k, v⟩ := a
    unfold mapErase at h
    split at h
    · exact List.mem_cons_of_mem _ h
    · split at h
      · exact h
      · rcases List.mem_cons.1 h with h | h
        · exact h ▸ List.mem_cons_self
        · exact List.mem_cons_of_mem _ (ih h)

theorem wf_erase {d : β} {m : SMap β} (hm : mapWf d m = true) (key : Nat) : mapWf d (mapErase m key) = true := by
  rw [wf_iff] at hm ⊢
  exact ⟨rising_erase hm.1, fun e he => hm.2 e (mem_erase he)⟩

theorem wf_insert {d : β} {m : SMap β} (hm : mapWf d m = true) (key : Nat) {x : β} (hx : x ≠ d) :
    mapWf d (mapInsert m key x) = true := by
  rw [wf_iff] at hm ⊢
  refine ⟨rising_insert (Nat.zero_le _) _ hm.1, fun e he => ?_⟩
  rcases mem_insert he with h | h
  · rw [h]; exact hx
  · exact hm.2 e h

theorem wf_set {d : β} {m : SMap β} (hm : mapWf d m = true) (key : Nat) (x : β) : mapWf d (mapSet d m key x) = true := by
  unfold mapSet; split
  · exact wf_erase hm key
  · rename_i h; exact wf_insert hm key h

theorem wf_filter {d : β} {m : SMap β} (hm : mapWf d m = true) (p : Nat × β → Bool) : mapWf d (m.filter p) = true := by
  rw [wf_iff] at hm ⊢
  exact ⟨rising_filter p hm.1, fun e he => hm.2 e (List.mem_filter.1 he).1⟩

theorem wf_clear {d : β} {m : SMap β} (hm : mapWf d m = true) (lo hi : Nat) : mapWf d (mapClear lo hi m) = true := wf_filter hm _

theorem wf_put {d : β} {m : SMap β} (hm : mapWf d m = true) {es : List (Nat × β)} (he : ∀ e ∈ es, e.2 ≠ d) :
    mapWf d (mapPut m es) = true := by
  unfold mapPut
  induction es generalizing m with
  | nil => exact hm
  | cons e es ih =>
    exact ih (wf_insert hm _ (he e List.mem_cons_self)) fun a ha => he a (List.mem_cons_of_mem _ ha)

theorem wf_copyKeys {d : β} {m : SMap β} (hm : mapWf d m = true) (src dst n : Nat) (p : Nat → Bool) :
    mapWf d (copyKeys m src dst n p) = true := by
  refine wf_put (wf_filter hm _) fun e he => ?_
  obtain ⟨a, ha, rfl⟩ := List.mem_map.1 he
  exact (wf_iff.1 hm).2 a (List.mem_filter.1 (List.mem_filter.1 ha).1).1

theorem entries_rising (d : β) (vs : List β) (lo : Nat) : risingFrom lo (entriesOf d lo vs) = true := by
  induction vs generalizing lo with
  | nil => rfl
  | cons v vs ih =>
    unfold entriesOf; split
    · exact rising_mono (Nat.le_succ _) (ih _)
    · exact rising_cons.2 ⟨Nat.le_refl _, ih _⟩

theorem entries_mem (d : β) (vs : List β) (lo : Nat) : ∀ e ∈ entriesOf d lo vs, e.1 < lo + vs.length ∧ e.2 ≠ d := by
  induction vs generalizing lo with
  | nil => intro e he; simp [entriesOf] at he
  | cons v vs ih =>
    intro e he
    unfold entriesOf at he
    simp only [List.length_cons]
    split at he
    · have := ih _ e he; exact ⟨by omega, this.2⟩
    · rename_i hv
      rcases List.mem_cons.1 he with h | h
      · subst h; exact ⟨by simp, hv⟩
      · have := ih _ e h; exact ⟨by omega, this.2⟩

omit [DecidableEq β] in
/-- Two rising maps, the first below the second, in one. -/
theorem rising_append {lo mid : Nat} {a b : SMap β} (ha : risingFrom lo a = true) (hlt : ∀ e ∈ a, e.1 < mid) (hle : lo ≤ mid)
    (hb : risingFrom mid b = true) : risingFrom lo (a ++ b) = true := by
  induction a generalizing lo with
  | nil => exact rising_mono hle hb
  | cons e a ih =>
    obtain ⟨k, v⟩ := e
    rw [rising_cons] at ha
    have hk : k < mid := hlt (k, v) List.mem_cons_self
    exact rising_cons.2 ⟨ha.1, ih ha.2 (fun e he => hlt e (List.mem_cons_of_mem _ he)) hk⟩

omit [DecidableEq β] in
theorem rising_above {lo mid : Nat} {m : SMap β} (hm : risingFrom lo m = true) :
    risingFrom mid (m.filter fun e => decide (mid ≤ e.1)) = true := by
  induction m generalizing lo with
  | nil => rfl
  | cons e m ih =>
    obtain ⟨k, v⟩ := e
    rw [rising_cons] at hm
    by_cases hk : mid ≤ k
    · rw [List.filter_cons_of_pos (by simpa using hk)]
      exact rising_cons.2 ⟨hk, rising_filter _ hm.2⟩
    · rw [List.filter_cons_of_neg (by simpa using hk)]
      exact ih hm.2

/-- A write of a run of values keeps the canonical form. -/
theorem wf_write {d : β} {m : SMap β} (hm : mapWf d m = true) (lo : Nat) (vs : List β) : mapWf d (mapWrite d m lo vs) = true := by
  have hr := wf_iff.1 hm
  unfold mapWrite
  rw [wf_iff]
  constructor
  · have h1 : risingFrom 0 (mapFilter (fun k => decide (k < lo)) m) = true := rising_filter _ hr.1
    have h2 : ∀ e ∈ mapFilter (fun k => decide (k < lo)) m, e.1 < lo := fun e he => by
      simpa using (List.mem_filter.1 he).2
    have h3 := entries_mem d vs lo
    have h4 : risingFrom (lo + vs.length) (mapFilter (fun k => decide (lo + vs.length ≤ k)) m) = true := rising_above hr.1
    refine rising_append (mid := lo + vs.length) ?_ ?_ (Nat.zero_le _) h4
    · exact rising_append h1 h2 (Nat.zero_le _) (entries_rising d vs lo)
    · intro e he
      rcases List.mem_append.1 he with h | h
      · have := h2 e h; omega
      · exact (h3 e h).1
  · intro e he
    rcases List.mem_append.1 he with h | h
    · rcases List.mem_append.1 h with h | h
      · exact hr.2 e (List.mem_filter.1 h).1
      · exact (entries_mem d vs lo e h).2
    · exact hr.2 e (List.mem_filter.1 h).1

end Sys2Proof.Machine
end

