-- ==== Sys2Proof/Laws/State.lean ====
section
/-! SUPPORT. Laws of State: what each update of a register field leaves, field by field. -/

namespace Sys2Proof.Machine

variable (s : State) (site : Nat) (f : Fld) (v : Nat)

/-! ### put -/

@[simp] theorem State.put_sram : (s.put site f v).sram = s.sram := rfl
@[simp] theorem State.put_sramPoison : (s.put site f v).sramPoison = s.sramPoison := rfl
@[simp] theorem State.put_sramUpset : (s.put site f v).sramUpset = s.sramUpset := rfl
@[simp] theorem State.put_hbm : (s.put site f v).hbm = s.hbm := rfl
@[simp] theorem State.put_hbmPoison : (s.put site f v).hbmPoison = s.hbmPoison := rfl
@[simp] theorem State.put_hbmUpset : (s.put site f v).hbmUpset = s.hbmUpset := rfl
@[simp] theorem State.put_queues : (s.put site f v).queues = s.queues := rfl
@[simp] theorem State.put_streamOut : (s.put site f v).streamOut = s.streamOut := rfl
@[simp] theorem State.put_beats : (s.put site f v).beats = s.beats := rfl
@[simp] theorem State.put_flights : (s.put site f v).flights = s.flights := rfl
@[simp] theorem State.put_outstanding : (s.put site f v).outstanding = s.outstanding := rfl
@[simp] theorem State.put_reissue : (s.put site f v).reissue = s.reissue := rfl
@[simp] theorem State.put_hubReqs : (s.put site f v).hubReqs = s.hubReqs := rfl
@[simp] theorem State.put_hubReps : (s.put site f v).hubReps = s.hubReps := rfl
@[simp] theorem State.put_hubRecords : (s.put site f v).hubRecords = s.hubRecords := rfl
@[simp] theorem State.put_dedup : (s.put site f v).dedup = s.dedup := rfl
@[simp] theorem State.put_hubWaits : (s.put site f v).hubWaits = s.hubWaits := rfl
@[simp] theorem State.put_txFlits : (s.put site f v).txFlits = s.txFlits := rfl
@[simp] theorem State.put_rxFlits : (s.put site f v).rxFlits = s.rxFlits := rfl
@[simp] theorem State.put_held : (s.put site f v).held = s.held := rfl
@[simp] theorem State.put_meshWait : (s.put site f v).meshWait = s.meshWait := rfl
@[simp] theorem State.put_delivered : (s.put site f v).delivered = s.delivered := rfl
@[simp] theorem State.put_mcasts : (s.put site f v).mcasts = s.mcasts := rfl
@[simp] theorem State.put_replies : (s.put site f v).replies = s.replies := rfl
@[simp] theorem State.put_stored : (s.put site f v).stored = s.stored := rfl
@[simp] theorem State.put_deferred : (s.put site f v).deferred = s.deferred := rfl
@[simp] theorem State.put_teamcasts : (s.put site f v).teamcasts = s.teamcasts := rfl
@[simp] theorem State.put_txFrames : (s.put site f v).txFrames = s.txFrames := rfl
@[simp] theorem State.put_rxFrames : (s.put site f v).rxFrames = s.rxFrames := rfl
@[simp] theorem State.put_arrived : (s.put site f v).arrived = s.arrived := rfl
@[simp] theorem State.put_proxies : (s.put site f v).proxies = s.proxies := rfl
@[simp] theorem State.put_proxyWait : (s.put site f v).proxyWait = s.proxyWait := rfl
@[simp] theorem State.put_bootBuf : (s.put site f v).bootBuf = s.bootBuf := rfl
@[simp] theorem State.put_portOut : (s.put site f v).portOut = s.portOut := rfl
@[simp] theorem State.put_windows : (s.put site f v).windows = s.windows := rfl
@[simp] theorem State.put_timeout : (s.put site f v).timeout = s.timeout := rfl
@[simp] theorem State.put_waitTimeouts : (s.put site f v).waitTimeouts = s.waitTimeouts := rfl
@[simp] theorem State.put_powerUps : (s.put site f v).powerUps = s.powerUps := rfl
@[simp] theorem State.put_substs : (s.put site f v).substs = s.substs := rfl
@[simp] theorem State.put_ownFences : (s.put site f v).ownFences = s.ownFences := rfl
@[simp] theorem State.put_flash : (s.put site f v).flash = s.flash := rfl
@[simp] theorem State.put_snapshots : (s.put site f v).snapshots = s.snapshots := rfl
@[simp] theorem State.put_immediates : (s.put site f v).immediates = s.immediates := rfl
@[simp] theorem State.put_timeOut : (s.put site f v).timeOut = s.timeOut := rfl
@[simp] theorem State.put_timeSteps : (s.put site f v).timeSteps = s.timeSteps := rfl
@[simp] theorem State.put_noticeBuf : (s.put site f v).noticeBuf = s.noticeBuf := rfl
@[simp] theorem State.put_noticeQueue : (s.put site f v).noticeQueue = s.noticeQueue := rfl
@[simp] theorem State.put_pushes : (s.put site f v).pushes = s.pushes := rfl
@[simp] theorem State.put_fresh : (s.put site f v).fresh = s.fresh := rfl
@[simp] theorem State.put_pending : (s.put site f v).pending = s.pending := rfl

/-! ### unset -/

@[simp] theorem State.unset_sram : (s.unset site f).sram = s.sram := rfl
@[simp] theorem State.unset_sramPoison : (s.unset site f).sramPoison = s.sramPoison := rfl
@[simp] theorem State.unset_sramUpset : (s.unset site f).sramUpset = s.sramUpset := rfl
@[simp] theorem State.unset_hbm : (s.unset site f).hbm = s.hbm := rfl
@[simp] theorem State.unset_hbmPoison : (s.unset site f).hbmPoison = s.hbmPoison := rfl
@[simp] theorem State.unset_hbmUpset : (s.unset site f).hbmUpset = s.hbmUpset := rfl
@[simp] theorem State.unset_queues : (s.unset site f).queues = s.queues := rfl
@[simp] theorem State.unset_streamOut : (s.unset site f).streamOut = s.streamOut := rfl
@[simp] theorem State.unset_beats : (s.unset site f).beats = s.beats := rfl
@[simp] theorem State.unset_flights : (s.unset site f).flights = s.flights := rfl
@[simp] theorem State.unset_outstanding : (s.unset site f).outstanding = s.outstanding := rfl
@[simp] theorem State.unset_reissue : (s.unset site f).reissue = s.reissue := rfl
@[simp] theorem State.unset_hubReqs : (s.unset site f).hubReqs = s.hubReqs := rfl
@[simp] theorem State.unset_hubReps : (s.unset site f).hubReps = s.hubReps := rfl
@[simp] theorem State.unset_hubRecords : (s.unset site f).hubRecords = s.hubRecords := rfl
@[simp] theorem State.unset_dedup : (s.unset site f).dedup = s.dedup := rfl
@[simp] theorem State.unset_hubWaits : (s.unset site f).hubWaits = s.hubWaits := rfl
@[simp] theorem State.unset_txFlits : (s.unset site f).txFlits = s.txFlits := rfl
@[simp] theorem State.unset_rxFlits : (s.unset site f).rxFlits = s.rxFlits := rfl
@[simp] theorem State.unset_held : (s.unset site f).held = s.held := rfl
@[simp] theorem State.unset_meshWait : (s.unset site f).meshWait = s.meshWait := rfl
@[simp] theorem State.unset_delivered : (s.unset site f).delivered = s.delivered := rfl
@[simp] theorem State.unset_mcasts : (s.unset site f).mcasts = s.mcasts := rfl
@[simp] theorem State.unset_replies : (s.unset site f).replies = s.replies := rfl
@[simp] theorem State.unset_stored : (s.unset site f).stored = s.stored := rfl
@[simp] theorem State.unset_deferred : (s.unset site f).deferred = s.deferred := rfl
@[simp] theorem State.unset_teamcasts : (s.unset site f).teamcasts = s.teamcasts := rfl
@[simp] theorem State.unset_txFrames : (s.unset site f).txFrames = s.txFrames := rfl
@[simp] theorem State.unset_rxFrames : (s.unset site f).rxFrames = s.rxFrames := rfl
@[simp] theorem State.unset_arrived : (s.unset site f).arrived = s.arrived := rfl
@[simp] theorem State.unset_proxies : (s.unset site f).proxies = s.proxies := rfl
@[simp] theorem State.unset_proxyWait : (s.unset site f).proxyWait = s.proxyWait := rfl
@[simp] theorem State.unset_bootBuf : (s.unset site f).bootBuf = s.bootBuf := rfl
@[simp] theorem State.unset_portOut : (s.unset site f).portOut = s.portOut := rfl
@[simp] theorem State.unset_windows : (s.unset site f).windows = s.windows := rfl
@[simp] theorem State.unset_timeout : (s.unset site f).timeout = s.timeout := rfl
@[simp] theorem State.unset_waitTimeouts : (s.unset site f).waitTimeouts = s.waitTimeouts := rfl
@[simp] theorem State.unset_powerUps : (s.unset site f).powerUps = s.powerUps := rfl
@[simp] theorem State.unset_substs : (s.unset site f).substs = s.substs := rfl
@[simp] theorem State.unset_ownFences : (s.unset site f).ownFences = s.ownFences := rfl
@[simp] theorem State.unset_flash : (s.unset site f).flash = s.flash := rfl
@[simp] theorem State.unset_snapshots : (s.unset site f).snapshots = s.snapshots := rfl
@[simp] theorem State.unset_immediates : (s.unset site f).immediates = s.immediates := rfl
@[simp] theorem State.unset_timeOut : (s.unset site f).timeOut = s.timeOut := rfl
@[simp] theorem State.unset_timeSteps : (s.unset site f).timeSteps = s.timeSteps := rfl
@[simp] theorem State.unset_noticeBuf : (s.unset site f).noticeBuf = s.noticeBuf := rfl
@[simp] theorem State.unset_noticeQueue : (s.unset site f).noticeQueue = s.noticeQueue := rfl
@[simp] theorem State.unset_pushes : (s.unset site f).pushes = s.pushes := rfl
@[simp] theorem State.unset_fresh : (s.unset site f).fresh = s.fresh := rfl
@[simp] theorem State.unset_pending : (s.unset site f).pending = s.pending := rfl

/-! ### clearFlds -/

@[simp] theorem State.clearFlds_sram (lo hi : Nat) : (s.clearFlds site lo hi).sram = s.sram := rfl
@[simp] theorem State.clearFlds_sramPoison (lo hi : Nat) : (s.clearFlds site lo hi).sramPoison = s.sramPoison := rfl
@[simp] theorem State.clearFlds_sramUpset (lo hi : Nat) : (s.clearFlds site lo hi).sramUpset = s.sramUpset := rfl
@[simp] theorem State.clearFlds_hbm (lo hi : Nat) : (s.clearFlds site lo hi).hbm = s.hbm := rfl
@[simp] theorem State.clearFlds_hbmPoison (lo hi : Nat) : (s.clearFlds site lo hi).hbmPoison = s.hbmPoison := rfl
@[simp] theorem State.clearFlds_hbmUpset (lo hi : Nat) : (s.clearFlds site lo hi).hbmUpset = s.hbmUpset := rfl
@[simp] theorem State.clearFlds_queues (lo hi : Nat) : (s.clearFlds site lo hi).queues = s.queues := rfl
@[simp] theorem State.clearFlds_streamOut (lo hi : Nat) : (s.clearFlds site lo hi).streamOut = s.streamOut := rfl
@[simp] theorem State.clearFlds_beats (lo hi : Nat) : (s.clearFlds site lo hi).beats = s.beats := rfl
@[simp] theorem State.clearFlds_flights (lo hi : Nat) : (s.clearFlds site lo hi).flights = s.flights := rfl
@[simp] theorem State.clearFlds_outstanding (lo hi : Nat) : (s.clearFlds site lo hi).outstanding = s.outstanding := rfl
@[simp] theorem State.clearFlds_reissue (lo hi : Nat) : (s.clearFlds site lo hi).reissue = s.reissue := rfl
@[simp] theorem State.clearFlds_hubReqs (lo hi : Nat) : (s.clearFlds site lo hi).hubReqs = s.hubReqs := rfl
@[simp] theorem State.clearFlds_hubReps (lo hi : Nat) : (s.clearFlds site lo hi).hubReps = s.hubReps := rfl
@[simp] theorem State.clearFlds_hubRecords (lo hi : Nat) : (s.clearFlds site lo hi).hubRecords = s.hubRecords := rfl
@[simp] theorem State.clearFlds_dedup (lo hi : Nat) : (s.clearFlds site lo hi).dedup = s.dedup := rfl
@[simp] theorem State.clearFlds_hubWaits (lo hi : Nat) : (s.clearFlds site lo hi).hubWaits = s.hubWaits := rfl
@[simp] theorem State.clearFlds_txFlits (lo hi : Nat) : (s.clearFlds site lo hi).txFlits = s.txFlits := rfl
@[simp] theorem State.clearFlds_rxFlits (lo hi : Nat) : (s.clearFlds site lo hi).rxFlits = s.rxFlits := rfl
@[simp] theorem State.clearFlds_held (lo hi : Nat) : (s.clearFlds site lo hi).held = s.held := rfl
@[simp] theorem State.clearFlds_meshWait (lo hi : Nat) : (s.clearFlds site lo hi).meshWait = s.meshWait := rfl
@[simp] theorem State.clearFlds_delivered (lo hi : Nat) : (s.clearFlds site lo hi).delivered = s.delivered := rfl
@[simp] theorem State.clearFlds_mcasts (lo hi : Nat) : (s.clearFlds site lo hi).mcasts = s.mcasts := rfl
@[simp] theorem State.clearFlds_replies (lo hi : Nat) : (s.clearFlds site lo hi).replies = s.replies := rfl
@[simp] theorem State.clearFlds_stored (lo hi : Nat) : (s.clearFlds site lo hi).stored = s.stored := rfl
@[simp] theorem State.clearFlds_deferred (lo hi : Nat) : (s.clearFlds site lo hi).deferred = s.deferred := rfl
@[simp] theorem State.clearFlds_teamcasts (lo hi : Nat) : (s.clearFlds site lo hi).teamcasts = s.teamcasts := rfl
@[simp] theorem State.clearFlds_txFrames (lo hi : Nat) : (s.clearFlds site lo hi).txFrames = s.txFrames := rfl
@[simp] theorem State.clearFlds_rxFrames (lo hi : Nat) : (s.clearFlds site lo hi).rxFrames = s.rxFrames := rfl
@[simp] theorem State.clearFlds_arrived (lo hi : Nat) : (s.clearFlds site lo hi).arrived = s.arrived := rfl
@[simp] theorem State.clearFlds_proxies (lo hi : Nat) : (s.clearFlds site lo hi).proxies = s.proxies := rfl
@[simp] theorem State.clearFlds_proxyWait (lo hi : Nat) : (s.clearFlds site lo hi).proxyWait = s.proxyWait := rfl
@[simp] theorem State.clearFlds_bootBuf (lo hi : Nat) : (s.clearFlds site lo hi).bootBuf = s.bootBuf := rfl
@[simp] theorem State.clearFlds_portOut (lo hi : Nat) : (s.clearFlds site lo hi).portOut = s.portOut := rfl
@[simp] theorem State.clearFlds_windows (lo hi : Nat) : (s.clearFlds site lo hi).windows = s.windows := rfl
@[simp] theorem State.clearFlds_timeout (lo hi : Nat) : (s.clearFlds site lo hi).timeout = s.timeout := rfl
@[simp] theorem State.clearFlds_waitTimeouts (lo hi : Nat) : (s.clearFlds site lo hi).waitTimeouts = s.waitTimeouts := rfl
@[simp] theorem State.clearFlds_powerUps (lo hi : Nat) : (s.clearFlds site lo hi).powerUps = s.powerUps := rfl
@[simp] theorem State.clearFlds_substs (lo hi : Nat) : (s.clearFlds site lo hi).substs = s.substs := rfl
@[simp] theorem State.clearFlds_ownFences (lo hi : Nat) : (s.clearFlds site lo hi).ownFences = s.ownFences := rfl
@[simp] theorem State.clearFlds_flash (lo hi : Nat) : (s.clearFlds site lo hi).flash = s.flash := rfl
@[simp] theorem State.clearFlds_snapshots (lo hi : Nat) : (s.clearFlds site lo hi).snapshots = s.snapshots := rfl
@[simp] theorem State.clearFlds_immediates (lo hi : Nat) : (s.clearFlds site lo hi).immediates = s.immediates := rfl
@[simp] theorem State.clearFlds_timeOut (lo hi : Nat) : (s.clearFlds site lo hi).timeOut = s.timeOut := rfl
@[simp] theorem State.clearFlds_timeSteps (lo hi : Nat) : (s.clearFlds site lo hi).timeSteps = s.timeSteps := rfl
@[simp] theorem State.clearFlds_noticeBuf (lo hi : Nat) : (s.clearFlds site lo hi).noticeBuf = s.noticeBuf := rfl
@[simp] theorem State.clearFlds_noticeQueue (lo hi : Nat) : (s.clearFlds site lo hi).noticeQueue = s.noticeQueue := rfl
@[simp] theorem State.clearFlds_pushes (lo hi : Nat) : (s.clearFlds site lo hi).pushes = s.pushes := rfl
@[simp] theorem State.clearFlds_fresh (lo hi : Nat) : (s.clearFlds site lo hi).fresh = s.fresh := rfl
@[simp] theorem State.clearFlds_pending (lo hi : Nat) : (s.clearFlds site lo hi).pending = s.pending := rfl

/-! ### The other updates are writes of a field -/

@[simp] theorem State.bump_eq (n : Nat) : s.bump site f n = s.put site f (min (s.get site f + n) (2 ^ f.width - 1)) := rfl
@[simp] theorem State.putFlag_eq (b : Bool) : s.putFlag site f b = s.put site f (if b then 1 else 0) := rfl
@[simp] theorem State.cput_eq (c : CoreRef) : s.cput c f v = s.put c.site (f.nth c.core) v := rfl
@[simp] theorem State.cget_eq (c : CoreRef) : s.cget c f = s.get c.site (f.nth c.core) := rfl
@[simp] theorem State.cflag_eq (c : CoreRef) : s.cflag c f = s.flag c.site (f.nth c.core) := rfl
@[simp] theorem State.cset_eq (c : CoreRef) (b : Bool) : s.cset c f b = s.putFlag c.site (f.nth c.core) b := rfl
@[simp] theorem State.cbump_eq (c : CoreRef) (n : Nat) : s.cbump c f n = s.bump c.site (f.nth c.core) n := rfl
@[simp] theorem State.qget_eq (q : CluRef) : s.qget q f = s.get q.site (f.nth q.clu) := rfl
@[simp] theorem State.qput_eq (q : CluRef) : s.qput q f v = s.put q.site (f.nth q.clu) v := rfl
@[simp] theorem State.qbump_eq (q : CluRef) (n : Nat) : s.qbump q f n = s.bump q.site (f.nth q.clu) n := rfl
@[simp] theorem State.jget_eq (port : Nat) : s.jget port f = s.get (siteOfPort port) f := rfl
@[simp] theorem State.jput_eq (port : Nat) : s.jput port f v = s.put (siteOfPort port) f v := rfl
@[simp] theorem State.jflag_eq (port : Nat) : s.jflag port f = s.flag (siteOfPort port) f := rfl
@[simp] theorem State.jset_eq (port : Nat) (b : Bool) : s.jset port f b = s.putFlag (siteOfPort port) f b := rfl
@[simp] theorem State.jbump_eq (port n : Nat) : s.jbump port f n = s.bump (siteOfPort port) f n := rfl

/-! ### Reading a field after a write -/

/-- A field reads a number of its width. -/
theorem State.get_lt : s.get site f < 2 ^ f.width := Nat.mod_lt _ (by positivity)

/-- A field that has been written reads the value, cut to its width. -/
theorem State.get_put_same (h : risingFrom 0 s.fld = true) : (s.put site f v).get site f = v % 2 ^ f.width := by
  simp [State.get, State.put, mapGet_set_same _ _ _ h]

/-- A field of another key reads as before. -/
theorem State.get_put_other {site' : Nat} {g : Fld} (hk : fldKey site' g ≠ fldKey site f) (h : risingFrom 0 s.fld = true) :
    (s.put site f v).get site' g = s.get site' g := by
  simp [State.get, State.put, mapGet_set_other _ _ hk _ h]

/-- A write of a field keeps the fields in order. -/
theorem State.put_rising (h : risingFrom 0 s.fld = true) : risingFrom 0 (s.put site f v).fld = true := rising_set _ _ _ h

/-- So does setting one back to its reset value, which it then reads. -/
theorem State.unset_rising (h : risingFrom 0 s.fld = true) : risingFrom 0 (s.unset site f).fld = true := rising_erase h

theorem State.get_unset_same (h : risingFrom 0 s.fld = true) : (s.unset site f).get site f = f.reset % 2 ^ f.width := by
  simp [State.get, State.unset, mapGet_erase_same _ h]

theorem State.clearFlds_rising (lo hi : Nat) (h : risingFrom 0 s.fld = true) : risingFrom 0 (s.clearFlds site lo hi).fld = true :=
  rising_filter _ h

/-! ### The canonical form -/

/-- A write of a field keeps every map in order. -/
theorem State.put_canonical (h : s.canonical = true) : (s.put site f v).canonical = true := by
  simp only [State.canonical, Bool.and_eq_true] at h ⊢
  exact ⟨⟨⟨⟨⟨⟨⟨⟨⟨State.put_rising s site f v h.1.1.1.1.1.1.1.1.1, h.1.1.1.1.1.1.1.1.2⟩, h.1.1.1.1.1.1.1.2⟩, h.1.1.1.1.1.1.2⟩,
    h.1.1.1.1.1.2⟩, h.1.1.1.1.2⟩, h.1.1.1.2⟩, h.1.1.2⟩, h.1.2⟩, h.2⟩

/-- Fields are in order in a canonical state. -/
theorem State.canonical_fld {s : State} (h : s.canonical = true) : risingFrom 0 s.fld = true := by
  simp only [State.canonical, Bool.and_eq_true] at h
  exact h.1.1.1.1.1.1.1.1.1

end Sys2Proof.Machine
end

