-- ==== Sys2Proof/Laws/Memory.lean ====
section
/-! SUPPORT. Laws of the addressed memories: every memory operation keeps the canonical form, and a byte reads as it was written. -/

namespace Sys2Proof.Machine

variable {s : State}

/-! ### The canonical form, map by map -/

theorem State.canonical_maps (h : s.canonical = true) :
    risingFrom 0 s.fld = true ∧ risingFrom 0 s.queues = true ∧ mapWf 0 s.sram = true ∧ mapWf 0 s.hbm = true ∧ mapWf 0 s.flash = true ∧
      mapWf 0 s.bootBuf = true ∧ mapWf 0 s.sramPoison = true ∧ mapWf 0 s.sramUpset = true ∧ mapWf 0 s.hbmPoison = true ∧
      mapWf 0 s.hbmUpset = true := by
  simpa only [State.canonical, Memory.wf, Bool.and_eq_true, and_assoc] using h

theorem State.canonical_of_maps (h : risingFrom 0 s.fld = true ∧ risingFrom 0 s.queues = true ∧ mapWf 0 s.sram = true ∧
      mapWf 0 s.hbm = true ∧ mapWf 0 s.flash = true ∧ mapWf 0 s.bootBuf = true ∧ mapWf 0 s.sramPoison = true ∧
      mapWf 0 s.sramUpset = true ∧ mapWf 0 s.hbmPoison = true ∧ mapWf 0 s.hbmUpset = true) : s.canonical = true := by
  simpa only [State.canonical, Memory.wf, Bool.and_eq_true, and_assoc] using h

/-- A state that differs in no map is canonical where the other is. -/
theorem State.canonical_congr {t : State} (h : s.canonical = true) (h1 : t.fld = s.fld) (h2 : t.queues = s.queues) (h3 : t.sram = s.sram)
    (h4 : t.hbm = s.hbm) (h5 : t.flash = s.flash) (h6 : t.bootBuf = s.bootBuf) (h7 : t.sramPoison = s.sramPoison)
    (h8 : t.sramUpset = s.sramUpset) (h9 : t.hbmPoison = s.hbmPoison) (h10 : t.hbmUpset = s.hbmUpset) : t.canonical = true := by
  have := State.canonical_maps h
  rw [← h1, ← h2, ← h3, ← h4, ← h5, ← h6, ← h7, ← h8, ← h9, ← h10] at this
  exact State.canonical_of_maps this

/-! ### Registers and queues -/

theorem State.unset_canonical (site : Nat) (f : Fld) (h : s.canonical = true) : (s.unset site f).canonical = true :=
  let ⟨hf, hr⟩ := State.canonical_maps h
  State.canonical_of_maps ⟨State.unset_rising _ _ _ hf, hr⟩

theorem State.clearFlds_canonical (site lo hi : Nat) (h : s.canonical = true) : (s.clearFlds site lo hi).canonical = true :=
  let ⟨hf, hr⟩ := State.canonical_maps h
  State.canonical_of_maps ⟨State.clearFlds_rising _ _ _ _ hf, hr⟩

theorem State.setQueue_canonical (q : CluRef) (n : Nat) (x : QueueSt) (h : s.canonical = true) : (s.setQueue q n x).canonical = true :=
  let ⟨hf, hq, hr⟩ := State.canonical_maps h
  State.canonical_of_maps ⟨hf, rising_set _ _ _ hq, hr⟩

theorem State.bump_canonical (site : Nat) (f : Fld) (n : Nat) (h : s.canonical = true) : (s.bump site f n).canonical = true :=
  State.put_canonical _ _ _ _ h

theorem State.raise_canonical (n : Notice) (h : s.canonical = true) : (s.raise n).canonical = true := by
  unfold State.raise
  dsimp only
  split
  · exact State.put_canonical _ _ _ _ (State.put_canonical _ _ _ _ (State.put_canonical _ _ _ _ h))
  · have h1 : (((s.bump n.site Reg.DIE_NOTICE.RAISED).put n.site Reg.DIE_NOTICE.BUFFERED
        ((s.bump n.site Reg.DIE_NOTICE.RAISED).get n.site Reg.DIE_NOTICE.BUFFERED + 1)).putFlag n.site Die.LOSS false).canonical = true :=
      State.put_canonical _ _ _ _ (State.put_canonical _ _ _ _ (State.put_canonical _ _ _ _ h))
    exact State.canonical_congr h1 rfl rfl rfl rfl rfl rfl rfl rfl rfl rfl

/-! ### The memories of a compute die -/

theorem State.wrP_canonical (k : Nat) (bs : List (Byte × Bool)) (h : s.canonical = true) : (s.wrP k bs).canonical = true := by
  unfold State.wrP
  split
  · exact h
  · obtain ⟨hf, hq, hs, hh, hl, hb, hp, hu, hr⟩ := State.canonical_maps h
    exact State.canonical_of_maps ⟨hf, hq, wf_write hs _ _, hh, hl, hb, wf_write hp _ _, wf_clear hu _ _, hr⟩

theorem State.wr_canonical (k : Nat) (bs : List Byte) (h : s.canonical = true) : (s.wr k bs).canonical = true := State.wrP_canonical _ _ h

theorem State.clearSram_canonical (lo hi : Nat) (h : s.canonical = true) : (s.clearSram lo hi).canonical = true :=
  let ⟨hf, hq, hs, hh, hl, hb, hp, hu, hr⟩ := State.canonical_maps h
  State.canonical_of_maps ⟨hf, hq, wf_clear hs _ _, hh, hl, hb, wf_clear hp _ _, wf_clear hu _ _, hr⟩

theorem State.wipeDie_canonical (site : Nat) (h : s.canonical = true) : (s.wipeDie site).canonical = true :=
  let ⟨hf, hq, hs, hh, hl, hb, hp, hu, hr⟩ := State.canonical_maps h
  State.canonical_of_maps ⟨hf, rising_filter _ hq, wf_clear hs _ _, hh, hl, hb, wf_clear hp _ _, wf_clear hu _ _, hr⟩

theorem State.copyMems_canonical (old new : Nat) (pools : Bool) (h : s.canonical = true) : (s.copyMems old new pools).canonical = true := by
  unfold State.copyMems
  extract_lets k n byte word
  obtain ⟨hf, hq, hs, hh, hl, hb, hp, hu, hr⟩ := State.canonical_maps h
  exact State.canonical_of_maps ⟨hf, hq, wf_copyKeys hs _ _ _ _, hh, hl, hb, wf_copyKeys hp _ _ _ _, wf_copyKeys hu _ _ _ _, hr⟩

/-! ### The memory stacks -/

theorem State.poisonSector_canonical (q : Nat) (h : s.canonical = true) : (s.poisonSector q).canonical = true :=
  let ⟨hf, hq, hs, hh, hl, hb, hp, hu, hP, hU⟩ := State.canonical_maps h
  State.canonical_of_maps ⟨hf, hq, hs, hh, hl, hb, hp, hu, show mapWf 0 (mapSet 0 s.hbmPoison q 1) = true from wf_set hP _ _, wf_erase hU _⟩

theorem State.clearStack_canonical (stack : Nat) (h : s.canonical = true) : (s.clearStack stack).canonical = true :=
  let ⟨hf, hq, hs, hh, hl, hb, hp, hu, hP, hU⟩ := State.canonical_maps h
  State.canonical_of_maps ⟨hf, hq, hs, wf_clear hh _ _, hl, hb, hp, hu, wf_clear hP _ _, wf_clear hU _ _⟩

theorem State.logSector_canonical (q kind : Nat) (h : s.canonical = true) : (s.logSector q kind).canonical = true := by
  unfold State.logSector
  dsimp only
  split
  · exact h
  · exact State.put_canonical _ _ _ _ (State.put_canonical _ _ _ _ (State.put_canonical _ _ _ _ (State.put_canonical _ _ _ _
      (State.put_canonical _ _ _ _ h))))

theorem State.sectorCorrected_canonical (q kind : Nat) (h : s.canonical = true) : (s.sectorCorrected q kind).canonical = true := by
  unfold State.sectorCorrected
  dsimp only
  have h1 := State.logSector_canonical q kind (State.bump_canonical (siteOfStack (q / 2 ^ 31)) Hub.CE_SINCE 1
    (State.bump_canonical (siteOfStack (q / 2 ^ 31)) Reg.HUB_CE.CORRECTED 1 h))
  split
  · exact State.raise_canonical _ (State.put_canonical _ _ _ _ h1)
  · exact h1

theorem State.readSector_canonical (kind q : Nat) (h : s.canonical = true) : (s.readSector kind q).canonical = true := by
  unfold State.readSector
  dsimp only
  split
  · exact State.raise_canonical _ (State.logSector_canonical _ _ (State.bump_canonical _ _ _ (State.poisonSector_canonical _ h)))
  · split
    · exact State.sectorCorrected_canonical _ _ h
    · exact h

theorem State.readSectors_canonical (k n : Nat) (h : s.canonical = true) : (s.readSectors k n).canonical = true := by
  unfold State.readSectors
  generalize sectorsIn s.hbmUpset k n = l
  induction l generalizing s with
  | nil => exact h
  | cons q l ih => exact ih (State.readSector_canonical _ _ h)

theorem State.hbmWrite_canonical (k : Nat) (bs : List (Byte × Bool)) (h : s.canonical = true) : (s.hbmWrite k bs).canonical = true := by
  unfold State.hbmWrite
  split
  · exact h
  · extract_lets n q0 cnt s1 s2
    have h1 : s1.canonical = true := by unfold s1; split; exact h; exact State.readSectors_canonical _ _ h
    have h2 : s2.canonical = true := by unfold s2; split; exact h1; exact State.readSectors_canonical _ _ h1
    clear_value s2
    obtain ⟨hf, hq, hs, hh, hl, hb, hp, hu, hP, hU⟩ := State.canonical_maps h2
    exact State.canonical_of_maps ⟨hf, hq, hs, wf_write hh _ _, hl, hb, hp, hu, wf_write hP _ _, wf_clear hU _ _⟩

theorem State.patrolSector_canonical (q : Nat) (h : s.canonical = true) : (s.patrolSector q).canonical = true := by
  have h1 := State.readSector_canonical 3 q h
  unfold State.patrolSector
  dsimp only
  split
  · exact h1
  · obtain ⟨hf, hq, hs, hh, hl, hb, hp, hu, hP, hU⟩ := State.canonical_maps h1
    exact State.canonical_of_maps ⟨hf, hq, hs, hh, hl, hb, hp, hu, hP, wf_erase hU _⟩

theorem State.reset_canonical : State.reset.canonical = true := by decide

/-! ### What a byte reads as -/

theorem mapGet_append_left {β : Type} (d : β) {mid key : Nat} (hk : key < mid) {a b : SMap β} (hb : risingFrom mid b = true) :
    mapGet d (a ++ b) key = mapGet d a key := by
  induction a with
  | nil => exact mapGet_below d hk hb
  | cons e a ih =>
    obtain ⟨k, v⟩ := e
    simp only [List.cons_append, mapGet, ih]

theorem mapGet_append_right {β : Type} (d : β) {key : Nat} {a b : SMap β} (ha : ∀ e ∈ a, e.1 < key) :
    mapGet d (a ++ b) key = mapGet d b key := by
  induction a with
  | nil => rfl
  | cons e a ih =>
    obtain ⟨k, v⟩ := e
    have hk : k < key := ha (k, v) (by simp)
    simp only [List.cons_append, mapGet]
    rw [if_neg (by omega), if_neg (by omega)]
    exact ih fun e he => ha e (by simp [he])

theorem mapGet_filter {β : Type} (d : β) (p : Nat → Bool) {key lo : Nat} (hp : p key = true) {m : SMap β} (hm : risingFrom lo m = true) :
    mapGet d (mapFilter p m) key = mapGet d m key := by
  unfold mapFilter
  induction m generalizing lo with
  | nil => rfl
  | cons e m ih =>
    obtain ⟨k, v⟩ := e
    rw [rising_cons] at hm
    by_cases hk : p k = true
    · rw [List.filter_cons_of_pos (by simpa using hk)]; simp only [mapGet, ih hm.2]
    · rw [List.filter_cons_of_neg (by simpa using hk), ih hm.2]
      have h1 : key ≠ k := fun h => hk (h ▸ hp)
      simp only [mapGet, h1, if_false]
      split
      · exact mapGet_below d (by omega) hm.2
      · rfl

theorem mapGet_clear_other {β : Type} (d : β) {lo hi key : Nat} (h : key < lo ∨ hi ≤ key) {m : SMap β} (hm : risingFrom 0 m = true) :
    mapGet d (mapClear lo hi m) key = mapGet d m key :=
  mapGet_filter d _ (by simpa using h) hm

theorem mapGet_entries {β : Type} [DecidableEq β] (d : β) (vs : List β) (lo i : Nat) :
    mapGet d (entriesOf d lo vs) (lo + i) = vs.getD i d := by
  induction vs generalizing lo i with
  | nil => rfl
  | cons v vs ih =>
    unfold entriesOf
    cases i with
    | zero =>
      split
      · rename_i h
        rw [mapGet_below d (show lo + 0 < lo + 1 by omega) (entries_rising d vs (lo + 1))]
        simp [h]
      · simp [mapGet]
    | succ i =>
      have hi := ih (lo + 1) i
      rw [show lo + 1 + i = lo + (i + 1) by omega] at hi
      split
      · simpa using hi
      · simp only [mapGet]
        rw [if_neg (by omega), if_neg (by omega)]
        simpa using hi

/-- A byte written reads as it was written. -/
theorem mapGet_write_in {β : Type} [DecidableEq β] (d : β) {m : SMap β} (hm : risingFrom 0 m = true) (lo : Nat) (vs : List β) {i : Nat}
    (hi : i < vs.length) : mapGet d (mapWrite d m lo vs) (lo + i) = vs.getD i d := by
  unfold mapWrite
  have h4 : risingFrom (lo + vs.length) (mapFilter (fun k => decide (lo + vs.length ≤ k)) m) = true := rising_above hm
  rw [mapGet_append_left d (by omega) h4, mapGet_append_right d fun e he => ?_, mapGet_entries]
  have : e.1 < lo := by simpa using (List.mem_filter.1 he).2
  omega

/-- Every byte outside a write reads as before. -/
theorem mapGet_write_out {β : Type} [DecidableEq β] (d : β) {m : SMap β} (hm : risingFrom 0 m = true) (lo : Nat) (vs : List β) {key : Nat}
    (h : key < lo ∨ lo + vs.length ≤ key) : mapGet d (mapWrite d m lo vs) key = mapGet d m key := by
  unfold mapWrite
  have h3 := entries_mem d vs lo
  have h4 : risingFrom (lo + vs.length) (mapFilter (fun k => decide (lo + vs.length ≤ k)) m) = true := rising_above hm
  rcases h with h | h
  · rw [mapGet_append_left d (by omega) h4, mapGet_append_left d h (entries_rising d vs lo)]
    exact mapGet_filter d _ (by simpa using h) hm
  · rw [mapGet_append_right d fun e he => ?_]
    · exact mapGet_filter d _ (by simpa using h) hm
    · rcases List.mem_append.1 he with he | he
      · have : e.1 < lo := by simpa using (List.mem_filter.1 he).2
        omega
      · have := (h3 e he).1; omega

/-- A byte of an on-die memory outside a write reads as before. -/
theorem State.wrP_sram_other (h : s.canonical = true) (k : Nat) (bs : List (Byte × Bool)) {a : Nat} (ha : a < k ∨ k + bs.length ≤ a) :
    mapGet 0 (s.wrP k bs).sram a = mapGet 0 s.sram a := by
  have hs := (wf_iff.1 (State.canonical_maps h).2.2.1).1
  unfold State.wrP
  split
  · rfl
  · exact mapGet_write_out 0 hs k _ (by simpa using ha)

/-- A byte of an on-die memory inside a write reads as written. -/
theorem State.wrP_sram_in (h : s.canonical = true) (k : Nat) (bs : List (Byte × Bool)) {i : Nat} (hi : i < bs.length) :
    mapGet 0 (s.wrP k bs).sram (k + i) = (bs.map (·.1)).getD i 0 := by
  have hs := (wf_iff.1 (State.canonical_maps h).2.2.1).1
  unfold State.wrP
  split
  · rename_i he; simp_all
  · exact mapGet_write_in 0 hs k _ (by simpa using hi)

end Sys2Proof.Machine
end

