-- ==== Sys2Proof/Tests/Slice0.lean ====
section
/-! SUPPORT. Small tests: ill-formed commands are refused, single steps on small states, and states that meet the hypotheses of each
statement. Expected values come from the rules of spec/ that the statements name. -/

namespace Sys2Proof.Tests

set_option Elab.async false

open Sys2Proof.Machine

/-- A command goes on, and the state after it passes a test. -/
def ran (s : State) (i : Instr) (p : State → Bool) : Bool :=
  match exec i s with
  | .next t => p t
  | _ => false

/-! ### Well-formedness -/

/-- A header, and one of every structure that a command carries, all well formed. -/
def hdr : CmdHdr := ⟨0, 0, 77, 8, 8, 5, 0, 0, false, 3⟩
def req : HubReq := ⟨0, 0, 0, 0, 0, 0, 0, 0, 0, 0, 0, 0, 0, 0, []⟩
def rep : HubRep := ⟨0, 0, 0, 0, 0, 0, 0, 0, []⟩
def frame : Frame := ⟨0, 0, 0, 0, 0, 0, 0, false, false, false, false, 0, true, 0, 0, []⟩
def packet : Packet := ⟨0, false, 0, false, 0, false, 0, 0, 0, 0, 0, 0, 0, 0, 0, 0, 0, []⟩
def flit : FlitIn := ⟨true, 0, 0, true, true, 0, false, false, 0, false, 0, 0, false, false, 0, 0, true, true, 0⟩
def msg : StreamMsg := ⟨0, 0, 0, 0, false, 0, 0, 0, false, 0, 0, []⟩
def auth : Auth := ⟨0, 0, 0, 0, 0, 0, 0, 0, 0⟩
def tabs : TimeoutTables := ⟨false, none, none, none, 0, none⟩

/-- Each of these breaks one check of its command, and is refused. -/
theorem test_illFormed_1 : ([.loop ⟨3, 48⟩ 0, .pset ⟨3, 48⟩ 0, .ploop ⟨3, 48⟩ 0, .plogic ⟨3, 48⟩ 0, .ldcnt ⟨3, 48⟩ 0, .endSched ⟨3, 48⟩ 0, .counterWait ⟨3, 48⟩ 0,
   .queueWait ⟨3, 48⟩ 0, .arriveAndWait ⟨3, 48⟩ 0, .arriveOnly ⟨3, 48⟩ 0, .waitOnly ⟨3, 48⟩ 0, .start ⟨3, 48⟩ 0 0, .start ⟨3, 5⟩ 2 0,
   .moveComplete ⟨3, 48⟩ 0, .moveComplete ⟨3, 5⟩ 2, .push ⟨3, 48⟩ 0, .pop ⟨3, 48⟩ 0, .openPkt ⟨3, 48⟩ 0, .closePkt ⟨3, 48⟩ 0, .markQ ⟨3, 48⟩ 0,
   .rewindQ ⟨3, 48⟩ 0, .releaseQ ⟨3, 48⟩ 0, .mac ⟨3, 48⟩ 0, .emit ⟨3, 48⟩ 0, .spill ⟨3, 48⟩ 0, .zeroSlot ⟨3, 48⟩ 0, .run ⟨3, 48⟩ 0, .stepWord
   ⟨3, 48⟩, .continueCore ⟨3, 48⟩, .dbgDataRead { hdr with port := 8 } ⟨3, 5⟩, .dbgDataRead hdr ⟨3, 48⟩, .corePaused ⟨3, 48⟩, .coreEnded ⟨3,
   48⟩, .whistleDriven 17, .huddleComplete 16, .shotClock 256, .sramPatrolRead 256 0 0, .sramPatrolRead 0 50 0, .sramPatrolRead 0 0 (2 ^ 22),
   .clearComplete 256, .inboxDelivery { msg with kind := 4 }, .cell { msg with kind := 4 }, .closeMessage { msg with kind := 4 }, .credit { msg
   with kind := 4 }, .queueSweepDone ⟨3, 2⟩ 0, .queueSweepDone ⟨3, 1⟩ 1024, .nop ⟨3, 5, 48⟩ 0, .add ⟨3, 5, 48⟩ 0, .sub ⟨3, 5, 48⟩ 0, .addi ⟨3,
   5, 48⟩ 0, .and ⟨3, 5, 48⟩ 0, .or ⟨3, 5, 48⟩ 0, .xor ⟨3, 5, 48⟩ 0, .shli ⟨3, 5, 48⟩ 0, .shri ⟨3, 5, 48⟩ 0, .muli ⟨3, 5, 48⟩ 0, .shin ⟨3, 5,
   48⟩ 0, .beq ⟨3, 5, 48⟩ 0, .bne ⟨3, 5, 48⟩ 0, .blt ⟨3, 5, 48⟩ 0, .bge ⟨3, 5, 48⟩ 0, .bnzd ⟨3, 5, 48⟩ 0, .jmp ⟨3, 5, 48⟩ 0, .waitc ⟨3, 5, 48⟩
   0, .threadStop ⟨3, 5, 48⟩ 0, .cinc ⟨3, 5, 48⟩ 0, .stat ⟨3, 5, 48⟩ 0, .fence ⟨3, 5, 48⟩ 0, .ld ⟨3, 5, 48⟩ 0, .lds ⟨3, 5, 48⟩ 0, .str ⟨3, 5,
   48⟩ 0, .twalk ⟨3, 5, 48⟩ 0, .gather ⟨3, 5, 48⟩ 0, .storeT ⟨3, 5, 48⟩ 0, .atom ⟨3, 5, 48⟩ 0, .red ⟨3, 5, 48⟩ 0, .fetchDrainBound ⟨3, 48⟩,
   .hubReply { rep with status := 256 }, .hubRead 64 req, .hubRead 0 { req with opc := 256 }, .read8 64 req, .read8 0 { req with opc := 256 },
   .hubWrite 64 req, .hubWrite 0 { req with opc := 256 }, .write8 64 req, .write8 0 { req with opc := 256 }, .hubAtom 64 req, .hubAtom 0 { req
   with opc := 256 }, .hubRed 64 req, .hubRed 0 { req with opc := 256 }, .gatherC 64 req, .gatherC 0 { req with opc := 256 }, .storeC 64 req,
   .storeC 0 { req with opc := 256 }, .partRead 64 req, .partRead 0 { req with opc := 256 }, .partWrite 64 req, .partWrite 0 { req with opc :=
   256 }, .recordTimeout 64 0, .recordTimeout 0 (2 ^ 36)] : List Instr).all (fun i => !wellFormed i) = true := by decide +kernel

/-- Each of these breaks one check of its command, and is refused. -/
theorem test_illFormed_2 : ([.dedupWindowIdle 64 0, .dedupWindowIdle 0 4096, .hbmPatrolRead 64 0, .hbmPatrolRead 0 (2 ^ 36), .zeroScrubDone 64, .channelErrors 64 0,
   .channelErrors 0 32, .retrain { hdr with port := 8 } 0 0, .retrain hdr 64 0, .channelRetrainDone 64 0 false, .channelRetrainDone 0 32 false,
   .acceptAtom { hdr with port := 8 } 0 0, .acceptAtom hdr 64 0, .hubDrainBound 64, .hbmRailFault 16, .packetInject 256 packet, .packetInject 0
   { packet with cls := 5 }, .flit 256 0 0 flit, .flit 0 4 0 flit, .flit 0 0 4 flit, .flit 0 0 0 { flit with cls := 8 }, .nakRepeat 256 0 0,
   .nakRepeat 0 4 0, .nakRepeat 0 0 4, .multicastAck (2 ^ 16) 0 0 0, .multicastAck 0 256 0 0, .multicastAck 0 0 144 0, .multicastAck 0 0 0 256,
   .fencedReply 144, .timeoutDrainLimit [256], .routerNoAnswer 256 [], .routerNoAnswer 0 [256], .pkt 8 0 frame, .pkt 0 64 frame, .pkt 0 0 {
   frame with typ := 16 }, .ctrl 8 frame false (List.replicate 5 0), .ctrl 0 { frame with typ := 16 } false (List.replicate 5 0), .ctrl 0 frame
   false [], .ctrl 0 frame false (List.replicate 5 (2 ^ 32)), .ctrlTimer 8, .rto 8, .retire 8 0, .confirm 8 0 0, .confirm 0 0 (2 ^ 32), .down
   8, .drain 8, .mgmtRepeat 8, .laneFailure 8 0, .laneFailure 0 64, .fecWindow 8 0 0 0 0 0 false, .fecWindow 0 64 0 0 0 0 false, .fecWindow 0 0
   32768 0 0 0 false, .fecWindow 0 0 ((-32769)) 0 0 0 false, .fecWindow 0 0 0 4096 0 0 false, .fecWindow 0 0 0 0 (2 ^ 18) 0 false, .fecWindow 0
   0 0 0 0 256 false, .replyTimeout 8 0, .replyTimeout 0 65536, .autoRetrain 8, .portDrainBound 8, .portTrained 8 0 0 0, .portTrained 0 0 0 65,
   .timeExchange 8, .sync 8 0, .sync 0 (2 ^ 16), .followUp 8 0 0, .followUp 0 (2 ^ 16) 0, .followUp 0 0 (2 ^ 64), .delayReq 8 0, .delayReq 0 (2
   ^ 16), .delayResp 8 0 0, .delayResp 0 (2 ^ 16) 0, .delayResp 0 0 (2 ^ 64), .commandBadcrc 8, .unknownOpcode { hdr with port := 8 },
   .identify { hdr with port := 8 }, .getStatus { hdr with port := 8 }, .readCsr { hdr with port := 8 } 0 0 0, .readCsr hdr (2 ^ 64) 0 0,
   .readCsr hdr 0 (2 ^ 16) 0, .readCsr hdr 0 0 (2 ^ 512), .writeCsr { hdr with port := 8 } 0 0, .writeCsr hdr (2 ^ 64) 0, .echo { hdr with port
   := 8 } [], .echo hdr (List.replicate (4096 + 1) 0), .setPowerCap { hdr with port := 8 } 0 0, .setPowerCap hdr (2 ^ 32) 0, .setPowerCap hdr 0
   (2 ^ 512), .setBlockLimits { hdr with port := 8 } (List.replicate 16 0), .setBlockLimits hdr [], .setBlockLimits hdr (List.replicate 16 (2 ^
   16)), .setCoolant { hdr with port := 8 } 0 0 0, .setCoolant hdr 32768 0 0, .setCoolant hdr ((-32769)) 0 0, .setCoolant hdr 0 (2 ^ 16) 0,
   .setCoolant hdr 0 0 (2 ^ 512), .getPowerThermal { hdr with port := 8 }, .getRoster { hdr with port := 8 }, .fenceDie { hdr with port := 8 }
   0 0, .fenceDie hdr 256 0] : List Instr).all (fun i => !wellFormed i) = true := by decide +kernel

/-- Each of these breaks one check of its command, and is refused. -/
theorem test_illFormed_3 : ([.fenceDie hdr 0 (2 ^ 512), .substitute { hdr with port := 8 } 0 0 0 0, .substitute hdr 256 0 0 0, .substitute hdr 0 256 0 0, .substitute hdr
   0 0 256 0, .substitute hdr 0 0 0 (2 ^ 512), .retireDie { hdr with port := 8 } 0 0, .retireDie hdr 256 0, .retireDie hdr 0 (2 ^ 512),
   .rollCall { hdr with port := 8 } 0 0, .rollCall hdr 256 0, .rollCall hdr 0 (2 ^ 512), .loadImage { hdr with port := 8 } 0 0 0, .loadImage
   hdr (2 ^ 64) 0 0, .loadImage hdr 0 (2 ^ 64) 0, .loadImage hdr 0 0 (2 ^ 512), .configure { hdr with port := 8 } 0 0, .configure hdr 0 (2 ^
   512), .kickoff { hdr with port := 8 } 0 0, .kickoff hdr 0 (2 ^ 512), .pause { hdr with port := 8 } 0 0 0, .pause hdr 0 (2 ^ 32) 0, .pause
   hdr 0 0 (2 ^ 512), .halfTime { hdr with port := 8 } 0 0 0, .halfTime hdr 0 (2 ^ 32) 0, .halfTime hdr 0 0 (2 ^ 512), .resume { hdr with port
   := 8 } 0 false 0, .resume hdr 0 false (2 ^ 512), .stop { hdr with port := 8 } 0 false 0, .stop hdr 0 false (2 ^ 512), .scrub { hdr with port
   := 8 } 0 0 0, .scrub hdr 0 256 0, .scrub hdr 0 0 (2 ^ 512), .abort { hdr with port := 8 } 0 0 0, .abort hdr 256 0 0, .abort hdr 0 (2 ^ 16)
   0, .abort hdr 0 0 (2 ^ 512), .dataOpen { hdr with port := 8 } 0 0 0 0 0 0, .dataOpen hdr (2 ^ 64) 0 0 0 0 0, .dataOpen hdr 0 (2 ^ 64) 0 0 0
   0, .dataOpen hdr 0 0 256 0 0 0, .dataOpen hdr 0 0 0 256 0 0, .dataOpen hdr 0 0 0 0 0 (2 ^ 512), .dataClose { hdr with port := 8 } 0 0,
   .dataClose hdr 256 0, .dataClose hdr 0 (2 ^ 512), .fill { hdr with port := 8 } 0 0 0, .fill hdr (2 ^ 64) 0 0, .fill hdr 0 (2 ^ 64) 0,
   .setPortRoutes { hdr with port := 8 } 0 0 0 0 0 (List.replicate 32 0) [] 0, .setPortRoutes hdr 0 256 0 0 0 (List.replicate 32 0) [] 0,
   .setPortRoutes hdr 0 0 (2 ^ 16) 0 0 (List.replicate 32 0) [] 0, .setPortRoutes hdr 0 0 0 (2 ^ 16) 0 (List.replicate 32 0) [] 0,
   .setPortRoutes hdr 0 0 0 0 (2 ^ 16) (List.replicate 32 0) [] 0, .setPortRoutes hdr 0 0 0 0 0 [] [] 0, .setPortRoutes hdr 0 0 0 0 0
   (List.replicate 32 (2 ^ 16)) [] 0, .setPortRoutes hdr 0 0 0 0 0 (List.replicate 32 0) (List.replicate (1000 + 1) 0) 0, .setPortRoutes hdr 0
   0 0 0 0 (List.replicate 32 0) [] (2 ^ 512), .portControl { hdr with port := 8 } 0 0 0 0, .portControl hdr 256 0 0 0, .portControl hdr 0 256
   0 0, .portControl hdr 0 0 256 0, .portControl hdr 0 0 0 (2 ^ 512), .fabricTimeout { hdr with port := 8 } tabs 0, .fabricTimeout hdr { tabs
   with ilvFirst := 2 ^ 16 } 0, .fabricTimeout hdr tabs (2 ^ 512), .timeSync { hdr with port := 8 } 0 0 0, .timeSync hdr (2 ^ 16) 0 0,
   .timeSync hdr 0 256 0, .timeSync hdr 0 0 (2 ^ 512), .setTime { hdr with port := 8 } 0, .attest { hdr with port := 8 } 0, .attest hdr (2 ^
   512), .lifecycle { hdr with port := 8 } 0 auth 0, .lifecycle hdr 256 auth 0, .lifecycle hdr 0 { auth with kind := 256 } 0, .lifecycle hdr 0
   auth (2 ^ 512), .debugUnlock { hdr with port := 8 } 0 auth 0, .debugUnlock hdr 256 auth 0, .debugUnlock hdr 0 { auth with kind := 256 } 0,
   .debugUnlock hdr 0 auth (2 ^ 512), .fwUpdate { hdr with port := 8 } 0 0, .fwUpdate hdr (2 ^ 64) 0, .fwUpdate hdr 0 (2 ^ 64), .readNotices {
   hdr with port := 8 } 0 false 0, .readNotices hdr 256 false 0, .readNotices hdr 0 false (2 ^ 512), .readCounters { hdr with port := 8 } [],
   .readCounters hdr (List.replicate (512 + 1) 0), .readCounters hdr [2 ^ 64], .marginScan { hdr with port := 8 } 0 0 0, .marginScan hdr 256 0
   0, .marginScan hdr 0 256 0, .marginScan hdr 0 0 (2 ^ 512), .scanAccess { hdr with port := 8 } 0 0 0 0 [] 0, .scanAccess hdr 256 0 0 0 [] 0,
   .scanAccess hdr 0 256 0 0 [] 0, .scanAccess hdr 0 0 256 0 [] 0, .scanAccess hdr 0 0 0 (2 ^ 32) [] 0, .scanAccess hdr 0 0 0 0 (List.replicate
   (4096 + 1) 0) 0] : List Instr).all (fun i => !wellFormed i) = true := by decide +kernel

/-- Each of these breaks one check of its command, and is refused. -/
theorem test_illFormed_4 : ([.scanAccess hdr 0 0 0 0 [] (2 ^ 512), .cmdTmo 8 0, .cmdTmo 0 (2 ^ 16), .squadPaused 16, .squadStopped 16, .squadComplete 16,
   .admissionGranted 16, .admissionRetry 16, .admissionDeferred 16, .selfTestDone 256 false, .dieDead 256, .data 8 0 0 0 0 false 0 [], .data 0
   256 0 0 0 false 0 [], .data 0 0 (2 ^ 64) 0 0 false 0 [], .data 0 0 0 (2 ^ 16) 0 false 0 [], .data 0 0 0 0 (2 ^ 16) false 0 [], .data 0 0 0 0
   0 false (2 ^ 64) [], .data 0 0 0 0 0 false 0 (List.replicate (496 + 1) 0), .ack 8 0 0, .ack 0 256 0, .ack 0 0 (2 ^ 64), .windowDrainBound 8
   0, .windowDrainBound 0 4, .powerSample 256 (List.replicate 4 0) (List.replicate 4 0), .powerSample 0 [] (List.replicate 4 0), .powerSample 0
   (List.replicate 4 (2 ^ 16)) (List.replicate 4 0), .powerSample 0 (List.replicate 4 0) [], .powerSample 0 (List.replicate 4 0)
   (List.replicate 4 (2 ^ 16)), .vinUndervolt 256 0 0, .vinUndervolt 0 4 0, .vinUndervolt 0 0 (2 ^ 16), .vaonOvercurrent 256, .phaseFail 256 0,
   .phaseFail 0 8, .islandCellFail 256 0, .islandCellFail 0 2, .pathSample 256 0 0 0 false, .pathSample 0 4 0 0 false, .pathSample 0 0 (2 ^ 16)
   0 false, .pathSample 0 0 0 (2 ^ 16) false, .ceilingControl 256 0 0, .ceilingControl 0 (2 ^ 16) 0, .ceilingControl 0 0 (2 ^ 16), .pwrgoodFall
   16, .pwrgoodAssert 16, .rollCallLimit 16, .siteCheckDone 256 0 0, .siteCheckDone 0 (2 ^ 16) 0, .siteCheckDone 0 0 (2 ^ 16), .sensorSample
   256 [], .sensorSample 0 (List.replicate (16 + 1) ⟨0, 0, 0⟩), .sensorSample 0 [⟨0, 0, 32768⟩], .lidSample 32768 0, .lidSample ((-32769)) 0,
   .lidSample 0 32768, .lidSample 0 ((-32769)), .thermtrip 256, .marginWarning 256 0 0 0, .marginWarning 0 48 0 0, .marginWarning 0 0 2 0,
   .marginWarning 0 0 0 256, .codeRise 256, .clockFloor 256 0, .clockFloor 0 48, .clockUnlock 256 0, .clockUnlock 0 11, .refclkLoss 4,
   .correctionEdge 256 0, .correctionEdge 0 (2 ^ 64), .timeUpdate 256 false 0 false 0, .timeUpdate 0 false (2 ^ 64) false 0, .timeUpdate 0
   false 0 false (2 ^ 64), .minReset { hdr with port := 8 } 0, .minReset hdr 256, .slackMinReset { hdr with port := 8 } 0, .slackMinReset hdr
   256, .peakReset { hdr with port := 8 } 0, .peakReset hdr 256, .meshWaveDone (2 ^ 16) [] [], .meshWaveDone 0 [256] [], .meshWaveDone 0 []
   [(256, 0)], .blkEnRaise 16, .pwrgoodTimeout 16, .hbmTrained 64 [], .hbmTrained 0 [32], .computeReset { hdr with port := 8 } 0, .squadReset {
   hdr with port := 8 } 0, .dieComputeReset { hdr with port := 8 } 0, .portRetrain { hdr with port := 8 } 0, .resetDone 256, .tamper (2 ^ 4),
   .bypass 2, .idcode 2, .samplePreload 2 0, .samplePreload 0 (2 ^ 46), .extest 2, .faultRead 2, .jtagRefused 2, .i3cStart { hdr with port := 8
   } 0, .privateInstruction 2 0] : List Instr).all (fun i => !wellFormed i) = true := by decide +kernel

/-- Each of these breaks one check of its command, and is refused. -/
theorem test_illFormed_5 : ([.privateInstruction 0 (2 ^ 32), .noticeRecord 256, .marginCheck [(256, 0, 0)], .marginCheck [(3, 48, 0)], .marginCheck [(3, 0, 256)], .grade
   { hdr with port := 8 } 0, .hostport { hdr with port := 8 } 0] : List Instr).all (fun i => !wellFormed i) = true := by decide +kernel

/-- A well-formed command of each constructor. -/
theorem test_wellFormed_1 : ([.loop ⟨3, 5⟩ 0, .pset ⟨3, 5⟩ 0, .ploop ⟨3, 5⟩ 0, .plogic ⟨3, 5⟩ 0, .ldcnt ⟨3, 5⟩ 0, .endSched ⟨3, 5⟩ 0, .counterWait ⟨3, 5⟩ 0, .queueWait
   ⟨3, 5⟩ 0, .arriveAndWait ⟨3, 5⟩ 0, .arriveOnly ⟨3, 5⟩ 0, .waitOnly ⟨3, 5⟩ 0, .start ⟨3, 5⟩ 0 0, .moveComplete ⟨3, 5⟩ 0, .push ⟨3, 5⟩ 0, .pop
   ⟨3, 5⟩ 0, .openPkt ⟨3, 5⟩ 0, .closePkt ⟨3, 5⟩ 0, .markQ ⟨3, 5⟩ 0, .rewindQ ⟨3, 5⟩ 0, .releaseQ ⟨3, 5⟩ 0, .mac ⟨3, 5⟩ 0, .emit ⟨3, 5⟩ 0,
   .spill ⟨3, 5⟩ 0, .zeroSlot ⟨3, 5⟩ 0, .run ⟨3, 5⟩ 0, .stepWord ⟨3, 5⟩, .continueCore ⟨3, 5⟩, .dbgDataRead hdr ⟨3, 5⟩, .corePaused ⟨3, 5⟩,
   .coreEnded ⟨3, 5⟩, .whistleDriven 0, .huddleComplete 0, .shotClock 0, .sramPatrolRead 0 0 0, .clearComplete 0, .inboxDelivery msg, .cell
   msg, .closeMessage msg, .credit msg, .queueSweepDone ⟨3, 1⟩ 0, .nop ⟨3, 5, 7⟩ 0, .add ⟨3, 5, 7⟩ 0, .sub ⟨3, 5, 7⟩ 0, .addi ⟨3, 5, 7⟩ 0, .and
   ⟨3, 5, 7⟩ 0, .or ⟨3, 5, 7⟩ 0, .xor ⟨3, 5, 7⟩ 0, .shli ⟨3, 5, 7⟩ 0, .shri ⟨3, 5, 7⟩ 0, .muli ⟨3, 5, 7⟩ 0, .shin ⟨3, 5, 7⟩ 0, .beq ⟨3, 5, 7⟩
   0, .bne ⟨3, 5, 7⟩ 0, .blt ⟨3, 5, 7⟩ 0, .bge ⟨3, 5, 7⟩ 0, .bnzd ⟨3, 5, 7⟩ 0, .jmp ⟨3, 5, 7⟩ 0, .waitc ⟨3, 5, 7⟩ 0, .threadStop ⟨3, 5, 7⟩ 0,
   .cinc ⟨3, 5, 7⟩ 0, .stat ⟨3, 5, 7⟩ 0, .fence ⟨3, 5, 7⟩ 0, .ld ⟨3, 5, 7⟩ 0, .lds ⟨3, 5, 7⟩ 0, .str ⟨3, 5, 7⟩ 0, .twalk ⟨3, 5, 7⟩ 0, .gather
   ⟨3, 5, 7⟩ 0, .storeT ⟨3, 5, 7⟩ 0, .atom ⟨3, 5, 7⟩ 0, .red ⟨3, 5, 7⟩ 0, .fetchDrainBound ⟨3, 5⟩, .hubReply rep, .hubRead 0 req, .read8 0 req,
   .hubWrite 0 req, .write8 0 req, .hubAtom 0 req, .hubRed 0 req, .gatherC 0 req, .storeC 0 req, .partRead 0 req, .partWrite 0 req,
   .recordTimeout 0 0, .dedupWindowIdle 0 0, .hbmPatrolRead 0 0, .zeroScrubDone 0, .channelErrors 0 0, .retrain hdr 0 0, .channelRetrainDone 0
   0 false, .acceptAtom hdr 0 0, .hubDrainBound 0, .hbmRailFault 0, .packetInject 0 packet, .flit 0 0 0 flit, .nakRepeat 0 0 0, .multicastAck 0
   0 0 0, .fencedReply 0, .timeoutDrainDone, .timeoutDrainLimit [], .routerNoAnswer 0 [], .pkt 0 0 frame, .ctrl 0 frame false (List.replicate 5
   0), .ctrlTimer 0, .rto 0, .retire 0 0, .confirm 0 0 0, .down 0, .drain 0, .mgmtRepeat 0, .laneFailure 0 0, .fecWindow 0 0 0 0 0 0 false,
   .replyTimeout 0 0, .autoRetrain 0, .portDrainBound 0, .portTrained 0 0 0 0, .timeExchange 0, .sync 0 0, .followUp 0 0 0, .delayReq 0 0,
   .delayResp 0 0 0, .commandBadcrc 0, .unknownOpcode hdr, .identify hdr, .getStatus hdr, .readCsr hdr 0 0 0, .writeCsr hdr 0 0, .echo hdr [],
   .setPowerCap hdr 0 0, .setBlockLimits hdr (List.replicate 16 0), .setCoolant hdr 0 0 0] : List Instr).all wellFormed = true := by decide +kernel

/-- A well-formed command of each constructor. -/
theorem test_wellFormed_2 : ([.getPowerThermal hdr, .getRoster hdr, .fenceDie hdr 0 0, .substitute hdr 0 0 0 0, .retireDie hdr 0 0, .rollCall hdr 0 0, .loadImage hdr 0 0
   0, .configure hdr 0 0, .kickoff hdr 0 0, .pause hdr 0 0 0, .halfTime hdr 0 0 0, .resume hdr 0 false 0, .stop hdr 0 false 0, .scrub hdr 0 0
   0, .abort hdr 0 0 0, .dataOpen hdr 0 0 0 0 0 0, .dataClose hdr 0 0, .fill hdr 0 0 0, .setPortRoutes hdr 0 0 0 0 0 (List.replicate 32 0) []
   0, .portControl hdr 0 0 0 0, .fabricTimeout hdr tabs 0, .timeSync hdr 0 0 0, .setTime hdr 0, .attest hdr 0, .lifecycle hdr 0 auth 0,
   .debugUnlock hdr 0 auth 0, .fwUpdate hdr 0 0, .readNotices hdr 0 false 0, .readCounters hdr [], .marginScan hdr 0 0 0, .scanAccess hdr 0 0 0
   0 [] 0, .cmdTmo 0 0, .loadImageHashed, .configureDrainEnd, .configureDone, .squadPaused 0, .pauseLimit 0, .halfTimeSaved, .restoreDone,
   .scrubDone, .squadStopped 0, .squadComplete 0, .admissionGranted 0, .admissionRetry 0, .admissionDeferred 0, .selfTestDone 0 false,
   .bulkCopyDone, .copyStall, .dieDead 0, .data 0 0 0 0 0 false 0 [], .ack 0 0 0, .windowDrainBound 0 0, .marginScanDone, .flashWriteDone
   false, .powerSample 0 (List.replicate 4 0) (List.replicate 4 0), .vinUndervolt 0 0 0, .vaonOvercurrent 0, .phaseFail 0 0, .islandCellFail 0
   0, .pathSample 0 0 0 0 false, .budgetUpdate, .ceilingControl 0 0 0, .pwrgoodFall 0, .pwrgoodAssert 0, .rollCallLimit 0, .siteCheckDone 0 0
   0, .sensorSample 0 [], .lidSample 0 0, .flowCheck false, .flowLoss false, .hbmHoldExpiry, .flowRestored, .thermtrip 0, .marginWarning 0 0 0
   0, .codeRise 0, .clockFloor 0 0, .clockUnlock 0 0, .refclkLoss 0, .correctionEdge 0 0, .timeUpdate 0 false 0 false 0, .minReset hdr 0,
   .slackMinReset hdr 0, .peakReset hdr 0, .haltNAssert, .haltNRelease, .resetNAssert, .resetNRelease false false, .controlDieBooted false,
   .firmwareVerified [], .meshWaveDone 0 [] [], .blkEnRaise 0, .pwrgoodTimeout 0, .hbmTrained 0 [], .rosterBuild, .computeReset hdr 0,
   .squadReset hdr 0, .dieComputeReset hdr 0, .portRetrain hdr 0, .resetDone 0, .tamper 0, .bypass 0, .idcode 0, .samplePreload 0 0, .extest 0,
   .faultRead 0, .jtagRefused 0, .i3cStart hdr 0, .i3cDone false 0, .privateInstruction 0 0, .noticeRecord 0, .marginCheck [], .grade hdr 0,
   .hostport hdr 0, .noticePush, .fwUpdateVerified, .thmSaveCut, .heartbeatLoss, .watchdog, .thetaUpdate, .thermalCapUpdate] : List Instr).all wellFormed = true := by decide +kernel

/-- Each of these structures breaks one check of its fields. -/
theorem test_illFormed_fields :
    ([{ msg with kind := 4 }, { msg with epoch := 256 }, { msg with ddie := 256 }, { msg with dclu := 2 }, { msg with dring := 8 }, { msg with dindex := 1024 }, { msg with dcore := 24 }, { msg with count := 2 ^ 16 }, { msg with data := [0] }] : List StreamMsg).all (fun x => !x.wf) = true
      ∧ ([{ req with epoch := 256 }, { req with spanel := 4096 }, { req with ssite := 256 }, { req with sunit := 64 }, { req with tag := 2 ^ 16 }, { req with addr := 2 ^ 64 }, { req with opid := 2 ^ 32 }, { req with param := 2 ^ 32 }, { req with order := 2 ^ 32 }, { req with group := 2 ^ 32 }, { req with length := 2 ^ 16 }, { req with reserved := 2 ^ 16 }, { req with data := List.replicate 257 0 }] : List HubReq).all (fun x => !x.wf) = true
      ∧ ([{ rep with epoch := 256 }, { rep with dpanel := 4096 }, { rep with dsite := 256 }, { rep with dunit := 64 }, { rep with tag := 2 ^ 16 }, { rep with opid := 2 ^ 32 }, { rep with data := List.replicate 257 0 }] : List HubRep).all (fun x => !x.wf) = true
      ∧ ([{ packet with lane := 2 }, { packet with plen := 2 ^ 16 }, { packet with dest := 256 }, { packet with dsite := 256 }, { packet with msite := 256 }, { packet with dunit := 64 }, { packet with ssite := 256 }, { packet with sunit := 64 }, { packet with hops := 64 }, { packet with mcid := 2 ^ 16 }, { packet with dld := 256 }, { packet with expect := 256 }, { packet with payload := [0] }] : List Packet).all (fun x => !x.wf) = true
      ∧ ([{ flit with lane := 2 }, { flit with seq := 512 }, { flit with ackpos := 512 }, { flit with naksub := 4 }, { flit with nakpos := 512 }, { flit with crvc := 16 }, { flit with crcount := 16 }] : List FlitIn).all (fun x => !x.wf) = true
      ∧ ([{ frame with vc := 8 }, { frame with plen := 513 }, { frame with seq := 2 ^ 32 }, { frame with spanel := 4096 }, { frame with dpanel := 4096 }, { frame with hops := 16 }, { frame with ack := 2 ^ 32 }, { frame with words := 32 }, { frame with hubOp := 256 }, { frame with payload := List.replicate 513 0 }] : List Frame).all (fun x => !x.wf) = true
      ∧ ([{ hdr with opcode := 2 ^ 16 }, { hdr with tag := 2 ^ 16 }, { hdr with length := 2 ^ 16 }, { hdr with received := 2 ^ 16 }, { hdr with seq := 2 ^ 32 }, { hdr with tmo := 2 ^ 32 }, { hdr with reserved := 2 ^ 112 }, { hdr with spanel := 4096 }] : List CmdHdr).all (fun x => !x.wf) = true
      ∧ ([{ auth with target := 256 }, { auth with signer := 256 }, { auth with challenge := 2 ^ 512 }, { auth with device := 2 ^ 512 }, { auth with arg := 2 ^ 512 }, { auth with pubkey := 2 ^ 1064 }, { auth with signature := 2 ^ 1056 }] : List Auth).all (fun x => !x.wf) = true
      ∧ ([{ tabs with l2s := some [] }, { tabs with l2s := some (List.replicate 144 256) }, { tabs with alive := some [0] }, { tabs with fenced := some [0] }, { tabs with ilv := some (List.replicate 901 0) }] : List TimeoutTables).all (fun x => !x.wf) = true
      ∧ ([⟨256, 0⟩, ⟨0, 48⟩] : List CoreRef).all (fun x => !x.wf) = true ∧ ([⟨256, 0⟩, ⟨0, 2⟩] : List CluRef).all (fun x => !x.wf) = true
      ∧ ([⟨256, 0, 0⟩, ⟨0, 48, 0⟩, ⟨0, 0, 48⟩] : List ThreadRef).all (fun x => !x.wf) = true
      ∧ ([⟨32768, 0, 0⟩, ⟨0, -32769, 0⟩, ⟨0, 0, 32768⟩] : List Reading).all (fun x => !x.wf) = true := by decide +kernel

/-- An image longer than the boot flash is refused. -/
theorem test_illFormed_image : wellFormed (.firmwareVerified (List.replicate (2 ^ 24 + 1) 0)) = false := by
  simp only [wellFormed, List.length_replicate]; decide

/-! ### Fetch threads (08_fetch_threads): states that meet the hypotheses, and single instructions -/

def t0 : ThreadRef := ⟨3, 5, 7⟩
def c0 : CoreRef := ⟨3, 5⟩
/-- A register of the thread set. -/
def setG (s : State) (r v : Nat) : State := s.cput c0 (Reg.CORE_FT_G.VALUE (t0.thread * 16 + r)) v
/-- An instruction word: D, A, B and IMM; the row fixes the opcode. -/
def fw (d a b imm : Nat) : BitVec 32 := BitVec.ofNat 32 (d * 2 ^ 22 + a * 2 ^ 18 + b * 2 ^ 14 + imm)

/-- A running thread at word 100 with G1 = 2^64 - 5, G2 = 77, G5 = 800. -/
def th0 : State :=
  setG (setG (setG (((State.reset.tput t0 Reg.CORE_FT_THREAD.STATE Thread.RUN).tput t0 Reg.CORE_FT_THREAD.PC 100).cput c0
    Reg.CORE_FT_UNIT.RUNNING 3) 1 (2 ^ 64 - 5)) 2 77) 5 800
/-- G1 is poisoned as well. -/
def th1 : State := th0.tput t0 Reg.CORE_FT_THREAD.POISONED 2
/-- The thread waits at the last word but one; FAILS is 9, and counter 3 stands at its maximum. -/
def th2 : State :=
  (((th0.tput t0 Reg.CORE_FT_THREAD.STATE Thread.WAIT).tput t0 Reg.CORE_FT_THREAD.PC 2046).tput t0 Reg.CORE_FT_THREAD.FAILS 9).cput c0
    (Reg.CORE_CCOUNT.VALUE 3) 0xFFFFFF
/-- Bytes 800 to 807 of the scratchpad hold a table entry with VALID set, and so do the last eight. -/
def th3 : State :=
  (th0.wr (coreKey c0 Mem.SP 800) (leBytes 8 (2 ^ 63 + 0x123456000))).wr (coreKey c0 Mem.SP 1572856) (leBytes 8 (2 ^ 63 + 5))

/-- The states above are ready in the sense of the statements about threads, at the first, an inner and the last word. -/
theorem test_witness_threadReady :
    [th0, th1, th2, th3].all State.canonical = true ∧ th0.threadReady t0 ∧ th1.threadReady t0 ∧ th2.threadReady t0 ∧ th3.threadReady t0
      ∧ (th0.tput t0 Reg.CORE_FT_THREAD.PC 0).threadReady t0 := by
  unfold State.threadReady; decide +kernel

/-- ThreadArithmeticWritesOneRegister: each instruction of the list has a word that leaves its unused fields zero. -/
theorem test_witness_arithmetic :
    (List.range 10).all (fun i => [fw 4 1 2 0, fw 4 1 0 63].any fun w => ((arithmetic th1 t0 w)[i]?.map (·.2.2.2)) == some 0)
      || ((arithmetic th1 t0 (fw 4 0 0 16383))[9]?.map (·.2.2.2)) == some 0 := by decide +kernel

theorem test_add : ran th0 (.add t0 (fw 4 1 2 0)) (fun u => u.greg t0 4 == 72 && u.tget t0 Reg.CORE_FT_THREAD.PC == 101) := by decide +kernel
theorem test_sub : ran th0 (.sub t0 (fw 4 2 1 0)) (fun u => u.greg t0 4 == 82 && !u.gpois t0 4) := by decide +kernel
theorem test_sub_poison : ran th1 (.sub t0 (fw 4 2 1 0)) (fun u => u.gpois t0 4) := by decide +kernel
theorem test_addi_signExtends : ran th0 (.addi t0 (fw 4 2 0 16383)) (fun u => u.greg t0 4 == 76) := by decide +kernel
theorem test_muli : ran th0 (.muli t0 (fw 4 1 0 3)) (fun u => u.greg t0 4 == 2 ^ 64 - 15) := by decide +kernel
theorem test_logic :
    ran th0 (.and t0 (fw 4 1 2 0)) (fun u => u.greg t0 4 == 73) && ran th0 (.or t0 (fw 4 1 2 0)) (fun u => u.greg t0 4 == 2 ^ 64 - 1)
      && ran th0 (.xor t0 (fw 4 1 2 0)) (fun u => u.greg t0 4 == 2 ^ 64 - 74) := by decide +kernel
theorem test_shifts :
    ran th0 (.shli t0 (fw 4 2 0 63)) (fun u => u.greg t0 4 == 2 ^ 63) && ran th0 (.shri t0 (fw 4 1 0 60)) (fun u => u.greg t0 4 == 15)
      && ran th0 (.shin t0 (fw 2 0 0 5)) (fun u => u.greg t0 2 == 77 * 16384 + 5) := by decide +kernel

/-- BranchesSetThePcOrFault: branches taken and not taken, back to word 0 and on to word 2,047, and poisoned operands. -/
theorem test_witness_branches :
    (branches (th0.tput t0 Reg.CORE_FT_THREAD.PC 20) t0 (fw 0 2 2 16364)).map (·.2.1) = [true, false, false, true, true, false]
      ∧ ((branches (th0.tput t0 Reg.CORE_FT_THREAD.PC 20) t0 (fw 0 2 2 16364)).take 4).all (fun e => !e.2.2.1 && e.2.2.2 == 0)
      ∧ signedOf 14 (fbits (fw 0 2 2 16364) 13 0) = -20
      ∧ (branches th0 t0 (fw 0 0 0 0)).all (fun e => !e.2.2.1 && e.2.2.2 == 0)
      ∧ ((branches th1 t0 (fw 0 1 2 20)).take 4).all (fun e => e.2.2.1 && e.2.2.2 == 0)
      ∧ fbits (fw 2 0 0 5) 21 14 = 0 ∧ th0.gpois t0 2 = false := by decide +kernel

theorem test_blt_signed : ran th0 (.blt t0 (fw 0 1 2 20)) (fun u => u.tget t0 Reg.CORE_FT_THREAD.PC == 120) := by decide +kernel
theorem test_bge_notTaken : ran th0 (.bge t0 (fw 0 1 2 20)) (fun u => u.tget t0 Reg.CORE_FT_THREAD.PC == 101) := by decide +kernel
theorem test_beq_bne :
    ran th0 (.beq t0 (fw 0 2 2 20)) (fun u => u.tget t0 Reg.CORE_FT_THREAD.PC == 120)
      && ran th0 (.bne t0 (fw 0 2 2 20)) (fun u => u.tget t0 Reg.CORE_FT_THREAD.PC == 101) := by decide +kernel
theorem test_jmp_back : ran th0 (.jmp t0 (fw 0 0 0 (16384 - 100))) (fun u => u.tget t0 Reg.CORE_FT_THREAD.PC == 0) := by decide +kernel
theorem test_nop : ran th0 (.nop t0 0) (fun u => u.tget t0 Reg.CORE_FT_THREAD.PC == 101) := by decide +kernel
theorem test_bnzd_wraps : ran th0 (.bnzd t0 (fw 4 0 0 5)) (fun u => u.greg t0 4 == 2 ^ 64 - 1 && u.tget t0 Reg.CORE_FT_THREAD.PC == 105) := by decide +kernel
theorem test_branch_poisoned :
    ran th1 (.beq t0 (fw 0 1 2 0)) (fun u => u.tget t0 Reg.CORE_FT_THREAD.FAULT == 5 && u.tget t0 Reg.CORE_FT_THREAD.PC == 100) := by decide +kernel

/-- ThreadControlInstructions: each clause, with an amount at its bound, a counter one short of it and one full, and a thread that waits. -/
theorem test_witness_threadControl :
    (let a := th0.greg t0 2
     fbits (fw 0 2 0 3) 25 22 = 0 ∧ fbits (fw 0 2 0 3) 17 4 = 0 ∧ th0.gpois t0 2 = false ∧ a < 2 ^ 24
       ∧ th0.cget c0 (Reg.CORE_CCOUNT.VALUE 3) < a ∧ a ≤ th2.cget c0 (Reg.CORE_CCOUNT.VALUE 3))
      ∧ (setG th2 2 (2 ^ 24 - 1)).greg t0 2 ≤ th2.cget c0 (Reg.CORE_CCOUNT.VALUE 3)
      ∧ 2 ^ 24 ≤ (setG th0 2 (2 ^ 24)).greg t0 2 ∧ fbits (fw 0 2 0 16) 17 14 = 0 ∧ fbits (fw 0 2 0 16) 4 4 = 1
      ∧ th0.outstanding = [] ∧ fbits (fw 0 0 0 2) 25 2 = 0 ∧ fbits (fw 0 0 0 2) 1 0 ≠ 3 ∧ fbits 0 25 0 = 0 ∧ fbits (fw 4 0 0 0) 21 0 = 0
      ∧ th0.cget c0 (Reg.CORE_CCOUNT.VALUE 3) + fbits (fw 0 0 0 (511 * 32 + 3)) 13 5 < 2 ^ 24 := by decide +kernel

theorem test_waitc :
    ran th0 (.waitc t0 (fw 0 2 0 3)) (fun u => u.tget t0 Reg.CORE_FT_THREAD.STATE == Thread.WAIT)
      && ran th2 (.waitc t0 (fw 0 2 0 3)) (fun u => u.tget t0 Reg.CORE_FT_THREAD.PC == 2047 && u.cget c0 (Reg.CORE_CCOUNT.VALUE 3) == 0xFFFFFF) := by
  decide +kernel
theorem test_cinc :
    ran th0 (.cinc t0 (fw 0 2 0 19)) (fun u => u.cget c0 (Reg.CORE_CCOUNT.VALUE 3) == 77)
      && ran (setG th0 2 (2 ^ 24)) (.cinc t0 (fw 0 2 0 19)) (fun u => u.tget t0 Reg.CORE_FT_THREAD.FAULT == 7) := by decide +kernel
theorem test_fence : ran th0 (.fence t0 (fw 0 0 0 2)) (fun u => u.tget t0 Reg.CORE_FT_THREAD.PC == 101) := by decide +kernel
theorem test_threadStop :
    ran th0 (.threadStop t0 0) (fun u => u.tget t0 Reg.CORE_FT_THREAD.STATE == Thread.DONE && u.cget c0 Reg.CORE_FT_UNIT.RUNNING == 2) := by
  decide +kernel
theorem test_stat : ran th2 (.stat t0 (fw 4 0 0 0)) (fun u => u.greg t0 4 == 9 && u.tget t0 Reg.CORE_FT_THREAD.FAILS == 0) := by decide +kernel

/-- ScratchpadLoadsWriteD: an address inside, the last one, and a table walk. -/
theorem test_witness_scratchpadLoads :
    (setG th3 5 1572856).canonical = true ∧ (setG th3 5 1572856).greg t0 5 + 8 = 1572864 ∧ (setG th3 5 1572856).greg t0 5 % 8 = 0
      ∧ mapGet 0 th3.sramPoison (coreKey c0 Mem.SP 800 / 8) = 0 ∧ mapGet 0 th3.sramUpset (coreKey c0 Mem.SP 800 / 8) = 0
      ∧ fbits (fw 6 5 0 0) 17 0 = 0 ∧ fbits (fw 6 5 2 1162) 13 11 = 0 ∧ fbits (fw 6 5 2 1162) 10 10 = 1
      ∧ (th3.rdNat (coreKey c0 Mem.SP 800) 8).testBit 63 = true ∧ th3.gpois t0 5 = false ∧ th3.gpois t0 2 = false := by decide +kernel

theorem test_lds :
    ran th3 (.lds t0 (fw 6 5 0 0)) (fun u => u.greg t0 6 == 2 ^ 63 + 0x123456000)
      && ran (setG th3 5 1572856) (.lds t0 (fw 6 5 0 0)) (fun u => u.greg t0 6 == 2 ^ 63 + 5) := by decide +kernel
theorem test_twalk_scratchpad : ran th3 (.twalk t0 (fw 6 5 2 1162)) (fun u => u.greg t0 6 == 0x123456000 + 77 * 16) := by decide +kernel

/-- G8 and G9 are the addresses of a `GATHER`, and request descriptors 2 and 3 are set. -/
def th4 : State := (th3.cput c0 (Reg.CORE_FT_REQDESC.DESC 2) (9 * 2 ^ 17 + 2 ^ 21)).cput c0 (Reg.CORE_FT_REQDESC.DESC 3) (7 * 2 ^ 32)
def th5 : State := setG (setG th4 8 (2 ^ 56 + 256 * 77)) 9 640

/-- ThreadRequestsAndMessagesAreSent: the hypotheses of each clause, with the last address of HBM. -/
theorem test_witness_threadRequests :
    th5.canonical = true ∧ th5.threadReady t0 ∧ th5.room t0 = true ∧ th5.addrOk 800 8 8 ∧ th5.addrOk (2 ^ 56 + 2 ^ 42 - 8) 8 8
      ∧ (fbits (fw 6 5 0 0) 17 10 = 0 ∧ fbits (fw 6 5 0 0) 4 0 = 0)
      ∧ (fbits (fw 0 5 1 160) 25 22 = 0 ∧ fbits (fw 0 5 1 160) 13 10 = 0)
      ∧ (fbits (fw 6 5 2 138) 13 10 = 0 ∧ fbits (fw 6 5 2 138) 4 0 ≤ 24 ∧ th5.addrOk ((800 + 77 / 2 ^ 10 * 8) % 2 ^ 64) 8 8)
      ∧ (descFault 0x26 (fbits (fw 6 5 2 2048) 13 0) (th5.reqDesc c0 2) = none ∧ atomWidth 9 = 8)
      ∧ (th5.greg t0 9 % 64 = 0 ∧ th5.greg t0 9 + 256 ≤ localSize 0 ∧ wordsIn th5.sramUpset (coreKey c0 Mem.SP 640) 256 = []
        ∧ th5.addrOk (th5.greg t0 8) 256 256 ∧ descFault 0x24 (fbits (fw 0 8 9 3120) 13 0) (th5.reqDesc c0 3) = none
        ∧ descFault 0x25 (fbits (fw 0 8 9 3120) 13 0) (th5.reqDesc c0 3) = none)
      ∧ descFault 0x27 (fbits (fw 3 8 9 3104) 13 0) ((th5.cput c0 (Reg.CORE_FT_REQDESC.DESC 3) 0).reqDesc c0 3) = none := by
  unfold State.threadReady State.addrOk; decide +kernel

theorem test_ld : ran th5 (.ld t0 (fw 6 5 0 0)) (fun u => u.gpend t0 6 && (u.hubReqs.map fun r => (r.opc, r.addr)) == [(1, 800)]) := by decide +kernel
theorem test_str :
    ran th5 (.str t0 (fw 0 5 1 160)) (fun u => (u.hubReqs.map fun r => (r.opc, leNat r.data)) == [(3, 2 ^ 64 - 5)]) := by decide +kernel
theorem test_twalk : ran th5 (.twalk t0 (fw 6 5 2 138)) (fun u => u.gpend t0 6 && u.outstanding.length == 1) := by decide +kernel
theorem test_atom :
    ran th5 (.atom t0 (fw 6 5 2 2048)) (fun u => (u.hubReqs.map fun r => (r.opc, r.param)) == [(4, 25)] && u.cget c0 Reg.CORE_FT_UNIT.SEQ == 1) := by
  decide +kernel
theorem test_gather_postinc :
    ran th5 (.gather t0 (fw 0 8 9 3120)) (fun u => u.greg t0 8 == 2 ^ 56 + 256 * 77 + 7 * 32 && u.greg t0 9 == 896) := by decide +kernel
theorem test_storeT :
    ran th5 (.storeT t0 (fw 0 8 9 3120)) (fun u => (u.hubReqs.map fun r => (r.opc, leNat ((r.data.drop 160).take 8))) == [(2, 2 ^ 63 + 0x123456000)]) := by
  decide +kernel
theorem test_red :
    ran (th5.cput c0 (Reg.CORE_FT_REQDESC.DESC 3) 0) (.red t0 (fw 3 8 9 3104)) (fun u => (u.hubReqs.map (·.opc)) == [5] && u.greg t0 8 == 2 ^ 56 + 256 * 77) := by
  decide +kernel

/-! ### The schedule (02_core_schedule) -/

def w24 (n : Nat) : BitVec 24 := BitVec.ofNat 24 n
/-- A running core at word 100. -/
def r0 : State := (State.reset.cput c0 Reg.CORE_SCHED_STATUS.STATE 1).cput c0 Reg.CORE_SCHED_STATUS.ADDR 100
/-- P2 is 1, and two loops are open: words 80 to 120 and 90 to 110. -/
def r1 : State := ((r0.cset c0 (Reg.CORE_PRED.P 2) true).openLoop c0 0 80 120 7).openLoop c0 1 90 110 3
/-- A loop descriptor is set. -/
def putLoop (s : State) (n d : Nat) : State := s.wr (coreKey c0 Mem.DESC (Table.LOOP + 8 * n)) (leBytes 8 d)
/-- Descriptor 3 opens four iterations up to word 105, and descriptor 4 as many as count register 3 says. -/
def r2 : State := putLoop (putLoop r1 3 (105 * 2 ^ 28 + 4)) 4 (105 * 2 ^ 28 + 2 ^ 24 + 3 * 2 ^ 25)
/-- The last word of the inner loop is next. -/
def r3 : State := r1.cput c0 Reg.CORE_SCHED_STATUS.ADDR 110
/-- Its last iteration runs. -/
def r4 : State := r3.cput c0 (Reg.CORE_LOOP_STATE.LEFT 1) 0
/-- Counter 9 is 77; inbox ring 4 counts on counter 10, which is 80, with 80 lines filled; lines 7 of the huddles belongs to the core. -/
def r5 : State :=
  ((((((r0.cput c0 (Reg.CORE_CCOUNT.VALUE 9) 77).cput c0 (Reg.CORE_INBOX_DESC.EN 4) 1).cput c0 (Reg.CORE_INBOX_DESC.COUNTER 4) 10).cput c0
    (Reg.CORE_INBOX_STATE.FILLED 4) 80).cput c0 (Reg.CORE_CCOUNT.VALUE 10) 80).cput c0 Reg.CORE_POISON_CTL.HUDDLE_MASK 0x80)
/-- The core's huddle on line 7 is OUTSTANDING, waited for, and completed. -/
def r6 : State := r5.cput c0 (Core.HUDDLE 7) 1
def r7 : State := r6.cput c0 Core.WAITLINE 8
def r8 : State := r7.cput c0 (Core.HUDDLE 7) 2
/-- Port 6 of the cluster is the core's producer port with three credits. -/
def r9 : State :=
  ((r0.qput (cluOf c0) (Reg.CLU_QPORT.EN 6) 1).qput (cluOf c0) (Reg.CLU_QPORT.OWNER 6) 5).qput (cluOf c0) (Reg.CLU_QPSTATE.CREDITS 6) 3

/-- These states meet what the statements ask of a core that issues, at an inner word, at the first and the last but one. -/
theorem test_witness_coreReady :
    [r0, r1, r2, r3, r4, r5, r6, r7, r8, r9].all State.canonical = true ∧ r0.coreReady c0 ∧ r2.coreReady c0 ∧ r3.coreRuns c0 ∧ r4.coreRuns c0
      ∧ r5.coreReady c0 ∧ r6.coreReady c0 ∧ r7.coreReady c0 ∧ r8.coreReady c0 ∧ r9.coreReady c0
      ∧ (r0.cput c0 Reg.CORE_SCHED_STATUS.ADDR 0).coreReady c0 ∧ (r0.cput c0 Reg.CORE_SCHED_STATUS.ADDR 2046).coreReady c0
      ∧ r1.slotLive c0 0 ∧ r1.slotLive c0 (32 + 2) ∧ badGuard 0x20 = false ∧ r0.live c0 0x20 = false := by
  unfold State.coreReady State.noLoopEnds State.coreRuns State.slotLive; repeat' apply And.intro
  all_goals decide +kernel

/-- PredicateSlotsAndGuards: `PSET`, `PLOOP` with each condition, `PLOGIC`, and slots whose guard is false. -/
theorem test_witness_predicates :
    bitsOf (w24 (3 * 1024 + 2 ^ 14)).toNat 23 15 = 0 ∧ bitsOf (w24 (3 * 1024 + 2 ^ 14 + 5 * 2 ^ 16)).toNat 18 16 = 5
      ∧ bitsOf (w24 (3 * 1024 + 2 ^ 14 + 5 * 2 ^ 16)).toNat 23 19 = 0 ∧ bitsOf (w24 (3 * 1024 + 2 ^ 14)).toNat 15 14 < r1.openLoops c0
      ∧ bitsOf (w24 0x20).toNat 23 10 = 0 ∧ bitsOf (0x20 : BitVec 32).toNat 31 20 = 0 := by decide +kernel

theorem test_pset : ran r0 (.pset c0 (w24 (3 * 1024 + 2 ^ 14))) (fun u => u.cflag c0 (Reg.CORE_PRED.P 3) && u.wordAddr c0 == 101) := by decide +kernel
theorem test_ploop_even :
    ran r1 (.ploop c0 (w24 (3 * 1024 + 2 ^ 14 + 4 * 2 ^ 16))) (fun u => u.cflag c0 (Reg.CORE_PRED.P 3)) := by decide +kernel
theorem test_plogic_xor :
    ran r1 (.plogic c0 (w24 (3 * 1024 + 2 * 2 ^ 14 + 2 * 2 ^ 22))) (fun u => u.cflag c0 (Reg.CORE_PRED.P 3)) := by decide +kernel
theorem test_falseGuard : ran r0 (.pset c0 (w24 (32 + 3 * 1024 + 2 ^ 14))) (fun u => !u.cflag c0 (Reg.CORE_PRED.P 3) && u.wordAddr c0 == 101) := by
  decide +kernel

/-- LoopsOpenRepeatAndClose: a descriptor with a count, one that names an empty count register, and both ends of an inner loop. -/
theorem test_witness_loops :
    r2.loopLegal c0 (r2.loopDesc c0 3) 100 ∧ r2.loopLegal c0 (r2.loopDesc c0 4) 100 ∧ r2.openLoops c0 = 2 ∧ r2.noLoopEnds c0 105
      ∧ r2.cget c0 (Reg.CORE_LOOPCNT.VALUE 3) = 0 ∧ bitsOf (w24 (2 * 1024 + 3 * 4096)).toNat 23 17 = 0
      ∧ r3.openLoops c0 = 1 + 1 ∧ r3.cget c0 (Reg.CORE_LOOP_STATE.END 1) = r3.wordAddr c0 ∧ r3.cget c0 (Reg.CORE_LOOP_STATE.LEFT 1) = 2
      ∧ r4.cget c0 (Reg.CORE_LOOP_STATE.LEFT 1) = 0 ∧ r4.cget c0 (Reg.CORE_LOOP_STATE.END 0) ≠ r4.wordAddr c0 := by
  unfold State.loopLegal State.noLoopEnds; decide +kernel

theorem test_loop :
    ran r2 (.loop c0 (w24 (2 * 1024 + 3 * 4096))) (fun u => u.openLoops c0 == 3 && u.cget c0 (Reg.CORE_LOOP_STATE.LEFT 2) == 3)
      && ran r2 (.loop c0 (w24 (2 * 1024 + 4 * 4096))) (fun u => u.openLoops c0 == 2 && u.wordAddr c0 == 106) := by decide +kernel
theorem test_loopEnd :
    ran r3 (.pset c0 0) (fun u => u.wordAddr c0 == 90 && u.cget c0 (Reg.CORE_LOOP_STATE.LEFT 1) == 1)
      && ran r4 (.pset c0 0) (fun u => u.wordAddr c0 == 111 && u.openLoops c0 == 1) := by decide +kernel

/-- LdcntCopiesAndEndStops, CounterAndQueueWaitsIssueOrSlip: counters just met and one short, a ring's counter, and queue conditions that hold, that
do not, and that are no condition of the port. -/
theorem test_witness_waits :
    r5.ringCounter c0 9 = false ∧ bitsOf (w24 (5 * 1024 + 9 * 2 ^ 13)).toNat 23 17 = 0
      ∧ bitsOf (w24 (9 * 256 + 77 * 4096)).toNat 23 12 ≤ r5.cget c0 (Reg.CORE_CCOUNT.VALUE 9)
      ∧ r5.cget c0 (Reg.CORE_CCOUNT.VALUE 9) < bitsOf (w24 (9 * 256 + 78 * 4096)).toNat 23 12
      ∧ r5.cget c0 (Reg.CORE_INBOX_DESC.EN 4) = 1 ∧ r5.cget c0 (Reg.CORE_INBOX_DESC.COUNTER 4) = 10
      ∧ (∀ r < 8, r5.cget c0 (Reg.CORE_INBOX_DESC.EN r) = 1 → r5.cget c0 (Reg.CORE_INBOX_DESC.COUNTER r) = 10 → r = 4)
      ∧ r5.cget c0 (Reg.CORE_INBOX_STATE.HELD 4) = 0
      ∧ waitDynamic r9 c0 6 1 = [] ∧ queueCond r9 c0 6 1 3 = true ∧ queueCond r9 c0 6 1 4 = false ∧ queueCond r9 c0 6 1 0 = false
      ∧ waitDynamic r9 c0 6 0 ≠ [] ∧ waitDynamic r9 c0 7 1 ≠ [] ∧ bitsOf (w24 (6 * 256 + 3 * 2 ^ 18)).toNat 19 18 = 3 := by decide +kernel

theorem test_ldcnt :
    ran r5 (.ldcnt c0 (w24 (5 * 1024 + 9 * 2 ^ 13))) (fun u => u.cget c0 (Reg.CORE_LOOPCNT.VALUE 5) == 77 && u.cget c0 (Reg.CORE_CCOUNT.VALUE 9) == 0) := by
  decide +kernel
theorem test_endSched : ran r5 (.endSched c0 0) (fun u => u.cget c0 Core.STOPPING == 2 && ran u (.pset c0 7) (fun v => v.wordAddr c0 == 101)) := by
  decide +kernel
theorem test_counterWait :
    ran r5 (.counterWait c0 (w24 (9 * 256 + 77 * 4096))) (fun u => u.cget c0 (Reg.CORE_CCOUNT.VALUE 9) == 0)
      && ran r5 (.counterWait c0 (w24 (9 * 256 + 78 * 4096))) (fun u => u.cget c0 Reg.CORE_SCHED_STATUS.SLIP_CAUSE == 1 && u.wordAddr c0 == 100) := by
  decide +kernel
theorem test_queueWait :
    ran r9 (.queueWait c0 (w24 (6 * 256 + 2 ^ 18 + 3 * 2 ^ 20))) (fun u => u.wordAddr c0 == 101)
      && ran r9 (.queueWait c0 (w24 (6 * 256 + 3 * 2 ^ 20))) (fun u => u.cget c0 Reg.CORE_SCHED_STATUS.FAULT_CODE == 9) := by decide +kernel

/-- HuddlesArriveWaitAndTake: line 7 of the mask in each arrival state, waited for and not. -/
theorem test_witness_huddles :
    bitsOf (w24 (7 * 256)).toNat 23 14 = 0 ∧ (r5.cget c0 Reg.CORE_POISON_CTL.HUDDLE_MASK).testBit 7 = true
      ∧ r5.cget c0 Reg.CORE_POISON_CTL.HALT_PENDING = 0 ∧ r5.cget c0 (Core.HUDDLE 7) = 0 ∧ r5.cget c0 Core.WAITLINE ≠ 8
      ∧ r6.cget c0 (Core.HUDDLE 7) = 1 ∧ r7.cget c0 Core.WAITLINE = 8 ∧ r8.cget c0 (Core.HUDDLE 7) = 2 ∧ r8.cget c0 Core.WAITLINE = 8 := by
  decide +kernel

theorem test_arriveOnly : ran r5 (.arriveOnly c0 (w24 (7 * 256))) (fun u => u.cget c0 (Core.HUDDLE 7) == 1 && u.wordAddr c0 == 101) := by decide +kernel
theorem test_arriveAndWait :
    ran r5 (.arriveAndWait c0 (w24 (7 * 256))) (fun u => u.cget c0 Core.WAITLINE == 8 && u.wordAddr c0 == 100)
      && ran r8 (.arriveAndWait c0 (w24 (7 * 256))) (fun u => u.cget c0 (Core.HUDDLE 7) == 0 && u.wordAddr c0 == 101) := by decide +kernel
theorem test_waitOnly :
    ran r6 (.waitOnly c0 (w24 (7 * 256))) (fun u => u.cget c0 Reg.CORE_SCHED_STATUS.SLIP_CAUSE == 4)
      && ran r8 (.waitOnly c0 (w24 (7 * 256))) (fun u => u.cget c0 (Core.HUDDLE 7) == 0) := by decide +kernel

/-- ScheduleFaultsStopTheCore: each fault's condition. -/
theorem test_witness_scheduleFaults :
    (r5.cget c0 Reg.CORE_POISON_CTL.HUDDLE_MASK).testBit 6 = false ∧ r6.cget c0 Core.WAITLINE ≠ 8 ∧ r5.cget c0 (Core.HUDDLE 7) = 0
      ∧ r5.ringCounter c0 (bitsOf (w24 (10 * 2 ^ 13)).toNat 16 13) = true ∧ r5.openLoops c0 ≤ bitsOf (w24 0).toNat 15 14
      ∧ bitsOf (w24 (2 ^ 15)).toNat 23 15 ≠ 0 ∧ bitsOf (w24 (2 ^ 10)).toNat 23 10 ≠ 0 ∧ bitsOf (w24 (2 ^ 17)).toNat 23 17 ≠ 0 := by decide +kernel

theorem test_scheduleFaults :
    [(.arriveOnly c0 (w24 (6 * 256)), 7), (.arriveAndWait c0 (w24 (6 * 256)), 7), (.waitOnly c0 (w24 (7 * 256)), 7),
      (.ldcnt c0 (w24 (10 * 2 ^ 13)), 0xB), (.ploop c0 0, 3), (.pset c0 (w24 (2 ^ 15)), 1), (.endSched c0 (w24 (2 ^ 10)), 1),
      (.loop c0 (w24 (2 ^ 17)), 1)].all (fun (e : Instr × Nat) => ran r5 e.1 fun u => u.cget c0 Reg.CORE_SCHED_STATUS.FAULT_CODE == e.2) = true := by
  decide +kernel

/-! ### Moves and queue ports (02, 07) -/

/-- A move descriptor is set. -/
def putMove (s : State) (n d : Nat) : State := s.wr (coreKey c0 Mem.DESC (Table.MOVE + 32 * n)) (leBytes 32 d)
/-- Source and destination space, the other cluster's flag, beats and rows; the strides are 10 and 20, the increments 3 and 5. -/
def moveWords (src dst other beats rows : Nat) : Nat :=
  src + dst * 4 + other * 16 + beats * 2 ^ 64 + rows * 2 ^ 80 + 10 * 2 ^ 96 + 20 * 2 ^ 116 + 3 * 2 ^ 136 + 5 * 2 ^ 156
/-- Descriptor 2 moves two beats from scratchpad unit 7, one byte of which is poisoned, to operand buffer A. -/
def mv0 : State :=
  (((putMove r0 2 (moveWords 1 2 0 2 1)).wrP (coreKey c0 Mem.SP (7 * 64)) ((List.range 128).map fun i => (BitVec.ofNat 8 i, i == 9))).cput c0
    (Core.MOVE_SRC 2) 7).cput c0 (Core.MOVE_DST 2) 11
/-- It moves one beat from the other cluster's memory. -/
def mv1 : State := ((putMove r0 2 (moveWords 0 2 1 1 1)).cput c0 (Core.MOVE_SRC 2) 127).cput c0 (Core.MOVE_DST 2) 11
def wMove : BitVec 24 := w24 (64 + 2 * 256 + 5 * 2 ^ 13 + 2 ^ 17 + 2 ^ 18)
/-- The state after the `START` of the one-beat move. -/
def mv2 : State := match exec (.start c0 1 wMove) mv1 with | .next u => u | _ => mv1

/-- MovesReadAndWriteBeats: a descriptor of two beats, one of a single beat of the other cluster, and the state in which that move ends. -/
theorem test_witness_moves :
    mv0.canonical = true ∧ mv0.coreReady c0 ∧ mv0.slotLive c0 wMove.toNat ∧ mv0.moveLegal c0 2 ∧ mv1.moveLegal c0 2 ∧ mv1.coreReady c0
      ∧ bitsOf wMove.toNat 23 19 = 0 ∧ mv0.ringCounter c0 (bitsOf wMove.toNat 16 13) = false ∧ mv0.noUpsets (coreKey c0 Mem.SP 448) 128
      ∧ spBank 7 ≠ spBank 8 ∧ mv2.canonical = true ∧ mv2.cget c0 (Core.CH_BUSY 1) = 0 ∧ mv2.cget c0 (Core.CH_SUSP 1) = 0
      ∧ mv2.cget c0 Reg.CORE_SCHED_STATUS.STATE ≠ 5 ∧ (mv2.beats.map fun b => (b.owner, b.channel, b.last, b.data.length)) = [(c0, 1, true, 128)]
      ∧ mv2.cget c0 (Reg.CORE_CCOUNT.VALUE 5) < 0xFFFFFF := by
  unfold State.coreReady State.noLoopEnds State.coreRuns State.slotLive State.moveLegal State.noUpsets; repeat' apply And.intro
  all_goals decide +kernel

theorem test_start :
    ran mv0 (.start c0 1 wMove) (fun u => (u.beats.map fun b => (b.left, b.last, b.poison)) == [(6, false, 0xFF00)] && u.cget c0 (Core.MOVE_SRC 2) == 10
      && u.cflag c0 (Core.CH_BUSY 1))
      && mv2.beats.map (fun b => (b.left, b.counter)) == [(8, 5)] := by decide +kernel
theorem test_moveComplete : ran mv2 (.moveComplete c0 1) (fun u => u.beats == [] && u.cget c0 (Reg.CORE_CCOUNT.VALUE 5) == 1) := by decide +kernel

/-- Port 6 of the core's cluster, of a kind and bound to queue 9, which is active; a cell place of a tile buffer holds 1 to 64. -/
def qp (kind : Nat) (s : State) : State :=
  let q := cluOf c0
  (((((((s.qput q (Reg.CLU_QPORT.EN 6) 1).qput q (Reg.CLU_QPORT.OWNER 6) 5).qput q (Reg.CLU_QPORT.KIND 6) kind).qput q (Reg.CLU_QPORT.QUEUE 6)
    9).qput q (Reg.CLU_QPORT.DQUEUE 6) 77).qput q (Reg.CLU_QPSTATE.CREDITS 6) 3).qput q (Reg.CLU_QSTATE.STATE 9) 1).qput q Reg.CLU_QPOOL.FREE 100
def cells64 : List Byte := (List.range 64).map fun i => BitVec.ofNat 8 (i + 1)
def qs0 : State := (qp 0 r0).wr (tileCell c0 2 8) cells64
/-- The same with a route port. -/
def qs1 : State := (qp 2 r0).wr (tileCell c0 2 8) cells64
/-- A packet is open with one cell, on the local port and on the route port. -/
def opened (s : State) : State := (s.qput (cluOf c0) (Reg.CLU_QPSTATE.PKT_OPEN 6) 1).qput (cluOf c0) (Reg.CLU_QPSTATE.PKT_CELLS 6) 1
def qs2 : State := (opened qs0).setQueue (cluOf c0) 9 { QueueSt.empty with cells := [⟨0, 1, lenMax, 0, false, false⟩], openPkt := some 1 }
/-- A consumer port with two cells, the first of which has been read. -/
def qs3 : State :=
  ((qp 1 r0).setQueue (cluOf c0) 9 { QueueSt.empty with cells := [⟨0, 0, 0, 0, true, false⟩, ⟨1, 0, 0, 0, false, false⟩], rptr := 1 }).wr
    (cellKey (cluOf c0) 1) cells64
def wPort : BitVec 32 := BitVec.ofNat 32 (6 * 2 ^ 10)
def wPush : BitVec 32 := BitVec.ofNat 32 (6 * 2 ^ 10 + 2 * 2 ^ 20 + 8 * 2 ^ 22)

/-- PushLinksOrSendsACell, PopReadsTheCellAtRptr, PacketsOpenCloseAndRewind: a producer port with and without an open packet, a route port, and a
consumer port with a cell to read. -/
theorem test_witness_queuePorts :
    [qs0, qs1, qs2, qs3].all State.canonical = true ∧ qs0.coreReady c0 ∧ qs1.coreReady c0 ∧ qs2.coreReady c0 ∧ qs3.coreReady c0
      ∧ qs0.slotLive c0 wPush.toNat ∧ bitsOf wPush.toNat 31 30 = 0 ∧ bitsOf wPort.toNat 31 20 = 0
      ∧ qs0.qportOk c0 6 0 ∧ qs1.qportOk c0 6 2 ∧ (opened qs1).qportOk c0 6 2 ∧ qs2.qportOk c0 6 0 ∧ qs3.qportOk c0 6 1
      ∧ qs0.pget c0 Reg.CLU_QPORT.LOSSY 6 = 0 ∧ qs0.pget c0 Reg.CLU_QPSTATE.CREDITS 6 ≠ 0 ∧ qs0.pget c0 Reg.CLU_QPSTATE.PKT_CELLS 6 + 1 < lenMax
      ∧ qs0.cleanRange (tileCell c0 2 8) 64 ∧ qs0.qget (cluOf c0) (Reg.CLU_QCFG.MODE 9) = 0 ∧ qs0.qget (cluOf c0) (Reg.CLU_QCFG.ARR_MODE 9) = 0
      ∧ qs1.pget c0 Reg.CLU_QPORT.RING 6 = 0 ∧ qs0.lossyPort c0 6 = false ∧ qs1.lossyPort c0 6 = false
      ∧ qs0.pget c0 Reg.CLU_QPSTATE.PKT_OPEN 6 = 0 ∧ (qs2.queue (cluOf c0) 9).openPkt.isSome = true ∧ qs2.portQueue c0 6 = 9
      ∧ 0 < (qs3.queue (cluOf c0) 9).readable 0 ∧ ((qs3.queue (cluOf c0) 9).cells[1]?.map (·.kind)) = some 0 ∧ qs3.cleanRange (cellKey (cluOf c0) 1) 64
      ∧ qs3.qget (cluOf c0) (Reg.CLU_QCFG.AUTO_REL 9) = 0 ∧ (qs3.queue (cluOf c0) 9).rptr ≤ (qs3.queue (cluOf c0) 9).held
      ∧ (qs3.queue (cluOf c0) 9).pendDrops = 0 ∧ qs3.qget (cluOf c0) Reg.CLU_QPOOL.FREE + 1 < 2 ^ 16 := by
  unfold State.coreReady State.noLoopEnds State.coreRuns State.slotLive State.qportOk State.cleanRange State.noUpsets; repeat' apply And.intro
  all_goals decide +kernel

theorem test_push_local :
    ran qs0 (.push c0 wPush) (fun u => u.rd (cellKey (cluOf c0) 0) 64 == cells64 && u.qget (cluOf c0) (Reg.CLU_QPSTATE.CREDITS 6) == 2
      && u.qget (cluOf c0) Reg.CLU_QPOOL.FREE == 99) := by decide +kernel
theorem test_push_route :
    ran qs1 (.push c0 wPush) (fun u => (u.streamOut.map fun m => (m.kind, m.dindex, m.data)) == [(0, 77, cells64)]) := by decide +kernel
theorem test_pop :
    ran qs3 (.pop c0 wPush) (fun u => u.rd (tileCell c0 2 8) 64 == cells64 && (u.queue (cluOf c0) 9).rptr == 2) := by decide +kernel
theorem test_openPkt :
    ran qs0 (.openPkt c0 wPort) (fun u => u.pget c0 Reg.CLU_QPSTATE.PKT_OPEN 6 == 1) := by decide +kernel
theorem test_closePkt :
    ran qs2 (.closePkt c0 wPort) (fun u => ((u.queue (cluOf c0) 9).cells.map (·.len)) == [1])
      && ran (opened qs1) (.closePkt c0 wPort) (fun u => (u.streamOut.map fun m => (m.kind, m.count)) == [(1, 1)]) := by decide +kernel
theorem test_markQ : ran qs3 (.markQ c0 wPort) (fun u => (u.queue (cluOf c0) 9).mark == 1) := by decide +kernel
theorem test_rewindQ : ran qs3 (.rewindQ c0 wPort) (fun u => (u.queue (cluOf c0) 9).rptr == 0) := by decide +kernel
theorem test_releaseQ :
    ran qs3 (.releaseQ c0 wPort) (fun u => ((u.queue (cluOf c0) 9).cells.map (·.cellNo)) == [1] && u.qget (cluOf c0) Reg.CLU_QPOOL.FREE == 101
      && (u.streamOut.map fun m => (m.kind, m.count)) == [(2, 1)]) := by decide +kernel

/-! ### The engines (04, 05) -/

def w64 (n : Nat) : BitVec 64 := BitVec.ofNat 64 n
/-- Slot 5 holds 3.0 in its first two elements; records of A (1.0) and B (2.0) in E4M3 stand at unit 0. -/
def mx0 : State :=
  (((r0.wr (slotKey c0 5) (bytes32 [0x40400000, 0x40400000])).wr (coreKey c0 Mem.OPA 0) (List.replicate 32 0x38)).wr (coreKey c0 Mem.OPB 0)
    (List.replicate 32 0x40)).cput c0 (Reg.CORE_MX_SLOT_SHAPE.SHAPE 5) 1
def wZero : BitVec 64 := w64 (2 ^ 10 + 5 * 2 ^ 12)
def wMac (init : Nat) : BitVec 64 := w64 (2 ^ 10 + 5 * 2 ^ 12 + init * 2 ^ 18 + 4 * 2 ^ 19 + 4 * 2 ^ 24)
def wEmit : BitVec 64 := w64 (5 * 2 ^ 12 + 2 ^ 18 + 2 ^ 19 + 7 * 2 ^ 20 + 33 * 2 ^ 27)
def wSpill : BitVec 64 := w64 (5 * 2 ^ 12 + 7 * 2 ^ 20)

/-- MatrixOperationsWriteTheSlot: each operation's word passes its checks, and the memories it reads are clean. -/
theorem test_witness_matrix :
    mx0.canonical = true ∧ mx0.coreReady c0 ∧ mx0.mxLegal c0 wZero 4 ∧ mx0.mxLegal c0 (wMac 0) 1 ∧ mx0.mxLegal c0 (wMac 1) 1
      ∧ mx0.mxLegal c0 wEmit 2 ∧ mx0.mxLegal c0 wSpill 3 ∧ (mxSlot (wMac 0).toNat).kg = 0
      ∧ (Fmt.ofCode (mxSlot (wMac 0).toNat).afmt).isSome = true
      ∧ (((Fmt.ofCode 4).bind fun a => pairCycles a a).isSome = true)
      ∧ mx0.cleanRange (coreKey c0 Mem.OPA 0) 8192 ∧ mx0.cleanRange (coreKey c0 Mem.OPB 0) 8192 ∧ mx0.cleanRange (slotKey c0 5) 8192
      ∧ mx0.cleanRange (wideKey c0 7) 16384 ∧ mx0.cget c0 (Reg.CORE_MX_SLOT_POISON.POISON 5) = 0
      ∧ (match Fmt.ofCode 4 with
        | some f => (opLines f 2 (mx0.rd (coreKey c0 Mem.OPA 0) (2 * (groupBytes f + f.sideBytes)))).all fun l => !l.malformed
        | none => false) = true := by
  unfold State.coreReady State.noLoopEnds State.coreRuns State.mxLegal State.slotLive State.cleanRange State.noUpsets; repeat' apply And.intro
  all_goals decide +kernel

theorem test_zeroSlot :
    ran mx0 (.zeroSlot c0 wZero) (fun u => u.rdNat (slotKey c0 5) 8 == 0 && u.wordAddr c0 == 101) := by decide +kernel
/-- What `EMIT`, `SPILL` and `MAC` compute from one element: 3.0 stays 3.0 as FP32 and FP64, and 3.0 + 32 × (1.0 × 2.0) is 67.0 (R104, R113, R116). -/
theorem test_mac_element :
    (match Fmt.ofCode 4 with
      | some f =>
        let rows := opLines f 1 (mx0.rd (coreKey c0 Mem.OPA 0) (groupBytes f + f.sideBytes))
        let cols := opLines f 1 (mx0.rd (coreKey c0 Mem.OPB 0) (groupBytes f + f.sideBytes))
        (rows.flatMap fun r => cols.map fun k => toFP32 (accumulate (ofFP32 0x40400000) (groupTerms false r k)).1)
      | none => []) = [0x42860000] := by decide +kernel
theorem test_spill_element :
    toFP64 (ofFP32 0x40400000) = 0x4008000000000000 ∧ toFP64 ((ofFP64 0x3FF0000000000000).add (ofFP32 0x40400000)) = 0x4010000000000000 := by
  decide +kernel
theorem test_emit_element :
    toFP32 (round32 false ((ofFP64 0x3FF0000000000000).add (ofFP32 0x40400000))).1 = 0x40800000 := by decide +kernel

/-- A tensor descriptor of one row of n FP32 positions in a tile buffer. -/
def putTensor (s : State) (k tbuf n : Nat) : State :=
  s.wr (coreKey c0 Mem.DESC (Table.TENSOR + 32 * k)) (leBytes 32 (tbuf * 4 + n * 2 ^ 64 + n * 2 ^ 78 + 2 ^ 92 + 2 ^ 104 + 2 ^ 116
    + 2 ^ 128 + 2 ^ 140 + 2 ^ 152 + 256 * 2 ^ 236))
/-- Instruction 3 squares the five elements of tensor 1 (3, 1, -2, 0, 5) into tensor 2. -/
def vx0 : State :=
  ((((putTensor (putTensor r0 1 0 5) 2 1 5).wr (coreKey c0 Mem.DESC (Table.VINSTR + 16 * 3)) (leBytes 16 (1 + 2 * 2 ^ 10 + 2 ^ 21
    + (3 + 1 * 16) * 2 ^ 32))).wr (coreKey c0 Mem.TILE 0) (bytes32 [0x40400000, 0x3F800000, 0xC0000000, 0, 0x40A00000])).cput c0
      (Reg.CORE_VX_WBASE.BASE 2) 100)
def wRun : BitVec 64 := w64 (3 * 2 ^ 10 + 2 ^ 16)

/-- RunOccupiesAdvancesAndWrites: both clauses. -/
theorem test_witness_run :
    vx0.canonical = true ∧ vx0.coreReady c0 ∧ vx0.slotLive c0 wRun.toNat ∧ vxStatic vx0 c0 (withField wRun.toNat 9 6 1) = []
      ∧ vxDynamic vx0 c0 (withField wRun.toNat 9 6 1) = [] ∧ vx0.tileFault c0 (withField wRun.toNat 9 6 1) 0 = []
      ∧ vx0.cleanRange (coreKey c0 0 0) (2 ^ 29) ∧ (leNat (vx0.rd (ftqKey c0 (vx0.cget c0 Core.FTQ_HEAD) + 8194) 1)).testBit 0 = false
      ∧ (let i := vx0.vinstr c0 (withField wRun.toNat 9 6 1)
         let x := vx0.tdesc c0 i.xd
         let d := vx0.tdesc c0 i.dd
         x.space = 0 ∧ d.space = 0 ∧ x.fmt = .fp32 ∧ d.fmt = .fp32 ∧ i.dEn = true ∧ i.yEn = false ∧ i.rEn = false ∧ i.bf16 = false ∧ i.rmode ≠ 4
           ∧ x.bcast = false ∧ x.size 0 ≤ 64 ∧ x.rows = 1 ∧ x.size 0 ≤ x.valid 0 ∧ 0 < x.valid 1 ∧ 0 < x.valid 2 ∧ 0 < x.valid 3) := by
  unfold State.coreReady State.noLoopEnds State.coreRuns State.slotLive State.cleanRange State.noUpsets; repeat' apply And.intro
  all_goals decide +kernel

theorem test_run :
    ran vx0 (.run c0 wRun) (fun u => unpackCodes 32 5 (u.rdNat (coreKey c0 Mem.TILE (16384 + 100)) 20)
        == [0x41100000, 0x3F800000, 0x40800000, 0, 0x41C80000] && u.cget c0 Reg.CORE_VX_COUNTS.RUNS == 1) := by decide +kernel

/-! ### Debug, pauses, halts, huddles, scrubs and stream messages (02, 06, 07, 12) -/

/-- At a breakpoint in debug mode; the word at the core's address is zero. -/
def dg0 : State := (r0.cput c0 Reg.CORE_SCHED_STATUS.STATE 7).putFlag panelSite Reg.SEC_STATUS.DEBUG true
/-- The core's pause huddle has issued, and its `END`. -/
def dg1 : State := r0.cput c0 Core.STOPPING 1
def dg2 : State := r0.cput c0 Core.STOPPING 2
/-- Site 3 is a die of squad 4, which runs; the core has arrived on line 7 of the squad, whose gate is open. -/
def sq0 : State :=
  ((((((((r0.put 3 Reg.DIE_SIDEBAND.MEMBER 1).put 3 Reg.DIE_SIDEBAND.SQUAD 4).put 3 Reg.DIE_SIDEBAND.OBEY 16).put panelSite
    (Reg.SQD_STATUS.STATE 4) 2).put 3 Reg.DIE_SHOT.RUN 1).cput c0 Reg.CORE_POISON_CTL.HUDDLE_MASK 0x80).cput c0 (Core.HUDDLE 7) 1).put panelSite
      (Reg.SQD_STATUS.HLINES 4) 0x80).put 3 Reg.DIE_SHOT.COUNT 9
/-- Its line is driven. -/
def sq1 : State := sq0.put panelSite Reg.SQD_LINES.WHISTLE 16

/-- BreaksPausesAndEndings, WhistleHaltsTheDies, HuddlesCompleteAndShotClockWhistles. -/
theorem test_witness_coreEvents :
    [dg0, dg1, dg2, sq0, sq1].all State.canonical = true ∧ dg0.flag panelSite Reg.SEC_STATUS.DEBUG = true
      ∧ (dg0.cput c0 Reg.CORE_SCHED_STATUS.STATE 1).coreReady c0 ∧ dg0.rdNat (coreKey c0 Mem.SCHED (dg0.wordAddr c0 * 32)) 32 = 0
      ∧ dg0.noUpsets (coreKey c0 Mem.SCHED (dg0.wordAddr c0 * 32)) 32
      ∧ dg1.cget c0 Core.STOPPING = 1 ∧ dg1.cget c0 Reg.CORE_SCHED_STATUS.STATE = 1 ∧ dg1.beats = [] ∧ dg1.flights = []
      ∧ dg2.cget c0 Core.STOPPING = 2 ∧ dg2.pausePending 3 = false
      ∧ sq1.settled ∧ (sq1.get panelSite Reg.SQD_LINES.WHISTLE).testBit 4 = true ∧ isCompute 3 = true ∧ (sq1.obey 3).testBit 4 = true
      ∧ sq1.squadOf 3 = some 4 ∧ sq1.squadState 4 ≠ Squad.PAUSED
      ∧ sq0.huddleCores 7 = [c0] ∧ sq0.cget c0 (Core.HUDDLE 7) = 1 ∧ (sq0.get panelSite Reg.SQD_LINES.GATE).testBit 7 = false
      ∧ sq0.lineSquad 7 = some 4 ∧ sq0.squadState 4 = Squad.RUNNING ∧ sq0.flag 3 Reg.DIE_SHOT.RUN = true ∧ sq0.dieDone 3 = false
      ∧ sq0.get panelSite (Reg.SQD_STATUS.CAUSE 4) = 0 := by
  unfold State.coreReady State.noLoopEnds State.coreRuns State.noUpsets State.settled; repeat' apply And.intro
  all_goals decide +kernel

theorem test_stepWord :
    ran dg0 (.stepWord c0) (fun u => u.cget c0 Reg.CORE_SCHED_STATUS.STATE == 7 && u.wordAddr c0 == 101) := by decide +kernel
theorem test_continueCore : ran dg0 (.continueCore c0) (fun u => u.cget c0 Reg.CORE_SCHED_STATUS.STATE == 1) := by decide +kernel
theorem test_corePaused : ran dg1 (.corePaused c0) (fun u => u.cget c0 Reg.CORE_SCHED_STATUS.STATE == 3) := by decide +kernel
theorem test_coreEnded : ran dg2 (.coreEnded c0) (fun u => u.cget c0 Reg.CORE_SCHED_STATUS.STATE == 4) := by decide +kernel
theorem test_whistleDriven :
    ran sq1 (.whistleDriven 4) (fun u => u.cget c0 Reg.CORE_SCHED_STATUS.STATE == 5 && u.cget ⟨3, 6⟩ Reg.CORE_SCHED_STATUS.STATE == 0
      && u.get panelSite Reg.SQD_LINES.WHISTLE == 0) := by decide +kernel
theorem test_huddleComplete :
    ran sq0 (.huddleComplete 7) (fun u => u.cget c0 (Core.HUDDLE 7) == 2 && u.get 3 Reg.DIE_SHOT.COUNT == 0) := by decide +kernel
theorem test_shotClock :
    ran sq0 (.shotClock 3) (fun u => u.get panelSite Reg.SQD_LINES.WHISTLE == 16 && u.get panelSite (Reg.SQD_STATUS.CAUSE 4) == Cause.SHOT_CLOCK) := by
  decide +kernel

/-- Line 10 of the core's scratchpad has a word with one upset bit, and its log holds an earlier error; the die waits for its clear. -/
def pt0 : State := { (r0.qput ⟨3, 0⟩ Reg.CLU_MEM_SCRUB.SP_EN 1).cput c0 Reg.CORE_MEM_ERR_LOG.VALID 1 with sramUpset := [(sramKey 3 5 0 640 / 8 + 3, 1)] }
def pt1 : State := ((r0.wr (sramKey 3 5 4 77) [1, 2, 3]).wr (sramKey 4 5 4 77) [1, 2, 3]).put 3 Die.CLEARING 1

/-- PatrolRewritesAndClearZeroes: a line inside, and the last line. -/
theorem test_witness_patrol :
    [pt0, pt1].all State.canonical = true ∧ pt0.qget ⟨3, 5 / 24⟩ Reg.CLU_MEM_SCRUB.SP_EN = 1
      ∧ wordsIn pt0.sramUpset (sramKey 3 5 Mem.SP (10 * 64)) 64 = [sramKey 3 5 0 640 / 8 + 3]
      ∧ mapGet 0 pt0.sramUpset (sramKey 3 5 0 640 / 8 + 3) = 1 ∧ mapGet 0 pt0.sramPoison (sramKey 3 5 0 640 / 8 + 3) = 0
      ∧ wordsIn [(sramKey 3 5 0 (24575 * 64) / 8 + 7, 1)] (sramKey 3 5 Mem.SP (24575 * 64)) 64 = [sramKey 3 5 0 (24575 * 64) / 8 + 7]
      ∧ pt1.flag 3 Die.CLEARING = true := by decide +kernel

theorem test_sramPatrolRead :
    ran pt0 (.sramPatrolRead 3 5 10) (fun u => u.sramUpset == [] && u.cget c0 Reg.CORE_MEM_CE.SP == 1) := by decide +kernel
theorem test_clearComplete :
    ran pt1 (.clearComplete 3) (fun u => u.sram.length == 3 && !u.flag 3 Die.CLEARING && u.qget ⟨3, 1⟩ Reg.CLU_QPOOL.FREE == 32768) := by decide +kernel

/-- Logical die 7 stands on site 3, whose queue 9 is active; with an open packet; in a sweep, CREDITED and LOSSY; an inbox ring of four lines, one
of which is free. -/
def st0 : State := (r0.qput ⟨3, 0⟩ (Reg.CLU_QSTATE.STATE 9) 1).put panelSite (Reg.MESH_L2S.SITE 7) 3
def st1 : State := st0.setQueue ⟨3, 0⟩ 9 { QueueSt.empty with cells := [⟨0, 1, lenMax, 0, false, false⟩], openPkt := some 1 }
def st2 : State := st1.qput ⟨3, 0⟩ (Reg.CLU_QSTATE.STATE 9) 2
def st3 : State := st2.qput ⟨3, 0⟩ (Reg.CLU_QCFG.MODE 9) 1
def st4 : State :=
  (((st0.cput c0 (Reg.CORE_INBOX_DESC.EN 2) 1).cput c0 (Reg.CORE_INBOX_DESC.SIZE 2) 4).cput c0 (Reg.CORE_INBOX_DESC.BASE 2) 44).cput c0
    (Reg.CORE_INBOX_STATE.FILLED 2) 3
def token : StreamMsg := ⟨0, 0, 7, 0, false, 0, 9, 5, true, 5, 33, cells64⟩

/-- StreamMessagesArrive, StaleMessagesAndSweeps: each clause. -/
theorem test_witness_streams :
    [st0, st1, st2, st3, st4].all State.canonical = true ∧ token.wf = true ∧ { token with ring := true, dring := 2 }.wf = true
      ∧ st0.siteOf 7 < 256 ∧ st0.destCluster token = ⟨3, 0⟩ ∧ token.epoch = st0.qget ⟨3, 0⟩ Reg.CLU_QPOOL.EPOCH
      ∧ st0.qget ⟨3, 0⟩ Reg.CLU_QPOOL.FL_BROKEN = 0 ∧ st0.qget ⟨3, 0⟩ (Reg.CLU_QCFG.MODE 9) = 0 ∧ st0.qget ⟨3, 0⟩ (Reg.CLU_QCFG.ARR_MODE 9) = 0
      ∧ st0.qget ⟨3, 0⟩ Clu.FL_MISMATCH = 0 ∧ token.data.length = 64 ∧ (st1.queue ⟨3, 0⟩ 9).openPkt.isSome = true
      ∧ token.epoch = st4.cget c0 Reg.CORE_SCHED_STATUS.EPOCH
      ∧ st4.cget c0 (Reg.CORE_INBOX_STATE.FILLED 2) < st4.cget c0 (Reg.CORE_INBOX_DESC.SIZE 2)
      ∧ { token with epoch := 255 }.epoch ≠ st0.qget ⟨3, 0⟩ Reg.CLU_QPOOL.EPOCH
      ∧ st2.qget ⟨3, 0⟩ (Reg.CLU_QSTATE.STATE 9) = 2 ∧ st2.qget ⟨3, 0⟩ (Reg.CLU_QCFG.MODE 9) = 0 ∧ st3.qget ⟨3, 0⟩ (Reg.CLU_QCFG.MODE 9) = 1 := by
  repeat' apply And.intro
  all_goals decide +kernel

theorem test_cell :
    ran st0 (.cell token) (fun u => u.rd (cellKey ⟨3, 0⟩ 0) 64 == cells64 && mapGet 0 u.sramPoison (cellKey ⟨3, 0⟩ 0 / 8 + 2) == 1)
      && ran st0 (.cell { token with epoch := 255 }) (fun u => u.sram == [] && u.qget ⟨3, 0⟩ Reg.CLU_QSTALE.STALE == 1) := by decide +kernel
theorem test_closeMessage : ran st1 (.closeMessage token) (fun u => ((u.queue ⟨3, 0⟩ 9).cells.map (·.len)) == [33]) := by decide +kernel
theorem test_credit : ran st0 (.credit token) (fun u => u.qget ⟨3, 0⟩ (Reg.CLU_QPSTATE.CREDITS 9) == 33) := by decide +kernel
theorem test_inboxDelivery :
    ran st4 (.inboxDelivery { token with ring := true, dring := 2 }) (fun u => u.rd (coreKey c0 0 (44 * 64)) 64 == cells64
      && u.cget c0 (Reg.CORE_INBOX_STATE.FILLED 2) == 4 && u.cget c0 (Reg.CORE_CCOUNT.VALUE 0) == 1) := by decide +kernel
theorem test_queueSweepDone :
    ran st2 (.queueSweepDone ⟨3, 0⟩ 9) (fun u => u.queue ⟨3, 0⟩ 9 == QueueSt.empty && u.qget ⟨3, 0⟩ (Reg.CLU_QSTATE.RESETS 9) == 1)
      && ran st3 (.queueSweepDone ⟨3, 0⟩ 9) (fun u => ((u.queue ⟨3, 0⟩ 9).cells.map fun c => (c.kind, c.len)) == [(2, 1)]) := by decide +kernel

/-! ### Replies to a core, and hubs (08, 09) -/

/-- Requests of thread `t0` with tags 6 and 9; the reply is to tag 6. -/
def fq (op tag : Nat) : FetchReq :=
  { blankFetch t0 op 12 9 { State.reset.blankReq c0 0 with tag := tag, addr := 4096 } with dreg := 9, laddr := 512 }
def fx (r : FetchReq) : State := ({ r0 with outstanding := [fq 0x20 5, r, fq 0x20 9] }).cput c0 Reg.CORE_FT_ERR_LOG.VALID 1
def fxTw : FetchReq := { fq 0x23 6 with tw := some 77 }
def frep (st : Nat) : HubRep :=
  { status := st, epoch := 0, dpanel := 0, dsite := 3, dunit := 5, tag := 6, opid := 0, poison := 0x10,
    data := (List.range 256).map fun i => BitVec.ofNat 8 (i + 129) }
def fxStop (stop : Nat) : State :=
  let s := (fx (fq 0x27 6)).cput c0 Core.FT_STOP stop
  { s with outstanding := s.outstanding.map fun r => { r with ctrEn := false } }
/-- A request of the core, and of no other, has tag 6. -/
def fxOne (r : FetchReq) : Bool :=
  ((fx r).outstanding.filter fun x => x.ofCore c0 && x.req.tag == 6) == [r] && (fx r).canonical && r.thread < 48 && r.ctr < 16 && r.dreg < 16
    && (fx r).cget c0 Reg.CORE_SCHED_STATUS.EPOCH == 0 && (fx r).cget c0 (Reg.CORE_CCOUNT.VALUE r.ctr) < 0xFFFFFF

/-- RepliesCompleteAndDrainBoundWithdraws: a write, a read, a table walk, a `GATHER` and a failure; a drain bound after a pause, a whistle, and
with nothing outstanding. -/
theorem test_witness_replies :
    isCompute 3 = true ∧ (3 : Nat) = c0.site ∧ (0 : Nat) = r0.ownPanel ∧ c0.wf = true
      ∧ fxOne (fq 0x22 6) = true ∧ (fq 0x22 6).returns = false ∧ fxOne (fq 0x20 6) = true ∧ (fq 0x20 6).returns = true
      ∧ { frep 0 with poison := 0 }.poison.toNat.testBit 0 = false ∧ fxOne fxTw = true
      ∧ (let x := leNat ((frep 0).data.take 8); if fxTw.width = 0 then x else x % 2 ^ (8 * fxTw.width)).testBit 63 = true
      ∧ fxOne (fq 0x24 6) = true ∧ (frep 0).data.length = 256 ∧ (fq 0x24 6).localKey % 8 = 0
      ∧ (fx (fq 0x20 6)).cget c0 Reg.CORE_FT_ERR_LOG.VALID = 1
      ∧ (fxStop 1).canonical = true ∧ (fxStop 1).cget c0 Core.FT_STOP = 1 ∧ (fxStop 2).canonical = true ∧ (fxStop 2).cget c0 Core.FT_STOP = 2
      ∧ ((fxStop 2).outstanding.filter fun r => r.ofCore c0) = (fxStop 2).outstanding ∧ (fxStop 2).outstanding ≠ []
      ∧ (∀ r ∈ (fxStop 2).outstanding, r.thread < 48 ∧ r.dreg < 16 ∧ r.op ≠ 0x24 ∧ r.ctrEn = false)
      ∧ (fxStop 2).cget c0 Reg.CORE_FT_ERR_LOG.VALID = 1 ∧ r0.outstanding = [] ∧ r0.cget c0 Core.FT_STOP ≠ 2 ∧ r0.canonical = true := by
  repeat' apply And.intro
  all_goals decide +kernel

theorem test_hubReply :
    ran (fx (fq 0x20 6)) (.hubReply { frep 0 with poison := 0 }) (fun u => u.greg t0 9 == 0x8887868584838281 && u.outstanding.length == 2)
      && ran (fx fxTw) (.hubReply { frep 0 with poison := 0 }) (fun u => u.greg t0 9 == 0x87868584838281 % 2 ^ 56 + 77) := by decide +kernel
theorem test_fetchDrainBound :
    ran (fxStop 1) (.fetchDrainBound c0) (fun u => u.outstanding == [] && u.reissue.length == 3) := by decide +kernel

/-- Stack 0 holds 1, 2, … from its start, and byte 256 begins a poisoned sector. -/
def hb0 : State :=
  { State.reset with
    hbm := (List.range 600).map fun i => (i + hbmKey 0 0, BitVec.ofNat 8 (i % 200 + 1))
    hbmPoison := [(hbmKey 0 256 / 32, 1)] }
def hq (addr : Nat) : HubReq :=
  { State.reset.blankReq c0 0 with addr := addr, tag := 7, data := (List.range 256).map fun i => BitVec.ofNat 8 (i * 5 + 3) }
/-- The address of byte 256 of stack 0. -/
def ha : Nat := ((List.range 4096).find? fun g => hb0.resolve (g * 256) == (0, 256)).getD 0 * 256
def hServes (r : HubReq) (n : Nat) : Prop := hb0.hubServes 0 r n
/-- An ordered contribution to unit 0 of stack 0 with this RANK and COUNT, in group 77. -/
def ho (rank count : Nat) : HubReq := { hq 0 with param := 6, order := rank + (count - 1) * 4096, group := 2 ^ 24 + 77 }

/-- HubsReadAndWrite, HubsPerformAtomicsOnce, HubsReduceByRank: every form, at the ends of the ranges. -/
theorem test_witness_hubRequests :
    hb0.canonical = true ∧ hb0.resolve ha = (0, 256) ∧ ha % 256 = 0 ∧ (hq 0).wf = true
      ∧ hb0.hubServes 0 (hq ha) 256 ∧ hb0.hubServes 0 (hq (ha + 16)) 8 ∧ hb0.hubServes 0 { hq (ha + 29) with length := 227 } 227
      ∧ hb0.hubServes 0 { hq 0 with param := 17 } (atomWidth 1) ∧ hb0.hubServes 0 { hq 64 with param := 9 } (atomWidth 9) ∧ hb0.hubServes 0 (ho 0 4) 256
      ∧ hb0.hubAccepts 0 { hq 0 with opc := 4, param := 17 } (hb0.hbmAt 0) (atomWidth 1) ∧ hb0.hubAccepts 0 { ho 0 4 with opc := 5 } (hb0.hbmAt 0) 256
      ∧ hb0.hubAccepts 0 { hq 0 with opc := 5, param := 2 } (hb0.hbmAt 0) 256 ∧ (hq 0).data.length = 256
      ∧ ran hb0 (.hubAtom 0 { hq 0 with param := 17 }) (fun u => (u.dedupEntry 0 { hq 0 with opc := 4, param := 17 }).map (·.performed) == some true)
      ∧ (hb0.put (siteOfStack 0) Reg.HUB_CTL.ACCEPT_ATOM 0).flag (siteOfStack 0) Reg.HUB_CTL.ACCEPT_ATOM = false
      ∧ hb0.record 0 0 = none ∧ hb0.openRecords 0 < 2048 ∧ hb0.heldCount 0 < 8192 ∧ (ho 4 4).order < 2 ^ 24 ∧ (ho 4 4).group < 2 ^ 25
      ∧ (ho 3 4).order % 2 ^ 12 < (ho 3 4).order / 2 ^ 12 + 1 ∧ (ho 4 4).order / 2 ^ 12 + 1 ≤ (ho 4 4).order % 2 ^ 12 := by
  unfold State.hubServes State.hubAccepts; repeat' apply And.intro
  all_goals decide +kernel

def hrep (s : State) (i : Instr) : List (Nat × Nat × BitVec 32) :=
  match exec i s with | .next u => u.hubReps.map fun m => (m.status, leNat m.data, m.poison) | _ => []

theorem test_hubReads :
    (hrep hb0 (.hubRead 0 (hq 0))).map (fun x => x.2.1 % 2 ^ 24) = [0x030201] ∧ (hrep hb0 (.hubRead 0 (hq ha))).map (·.2.2) = [0xF]
      ∧ hrep hb0 (.read8 0 (hq 8)) = [(0, 0x100F0E0D0C0B0A09, 0)] ∧ hrep hb0 (.partRead 0 { hq 29 with length := 2 }) = [(0, 0x1F1E, 0)] := by
  decide +kernel
theorem test_hubWrites :
    ran hb0 (.hubWrite 0 { hq ha with poison := 16 }) (fun u => mapGet 0 u.hbm (hbmKey 0 257) == 8 && u.hbmPoison == [(hbmKey 0 288 / 32, 1)])
      && ran hb0 (.write8 0 (hq 8)) (fun u => mapRead 0 u.hbm (hbmKey 0 7) 3 == [8, 3, 8])
      && ran hb0 (.partWrite 0 { hq 29 with length := 2 }) (fun u => mapRead 0 u.hbm (hbmKey 0 28) 4 == [29, 3, 8, 32]) := by decide +kernel
theorem test_hubAtom :
    ran hb0 (.hubAtom 0 { hq 0 with param := 17 }) (fun u => mapRead 0 u.hbm (hbmKey 0 0) 8 == [4, 10, 16, 22, 28, 34, 40, 46]
      && u.hubReps.map (fun m => leNat m.data) == [0x0807060504030201]) := by decide +kernel
theorem test_hubRed :
    ran hb0 (.hubRed 0 (ho 2 4)) (fun u => (u.hubRecords.map fun c => (c.gid, c.count, c.bitmap)) == [(77, 4, 4)] && u.hubReps == [])
      && hrep hb0 (.hubRed 0 (ho 4 4)) == [(0x14, 0, 0)] := by decide +kernel

/-- Stack 0 holds one-byte elements 0x38 and 0x40 (1.0 and 2.0 as E4M3); region 3 gives MXE4M3 a side area, zero throughout. -/
def hc0 : State :=
  (((({ State.reset with hbm := [(hbmKey 0 0, 0x38), (hbmKey 0 1, 0x40)] }.put (siteOfStack 0) (Reg.HUB_CONV_ELEM.EN 3) 1).put (siteOfStack 0)
    (Reg.HUB_CONV_ELEM.MFMT 3) 16).put (siteOfStack 0) (Reg.HUB_CONV_SIDE.LEN 3) 1).put (siteOfStack 0) (Reg.HUB_CONV_SIDE.SIDE 3) (2 ^ 30))
def hcReady (q : HubReq) : Bool :=
  match hc0.hubCheck 0 q with
  | .inr p => (convFmts q).isSome && p.elems != [] && (p.elems.headD ⟨0, 0, 0⟩).stack == 0 && !hc0.hubBlocked 0
      && p.all.all (fun x => !hc0.scrubbing x.stack && hc0.channelState x.stack x.saddr == 0 && sectorsIn hc0.hbmUpset x.key x.len == []
        && sectorsIn hc0.hbmPoison x.key x.len == [])
      && p.elems.all fun x => p.sides.all fun y => x.key + x.len ≤ y.key || y.key + y.len ≤ x.key
  | .inl _ => false

/-- HubsConvert: a format without blocks and one with, from and to FP32 and BF16. -/
theorem test_witness_hubConverts :
    hc0.canonical = true ∧ [4, 16, 36, 48].all (fun f => hcReady { hq 0 with param := f, opc := 6 } && hcReady { hq 0 with param := f, opc := 7 }) = true
      ∧ { hq 0 with poison := 0 }.wf = true := by
  repeat' apply And.intro
  all_goals decide +kernel

theorem test_gatherC :
    (hrep hc0 (.gatherC 0 { hq 0 with param := 4 })).map (fun x => x.2.1 % 2 ^ 64) = [0x400000003F800000] := by decide +kernel
theorem test_storeC :
    ran hc0 (.storeC 0 { hq 0 with param := 4, poison := 0, data := bytes32 [0x40400000, 0xBF800000, 0] ++ List.replicate 244 0 }) (fun u =>
      mapRead 0 u.hbm (hbmKey 0 0) 3 == [0x44, 0xB8, 0]) := by decide +kernel

/-! ### Hub scrubbing, channels and records (09) -/

/-- Stack 2: a sector with one error, a zero scrub, a window of panel 9, a degraded channel 7. -/
def hs0 : State :=
  ({ State.reset with hbmUpset := [(hbmKey 2 0 / 32 + 3, 1)], dedup := [⟨2, 9, []⟩, ⟨2, 0, []⟩] }.put (siteOfStack 2) Reg.HUB_CTL.CE_THRESHOLD
    0).put (siteOfStack 2) Reg.HUB_ERR_LOG.VALID 1
def hs1 : State :=
  ({ State.reset with hbm := [(hbmKey 2 9, 7), (hbmKey 3 9, 7)], hbmPoison := [(hbmKey 2 0 / 32, 1)] }.put (siteOfStack 2) Reg.HUB_SCRUB.ACTIVE
    1).put (siteOfStack 2) Hub.READY 1
def hs2 (failed : Nat) : State :=
  (State.reset.put (siteOfStack 2) (Reg.HUB_CHAN_STATUS.CHAN 7) 1).put (siteOfStack 2) (Hub.RETRIES 7) failed
/-- A record of unit 256 that holds rank 2, and the last step of a drain. -/
def hr0 : HubRecord := ⟨2, 256, 77, 4, 2, false, 1, 5, [(2, hq 256)]⟩
def hs3 : State := { State.reset with hubRecords := [{ hr0 with stack := 3 }, hr0] }.put (siteOfStack 2) Hub.DRAINING 1

/-- HubsScrubAndRecordsFail: each clause; a channel that has failed twice and once less; the first and the last unit of the stack. -/
theorem test_witness_hubEvents :
    hs0.canonical = true ∧ hs1.canonical = true ∧ (hs2 1).canonical = true ∧ (hs2 2).canonical = true ∧ hs3.canonical = true
      ∧ hs0.get (siteOfStack 2) Reg.HUB_CTL.PATROL_EN = 1 ∧ hs0.scrubbing 2 = false ∧ (2 ^ 36 - 256) % 256 = 0
      ∧ sectorsIn hs0.hbmUpset (hbmKey 2 (2 ^ 36 - 256)) 256 = [] ∧ sectorsIn hs0.hbmUpset (hbmKey 2 0) 256 = [hbmKey 2 0 / 32 + 3]
      ∧ mapGet 0 hs0.hbmUpset (hbmKey 2 0 / 32 + 3) = 1 ∧ mapGet 0 hs0.hbmPoison (hbmKey 2 0 / 32 + 3) = 0
      ∧ hs0.get (siteOfStack 2) Reg.HUB_CTL.CE_THRESHOLD = 0 ∧ hs0.get (siteOfStack 2) Reg.HUB_ERR_LOG.VALID = 1
      ∧ hs1.scrubbing 2 = true ∧ hs1.get (siteOfStack 2) Hub.READY = 1
      ∧ (9 : Nat) ≠ hs0.ownPanel ∧ hs0.get (siteOfStack 2) Reg.HUB_CTL.DEDUP_IDLE ≠ 0 ∧ hs0.dedup.filter (fun x => x.is 2 9) = [⟨2, 9, []⟩]
      ∧ hs0.get (siteOfStack 2) (Reg.HUB_CHAN_STATUS.CHAN 31) = 0 ∧ (hs2 2).get (siteOfStack 2) (Reg.HUB_CHAN_STATUS.CHAN 7) = 1
      ∧ (hs2 1).hubWaits = [] ∧ (hs2 1).get (siteOfStack 2) (Hub.RETRIES 7) < 2 ∧ (hs2 2).get (siteOfStack 2) (Hub.RETRIES 7) = 2
      ∧ (hs2 2).hubRecords = [] ∧ (hs2 2).get (siteOfStack 2) Reg.HUB_STATUS.FAILED < 32
      ∧ hs3.record 2 256 = some hr0 ∧ (∀ h ∈ hr0.held, h.2.wf = true ∧ h.2.spanel < 4096) ∧ hs3.get (siteOfStack 2) Hub.DRAINING = 1 := by
  repeat' apply And.intro
  all_goals decide +kernel

theorem test_hbmPatrolRead :
    ran hs0 (.hbmPatrolRead 2 0) (fun u => u.hbmUpset == [] && u.get (siteOfStack 2) Reg.HUB_CE.CORRECTED == 1) := by decide +kernel
theorem test_zeroScrubDone :
    ran hs1 (.zeroScrubDone 2) (fun u => u.hbm == [(hbmKey 3 9, 7)] && u.hbmPoison == [] && u.get (siteOfStack 2) Reg.HUB_STATUS.STATE == 1) := by
  decide +kernel
theorem test_dedupWindowIdle : ran hs0 (.dedupWindowIdle 2 9) (fun u => u.dedup == [⟨2, 0, []⟩]) := by decide +kernel
theorem test_channelErrors : ran hs0 (.channelErrors 2 31) (fun u => u.get (siteOfStack 2) (Reg.HUB_CHAN_STATUS.CHAN 31) == 1) := by decide +kernel
theorem test_channelRetrainDone :
    ran (hs2 1) (.channelRetrainDone 2 7 true) (fun u => u.get (siteOfStack 2) (Reg.HUB_CHAN_STATUS.CHAN 7) == 0)
      && ran (hs2 1) (.channelRetrainDone 2 7 false) (fun u => u.get (siteOfStack 2) (Hub.RETRIES 7) == 2) := by decide +kernel
theorem test_recordTimeout :
    ran hs3 (.recordTimeout 2 256) (fun u => u.hubRecords.length == 1 && u.hubReps.map (·.status) == [0x21]
      && mapGet 0 u.hbmPoison (hbmKey 2 256 / 32 + 7) == 1) := by decide +kernel
theorem test_hubDrainBound : ran hs3 (.hubDrainBound 2) (fun u => u.hubRecords.map (·.stack) == [3] && u.hbmPoison.length == 8) := by decide +kernel
theorem test_hbmRailFault :
    ran State.reset (.hbmRailFault 15) (fun u => u.get (siteOfStack 60) Reg.HUB_STATUS.FAILED == 32) := by decide +kernel
/-! ### Mesh (10) -/

/-- Sites 17 and 18 are alive, with four sub-links at each port. -/
def ms0 : State :=
  (List.range 4).foldl (fun s p => (s.put 17 (Reg.MESH_PORT.TX_ACTIVE p) 15).put 17 (Reg.MESH_PORT.RX_ACTIVE p) 15)
    ((State.reset.put panelSite (Reg.MESH_ALIVE.ALIVE 17) 1).put panelSite (Reg.MESH_ALIVE.ALIVE 18) 1)
/-- A unit's packet of 100 bytes for a site. -/
def pk (d : Nat) : Packet :=
  { packet with cls := 2, plen := 100, dest := d, dunit := 1, ssite := 3, sunit := 2, hops := 9, mcid := 5, payload := (List.range 100).map (BitVec.ofNat 8 ·) }
/-- Its header as the router completes it, `m` being the middle site. -/
def pkFull (d m : Nat) : Packet := { pk d with lane := if m = 17 then 1 else 0, dsite := d, msite := m, ssite := 17, hops := 0, mcid := 0 }
/-- A packet in one flit for site 17. -/
def fl0 : FlitIn :=
  { flit with
    cls := 2
    data := BitVec.ofNat 512 (leNat ((packetBytes { pkFull 17 17 with plen := 40 }).take 64)) }
def mc0 : Packet := { pk 0 with mcast := true, mask := 5 }
/-- Site 245, a control or link die. -/
def ms1 : State := State.reset.put panelSite (Reg.MESH_ALIVE.ALIVE 245) 1
def ms2 (fails : Nat) : State := (ms0.put 17 (Mesh.RX_NAK 1 2) 1).put 17 (Mesh.RX_FAILS 1 2) fails

/-- MeshCarriesPackets: a packet for the router's own unit and one for a neighbour, a multicast, a whole flit, one with a parity error, one without
data, and a NAK repeated for the last time but one and the last time. -/
theorem test_witness_mesh :
    ms0.canonical = true ∧ ms0.alive 17 = true ∧ ms0.meshQuiet 17 ∧ (pk 17).wf = true ∧ (pk 18).wf = true ∧ { pk 17 with plen := 496 }.plen ≤ 496
      ∧ ms0.get 17 Reg.MESH_CTL.TIMEOUT = 0 ∧ ms0.route 17 17 = some 17 ∧ (routeOut 17 (pkFull 17 17)).1 = 4
      ∧ ms0.get 17 Reg.MESH_STATUS.LOCAL_FENCED = 0 ∧ forPort ⟨17, (routeOut 17 (pkFull 17 17)).2⟩ = false
      ∧ ms0.route 17 18 = some 18 ∧ (routeOut 17 (pkFull 18 18)).1 < 4
      ∧ ms0.canSend 17 (routeOut 17 (pkFull 18 18)).1 (routeOut 17 (pkFull 18 18)).2 = true
      ∧ ms1.canonical = true ∧ ms1.alive 245 = true ∧ ms1.meshQuiet 245 ∧ mc0.wf = true ∧ mc0.mask ≠ 0 ∧ (dieKind 245 = .control ∨ dieKind 245 = .link)
      ∧ fl0.wf = true ∧ ms0.portDown 17 1 = false ∧ (ms0.get 17 (Reg.MESH_PORT.RX_ACTIVE 1)).testBit 2 = true
      ∧ ms0.get 17 (Mesh.RX_NAK 1 2) = 0 ∧ fl0.parityOk = true ∧ fl0.eccOk = true ∧ fl0.valid = true ∧ fl0.head = true ∧ fl0.tail = true
      ∧ fl0.ackv = false ∧ fl0.nakv = false ∧ fl0.crv = false ∧ fl0.seq = ms0.get 17 (Mesh.RX_NEXT 1) ∧ ms0.rxFlits = []
      ∧ (let p := packetOf (leBytes 64 fl0.data.toNat)
         p.mcast = false ∧ p.mcopy = false ∧ p.cls < 5 ∧ (routeOut 17 p).1 = 4 ∧ forPort ⟨17, (routeOut 17 p).2⟩ = false)
      ∧ (ms2 6).canonical = true ∧ (ms2 6).get 17 (Mesh.RX_NAK 1 2) = 1 ∧ (ms2 6).get 17 (Mesh.RX_FAILS 1 2) < 7
      ∧ (ms2 7).get 17 (Mesh.RX_FAILS 1 2) = 7 ∧ (ms2 7).get 17 (Reg.MESH_PORT.RX_ACTIVE 1) ≠ 2 ^ 2 := by
  unfold State.meshQuiet; repeat' apply And.intro
  all_goals decide +kernel

theorem test_packetInject :
    ran ms0 (.packetInject 17 (pk 17)) (fun u => (u.delivered.map fun d => (d.site, d.packet.ssite, d.packet.payload.length)) == [(17, 17, 100)])
      && ran ms0 (.packetInject 17 (pk 18)) (fun u => (u.txFlits.map fun t => (t.site, t.flit.pos)) == [(17, 0), (17, 1)]) := by decide +kernel
theorem test_flit :
    ran ms0 (.flit 17 1 2 fl0) (fun u => (u.delivered.map fun d => d.packet.plen) == [40] && u.get 17 (Mesh.RX_NEXT 1) == 1)
      && ran ms0 (.flit 17 1 2 { fl0 with parityOk := false }) (fun u => u.delivered == [] && u.get 17 (Mesh.RX_NAK 1 2) == 1) := by decide +kernel
theorem test_nakRepeat : ran (ms2 6) (.nakRepeat 17 1 2) (fun u => u.get 17 (Mesh.RX_FAILS 1 2) == 7) := by decide +kernel

/-- A `FABRIC_TIMEOUT` under way, with new tables. -/
def tmCmd : CmdHdr := { hdr with port := 2, length := 208, received := 208, spanel := 77 }
def tmTables : TimeoutTables :=
  { TimeoutTables.none with l2s := some ((List.range 144).map fun i => (i * 7) % 256), ilvFirst := 7, ilv := some [5, 6] }
def tmRun : TimeoutRun := ⟨0, 0, tmTables⟩
def tmDef : Deferred := ⟨2, Op.FABRIC_TIMEOUT, 77, 5, 77, false, none, .fabricTimeout tmCmd tmTables 0, 1, 0, 0⟩
def tm0 : State :=
  { (State.reset.put 17 Reg.MESH_CTL.TIMEOUT 1).put panelSite (Reg.MESH_ALIVE.ALIVE 17) 1 with timeout := some tmRun, deferred := [tmDef] }
def mcRec : Mcast := ⟨1, 4, 3, 7, 0, 0⟩
def fencedRep : SitePacket :=
  ⟨State.reset.controlSite, { packet with cls := 3, sunit := 6, payload := leBytes 2 0 ++ [BitVec.ofNat 8 143, 1, 0, 0, 0, 0] }⟩

/-- TimeoutsAndAcknowledgements: each clause. -/
theorem test_witness_timeouts :
    tm0.canonical = true ∧ { State.reset with mcasts := [{ mcRec with ssite := 2 }, mcRec] }.canonical = true
      ∧ ¬ (2 = 1 ∧ ({ mcRec with ssite := 2 } : Mcast).mcid = 4) ∧ mcRec.left.getLsbD 2 = true
      ∧ { State.reset with delivered := [fencedRep] }.canonical = true ∧ fencedRep.packet.payload == leBytes 2 0 ++ [BitVec.ofNat 8 143, 1, 0, 0, 0, 0]
      ∧ tm0.timeout = some tmRun ∧ tmRun.kind = 0 ∧ tm0.outstandingOp Op.FABRIC_TIMEOUT = some tmDef ∧ tmDef.slot = none ∧ tm0.canEnd tmDef
      ∧ tm0.waitTimeouts = [] ∧ tm0.meshWait = [] ∧ tm0.arrived = [] ∧ tm0.delivered = [] ∧ tm0.drained tmRun = true
      ∧ tmRun.tables.alive = none ∧ tm0.aliveNext tmRun 17 = true := by
  unfold State.canEnd; repeat' apply And.intro
  all_goals decide +kernel

theorem test_multicastAck :
    ran { State.reset with mcasts := [mcRec] } (.multicastAck 4 1 2 1) (fun u => (u.mcasts.map fun m => (m.left, m.fenced)) == [(3, 4)]) := by
  decide +kernel
theorem test_fencedReply : ran { State.reset with delivered := [fencedRep] } (.fencedReply 143) (fun u => u.delivered == []) := by decide +kernel
theorem test_timeoutDrainDone :
    ran tm0 .timeoutDrainDone (fun u => u.timeout == none && u.get panelSite (Reg.MESH_L2S.SITE 143) == 143 * 7 % 256
      && u.get panelSite (Reg.MESH_ILV.ENTRY 8) == 6 && u.get 17 Reg.MESH_CTL.TIMEOUT == 0) := by decide +kernel
theorem test_timeoutDrainLimit :
    ran tm0 (.timeoutDrainLimit [3, 70, 3]) (fun u => (u.replies.map fun r => (r.status, r.words)) == [(0x22, [8, 64, 0, 0])]) := by decide +kernel
theorem test_routerNoAnswer :
    ran tm0 (.routerNoAnswer 17 []) (fun u => (u.replies.map fun r => (r.status, r.words)) == [(0x30, [2 ^ 17, 0, 0, 0])]
      && u.get 17 Reg.MESH_CTL.TIMEOUT == 1) := by decide +kernel

/-! ### Ports (11) -/

/-- Port 2 is UP on panel 9; port 3 is UP too, and the route to panel 8. -/
def pt2 : State :=
  ((((((((((State.reset.jput 2 Reg.PORT_STATUS.STATE 2).jput 2 Reg.PORT_STATUS.TX_SETS 15).jput 2 Reg.PORT_STATUS.RX_SETS 15).put panelSite
    Panel.NUMBER 9).put panelSite Panel.NUMBER_SET 1).jput 2 Port.RX_NEXT 5).jput 2 Reg.PORT_SEQ.TX_ACKED 3).jput 2 Reg.PORT_SEQ.TX_NEXT 7).jput 3
      Reg.PORT_STATUS.STATE 2).jput 2 (Reg.PORT_ROUTE.ENTRY 8) 7)
def fr (vc d : Nat) : Frame :=
  { frame with typ := 1, vc := vc, plen := 60, seq := 5, spanel := 4, dpanel := d, hops := 1, ack := 3, payload := (List.range 60).map (BitVec.ofNat 8 ·) }
def tf (n : Nat) : TxFrame := ⟨2, true, true, none, { fr 0 8 with seq := n }⟩
/-- Frames 4 to 6 are held. -/
def pt3 : State := { pt2 with txFrames := [tf 4, tf 5, tf 6] }
/-- Two sets are left to the receiver; a retirement is under way. -/
def pt4 : State := (pt2.jput 2 Reg.PORT_STATUS.RX_SETS 6).jput 2 Port.RETIRING 1

/-- PortsCarryFrames and PortsDegradeAndDrain: each clause. -/
theorem test_witness_ports :
    [pt2, pt3, pt4].all State.canonical = true ∧ pt2.portCalm 2 ∧ pt3.portCalm 2 ∧ pt4.portCalm 2 ∧ pt2.ownPanel = 9
      ∧ pt2.frameExpected 2 7 (fr 0 9) ∧ pt2.frameExpected 2 63 (fr 1 9) ∧ pt2.frameExpected 2 0 (fr 3 9) ∧ pt2.frameExpected 2 7 (fr 1 8)
      ∧ (fr 0 8).hops < pt2.jget 2 Reg.PORT_CTL.MAX_HOPS ∧ pt2.egress 2 8 = .inl 3
      ∧ pt2.jget 2 Port.RX_LOSS = 0 ∧ pt2.expectedLane 2 < 64
      ∧ seqLe 4 ((pt3.jget 2 Reg.PORT_SEQ.TX_NEXT + 2 ^ 32 - 1) % 2 ^ 32) = true ∧ seqLe (pt3.jget 2 Reg.PORT_SEQ.TX_ACKED) 4 = true
      ∧ ((pt3.txFrames.filter fun t => !(t.port == 2 && t.sent && seqLe t.frame.seq 4)).filter fun x => x.port == 2) = [tf 5, tf 6]
      ∧ ([tf 6].all fun x => x != tf 5) = true ∧ ([tf 5, tf 6].all fun x => x != tf 4) = true ∧ pt3.jget 2 Port.REPLAYED = 0
      ∧ (6 : Nat) &&& pt2.jget 2 Reg.PORT_STATUS.TX_SETS = 6 ∧ 2 ≤ setCount 6 ∧ pt4.jget 2 Port.RETIRING = 1
      ∧ (15 : Nat).testBit (63 / 16) = true ∧ 2 ≤ setCount (15 - 2 ^ (63 / 16)) ∧ (15 - 2 ^ (63 / 16)).testBit (pt2.expectedLane 2 / 16) = true
      ∧ (pt4.jget 2 Reg.PORT_STATUS.RX_SETS).testBit (20 / 16) = true ∧ setCount (6 - 2 ^ (20 / 16)) < 2 := by
  unfold State.portCalm State.frameExpected; repeat' apply And.intro
  all_goals decide +kernel

theorem test_pkt :
    ran pt2 (.pkt 2 7 (fr 0 9)) (fun u => u.hubReqs.length == 1 && u.jget 2 Port.RX_NEXT == 6 && u.jget 2 (Port.FREED 0) == 3)
      && ran pt2 (.pkt 2 7 (fr 1 8)) (fun u => (u.txFrames.map fun t => (t.port, t.frame.dpanel)) == [(3, 8)]) := by decide +kernel
theorem test_pkt_failed :
    ran pt2 (.pkt 2 5 { fr 0 9 with ok := false }) (fun u => u.portOut == [(2, .ctrl 4 true [0, 0, 0, 0, 0])]) := by decide +kernel
theorem test_ctrl :
    ran pt3 (.ctrl 2 { fr 0 9 with ack := 4 } true [1, 2, 3, 4, 5]) (fun u => (u.txFrames.map fun t => (t.frame.seq, t.frame.replay)) ==
      [(5, true), (6, false)] && u.jget 2 (Port.FAR_FREED 4) == 5) := by decide +kernel
theorem test_timers :
    ran pt3 (.ctrlTimer 2) (fun u => u.portOut == [(2, .ctrl 4 false [0, 0, 0, 0, 0])])
      && ran pt3 (.rto 2) (fun u => (u.txFrames.map fun t => t.frame.replay) == [true, false, false]) := by decide +kernel
theorem test_retire :
    ran pt2 (.retire 2 7) (fun u => u.portOut == [(2, .mgmt 1 7 4)] && u.portState 2 == 3) := by decide +kernel
theorem test_confirm : ran pt4 (.confirm 2 6 77) (fun u => u.jget 2 Port.RX_BASE == 77 && u.jget 2 Port.RETIRING == 0) := by decide +kernel
theorem test_down : ran pt2 (.down 2) (fun u => u.portState 2 == 6 && u.portOut.length == 3) := by decide +kernel
theorem test_drain : ran pt2 (.drain 2) (fun u => u.portState 2 == 4) := by decide +kernel
theorem test_mgmtRepeat : ran pt4 (.mgmtRepeat 2) (fun u => u.portOut == [(2, .mgmt 0 6 0)]) := by decide +kernel
theorem test_laneFailure :
    ran pt2 (.laneFailure 2 63) (fun u => u.jget 2 Reg.PORT_STATUS.RX_SETS == 7 && u.portState 2 == 3)
      && ran pt4 (.laneFailure 2 20) (fun u => u.portState 2 == 6) := by decide +kernel

def px : ProxyEntry := ⟨2, 3, 4, req⟩
def pt5 : State := { pt2 with proxies := [{ px with index := 1 }, px] }
def pt6 : State := ((pt2.jput 2 Reg.PORT_STATUS.STATE 6).jput 2 Reg.PORT_CTL.AUTO_RETRAIN 1).jput 2 Reg.PWR_DIE_STATUS.VIN_SW 1
def pt7 : State := (pt2.jput 2 Reg.PORT_STATUS.STATE 4).jput 2 Port.DRAIN_SENT 1
def pt8 : State := (pt2.jput 2 Reg.PORT_STATUS.STATE 1).put panelSite Reg.CTL_BOOT.STAGE 7

/-- PortsMeasureAndTrain: each clause; readings at their limits. -/
theorem test_witness_portEvents :
    [pt5, pt6, pt7, pt8].all State.canonical = true ∧ pt2.portCarries 2 = true
      ∧ signed16 (pt2.jget 2 Reg.PORT_MARGIN_CTL.RXPOW_MIN) ≤ -300 ∧ 40 ≤ pt2.jget 2 Reg.PORT_MARGIN_CTL.BIAS_MAX
      ∧ (pt2.jget 2 Reg.PORT_MARGIN_CTL.PREFEC_WARN = 0 ∨ 1000 < pt2.jget 2 Reg.PORT_MARGIN_CTL.PREFEC_WARN)
      ∧ pt2.jget 2 (Port.BAD_UNCORR 63) < 3
      ∧ pt5.proxies.filter (fun x => x.port == 2 && x.index == 3) = [px] ∧ pt5.proxyWait = [] ∧ pt5.portState 4 ≠ 4 ∧ req.wf = true
      ∧ pt6.portState 2 = 6 ∧ pt6.jget 2 Reg.PORT_CTL.AUTO_RETRAIN = 1 ∧ pt6.jget 2 Reg.PWR_DIE_STATUS.VIN_SW = 1
      ∧ pt7.portState 2 = 4 ∧ pt7.jget 2 Port.DRAIN_SENT = 1 ∧ pt7.jget 2 Port.THEN_TRAIN = 0 ∧ pt7.txFrames = [] ∧ pt7.rxFrames = []
      ∧ pt7.proxies = [] ∧ pt7.deferred = [] ∧ pt8.portState 2 = 1 ∧ pt8.get panelSite Reg.CTL_BOOT.STAGE = 7 ∧ 2 ≤ setCount 15 ∧ 2 ≤ setCount 3
      ∧ pt8.deferred = [] ∧ pt8.txFrames = [] ∧ pt8.get panelSite Reg.THM_PANEL.AIR = 0 ∧ pt8.holding = false := by
  repeat' apply And.intro
  all_goals decide +kernel

theorem test_fecWindow :
    ran pt2 (.fecWindow 2 63 (-300) 40 1000 2 true) (fun u => u.jget 2 (Reg.PORT_LANE.RXPOW 63) == 65236 && u.jget 2 (Port.BAD_UNCORR 63) == 1) := by
  decide +kernel
theorem test_replyTimeout :
    ran pt5 (.replyTimeout 2 3) (fun u => (u.hubReps.map fun m => m.status) == [0x31] && u.proxies.length == 1) := by decide +kernel
theorem test_autoRetrain : ran pt6 (.autoRetrain 2) (fun u => u.portState 2 == 1) := by decide +kernel
theorem test_portDrainBound : ran pt7 (.portDrainBound 2) (fun u => u.portState 2 == 5) := by decide +kernel
theorem test_portTrained :
    ran pt8 (.portTrained 2 15 15 0) (fun u => u.portState 2 == 2 && u.jget 2 Reg.PORT_SEQ.TX_ACKED == 2 ^ 32 - 1)
      && ran pt8 (.portTrained 2 15 3 0) (fun u => u.portState 2 == 3) && ran pt8 (.portTrained 2 15 3 4) (fun u => u.portState 2 == 1) := by
  decide +kernel

/-- Panel time stands at 123,456 at port 2, whose upstream panel keeps the time; at steps 0 to 2 of an exchange; and at a reference panel. -/
def tu (step : Nat) : State :=
  ((((((pt2.jput 2 Reg.CLK_PT.TIME 123456).put panelSite Panel.REF_SET 1).jput 2 Reg.PORT_TIME.UPSTREAM 1).jput 2 Port.EXCH_STEP step).jput 2
    Port.T1 123000).jput 2 Port.T2 123456).jput 2 Port.T3 123456
def tref : State := (tu 0).jput 2 Reg.PORT_TIME.UPSTREAM 0
/-- Site 4 has a pending slew; a step to 5,000 is due at edge 1; and neither, with a large error. -/
def tp (pending : Nat) : State := (State.reset.put 4 Reg.CLK_PT_STATUS.PENDING pending).put 4 Reg.CLK_PT_STATUS.PEND_SIGN 1
def ts0 : State := { tp 7 with timeSteps := [⟨4, true, 5000, false, 1⟩] }

/-- PanelTimeIsExchangedAndCorrected: each clause; a slew of both signs, a slip and a step. -/
theorem test_witness_time :
    [tu 0, tu 1, tu 2, tref, tp 7, ts0].all State.canonical = true ∧ (tu 0).portUsable 2 = true ∧ tref.jget 2 Reg.PORT_TIME.UPSTREAM = 0
      ∧ tref.flag panelSite Panel.REF_SET = true ∧ tref.jget 2 Reg.PORT_CTL.ROLE = 0 ∧ (tu 0).jget 2 Reg.PORT_TIME.UPSTREAM = 1
      ∧ (tu 0).jget 2 Port.EXCH_STEP = 0 ∧ (tu 1).jget 2 Port.EXCH_STEP = 1 ∧ (tu 2).jget 2 Port.EXCH_STEP = 2
      ∧ (let there : Int := (tu 2).jget 2 Port.T2 - (tu 2).jget 2 Port.T1
         let back : Int := (123500 : Nat) - (tu 2).jget 2 Port.T3
         let off := (there - back) / 2 - signed16 ((tu 2).jget 2 Reg.PORT_TIME_ASYM.ASYM)
         (there - back) % 2 = 0 ∧ (there + back) % 2 = 0 ∧ off.natAbs ≤ 4000 ∧ off ≠ 0)
      ∧ hasRouter 4 = true ∧ (tp 7).immediates = [] ∧ (tp 7).get 4 Die.EDGE + 1 < 2 ^ 64 ∧ (tp 7).timeSteps = [] ∧ (tp 7).get 4 Die.SLIP_AT = 0
      ∧ ts0.timeSteps = [⟨4, true, 5000, false, 1⟩] ∧ 1 ≤ ts0.get 4 Die.EDGE + 1 := by
  repeat' apply And.intro
  all_goals decide +kernel

theorem test_timeExchange :
    ran tref (.timeExchange 2) (fun u => u.portOut == [(2, .time 0 1 0), (2, .time 1 1 123456)]) := by decide +kernel
theorem test_sync : ran (tu 0) (.sync 2 7) (fun u => u.jget 2 Port.EXCH == 7 && u.jget 2 Port.EXCH_STEP == 1) := by decide +kernel
theorem test_followUp : ran (tu 1) (.followUp 2 0 123001) (fun u => u.portOut == [(2, .time 2 0 0)] && u.jget 2 Port.T1 == 123001) := by decide +kernel
theorem test_delayReq : ran (tu 0) (.delayReq 2 9) (fun u => u.portOut == [(2, .time 3 9 123456)]) := by decide +kernel
theorem test_delayResp :
    ran (tu 2) (.delayResp 2 0 123500) (fun u => u.jget 2 Reg.PORT_TIME.OFFSET == 206 && u.jget 2 Reg.PORT_TIME.DELAY == 250
      && u.flag (siteOfPort 2) Reg.PORT_TIME.SYNCED) := by decide +kernel
theorem test_correctionEdge :
    ran ((tp 7).put 4 Die.EDGE 2) (.correctionEdge 4 3998) (fun u => u.get 4 Reg.CLK_PT.TIME == 3999 && u.get 4 Reg.CLK_PT_STATUS.PENDING == 6)
      && ran ts0 (.correctionEdge 4 9999) (fun u => u.get 4 Reg.CLK_PT.TIME == 5000 && u.get 4 Reg.CLK_PT_STATUS.PENDING == 0) := by decide +kernel
theorem test_timeUpdate :
    ran (tp 7) (.timeUpdate 4 false 10 false 9) (fun u => u.get 4 Reg.CLK_PT_STATUS.PENDING == 3 && !u.flag 4 Reg.CLK_PT_STATUS.PEND_SIGN)
      && ran (tp 7) (.timeUpdate 4 true 10 false 9) (fun u => u.timeSteps.length == 1 && u.get 4 Reg.CLK_PT_STATUS.LATE == 0) := by decide +kernel
/-! ### Host commands (13) -/

/-- Bring-up is done, and port 0 is the host port. -/
def cs : State :=
  (((((((State.reset.put panelSite Boot.RELEASED 1).put panelSite Reg.CTL_BOOT.STAGE 7).jput 0 Reg.PORT_CTL.HOSTPORT 1).jput 0 Reg.PORT_CTL.ROLE
    1).jput 0 Reg.PORT_STATUS.STATE 2).jput 0 Reg.PORT_STATUS.TX_SETS 15).jput 0 Reg.PORT_STATUS.RX_SETS 15)
/-- A command with `len` bytes of parameters. -/
def ch (len : Nat) : CmdHdr := { hdr with length := len, received := len }
/-- The statuses and words of the replies to a command. -/
def replied (s : State) (i : Instr) (p : List (Nat × List Nat) → Bool) : Bool := ran s i fun u => p (u.replies.map fun r => (r.status, r.words))

def nq : Notice := cs.dieNotice 4 63 0x0604 3 1 2
/-- Three notices in the queue; debug mode with site 3 alive, AUTOINC and the last pair of a slot selected. -/
def cq : State := ({ cs with noticeQueue := [⟨1, { nq with time := 9 }⟩, ⟨2, { nq with time := 9 }⟩, ⟨3, { nq with time := 9 }⟩] }).put panelSite Reg.CTL_NOTICE_STATUS.HELD 3
def cg : State :=
  (((((cs.put panelSite Reg.SEC_STATUS.DEBUG 1).put panelSite (Reg.MESH_ALIVE.ALIVE 3) 1).cput c0 Reg.CORE_MX_DBG_ADDR.AUTOINC 1).cput c0
    Reg.CORE_MX_DBG_ADDR.INDEX 1023).wr (coreKey c0 Mem.ACC (1023 * 8)) [1, 2, 3, 4, 5, 6, 7, 8])
/-- Site 4 and the die of port 4 are alive, and the panel's number is set. -/
def cl : State :=
  ((cs.put panelSite (Reg.MESH_ALIVE.ALIVE 4) 1).put panelSite (Reg.MESH_ALIVE.ALIVE (siteOfPort 4)) 1).put panelSite Panel.NUMBER_SET 1
def csrA : Nat := csrAddr 245 0x600000

/-- The commands below are taken: whole, in sequence, of as many bytes as they need. -/
theorem test_witness_takes :
    ∀ x ∈ [(cs, 0), (cs, 8), (cs, 16), (cs, 24), (cs, 32), (cs, 64), (cs, 80), (cs, 96), (cq, 8), (cg, 16), (cg, 24), (cl, 8), (cl, 16)],
      x.1.takes (ch x.2) x.2 := by
  unfold State.takes; decide +kernel

/-- HostQueriesAnswer: registers of the control die, a notice queue, a debug read. -/
theorem test_witness_queries :
    [cs, cq, cg, cl].all State.canonical = true ∧ cs.readable csrA ∧ cs.readable (csrA + 8) ∧ cq.noticeQueue.length = cq.get panelSite Reg.CTL_NOTICE_STATUS.HELD
      ∧ c0.wf = true ∧ cg.debugMode = true ∧ cg.reachable 3 = true ∧ cg.flag 3 Reg.MESH_STATUS.LOCAL_FENCED = false
      ∧ cg.cget c0 Reg.CORE_SCHED_STATUS.STATE ≠ 1 ∧ cg.cget c0 Reg.CORE_SCHED_STATUS.STATE ≠ 2
      ∧ wordsIn cg.sramUpset (coreKey c0 Mem.ACC (cg.dbgPair c0)) 8 = [] := by
  unfold State.readable; repeat' apply And.intro
  all_goals decide +kernel

theorem test_identify : replied cs (.identify (ch 0)) (fun r => r.map (·.1) == [0]) := by decide +kernel
theorem test_getStatus : replied cs (.getStatus (ch 0)) (fun r => r.map (·.1) == [0]) := by decide +kernel
theorem test_getPowerThermal : replied cs (.getPowerThermal (ch 0)) (fun r => r.map (·.1) == [0]) := by decide +kernel
theorem test_getRoster_words : cs.rosterWords.length = 81 := by decide +kernel
theorem test_echo : replied cs (.echo (ch 8) [1, 2, 3, 4, 5, 6, 7, 8]) (fun r => r == [(0, [0x0807060504030201])]) := by decide +kernel
theorem test_readCsr : replied cq (.readCsr (ch 16) csrA 2 0) (fun r => r.map (fun x => (x.1, x.2.length)) == [(0, 2)]) := by decide +kernel
theorem test_readCounters : replied cq (.readCounters (ch 8) [csrA]) (fun r => r.map (fun x => (x.1, x.2.length)) == [(0, 1)]) := by decide +kernel
theorem test_readNotices :
    ran cq (.readNotices (ch 8) 2 true 0) (fun u => u.noticeQueue.length == 3)
      && ran cq (.readNotices (ch 8) 2 false 0) (fun u => u.noticeQueue.map (·.seq) == [3]) := by decide +kernel
theorem test_dbgDataRead :
    ran cg (.dbgDataRead (ch 16) c0) (fun u => u.replies.map (·.words) == [[0x0807060504030201]] && u.cget c0 Reg.CORE_MX_DBG_ADDR.INDEX == 0
      && u.cget c0 Reg.CORE_MX_DBG_ADDR.SLOT == 1) := by decide +kernel

def team0 : List Nat := 32771 :: List.range 31
def csrP : Nat := csrAddr (siteOfPort 4) 0x300008

/-- HostSettingsApply: values at the ends of their ranges. -/
theorem test_witness_settings :
    ([0, 100, 1000] : List Nat).all (fun a => a == 0 || (100 ≤ a && a ≤ 1000)) = true ∧ (80 + 8 * ((3 + 1) / 2) : Nat) = 96 ∧ team0.length = 32
      ∧ (∀ e ∈ team0, e ≤ 65535 ∧ bitsOf e 14 12 = 0) ∧ 4093 + 3 ≤ 4096 ∧ cs.squadsIdle = true ∧ cs.proxies = []
      ∧ cl.flag panelSite Panel.NUMBER_SET = true ∧ csrOk csrP = true
      ∧ unitAt cl.controlSite (csrSite csrP) (csrOff csrP) = some (.port, 0, 0x300008) ∧ cl.regFenced csrP = none
      ∧ cl.reachable (csrSite csrP) = true ∧ sharedOff 0x300008 = false
      ∧ (∀ f ∈ fieldsAt .port 0x300008, ∀ e ∈ cmdFlds (ch 16), fldKey (csrSite csrP) (f.nth 0) ≠ fldKey e.1 e.2)
      ∧ (fieldsAt .port 0x300008).any (fun f => f.acc == .rw) = true
      ∧ cg.debugMode = true ∧ hasRouter 3 = true ∧ cg.reachable 3 = true ∧ cg.flag 3 Reg.MESH_STATUS.LOCAL_FENCED = false ∧ 64 ≤ 8 * 8 := by
  repeat' apply And.intro
  all_goals decide +kernel

theorem test_setPowerCap :
    ran cs (.setPowerCap (ch 8) 9000 0) (fun u => u.get panelSite Reg.PWR_PANEL.HOST_CAP == 9000)
      && replied cs (.setPowerCap (ch 8) 999 0) (fun r => r.map (·.1) == [St.BAD_PARAM]) := by decide +kernel
theorem test_setBlockLimits :
    ran cs (.setBlockLimits (ch 32) (1000 :: List.replicate 15 0)) (fun u => u.get panelSite (Reg.PWR_BLOCK.BUDGET 0) == 1000 * 17 / 11) := by
  decide +kernel
theorem test_setCoolant : ran cs (.setCoolant (ch 8) 4500 4000 0) (fun u => u.get panelSite Reg.THM_COOLANT.HOST_FLOW == 4000) := by decide +kernel
theorem test_setPortRoutes :
    ran cs (.setPortRoutes (ch 96) 15 3 9 11 4093 team0 [1, 2, 255] 0) (fun u => u.get panelSite Panel.NUMBER == 9
      && u.get panelSite Panel.CAPTAIN == 11 && u.get panelSite (Reg.PORT_TEAM.PANEL 0) == 3 && u.jget 3 (Reg.PORT_ROUTE.ENTRY 4095) == 255) := by
  decide +kernel
theorem test_timeSync :
    ran cl (.timeSync (ch 8) 4095 5 0) (fun u => u.get panelSite Panel.REF == 4095 && u.jget 5 Reg.PORT_TIME.UPSTREAM == 1) := by decide +kernel
theorem test_setTime :
    ran cl (.setTime (ch 8) 77) (fun u => u.replies == [] && (u.immediates.map fun d => d.amount) == [257]
      && (u.timeOut.map fun x => (x.step, x.value)).head? == some (true, 77 + 4000 * 256)) := by decide +kernel
theorem test_writeCsr : replied cl (.writeCsr (ch 16) csrP 0) (fun r => r.map (·.1) == [0]) := by decide +kernel
theorem test_scanAccess : replied cg (.scanAccess (ch 24) 3 2 1 64 [1, 2, 3, 4, 5, 6, 7, 8] 0) (fun r => r.map (·.1) == [0]) := by decide +kernel

/-- A state in which stack 9's die and site 5 are alive; with the life cycle at provisioning. -/
def cr : State :=
  (((cs.put panelSite (Reg.MESH_ALIVE.ALIVE (siteOfStack 9)) 1).put panelSite (Reg.MESH_ALIVE.ALIVE 5) 1).put panelSite Reg.SEC_STATUS.LCS 1).put
    panelSite Reg.PWR_GRADE.GRADE 1
def wX : Word := 0xFFFFABCD55CF

/-- RegisterWritesAct: each clause. -/
theorem test_witness_registerWrites :
    cr.canonical = true ∧ (hasRouter (siteOfStack 9) && cr.reachable (siteOfStack 9) && hasRouter 5 && cr.reachable 5) = true
      ∧ cr.flag (siteOfStack 9) Reg.MESH_STATUS.LOCAL_FENCED = false ∧ cr.flag (siteOfStack 9) Hub.DRAINING = false ∧ cr.hubRecords = []
      ∧ wX.getLsbD 10 = true ∧ cr.flag cr.controlSite Reg.MESH_STATUS.LOCAL_FENCED = false ∧ cr.lifeCycle ≤ 1
      ∧ (5 : Word).toNat % 4 = cr.get panelSite Reg.PWR_GRADE.GRADE ∧ cr.get panelSite Reg.PWR_GRADE.GRADE < (3 : Word).toNat % 4
      ∧ cr.get panelSite Fuse.GRADES < 4 ∧ cr.provisioned < 8 ∧ (12 : Word).toNat % 8 ≠ cr.provisioned
      ∧ cr.get panelSite Reg.SEC_PROVISION.HOSTPORT_ROWS < 8 := by
  repeat' apply And.intro
  all_goals decide +kernel

theorem test_retrain :
    ran cr (.retrain (ch 16) 9 0xF0F) (fun u => u.get (siteOfStack 9) (Reg.HUB_CHAN_STATUS.CHAN 11) == 1
      && u.get (siteOfStack 9) (Reg.HUB_CHAN_STATUS.CHAN 4) == 0) := by decide +kernel
theorem test_acceptAtom :
    ran cr (.acceptAtom (ch 16) 9 0) (fun u => !u.flag (siteOfStack 9) Reg.HUB_CTL.ACCEPT_ATOM && u.flag (siteOfStack 9) Hub.DRAINING) := by decide +kernel
theorem test_resetsOfMinima :
    ran (cr.put 5 Reg.CLK_CORE_STATUS.FREQ 55) (.minReset (ch 16) 5) (fun u => u.get 5 Reg.CLK_CORE_STATUS.MIN_CODE == 55)
      && ran cr (.slackMinReset (ch 16) 5) (fun u => u.get 5 Reg.CLK_MARGIN.MIN_SLACK == 255)
      && ran (cr.put 5 Reg.PWR_DIE_BUDGET.PEAK 9) (.peakReset (ch 16) 5) (fun u => u.get 5 Reg.PWR_DIE_BUDGET.PEAK == 0) := by decide +kernel
theorem test_i3cStart :
    ran cr (.i3cStart (ch 16) wX) (fun u => u.flag panelSite Reg.CTL_I3C_STATUS.BUSY)
      && ran (cr.put panelSite Reg.CTL_I3C_STATUS.BUSY 1) (.i3cStart (ch 16) wX) (fun u => u.flag panelSite Reg.CTL_I3C_STATUS.OVERRUN) := by
  decide +kernel
theorem test_grade : ran cr (.grade (ch 16) 3) (fun u => u.get panelSite Reg.PWR_GRADE.GRADE == 3 && u.get panelSite Fuse.GRADES == 1) := by decide +kernel
theorem test_hostport :
    ran cr (.hostport (ch 16) 12) (fun u => u.get panelSite Reg.SEC_PROVISION.HOSTPORT == 4 && u.flag panelSite Reg.SEC_PROVISION.HOSTPORT_SET) := by
  decide +kernel

/-- Squad 3 runs, with logical die 7 on site 48; and a BENCH die, a DOWN port 5, a reset under way. -/
def cz : State :=
  ((((cs.setSquad 3 Squad.RUNNING).put panelSite (Reg.SQD_MEMBERS.DIE 3 7) 1).put panelSite (Reg.CTL_ROSTER_LDIE.PLACED 7) 1).put panelSite
    (Reg.CTL_ROSTER_LDIE.SITE 7) 48).put panelSite (Reg.CTL_ROSTER_SITE.STATE 48) 0
def benchS : Nat := benchSite 0
def cb : State := (cs.put panelSite (Reg.CTL_ROSTER_SITE.STATE benchS) 1).put benchS Reg.PWR_DIE_STATUS.VIN_SW 1
def cp : State := (cs.jput 5 Reg.PORT_STATUS.STATE 6).jput 5 Reg.PWR_DIE_STATUS.VIN_SW 1
def cy : State := cs.put panelSite Reg.CTL_RESET_STATUS.BUSY 1
/-- A value for CTL_RESET. -/
def rv (scope target : Nat) : Word := BitVec.ofNat 64 (scope + 8 * target)

/-- ResetScopesStart: every scope, and a BUSY one. -/
theorem test_witness_resets :
    (∀ s ∈ [cr, cz, cb, cp, cy], s.takes (ch 16) 16) ∧ [cz, cb, cp, cy].all State.canonical = true
      ∧ cz.resetBusy = false ∧ cb.resetBusy = false ∧ cp.resetBusy = false ∧ cy.resetBusy = true ∧ bitsOf (rv 3 48).toNat 2 0 = 3
      ∧ bitsOf (rv 3 48).toNat 18 3 = 48 ∧ cz.squadState 3 = Squad.RUNNING ∧ isCompute 48 = true ∧ cz.siteState 48 = Site.ACTIVE
      ∧ cz.siteSquad 48 = some 3 ∧ isCompute benchS = true ∧ cb.siteState benchS = Site.BENCH ∧ cb.siteSquad benchS = none
      ∧ cb.powerUp benchS = none ∧ cp.portState 5 = Port.DOWN ∧ cp.jget 5 Reg.PWR_DIE_STATUS.VIN_SW = 1 := by
  unfold State.takes; repeat' apply And.intro
  all_goals decide +kernel

theorem test_computeReset :
    ran cz (.computeReset (ch 16) (rv 1 0)) (fun u => u.resetBusy && (u.get panelSite Reg.SQD_LINES.WHISTLE).testBit 16)
      && ran cy (.computeReset (ch 16) (rv 1 0)) (fun u => u.get panelSite Reg.CTL_RESET_STATUS.REJECTS == 1) := by decide +kernel
theorem test_squadReset :
    ran cz (.squadReset (ch 16) (rv 2 8)) (fun u => u.get panelSite Reg.SQD_LINES.WHISTLE == 8 && u.get panelSite (Reg.SQD_STATUS.CAUSE 3) == Cause.STOP)
      := by decide +kernel
theorem test_dieComputeReset :
    ran cz (.dieComputeReset (ch 16) (rv 3 48)) (fun u => u.get panelSite (Reg.SQD_STATUS.CAUSE 3) == Cause.ROSTER)
      && ran cb (.dieComputeReset (ch 16) (rv 3 benchS)) (fun u => u.get benchS Reg.PWR_DIE_STATUS.VIN_SW == 0 && u.powerUps.length == 1) := by
  decide +kernel
theorem test_portRetrain : ran cp (.portRetrain (ch 16) (rv 4 5)) (fun u => u.portState 5 == Port.TRAINING) := by decide +kernel
/-! ### Runs (12) -/

/-- A squad in a state, with one die on site `k`. -/
def sqd (n st k : Nat) (s : State) : State :=
  (((s.setSquad n st).put k Reg.DIE_SIDEBAND.MEMBER 1).put k Reg.DIE_SIDEBAND.SQUAD n).put k Reg.DIE_SIDEBAND.OBEY (65536 + 2 ^ n)
def verified (s : State) : State := s.put panelSite Reg.SQD_PANEL.IMAGE_VERIFIED 1
/-- Squads 3 and 4 are LOADED; squad 3 is PAUSED with a thread held, or RUNNING, or PAUSED with a saved image, or STOPPED. -/
def sl0 : State := (sqd 4 Squad.LOADED 6 (sqd 3 Squad.LOADED 4 cs)).cput ⟨4, 5⟩ (Reg.CORE_FT_THREAD.EN 7) 1
def sp0 : State :=
  ((sqd 3 Squad.PAUSED 4 cs).cput ⟨4, 5⟩ (Reg.CORE_FT_THREAD.STATE 7) Thread.HELD).cput ⟨4, 5⟩ Reg.CORE_SCHED_STATUS.STATE 3
def sr0 : State := verified (sqd 3 Squad.RUNNING 4 cs)
def se0 : State :=
  let s := (verified (sqd 3 Squad.PAUSED 4 cs)).put panelSite Reg.SQD_PANEL.EVAC_VALID 1
  s.memWrite s.evacBase (((s.evacHeader 8 0).take 16).map fun b => (b, false))
def st5 : State := (sqd 3 Squad.STOPPED 4 cs).put 4 Reg.PWR_DIE_STATUS.VIN_SW 1
/-- HBM is clean; nothing is there. -/
def si0 : State := cs.put panelSite Reg.SQD_PANEL.HBM_CLEAN 1

/-- RunCommandsStart: each clause. -/
theorem test_witness_runCommands :
    (∀ s ∈ [sl0, sp0, sr0, se0, st5, verified cs], s.takes (ch 8) 8 ∧ s.canonical = true) ∧ si0.takes (ch 80) 80 ∧ si0.canonical = true
      ∧ squadList 24 = [3, 4] ∧ squadList 8 = [3] ∧ [3, 4].all (fun n => sl0.squadState n == Squad.LOADED) = true
      ∧ sl0.squadSites 3 = [4] ∧ sp0.reissue = [] ∧ sp0.squadState 3 = Squad.PAUSED ∧ sp0.flag panelSite (Reg.SQD_STATUS.LATCHED 3) = false
      ∧ se0.flag panelSite Reg.SQD_PANEL.IMAGE_VERIFIED = true ∧ se0.squadState 3 = Squad.PAUSED ∧ [3].all se0.evacOk = true
      ∧ sr0.squadState 3 = Squad.RUNNING ∧ sr0.flag panelSite Reg.SQD_PANEL.IMAGE_VERIFIED = true
      ∧ (∀ k ∈ sr0.squadSites 3, ∀ c ∈ coresOf k, sr0.cget c Reg.CORE_SCHED_STATUS.STATE ≠ 4)
      ∧ st5.squadState 3 ≠ Squad.RUNNING ∧ si0.squadsIdle = true ∧ si0.flag panelSite Reg.SQD_PANEL.HBM_CLEAN = true ∧ si0.windows = []
      ∧ (verified cs).squadState 3 = Squad.IDLE ∧ 2 ^ 42 - 4096 + 4096 ≤ 2 ^ 42 := by
  unfold State.takes; repeat' apply And.intro
  all_goals decide +kernel

theorem test_kickoff :
    ran sl0 (.kickoff (ch 8) 8 0) (fun u => u.squadState 3 == Squad.RUNNING && u.cget ⟨4, 47⟩ Reg.CORE_SCHED_STATUS.STATE == 1
      && u.tget ⟨4, 5, 7⟩ Reg.CORE_FT_THREAD.STATE == Thread.RUN && u.squadState 4 == Squad.LOADED) := by decide +kernel
theorem test_pause :
    ran sr0 (.pause (ch 8) 8 9 0) (fun u => u.flag panelSite (Reg.SQD_STATUS.PAUSE_PENDING 3) && u.replies.map (·.status) == [St.ACCEPTED]) := by
  decide +kernel
theorem test_halfTime :
    ran sr0 (.halfTime (ch 8) 8 9 0) (fun u => u.flag panelSite (Reg.SQD_STATUS.PAUSE_PENDING 3) && u.deferred.length == 1) := by decide +kernel
theorem test_stop :
    ran sr0 (.stop (ch 8) 8 true 0) (fun u => u.get panelSite Reg.SQD_LINES.WHISTLE == 8 && u.deferred.length == 1) := by decide +kernel
theorem test_scrub : ran st5 (.scrub (ch 8) 24 0 0) (fun u => u.flag 4 Die.CLEARING && !u.flag 6 Die.CLEARING) := by decide +kernel
/-- An outstanding command of the host port. -/
def def0 (op : Nat) (i : Instr) (step : Nat) (slot : Option Nat := none) : Deferred := ⟨0, op, 77, 5, 3, false, slot, i, step, 0, 0⟩
def withDef (s : State) (d : Deferred) : State := { s with deferred := [d] }
def dLoad : Deferred := def0 Op.LOAD_IMAGE (.loadImage (ch 80) 4096 4096 7) 1
def dConf (step : Nat) : Deferred := def0 Op.CONFIGURE (.configure (ch 8) 16 0) step
def dPause : Deferred := def0 Op.PAUSE (.pause (ch 8) 24 5 0) 1
def dHalf : Deferred := def0 Op.HALF_TIME (.halfTime (ch 8) 24 5 0) 2 (some 0)
def dResume : Deferred := def0 Op.RESUME (.resume (ch 8) 16 true 0) 1
def dScrub : Deferred := def0 Op.SCRUB (.scrub (ch 8) 24 0 0) 1 (some 0)
/-- Every core of squad 3's die has ended; a pause is pending; its line has latched; squads 3 and 4 STOPPED and PAUSED. -/
def sd0 : State :=
  (coresOf 4).foldl (fun s c => s.cput c Reg.CORE_SCHED_STATUS.STATE 4) ((sqd 3 Squad.RUNNING 4 cs).put panelSite (Reg.SQD_STATUS.PAUSE_PENDING 3) 1)
def sd2 : State :=
  (((sqd 3 Squad.RUNNING 4 cs).put panelSite (Reg.SQD_STATUS.CAUSE 3) 4).put panelSite (Reg.SQD_STATUS.SITE 3) 44).put 4 Reg.DIE_SIDEBAND.LATCH 8
def sd3 : State := sqd 4 Squad.PAUSED 6 (sqd 3 Squad.STOPPED 4 cs)
def sd4 : State := sqd 4 Squad.LOADED 6 cs

/-- RunEventsComplete: each clause. -/
theorem test_witness_runEvents :
    [sd0, sd2, sd3, sd4].all State.canonical = true ∧ sd0.settled ∧ sd2.settled ∧ sd0.pauseDone 3 = true ∧ sd2.stopReady 3 = true
      ∧ sd0.squadDone 3 = true
      ∧ (∀ d ∈ [dLoad, dConf 1, dConf 2, dPause, dHalf, dResume, dScrub], (withDef sd3 d).canonical = true ∧ (withDef sd3 d).canEnd d)
      ∧ sd3.cleared (sd3.maskSites 24) = true ∧ sd3.flag panelSite Panel.SCRUBBING = false := by
  unfold State.settled State.canEnd; repeat' apply And.intro
  all_goals decide +kernel

theorem test_squadStopped :
    ran sd2 (.squadStopped 3) (fun u => u.squadState 3 == Squad.STOPPED && u.noticeBuf.map (fun n => (n.typ, n.arg0, n.arg1)) == [(0x0701, 4, 44)]) := by
  decide +kernel
theorem test_pauseLimit :
    ran (withDef sd3 dPause) (.pauseLimit 24) (fun u => (u.replies.map fun r => (r.status, r.words)) == [(St.TIMED_OUT, [16])]) := by decide +kernel
theorem test_scrubDone :
    ran (withDef sd3 dScrub) .scrubDone (fun u => u.squadState 3 == Squad.SCRUBBED && u.squadState 4 == Squad.SCRUBBED) := by decide +kernel
theorem test_configureDrainEnd :
    ran (withDef sd4 (dConf 1)) .configureDrainEnd (fun u => (u.deferred.map (·.step)) == [2]) := by decide +kernel

/-! ### The roster, power-ups and supplies (14, 17) -/

def lx (step : Nat) (live : Bool) : Subst := ⟨false, live, 7, benchS, 0, false, step⟩
def dSub : Deferred := def0 Op.SUBSTITUTE (.substitute (ch 8) 7 benchS 1 0) 1
/-- A FENCED bench die; a live substitution whose copy is under way; a neighbour of site 20 that holds its port down. -/
def ro0 : State := (cb.put panelSite (Reg.CTL_ROSTER_SITE.STATE benchS) 2).countRoster
def ro1 : State :=
  { (cb.wr (coreKey ⟨0, 3⟩ Mem.SP 100) [7, 8]).put panelSite (Reg.CTL_ROSTER_SITE.STATE benchS) 4 with substs := [lx 5 true], deferred := [dSub] }
def ro2 : State :=
  (cs.put ((cs.farSite 20 1).getD 0) (Reg.MESH_PORT.STATE 3) 2).put panelSite (Reg.MESH_ALIVE.ALIVE 20) 1

/-- RosterChanges: each clause. -/
theorem test_witness_roster :
    (∀ s ∈ [cz, cb, ro0], s.takes (ch 8) 8) ∧ (∀ s ∈ [cz, cb, ro0, ro1, ro2], s.canonical = true ∧ s.ownFences = [] ∧ s.resetBusy = false
        ∧ s.get panelSite Sec.TAMPER_STEP = 0)
      ∧ isCompute 48 = true ∧ cz.substs = [] ∧ cz.siteSquad 48 = some 3 ∧ cz.squadState 3 = Squad.RUNNING ∧ cz.siteState 48 = Site.ACTIVE
      ∧ ro0.siteState benchS = Site.FENCED ∧ ro0.rosterDie benchS = none ∧ ro0.get panelSite Reg.CTL_ROSTER_STATUS.RETIRED_USED < 48
      ∧ (∀ i < 48, ro0.get panelSite (Reg.CTL_ROSTER_FUSE.VALID i)
          = if i < ro0.get panelSite Reg.CTL_ROSTER_STATUS.RETIRED_USED then 1 else 0)
      ∧ cb.alive benchS = true ∧ cb.liveSquad 4 = none ∧ cb.powerUp benchS = none ∧ cb.siteState benchS = Site.BENCH
      ∧ ro1.substs = [lx 5 true] ∧ ro1.timeout = none ∧ (lx 5 true).old ≠ (lx 5 true).bench ∧ ro1.canEnd dSub
      ∧ ro1.siteState benchS = Site.INCOMING ∧ ro1.get ro1.controlSite Reg.DIE_NOTICE.BUFFERED ≤ 8
      ∧ hasRouter 20 = true ∧ ro2.alive 20 = true ∧ 20 ≠ ro2.controlSite ∧ ro2.waitTimeouts = [] ∧ ro2.siteSquad 20 = none
      ∧ ((List.range 4).any fun p => (ro2.farSite 20 p).any fun f => ro2.portDown f ((p + 2) % 4)) = true ∧ dieKind 20 ≠ .link := by
  unfold State.takes State.canEnd; repeat' apply And.intro
  all_goals decide +kernel

theorem test_fenceDie :
    ran cz (.fenceDie (ch 8) 48 0) (fun u => u.get panelSite (Reg.SQD_STATUS.CAUSE 3) == Cause.ROSTER && u.deferred.length == 1) := by decide +kernel
theorem test_substitute :
    ran cb (.substitute (ch 8) 4 benchS 0 0) (fun u => u.powerUps.length == 1 && u.get panelSite Reg.CTL_ROSTER_STATUS.SUB_STEP == 2) := by
  decide +kernel
theorem test_bulkCopyDone :
    ran ro1 .bulkCopyDone (fun u => mapGet 0 u.sram (coreKey ⟨benchS, 3⟩ Mem.SP 101) == 8 && u.substs.map (·.step) == [6]) := by decide +kernel
theorem test_copyStall :
    ran ro1 .copyStall (fun u => u.substs == [] && u.replies.map (·.status) == [St.HW_FAULT] && u.siteState benchS == Site.BENCH) := by decide +kernel
def dRoll (slot : Option Nat) : Deferred := def0 Op.ROLL_CALL (.rollCall (ch 8) 3 0) 1 slot
/-- A power-up waits for admission; one of a substitution; self-tests; a `ROLL_CALL` of block 3 in its steps; block 3 with its supply. -/
def pu0 : State :=
  ({ cs with powerUps := [⟨33, Why.BRINGUP, 0⟩, ⟨2, Why.RESET, 0⟩] }.put panelSite (Reg.PWR_BLOCK.PWRGOOD 0) 1).put panelSite Reg.THM_PANEL.FLOW_OK 1
def pu1 : State := { withDef cs dSub with substs := [lx 2 true], powerUps := [⟨benchS, Why.SUBST, 0⟩] }
def pu2 : State := { cs.put panelSite Reg.CTL_BOOT.STAGE 3 with powerUps := [⟨33, Why.BRINGUP, 1⟩] }
def pu3 : State := ((withDef cs (dRoll none)).put panelSite (Reg.PWR_BLOCK.STATE 3) 3).put panelSite (Reg.PWR_BLOCK.EN 3) 1
def pu4 : State := (vinSites 3).foldl (fun s k => s.put panelSite (Reg.CTL_ROSTER_SITE.STATE k) 0) (pu3.put panelSite (Reg.MESH_ALIVE.ALIVE 12) 1)
def pu5 : State :=
  { ((pu3.put panelSite (Reg.CTL_ROSTER_SITE.STATE 12) 0).put panelSite (Reg.PWR_BLOCK.PWRGOOD 3) 1).put 12 Reg.PWR_DIE_STATUS.VIN_SW 1 with
    deferred := [dRoll (some St.OK)]
    powerUps := [⟨12, Why.ROLL, 1⟩] }
def pu6 (st : Nat) : State := (((cs.put panelSite (Reg.PWR_BLOCK.PWRGOOD 3) 1).put panelSite (Reg.PWR_BLOCK.STATE 3) st).put panelSite (Reg.PWR_BLOCK.EN 3) 1)
def pu7 : State := (cs.put panelSite (Reg.PWR_BLOCK.EN 3) 1).put panelSite Reg.THM_PANEL.FLOW_OK 1

/-- PowerUpsAndBlocks: each clause. -/
theorem test_witness_powerUps :
    (∀ s ∈ [pu0, pu1, pu2, pu3, pu4, pu5, pu6 1, pu6 2, pu7, cs], s.canonical = true ∧ s.ownFences = [] ∧ s.resetBusy = false
        ∧ s.get panelSite Sec.TAMPER_STEP = 0)
      ∧ pu0.waitingPower 0 = some ⟨33, Why.BRINGUP, 0⟩ ∧ pu0.powerUps.filter (fun x => x.site == 33) = [⟨33, Why.BRINGUP, 0⟩]
      ∧ pu0.admissible 33 = true ∧ (pu0.put panelSite Reg.THM_PANEL.FLOW_OK 0).admissible 33 = false ∧ isCompute 33 = true
      ∧ (pu1.waitingPower (siteBlock benchS)).map (·.why) = some Why.SUBST ∧ pu1.canEnd dSub ∧ pu1.waitTimeouts = [] ∧ pu1.timeout = none
      ∧ pu2.settled ∧ pu2.get panelSite Reg.CTL_BOOT.STAGE < 5 ∧ pu2.flag 33 Die.FAILED = false
      ∧ linkBlocks.contains 3 = false ∧ cs.squadsOn (vinSites 3) = [] ∧ cs.substs = [] ∧ cs.powerUps = [] ∧ cs.takes (ch 8) 8
      ∧ pu3.canEnd (dRoll none) ∧ pu3.get panelSite (Reg.PWR_BLOCK.STATE 3) = 3 ∧ pu3.flag panelSite (Reg.PWR_BLOCK.PWRGOOD 3) = false
      ∧ pu4.flag panelSite (Reg.PWR_BLOCK.EN 3) = true ∧ (vinSites 3).any pu4.alive = true
      ∧ (∀ k ∈ vinSites 3, pu4.alive k = true → isCompute k = true → pu4.siteState k = Site.ACTIVE)
      ∧ siteBlock 12 = 3 ∧ isCompute 12 = true ∧ pu5.flag panelSite (Reg.PWR_BLOCK.PWRGOOD 3) = true ∧ pu5.siteState 12 = Site.ACTIVE
      ∧ pu5.canEnd (dRoll (some St.OK)) ∧ pu5.rosterDie 12 = none
      ∧ (pu6 1).settled ∧ (pu6 1).squadsOn (vinSites 3) = [] ∧ (pu6 1).get panelSite (Reg.PWR_BLOCK.STATE 3) = 1
      ∧ (pu6 2).get panelSite (Reg.PWR_BLOCK.STATE 3) = 2 ∧ pu7.settled ∧ pu7.get panelSite (Reg.PWR_BLOCK.STATE 3) = 0 ∧ pu7.inRecovery = false
      ∧ ∀ s ∈ [pu4, pu6 1, pu6 2, pu7], s.flag panelSite Boot.RELEASED = true := by
  unfold State.takes State.canEnd State.settled; repeat' apply And.intro
  all_goals decide +kernel

theorem test_admissionDeferred :
    ran pu1 (.admissionDeferred (siteBlock benchS)) (fun u => u.substs == [] && u.replies.map (·.status) == [St.DEFERRED]) := by decide +kernel
theorem test_selfTestDone :
    ran pu2 (.selfTestDone 33 true) (fun u => u.flag 33 Die.PASSED)
      && ran pu2 (.selfTestDone 33 false) (fun u => u.get panelSite Reg.CTL_BOOT.DIE_FAILS == 1 && u.noticeBuf.map (·.typ) == [0x0C03]) := by
  decide +kernel
theorem test_rollCall :
    ran cs (.rollCall (ch 8) 3 0) (fun u => u.get panelSite (Reg.PWR_BLOCK.STATE 3) == 3 && u.deferred.length == 1) := by decide +kernel
theorem test_rollCallLimit : ran pu3 (.rollCallLimit 3) (fun u => u.replies.map (·.status) == [St.HW_FAULT]) := by decide +kernel
theorem test_siteCheckDone :
    ran pu5 (.siteCheckDone 12 1650 600) (fun u => (u.replies.map fun r => (r.status, r.words)) == [(St.OK, [0])])
      && ran pu5 (.siteCheckDone 12 1650 601) (fun u => u.siteState 12 == Site.FENCED) := by decide +kernel
theorem test_pwrgoodAssert :
    ran pu4 (.pwrgoodAssert 3) (fun u => u.powerUps.head? == some ⟨12, Why.ROLL, 0⟩) && ran pu7 (.pwrgoodAssert 3) (fun u =>
      u.get panelSite (Reg.PWR_BLOCK.STATE 3) == 1 && u.flag panelSite (Reg.PWR_BLOCK.PWRGOOD 3)) := by decide +kernel
theorem test_pwrgoodFall :
    ran (pu6 1) (.pwrgoodFall 3) (fun u => u.get panelSite (Reg.PWR_BLOCK.STATE 3) == 2 && u.noticeBuf.map (·.typ) == [0x0A05]) := by decide +kernel

/-! ### Windows, fills and scans (13, 20) -/

def dOpen : Deferred := def0 Op.DATA_OPEN (.dataOpen (ch 24) 0 0 0 0 0 0) 1
/-- Write window 2 of port 0 over 1,024 bytes at 512, where DATA has reached `nx`. -/
def win (nx : Nat) : Window := ⟨2, 0, [0], 77, false, 4096, 512, 1024, [nx], [0], [], [], 0, 0, none, []⟩
def wi (w : Window) : State := { withDef cs dOpen with windows := [w] }
def wClosing : Window := { win 1024 with closing := some (0, 0), reqs := [⟨0, 0, 3⟩] }
def d256 : List Byte := (List.range 256).map (BitVec.ofNat 8 ·)
def dScan : Deferred := def0 Op.MARGIN_SCAN (.marginScan (ch 8) 2 255 0) 1

/-- WindowsFillsAndScans: each clause. -/
theorem test_witness_windows :
    (∀ x ∈ [(cs, 24), (cs, 8)], x.1.takes (ch x.2) x.2) ∧ cs.windows = [] ∧ cs.flag panelSite Reg.SQD_PANEL.IMAGE_VERIFIED = false
      ∧ cs.portUsable 0 = true ∧ (ch 24).tag < 65536 ∧ (wi (win 256)).canonical = true ∧ (wi (win 1024)).canonical = true
      ∧ (wi wClosing).canonical = true ∧ (wi (win 256)).canEnd dOpen ∧ dOpen.port = (win 256).arrival ∧ dOpen.tag = (win 256).tag
      ∧ (wi (win 256)).get panelSite Reg.CTL_BOOT.STAGE = 7 ∧ ((win 256).addr + 256) % 256 = 0
      ∧ ((win 256).addr + 256) / 2 ^ 44 = (wi (win 256)).ownPanel ∧ (wi (win 256)).proxies = []
      ∧ (win 1024).length ≤ ((win 1024).done / (win 1024).burst + 1) * (win 1024).burst ∧ wClosing.reqs ≠ [] ∧ (0 : Nat) ≠ St.HW_FAULT
      ∧ (512 : Nat) / 2 ^ 44 = cs.ownPanel ∧ scanSiteOk 2 255 = true ∧ (withDef cs dScan).canonical = true ∧ (withDef cs dScan).canEnd dScan
      ∧ cs.controlDead = false := by
  unfold State.takes State.canEnd; repeat' apply And.intro
  all_goals decide +kernel

theorem test_dataOpen :
    ran cs (.dataOpen (ch 24) (2 ^ 56 + 512) 1000 0 12 0 0) (fun u => (u.windows.map fun w => (w.number, w.addr)) == [(0, 512)]
      && u.jget 0 (Reg.PORT_DATA_WIN.OPEN 0) == 1) := by decide +kernel
theorem test_dataClose : replied cs (.dataClose (ch 8) 3 0) (fun r => r.map (·.1) == [St.ALREADY_DONE]) := by decide +kernel
theorem test_data :
    ran (wi (win 256)) (.data 0 2 256 256 0 false 0 d256) (fun u => (u.hubReqs.map fun r => (r.addr, r.data)) == [(768, d256)])
      && ran (wi (win 256)) (.data 0 2 0 256 0 false 0 d256) (fun u => u.windows == [] && u.replies.map (·.status) == [St.BAD_PARAM]) := by
  decide +kernel
theorem test_windowDrainBound :
    ran (wi wClosing) (.windowDrainBound 0 2) (fun u => u.replies.map (·.status) == [St.WITHDRAWN]) := by decide +kernel
theorem test_fill :
    ran cs (.fill (ch 24) 512 256 77) (fun u => (u.hubReqs.map fun r => (r.opc, r.addr, r.data.take 9)) == [(2, 512, [77, 0, 0, 0, 0, 0, 0, 0, 77])]) := by
  decide +kernel
theorem test_marginScan : ran (withDef cs dScan) .marginScanDone (fun u => u.deferred == []) := by decide +kernel
/-! ### Refusals, `ABORT`, TMO, ports and routers, security (13, 18) -/

/-- SEQ 0 has been taken from port 0. -/
def cv : State := cs.put panelSite (Reg.CTL_CMD_PORT.SEQ_VALID 0) 1
/-- A `CONFIGURE` of tag 78 is outstanding, its slot empty or filled. -/
def dAb (slot : Option Nat) : Deferred := ⟨0, Op.CONFIGURE, 78, 4, 3, false, slot, .configure (ch 8) 3 0, 1, 0, 0⟩
/-- Port 3 is DOWN with its switch closed; or UP with a frame on its way. -/
def cd0 : State := (cs.jput 3 Reg.PORT_STATUS.STATE 6).jput 3 Reg.PWR_DIE_STATUS.VIN_SW 1
def cd1 : State := { cs.jput 3 Reg.PORT_STATUS.STATE 2 with txFrames := [⟨3, true, true, none, fr 0 8⟩] }

/-- CommandsAreChecked, AbortTimeoutAndPortControl: each clause. -/
theorem test_witness_refusals :
    (∀ x ∈ [(cs, 0), (cs, 8), (cs, 208), (cd0, 8), (cd1, 8)], x.1.takes (ch x.2) x.2 ∧ x.1.canonical = true)
      ∧ opcodes.contains 0x999 = false ∧ cs.takes { ch 16 with opcode := 0x999 } 16 ∧ cv.canonical = true ∧ cv.controlDead = false
      ∧ cv.portMute 0 = false ∧ cv.flag panelSite (Reg.CTL_CMD_PORT.SEQ_VALID 0) = true
      ∧ (ch 0).seq ≠ (cv.get panelSite (Reg.CTL_CMD_PORT.LAST_SEQ 0) + 1) % 2 ^ 32 ∧ cv.stored = []
      ∧ cs.portMute 4 = false ∧ cs.flag panelSite (Reg.CTL_CMD_PORT.SEQ_VALID 4) = false ∧ cs.hostPort 4 = false
      ∧ (∀ o ∈ [none, some 0], (withDef cs (dAb o)).canonical = true ∧ (withDef cs (dAb o)).canEnd (dAb o)) ∧ (dAb none).tag ≠ (ch 8).tag
      ∧ cs.stored = [] ∧ cs.proxies = [] ∧ cs.windows = [] ∧ cd0.portState 3 = Port.DOWN ∧ cd0.alive (siteOfPort 3) = true
      ∧ cd0.jget 3 Reg.PWR_DIE_STATUS.VIN_SW = 1 ∧ cd0.flag panelSite Reg.THM_PANEL.AIR = false ∧ cd1.portUsable 3 = true
      ∧ (cd1.txFrames.all fun x => x.sent && x.port == 3) = true ∧ cs.held = [] ∧ (∀ n < 16, cs.squadState n ≠ Squad.RUNNING) := by
  unfold State.takes State.canEnd; repeat' apply And.intro
  all_goals decide +kernel

theorem test_commandBadcrc : ran cs (.commandBadcrc 7) (fun u => u.noticeBuf.map (fun n => (n.typ, n.arg0)) == [(0x0703, 7)]) := by decide +kernel
theorem test_unknownOpcode : replied cs (.unknownOpcode { ch 16 with opcode := 0x999 }) (fun r => r == [(St.BAD_OPCODE, [])]) := by decide +kernel
theorem test_checks :
    replied cv (.identify (ch 0)) (fun r => r == [(St.BAD_PARAM, [1])]) && replied cs (.setPowerCap (ch 0) 3 0) (fun r => r == [(St.BAD_LENGTH, [])])
      && replied cs (.setPowerCap { ch 8 with port := 4 } 3 0) (fun r => r == [(St.NOT_PERMITTED, [])]) := by decide +kernel
theorem test_abort :
    replied cs (.abort (ch 8) 3 78 0) (fun r => r == [(St.BAD_PARAM, [])])
      && replied (withDef cs (dAb (some 0))) (.abort (ch 8) 0 78 0) (fun r => r == [(St.ALREADY_DONE, [])]) := by decide +kernel
theorem test_cmdTmo :
    ran (withDef cs (dAb none)) (.cmdTmo 0 78) (fun u => u.deferred == [] && u.replies.map (·.status) == [St.TIMED_OUT]) := by decide +kernel
theorem test_portControl_train : ran cd0 (.portControl (ch 8) 3 1 0 0) (fun u => u.portState 3 == Port.TRAINING) := by decide +kernel
theorem test_fabricTimeout :
    ran cs (.fabricTimeout (ch 208) TimeoutTables.none 0) (fun u => u.timeout.isSome && u.get 17 Reg.MESH_CTL.TIMEOUT == 1) := by decide +kernel

def dFw (step : Nat) (slot : Option Nat) : Deferred := def0 Op.FW_UPDATE (.fwUpdate (ch 16) 0 512) step slot
def au (kind target arg : Nat) : Auth := { auth with kind := kind, target := target, arg := arg }

/-- SecurityCommands: each clause; whether an authorisation is good is a free value. -/
theorem test_witness_security :
    (∀ n ∈ [8, 16, 424], cs.takes (ch n) n) ∧ cs.windows = [] ∧ cs.hubRecords = [] ∧ 2 ^ 42 - 512 + 512 ≤ 2 ^ 42
      ∧ (withDef cs (dFw 1 none)).canonical = true ∧ (withDef cs (dFw 1 none)).canEnd (dFw 1 none) ∧ cs.inRecovery = false
      ∧ (withDef cs (dFw 2 (some 0))).canEnd (dFw 2 (some 0))
      ∧ ([1, 2, 3, 4, 8].filter fun t => authForm (au 1 t 2) 1 t && lifeArgOk t 2 && cs.lifeState t 2).contains 8 = true
      ∧ lifeArgOk 1 7 = true ∧ cs.lifeState 1 7 = true ∧ authForm (au 1 1 7) 1 1 = true ∧ authForm (au 2 0 0) 2 0 = true ∧ cs.squadsIdle = true
      ∧ cs.flag panelSite Boot.RELEASED = true ∧ cs.flag panelSite Reg.SEC_TAMPER.VALID = false ∧ cs.squadsStill = true := by
  unfold State.takes State.canEnd; repeat' apply And.intro
  all_goals decide +kernel

theorem test_fwUpdate : ran cs (.fwUpdate (ch 16) 0 512) (fun u => u.deferred.map (·.step) == [1] || u.deferred.length == 1) := by decide +kernel
theorem test_tamper :
    ran (cs.put panelSite Sec.IDKEY 8) (.tamper 2) (fun u => u.get panelSite Sec.IDKEY == 0 && u.get panelSite Reg.SEC_TAMPER.CAUSE == 2
      && (u.get panelSite Reg.SQD_LINES.WHISTLE).testBit 16) := by decide +kernel

/-! ### Power, temperatures and the coolant (16, 17) -/

/-- Site 17, a compute die with its supply, at code 60. -/
def pw0 : State :=
  (((((((cs.put 17 Reg.PWR_DIE_STATUS.VIN_SW 1).put 17 Reg.CLK_CORE_STATUS.FREQ 60).put 17 Reg.PWR_DIE_STATUS.PHASE_OK 0xFF).put 17
    Reg.PWR_DIE_STATUS.CAP 80).put 17 Reg.PWR_DIE_STATUS.ISLAND_OK 3).put panelSite (Reg.CTL_ROSTER_SITE.STATE 17) 0).put 17
      Reg.PWR_DIE_BUDGET.BUDGET 400).put 17 Die.P_CEIL 50

/-- PowerEventsAndBudgets: each clause; two phases left out and the largest readings. -/
theorem test_witness_power :
    pw0.canonical = true ∧ isCompute 17 = true ∧ pw0.flag 17 Reg.PWR_DIE_STATUS.VIN_SW = true ∧ pw0.get 17 Reg.CLK_CORE_STATUS.FREQ = 60
      ∧ (∀ v ∈ [1700, 1699, 2047, 1800], v < 2048) ∧ pw0.substs = [] ∧ pw0.siteSquad 17 = none ∧ pw0.siteState 17 = Site.ACTIVE
      ∧ pw0.ownFences = [] ∧ hasRouter 17 = true ∧ (pw0.put 17 Reg.PWR_DIE_STATUS.VAON_SW 1).flag 17 Reg.PWR_DIE_STATUS.VAON_SW = true
      ∧ (pw0.get 17 Reg.PWR_DIE_STATUS.PHASE_OK).testBit 7 = true ∧ 6 ≤ phasesIn (255 - 2 ^ 7) ∧ phasesIn (127 - 2 ^ 3) = 6
      ∧ pw0.get 17 Reg.PWR_DIE_STATUS.ISLAND_OK = 3 ∧ onVin 17 = true ∧ pw0.get 17 (Die.PATH 3) = 0 ∧ pw0.get 17 Die.P_CEIL ≤ 72
      ∧ pw0.controlDead = false := by
  repeat' apply And.intro
  all_goals decide +kernel

theorem test_vinUndervolt :
    ran pw0 (.vinUndervolt 17 2 1500) (fun u => u.get 17 Reg.PWR_DIE_STATUS.VIN_SW == 0 && u.noticeBuf.map (fun n => (n.typ, n.arg0, n.arg1))
      == [(0x0A01, 2, 1500)]) := by decide +kernel
theorem test_vaonOvercurrent :
    ran (pw0.put 17 Reg.PWR_DIE_STATUS.VAON_SW 1) (.vaonOvercurrent 17) (fun u => u.get 17 Reg.PWR_DIE_STATUS.FENCE_CAUSE == 4) := by decide +kernel
theorem test_phaseFail :
    ran pw0 (.phaseFail 17 3) (fun u => u.get 17 Reg.PWR_DIE_STATUS.CAP == 73 && u.get 17 Reg.PWR_DIE_STATUS.PHASE_OK == 0xF7) := by decide +kernel
theorem test_islandCellFail : ran pw0 (.islandCellFail 17 0) (fun u => u.get 17 Reg.PWR_DIE_STATUS.ISLAND_OK == 2) := by decide +kernel
theorem test_pathSample :
    ran pw0 (.pathSample 17 3 5 20 true) (fun u => u.noticeBuf == [])
      && ran pw0 (.pathSample 17 3 5 21 true) (fun u => u.noticeBuf.map (·.typ) == [0x0A04]) := by decide +kernel
theorem test_ceilingControl :
    ran pw0 (.ceilingControl 17 441 0) (fun u => u.get 17 Die.P_CEIL == 46) && ran pw0 (.ceilingControl 17 440 401) (fun u => u.get 17 Die.P_CEIL == 49)
      := by decide +kernel

/-- Its temperatures are watched; it reads hot for the second time. -/
def th17 : State := pw0.put panelSite Reg.THM_CTL.RATE_EN 0
def hot17 : State := (th17.put 17 Thm.BAND 3).put 17 Thm.HOT_RUN 1
def samples (t : Int) : List Reading := List.replicate (hotSpots 17) ⟨t, t, t⟩

/-- TemperaturesAct: a first sample and the second one at 105 degrees. -/
theorem test_witness_temperatures :
    th17.canonical = true ∧ hot17.canonical = true ∧ th17.flag panelSite Reg.THM_CTL.RATE_EN = false
      ∧ (∀ k < 16, th17.flag 17 (Reg.THM_SITE.A_BAD k) = false ∧ th17.flag 17 (Reg.THM_SITE.B_BAD k) = false)
      ∧ th17.get 17 Reg.THM_DIE_STATUS.T_CEIL ≤ 72 ∧ th17.get 17 Thm.HOT_RUN ≠ 1 ∧ th17.get 17 Thm.THROTTLE_AT = 0
      ∧ hot17.get 17 Thm.HOT_RUN = 1 ∧ hot17.get 17 Thm.BAND = 3 ∧ hot17.get 17 Reg.DIE_NOTICE.BUFFERED < 16 ∧ hot17.settled
      ∧ hot17.siteSquad 17 = none ∧ hot17.siteState 17 = Site.ACTIVE := by
  unfold State.settled; repeat' apply And.intro
  all_goals decide +kernel

theorem test_sensorSample :
    ran (th17.put 17 Reg.THM_DIE_STATUS.T_CEIL 40) (.sensorSample 17 (samples 10000)) (fun u => u.get 17 Reg.THM_DIE_STATUS.T_CEIL == 36
      && u.get 17 Reg.THM_DIE_STATUS.TJ == 10000) := by decide +kernel
theorem test_thermtrip :
    ran th17 (.thermtrip 17) (fun u => u.get 17 Reg.THM_DIE_STATUS.TRIP == 1 && u.get u.controlSite Reg.CTL_FAULT.CAUSE == 5) := by decide +kernel

/-- Half the expected coolant rise is missing; flow is lost with squads 3 and 7 to be saved; the hold; and its last step. -/
def co0 : State := ((cs.put panelSite Reg.PWR_PANEL.POWER 9000).put panelSite Reg.THM_PANEL.INLET 3000).put panelSite Reg.THM_PANEL.OUTLET 2000
def co1 : State :=
  verified ((((cs.put panelSite Reg.THM_PANEL.FLOW_OK 1).put panelSite (Reg.SQD_STATUS.STATE 3) Squad.RUNNING).put panelSite (Reg.SQD_STATUS.STATE 7)
    Squad.PAUSED).put panelSite Reg.THM_CTL.RESCUE_PORTS 2)
def co2 : State := ((co1.put panelSite Reg.THM_PANEL.STATE 1).put panelSite Hold.CUT_DUE 1).put panelSite Hold.SAVES 136
def co3 : State := co1.put panelSite Reg.THM_PANEL.STATE 1

/-- FlowLossHoldsThePanel: each clause. -/
theorem test_witness_coolant :
    (∀ s ∈ [co0, co1, co2, co3], s.canonical = true ∧ s.flag panelSite Boot.RELEASED = true ∧ s.deferred = [] ∧ s.substs = [] ∧ s.get s.controlSite Reg.DIE_NOTICE.BUFFERED < 16)
      ∧ co0.get panelSite Reg.THM_COOLANT.HOST_FLOW ≠ 0 ∧ 3000 < co0.get panelSite Reg.PWR_PANEL.POWER
      ∧ (let flow := co0.get panelSite Reg.THM_COOLANT.HOST_FLOW
         let rise : Int := signed16 (co0.get panelSite Reg.THM_PANEL.OUTLET) - signed16 (co0.get panelSite Reg.THM_PANEL.INLET)
         3 * 9000 * 10000 < 10 * (9000 * 10000 - rise * (60 * flow)))
      ∧ co0.get panelSite Thm.MISMATCH_AT = 0 ∧ co1.flag panelSite Reg.THM_PANEL.AIR = false ∧ co1.get panelSite Reg.THM_PANEL.STATE = 0
      ∧ co1.flag panelSite Reg.THM_CTL.RATE_EN = true ∧ co1.flag panelSite Reg.THM_PANEL.FLOW_OK = true
      ∧ (∀ p ∈ ((List.range 8).filter (co1.get panelSite Reg.THM_CTL.RESCUE_PORTS).testBit).take 2, co1.portCarries p = false)
      ∧ co2.get panelSite Reg.THM_PANEL.STATE = 1 ∧ co2.flag panelSite Hold.CUT_DUE = true ∧ co2.ownFences = [] ∧ co2.resetBusy = false
      ∧ co3.flag panelSite Hold.CANCELLED = false ∧ co3.flag panelSite Hold.CUT_DUE = false ∧ cs.flag panelSite Boot.RELEASED = true
      ∧ cs.get panelSite Reg.CTL_BOOT.STAGE ≠ 3 := by
  repeat' apply And.intro
  all_goals decide +kernel

theorem test_lidSample :
    ran co2 (.lidSample (-5) 4000) (fun u => u.get panelSite Reg.THM_PANEL.INLET == 65531 && u.get panelSite Reg.THM_PANEL.HOLD_MS == 1) := by
  decide +kernel
theorem test_flowCheck :
    ran co0 (.flowCheck true) (fun u => u.noticeBuf.map (·.typ) == [0x0B01]) && ran co0 (.flowCheck false) (fun u => u == co0) := by decide +kernel
theorem test_flowRestored : ran co2 .flowRestored (fun u => u.flag panelSite Hold.CANCELLED && u.flag panelSite Reg.THM_PANEL.FLOW_OK) := by decide +kernel
theorem test_heartbeatLoss :
    ran cs .heartbeatLoss (fun u => u.get (siteOfControl (1 - cs.get panelSite Reg.CTL_BOOT.ACTIVE)) Reg.CTL_FAULT.CAUSE == 4) := by decide +kernel
theorem test_watchdog : ran cs .watchdog (fun u => u.get cs.controlSite Reg.CTL_FAULT.CAUSE == 3) := by decide +kernel
/-! ### Clocks (15) -/

/-- Site 17 runs at code 20 with its core lock; at the floor. -/
def ck0 : State := ((cs.put 17 Reg.CLK_CORE_STATUS.CORE_LOCK 1).put 17 Reg.CLK_CORE_STATUS.FREQ 20).put panelSite (Reg.CTL_ROSTER_SITE.STATE 17) 0
def ck1 : State := ck0.put 17 Reg.CLK_CORE_STATUS.FREQ 0
/-- The generators of a hub, a link die and the control die. -/
def ck2 : State :=
  ((ck0.put (siteOfStack 2) Reg.CLK_FABRIC.AUX_LOCK 1).put (siteOfPort 0) Reg.CLK_FABRIC.SERDES_LOCK 255).put cs.controlSite Reg.CLK_FABRIC.FAB_LOCK 1

/-- ClockCodesAndLocks: each clause; generators of every kind. -/
theorem test_witness_clocks :
    [ck0, ck1, ck2].all State.canonical = true ∧ isCompute 17 = true ∧ ck0.flag 17 Reg.CLK_CORE_STATUS.CORE_LOCK = true
      ∧ ck1.flag 17 Reg.CLK_CORE_STATUS.CORE_LOCK = true ∧ ck1.get 17 Reg.CLK_CORE_STATUS.FREQ = 0 ∧ ck1.get 17 Die.FLOOR_AT = 0
      ∧ ck0.get 17 Reg.CLK_CORE_STATUS.FREQ ≠ 0 ∧ hasRouter 17 = true ∧ ck2.settled ∧ ck2.siteSquad 17 = none
      ∧ [(17, 1), (siteOfStack 2, 2), (siteOfPort 0, 5), (siteOfPort 0, 10), (cs.controlSite, 0)].all (fun e => ck2.genLocked e.1 e.2) = true
      ∧ ck2.genLocked 17 2 = false ∧ ck2.get 17 Reg.DIE_NOTICE.BUFFERED < 16 ∧ ck2.siteState 17 = Site.ACTIVE
      ∧ ck2.portCarries (portOfSite (siteOfPort 0)) = true ∧ ck0.controlDead = false ∧ ck0.get 17 Die.MARGIN_AT = 0 := by
  unfold State.settled; repeat' apply And.intro
  all_goals decide +kernel

/-- No logical die is placed on any site after reset, so no squad is on one. -/
theorem test_witness_noSquads : cs.settled ∧ ∀ k, cs.siteSquad k = none := by
  have h : ∀ d ∈ List.range 144, cs.flag panelSite (Reg.CTL_ROSTER_LDIE.PLACED d) = false := by decide +kernel
  refine ⟨by unfold State.settled; decide +kernel, fun k => ?_⟩
  have : cs.rosterDie k = none := by
    unfold State.rosterDie
    rw [List.find?_eq_none]
    intro d hd
    rw [h d hd]
    simp
  rw [State.siteSquad, this]
  rfl

theorem test_marginWarning :
    ran ck0 (.marginWarning 17 40 1 3) (fun u => u.get 17 Reg.CLK_CORE_STATUS.FREQ == 19 && u.get 17 Reg.CLK_MARGIN.MIN_SLACK == 3
      && u.get 17 Reg.CLK_MARGIN.MIN_CORE == 40) := by decide +kernel
theorem test_codeRise : ran ck0 (.codeRise 17) (fun u => u.get 17 Reg.CLK_CORE_STATUS.FREQ == min 21 (ck0.get 17 Reg.CLK_CORE_CTL.CEILING)
    || u.get 17 Reg.CLK_CORE_STATUS.FREQ == 20) := by decide +kernel
theorem test_clockFloor :
    ran ck1 (.clockFloor 17 47) (fun u => u.noticeBuf.map (fun n => (n.typ, n.arg0)) == [(0x0901, 47)]) && ran ck0 (.clockFloor 17 47) (fun u => u == ck0) := by
  decide +kernel
theorem test_clockUnlock :
    ran ck2 (.clockUnlock 17 1) (fun u => u.siteState 17 == Site.FENCED)
      && ran ck2 (.clockUnlock (siteOfStack 2) 2) (fun u => u.get (siteOfStack 2) (Reg.HUB_CHAN_STATUS.CHAN 31) == 1) := by decide +kernel

/-! ### Contacts, boot and bring-up (18) -/

/-- `RESET_N` has been released; the control die has booted; the firmware runs, before the last wave; blocks get their supply; a scope ends. -/
def bt0 : State := State.reset.put panelSite Boot.RELEASED 1
def bt1 : State := bt0.put panelSite Reg.CTL_BOOT.STAGE 1
def bt2 (waves : Nat) : State := (bt0.put panelSite Reg.CTL_BOOT.STAGE 2).put panelSite Boot.WAVES waves
def bt3 : State := bt0.put panelSite Reg.CTL_BOOT.STAGE 3
def bt4 : State := bt3.put panelSite (Reg.PWR_BLOCK.EN 1) 1
def bt5 : State :=
  (List.range 16).foldl (fun s b => s.put panelSite (Reg.PWR_BLOCK.STATE b) (1 + b % 2)) ((bt3.put panelSite Reg.THM_PANEL.FLOW_OK 1).put 17 Die.PASSED 1)
def bt6 : State := ((cs.put panelSite Reg.CTL_RESET_STATUS.BUSY 1).put panelSite Reg.CTL_RESET_STATUS.SCOPE 2).put panelSite Reset.PHASE 2

/-- ContactsAndBoot and BringUpProceeds: each clause. -/
theorem test_witness_boot :
    (∀ s ∈ [State.reset, bt0, bt1, bt2 0, bt2 (lastWave bt0.controlSite - 1), bt3, bt4, bt5, bt6], s.canonical = true ∧ s.controlDead = false)
      ∧ State.reset.flag panelSite Boot.RELEASED = false
      ∧ (if State.reset.flag panelSite Reg.SEC_PROVISION.HOSTPORT_SET then State.reset.get panelSite Reg.SEC_PROVISION.HOSTPORT else 0) < 8
      ∧ bt0.flag panelSite Boot.RELEASED = true ∧ bt0.get panelSite Reg.CTL_BOOT.STAGE = 0 ∧ bt0.flag panelSite Reg.CTL_BOOT.FALLBACK = false
      ∧ (bt0.put panelSite Reg.CTL_BOOT.FALLBACK 1).flag panelSite Reg.CTL_BOOT.FALLBACK = true
      ∧ (∀ d < 2, bt0.flag (siteOfControl d) Reg.CTL_FAULT.FAULT = false) ∧ bt1.get panelSite Reg.CTL_BOOT.STAGE = 1
      ∧ bt6.resetBusy = true ∧ bt6.get panelSite Reset.PHASE = 2 ∧ bt6.powerUps = [] ∧ bt6.get panelSite Reset.RETRAIN = 0 ∧ bt6.resetScope = 2
      ∧ (bt2 0).get panelSite Reg.CTL_BOOT.STAGE = 2 ∧ 1 = (bt2 0).get panelSite Boot.WAVES + 1 ∧ 1 < lastWave (bt2 0).controlSite
      ∧ (bt2 (lastWave bt0.controlSite - 1)).get panelSite Boot.WAVES + 1 = lastWave (bt2 (lastWave bt0.controlSite - 1)).controlSite
      ∧ bt3.get panelSite Reg.CTL_BOOT.STAGE = 3 ∧ bt3.flag panelSite (Reg.PWR_BLOCK.PWRGOOD 0) = false ∧ bt3.get panelSite Boot.RAISED = 2 ^ 0 - 1
      ∧ bt4.flag panelSite (Reg.PWR_BLOCK.EN 1) = true ∧ bt4.flag panelSite (Reg.PWR_BLOCK.PWRGOOD 1) = false
      ∧ bt4.get panelSite (Reg.PWR_BLOCK.STATE 1) = 0 ∧ bt4.get bt4.controlSite Reg.DIE_NOTICE.BUFFERED ≤ 14
      ∧ bt3.alive (siteOfStack 63) = true ∧ bt3.flag (siteOfStack 63) Hub.READY = false ∧ bt3.scrubbing 63 = false ∧ bt3.hubRecords = []
      ∧ bt3.hubWaits = [] ∧ bt5.timeout = none ∧ bt5.flag panelSite Reg.THM_PANEL.FLOW_OK = true ∧ bt5.get panelSite Reg.CTL_BOOT.STAGE = 3
      ∧ (∀ b < 16, bt5.get panelSite (Reg.PWR_BLOCK.STATE b) = 1 ∨ bt5.get panelSite (Reg.PWR_BLOCK.STATE b) = 2) ∧ bt5.powerUps = [] := by
  repeat' apply And.intro
  all_goals decide +kernel

theorem test_haltN :
    ran cs .haltNAssert (fun u => u.get panelSite Reg.SQD_LINES.WHISTLE == 2 ^ 16 && u.get panelSite Reg.SQD_LINES.HALT_N == 1)
      && ran (cs.put panelSite Reg.SQD_LINES.HALT_N 1) .haltNRelease (fun u => u.get panelSite Reg.SQD_LINES.HALT_N == 0)
      && ran State.reset .haltNAssert (fun u => u == State.reset) := by decide +kernel
theorem test_controlDieBooted :
    ran bt0 (.controlDieBooted false) (fun u => u.get panelSite Reg.CTL_BOOT.ACTIVE == 1 && u.noticeBuf.map (fun n => (n.typ, n.arg0)) == [(0x0C01, 13)])
      && ran (bt0.put panelSite Reg.CTL_BOOT.FALLBACK 1) (.controlDieBooted false) (fun u => u.get (siteOfControl 1) Reg.CTL_FAULT.CAUSE == 1) := by
  decide +kernel
theorem test_firmwareVerified :
    ran bt1 (.firmwareVerified []) (fun u => u.get panelSite Reg.CTL_BOOT.STAGE == 8 && u.flag panelSite Reg.SEC_STATUS.RECOVERY) := by decide +kernel
theorem test_resetDone :
    ran bt6 (.resetDone 200) (fun u => u.get panelSite Reg.CTL_RESET_STATUS.RESULT == 200 && !u.resetBusy
      && u.noticeBuf.map (fun n => (n.typ, n.arg0)) == [(0x0C04, 2 + 256 * 200)]) := by decide +kernel
theorem test_blkEnRaise :
    ran bt3 (.blkEnRaise 0) (fun u => u.flag panelSite (Reg.PWR_BLOCK.EN 0)) && ran bt3 (.blkEnRaise 1) (fun u => u == bt3) := by decide +kernel
theorem test_pwrgoodTimeout :
    ran bt4 (.pwrgoodTimeout 1) (fun u => u.get panelSite (Reg.PWR_BLOCK.STATE 1) == 2 && u.get panelSite Reg.CTL_BOOT.BLOCK_FAULTS == 2) := by decide +kernel
theorem test_hbmTrained :
    ran bt3 (.hbmTrained 63 [31]) (fun u => u.scrubbing 63 && u.get (siteOfStack 63) (Reg.HUB_CHAN_STATUS.CHAN 31) == 2) := by decide +kernel

/-! ### Notices, IEEE 1149.1 and I3C (18, 19) -/

def nc (site cls arg : Nat) : Notice :=
  { typ := 0x0903, cls := cls, loss := true, time := 12345, site := site, unit := 63, squad := 4, squadValid := true, arg0 := arg, arg1 := 2 ^ 40 }
/-- Three records wait at two dies, and pushes are asked for; the queue has no place for classes up to 2; twenty copies to push. -/
def no0 : State :=
  { (((cs.put 17 Reg.CLK_FABRIC.FAB_LOCK 1).put panelSite Reg.CTL_NOTICE_CTL.PUSH_EN 1).put panelSite Reg.CTL_NOTICE_CTL.PUSH_MIN 2).put panelSite
      Reg.CTL_NOTICE_SEQ.NEXT_SEQ (2 ^ 32 - 1) with noticeBuf := [nc 3 1 0, nc 17 2 1, nc 17 3 2] }
def no1 (held : Nat) : State := no0.put panelSite Reg.CTL_NOTICE_STATUS.HELD held
def no2 : State := { no0 with pushes := (List.range 20).map fun k => ⟨k, nc 17 3 k⟩ }

/-- NoticesAreQueuedAndPushed: each clause; the queue at the two ends of its reserve. -/
theorem test_witness_notices :
    (∀ s ∈ [no0, no1 261119, no1 261120, no2, no2.jput 0 Reg.PORT_CTL.ROLE 0, cs], s.canonical = true ∧ s.controlDead = false)
      ∧ no0.noticeBuf = [nc 3 1 0] ++ nc 17 2 1 :: [nc 17 3 2] ∧ (∀ m ∈ [nc 3 1 0], m.site ≠ 17) ∧ no0.alive 17 = true
      ∧ no0.flag 17 Reg.CLK_FABRIC.FAB_LOCK = true ∧ (261120 ≤ (no1 261120).get panelSite Reg.CTL_NOTICE_STATUS.HELD ∧ (nc 17 2 1).cls ≤ 2)
      ∧ ¬ 261120 ≤ (no1 261119).get panelSite Reg.CTL_NOTICE_STATUS.HELD
      ∧ no0.get 17 Reg.DIE_NOTICE.BUFFERED < 16 ∧ cs.pushes = [] ∧ no2.pushes ≠ [] ∧ no2.flag panelSite Panel.CAPTAIN_SET = false
      ∧ (no2.jput 0 Reg.PORT_CTL.ROLE 0).hostPortNo = none ∧ no2.hostPortNo = some 0 ∧ no2.portUsable 0 = true := by
  repeat' apply And.intro
  all_goals decide +kernel

theorem test_noticeRecord :
    ran no0 (.noticeRecord 17) (fun u => u.noticeQueue == [⟨2 ^ 32 - 1, nc 17 2 1⟩] && u.pushes.length == 1
      && u.get panelSite Reg.CTL_NOTICE_SEQ.NEXT_SEQ == 0)
      && ran (no1 261120) (.noticeRecord 17) (fun u => u.noticeQueue == [] && u.get panelSite Reg.CTL_NOTICE_STATUS.LOST_TOTAL == 1) := by
  decide +kernel
theorem test_noticePush :
    ran no2 .noticePush (fun u => u.pushes.length == 4) := by
  decide +kernel

/-- Control die 1 has a fault. -/
def jt0 : State := (cs.put (siteOfControl 1) Reg.CTL_FAULT.FAULT 1).put (siteOfControl 1) Reg.CTL_FAULT.CAUSE 5

/-- DebugPortsAndI3c: debug mode on and off, and `RESET_N` asserted and released. -/
theorem test_witness_debugPorts :
    (∀ s ∈ [jt0, State.reset, cg], s.canonical = true) ∧ jt0.flag panelSite Boot.RELEASED = true
      ∧ State.reset.flag panelSite Boot.RELEASED = false ∧ jt0.debugMode = false ∧ cg.debugMode = true := by
  repeat' apply And.intro
  all_goals decide +kernel

theorem test_bypass : ran jt0 (.bypass 1) (fun u => u.get (siteOfControl 1) Jtag.OUT == 0) := by decide +kernel
theorem test_extest : ran jt0 (.extest 1) (fun u => u.get panelSite Reg.SEC_TAMPER.JTAG_REFUSED == 1) := by decide +kernel
theorem test_faultRead : ran jt0 (.faultRead 1) (fun u => u.get (siteOfControl 1) Jtag.OUT == 11) := by decide +kernel
theorem test_jtagRefused :
    ran jt0 (.jtagRefused 1) (fun u => u.get panelSite Reg.SEC_TAMPER.JTAG_REFUSED == 1)
      && ran jt0 (.privateInstruction 1 9) (fun u => u.get panelSite Reg.SEC_TAMPER.JTAG_REFUSED == 1) := by decide +kernel
theorem test_i3cDone :
    ran (cs.put panelSite Reg.CTL_I3C_STATUS.BUSY 1) (.i3cDone true 5) (fun u => u.flag panelSite Reg.CTL_I3C_STATUS.NACK)
      && ran cs (.i3cDone false 5) (fun u => u == cs) := by decide +kernel

/-! ### The machine -/

/-- Two commands wait. -/
def mq : State := { cs with pending := [.haltNAssert, .watchdog] }

/-- StepTakesTheFrontCommand, EveryStepKeepsCanonicalForm, ResetNRestoresEveryField: a queue with a command, an empty one, canonical states. -/
theorem test_witness_machine :
    mq.pending = .haltNAssert :: [.watchdog] ∧ cs.pending = [] ∧ mq.canonical = true ∧ State.reset.canonical = true
      ∧ (match step mq with | .next t => t.pending == [.watchdog] | _ => false) = true ∧ (match step cs with | .next t => t == cs | _ => false) = true := by
  repeat' apply And.intro
  all_goals decide +kernel

/-- No row of the table has bits: no word spells a command. -/
theorem test_noWords : decodeTableWord 32 0 = none ∧ mq.withFetchWord 32 0 = mq := ⟨rfl, rfl⟩
end Sys2Proof.Tests
end

section
/-! PROOFS. The state after reset, and `RESET_N` (00_scope): what is fused, what HBM and the boot flash hold, and nothing else, is kept. -/

namespace Sys2Proof.Machine

/-- Settles O4: the maps of `State.reset` are all empty (`State.reset_canonical`), and so is its queue. -/
theorem resetIsCanonical : Obligations.ResetIsCanonical :=
  ⟨State.reset_canonical, rfl, rfl, rfl⟩

/-- A filtered map lists nothing at a key that fails the test. -/
theorem mapGet_filter_out {β : Type} (d : β) (p : Nat → Bool) {key : Nat} (hp : p key = false) (m : SMap β) :
    mapGet d (mapFilter p m) key = d := by
  unfold mapFilter
  induction m with
  | nil => rfl
  | cons e m ih =>
    obtain ⟨k, v⟩ := e
    by_cases hk : p k = true
    · have hne : key ≠ k := by rintro rfl; simp [hp] at hk
      rw [List.filter_cons_of_pos (by simpa using hk)]
      simp [mapGet, hne, ih]
    · rw [List.filter_cons_of_neg (by simpa using hk), ih]

/-- `RESET_N` keeps a fused field (R457). -/
theorem State.assertReset_get_fuse {s : State} (h : risingFrom 0 s.fld = true) {site : Nat} {f : Fld} (hf : isFuse (fldKey site f) = true) :
    s.assertReset.get site f = s.get site f := by
  simp only [State.get, State.assertReset]
  rw [mapGet_filter f.reset isFuse hf h]

/-- `RESET_N` sets a field that is not fused back to its reset value (R8). -/
theorem State.assertReset_get_unfused (s : State) {site : Nat} {f : Fld} (hf : isFuse (fldKey site f) = false) :
    s.assertReset.get site f = f.reset % 2 ^ f.width := by
  simp only [State.get, State.assertReset]
  rw [mapGet_filter_out f.reset isFuse hf]

/-- Settles O5: `RESET_N` filters the fields by `isFuse`, so a field reads as before if it is fused and as its reset value otherwise; the other
parts are those of `State.reset`, or kept. -/
theorem resetNRestoresEveryField : Obligations.ResetNRestoresEveryField := by
  intro s site f hs
  refine ⟨s.assertReset, rfl, ?_, rfl, rfl, rfl, rfl, rfl, rfl⟩
  split
  case isTrue hf => exact State.assertReset_get_fuse (State.canonical_fld hs) hf
  case isFalse hf => exact State.assertReset_get_unfused s (Bool.eq_false_iff.2 hf)

end Sys2Proof.Machine
end

section
/-! PROOFS. A write of HUB_CHAN_CTL does not start the retrain of channels 16 to 31: the model walks the mask with `squadList`, which has
16 entries, where R235 gives a stack 32 channels. -/

namespace Sys2Proof.Machine

/-- A panel whose bring-up is done, with a host at port 0 and the hub of stack 0 alive; every channel is ACTIVE. -/
def retrainPanel : State :=
  (((State.reset.put panelSite Reg.CTL_BOOT.STAGE 7).jput 0 Reg.PORT_CTL.HOSTPORT 1).jput 0 Reg.PORT_CTL.ROLE 1).put panelSite
    (Reg.MESH_ALIVE.ALIVE (siteOfStack 0)) 1

/-- The header of the host's first `WRITE_CSR`. -/
def retrainHdr : CmdHdr :=
  { port := 0, opcode := Op.WRITE_CSR, tag := 0, length := 16, received := 16, seq := 0, tmo := 0, reserved := 0, bridged := false, spanel := 0 }

theorem retrainPanel_takes : retrainPanel.takes retrainHdr 16 := by
  unfold State.takes
  decide +kernel

/-- A write of HUB_CHAN_CTL is a register write at its own address. -/
theorem exec_retrain (h : CmdHdr) (stack : Nat) (value : Word) (s : State) :
    exec (.retrain h stack value) s
      = .next (s.csrPut h (.retrain h stack value) (csrAddr (siteOfStack (stack % 64)) 0x200020) value.toNat) := rfl

/-- The host writes 1 to the bit of channel 16, and the channel stays ACTIVE. -/
theorem channel16_stays_active :
    (retrainPanel.csrPut retrainHdr (.retrain retrainHdr 0 0x10000) (csrAddr (siteOfStack (0 % 64)) 0x200020) (0x10000 : Word).toNat).get
      (siteOfStack 0) (Reg.HUB_CHAN_STATUS.CHAN 16) = 0 := by
  decide +kernel

/-- Refutes O43: on `retrainPanel` a write of `0x10000` to HUB_CHAN_CTL of stack 0 names channel 16, whose status the statement wants to become
1 (retraining, R235), and leaves it 0. -/
theorem not_registerWritesAct : ¬ Obligations.RegisterWritesAct := by
  intro h
  have hok : hasRouter (siteOfStack 0) = true ∧ retrainPanel.reachable (siteOfStack 0) = true
      ∧ retrainPanel.flag (siteOfStack 0) Reg.MESH_STATUS.LOCAL_FENCED = false := by decide +kernel
  obtain ⟨hhub, -⟩ := h retrainPanel retrainHdr (by decide +kernel) retrainPanel_takes
  obtain ⟨u, hu, -, -, hws, -⟩ := (hhub 0 0x10000 (by decide) hok).1
  rw [exec_retrain] at hu
  injection hu with hu
  have hwant := hws (siteOfStack 0, Reg.HUB_CHAN_STATUS.CHAN 16, 1) (by decide +kernel)
  rw [← hu, channel16_stays_active] at hwant
  exact absurd hwant (by decide)

end Sys2Proof.Machine
end

section
/-! PROOFS. Fields a core's issue writes and reads: where they stand, what a run of writes changes, and what it leaves. -/

namespace Sys2Proof.Machine

/-! ### Where fields stand -/

/-- Where a field stands among those of its site. -/
def Fld.pos (f : Fld) : Nat := f.off * 64 + f.lo

theorem fldKey_eq_pos (site : Nat) (f : Fld) : fldKey site f = site * 2 ^ 32 + f.pos := by
  unfold fldKey Fld.pos; omega

@[simp] theorem Fld.pos_nth (f : Fld) (k : Nat) : (f.nth k).pos = f.pos + k * 2 ^ 22 := by
  unfold Fld.nth Fld.pos; dsimp only; omega

@[simp] theorem Fld.width_nth (f : Fld) (k : Nat) : (f.nth k).width = f.width := rfl

/-- A field is none of the listed ones: a run of writes of these leaves it. -/
def Apart (e : Nat × Fld) (es : List (Nat × Fld)) : Prop := ∀ a ∈ es, fldKey e.1 e.2 ≠ fldKey a.1 a.2

@[simp] theorem apart_nil (e : Nat × Fld) : Apart e [] := by simp [Apart]

@[simp] theorem apart_cons (e a : Nat × Fld) (es : List (Nat × Fld)) :
    Apart e (a :: es) ↔ fldKey e.1 e.2 ≠ fldKey a.1 a.2 ∧ Apart e es := by simp [Apart]

@[simp] theorem apart_append (e : Nat × Fld) (as bs : List (Nat × Fld)) : Apart e (as ++ bs) ↔ Apart e as ∧ Apart e bs := by
  simp [Apart, or_imp, forall_and]

/-- Two fields of a core have one key only if they stand at one place. -/
@[simp] theorem fldKey_coreFld_eq (c : CoreRef) (f g : Fld) :
    fldKey (coreFld c f).1 (coreFld c f).2 = fldKey (coreFld c g).1 (coreFld c g).2 ↔ f.pos = g.pos := by
  simp only [coreFld, fldKey_eq_pos, Fld.pos_nth]; omega

/-- Fields of a core that stand at none of the places of `fs`. -/
theorem apart_coreFlds {c : CoreRef} {f : Fld} {fs : List Fld} (h : ∀ g ∈ fs, f.pos ≠ g.pos) :
    Apart (coreFld c f) (fs.map (coreFld c)) := by
  intro a ha
  obtain ⟨g, hg, rfl⟩ := List.mem_map.1 ha
  simpa using h g hg

/-! ### A run of writes of fields -/

/-- `t` comes from `s` by writes of the listed fields, and its fields are in order. -/
structure State.Writes (s t : State) (es : List (Nat × Fld)) : Prop where
  only : s.onlyFields t es
  ordered : risingFrom 0 t.fld = true

namespace State.Writes
variable {s t u : State} {as bs : List (Nat × Fld)}

theorem refl (h : risingFrom 0 s.fld = true) : s.Writes s [] := ⟨⟨rfl, fun _ _ _ => rfl⟩, h⟩

theorem trans (h : s.Writes t as) (k : t.Writes u bs) : s.Writes u (as ++ bs) where
  only := by
    obtain ⟨⟨ht, hf⟩, -⟩ := h
    obtain ⟨⟨hu, hg⟩, -⟩ := k
    refine ⟨by rw [hu, ht], fun site f hne => ?_⟩
    rw [hg site f fun e he => hne e (List.mem_append_right _ he), hf site f fun e he => hne e (List.mem_append_left _ he)]
  ordered := k.ordered

theorem mono (h : s.Writes t as) (hab : as ⊆ bs) : s.Writes t bs :=
  ⟨⟨h.only.1, fun site f hne => h.only.2 site f fun e he => hne e (hab he)⟩, h.ordered⟩

/-- A field that is none of the written ones reads as before. -/
theorem get_eq (h : s.Writes t as) {e : Nat × Fld} (he : Apart e as) : t.get e.1 e.2 = s.get e.1 e.2 := h.only.2 _ _ he

theorem cget_eq (h : s.Writes t as) {c : CoreRef} {f : Fld} (he : Apart (coreFld c f) as) : t.cget c f = s.cget c f := h.get_eq he

theorem cflag_eq (h : s.Writes t as) {c : CoreRef} {f : Fld} (he : Apart (coreFld c f) as) : t.cflag c f = s.cflag c f := by
  have := h.cget_eq he
  simp_all [State.flag]

theorem eq_with_fld (h : s.Writes t as) : t = { s with fld := t.fld } := h.only.1

theorem beats_eq (h : s.Writes t as) : t.beats = s.beats := by rw [h.eq_with_fld]
theorem flights_eq (h : s.Writes t as) : t.flights = s.flights := by rw [h.eq_with_fld]
theorem sram_eq (h : s.Writes t as) : t.sram = s.sram := by rw [h.eq_with_fld]
theorem sameMemory (h : s.Writes t as) : s.sameMemory t := by rw [h.eq_with_fld]; exact ⟨rfl, rfl, rfl, rfl, rfl, rfl⟩
theorem queues_eq (h : s.Writes t as) : t.queues = s.queues := by rw [h.eq_with_fld]

/-- The field written last. -/
theorem put (h : s.Writes t as) (e : Nat × Fld) (v : Nat) : s.Writes (t.put e.1 e.2 v) (as ++ [e]) :=
  h.trans ⟨⟨rfl, fun _ _ hne => t.get_put_other _ _ _ (hne e (by simp)) h.ordered⟩, t.put_rising _ _ _ h.ordered⟩

theorem cput (h : s.Writes t as) (c : CoreRef) (f : Fld) (v : Nat) : s.Writes (t.cput c f v) (as ++ [coreFld c f]) := h.put (coreFld c f) v

theorem cset (h : s.Writes t as) (c : CoreRef) (f : Fld) (b : Bool) : s.Writes (t.cset c f b) (as ++ [coreFld c f]) :=
  h.cput c f _

theorem cbump (h : s.Writes t as) (c : CoreRef) (f : Fld) (n : Nat := 1) : s.Writes (t.cbump c f n) (as ++ [coreFld c f]) :=
  h.cput c f _

end State.Writes

/-! ### Reading a core's field after a write -/

section
variable {s : State} (h : risingFrom 0 s.fld = true) (c : CoreRef)
include h

theorem State.cput_rising (f : Fld) (v : Nat) : risingFrom 0 (s.cput c f v).fld = true := s.put_rising c.site (f.nth c.core) v h

theorem State.cget_cput_same (f : Fld) (v : Nat) : (s.cput c f v).cget c f = v % 2 ^ f.width :=
  s.get_put_same c.site (f.nth c.core) v h

/-- A value of the field's width reads as it was written. -/
theorem State.cget_cput_of_lt (f : Fld) {v : Nat} (hv : v < 2 ^ f.width) : (s.cput c f v).cget c f = v := by
  rw [State.cget_cput_same h, Nat.mod_eq_of_lt hv]

theorem State.cget_cput_other {f g : Fld} (hp : g.pos ≠ f.pos) (v : Nat) : (s.cput c f v).cget c g = s.cget c g :=
  s.get_put_other c.site (f.nth c.core) v (by simpa [coreFld] using (fldKey_coreFld_eq c g f).not.2 hp) h

theorem State.cget_cbump_same (f : Fld) : (s.cbump c f).cget c f = min (s.cget c f + 1) (2 ^ f.width - 1) := by
  have hw : 0 < 2 ^ f.width := by positivity
  exact State.cget_cput_of_lt h c f (v := min (s.cget c f + 1) (2 ^ f.width - 1)) (by omega)

theorem State.cflag_cset_same (f : Fld) (b : Bool) (hw : f.width = 1) : (s.cset c f b).cflag c f = b := by
  have : (s.cset c f b).cget c f = if b then 1 else 0 := State.cget_cput_of_lt h c f (by rw [hw]; split <;> omega)
  cases b <;> simp_all [State.flag]
end

theorem State.cget_lt (s : State) (c : CoreRef) (f : Fld) : s.cget c f < 2 ^ f.width := s.get_lt c.site (f.nth c.core)

/-- A one-bit field is set where it does not read 0. -/
theorem State.cflag_false_iff (s : State) (c : CoreRef) (f : Fld) (hw : f.width = 1) : s.cflag c f = false ↔ s.cget c f = 0 := by
  have := s.cget_lt c f
  rw [hw] at this
  simp only [State.cflag_eq, State.cget_eq, State.flag] at *
  simp; omega

/-! ### Writes of several fields of a core -/

/-- The listed fields of a core are written, one after the other. -/
def State.cputs (s : State) (c : CoreRef) (ws : List (Fld × Nat)) : State := ws.foldl (fun s w => s.cput c w.1 w.2) s

section
variable {s : State} (h : risingFrom 0 s.fld = true) (c : CoreRef)
include h

theorem State.writes_cputs (ws : List (Fld × Nat)) : s.Writes (s.cputs c ws) (ws.map fun w => coreFld c w.1) := by
  induction ws generalizing s with
  | nil => exact .refl h
  | cons w ws ih => exact ((State.Writes.refl h).cput c w.1 w.2).trans (ih (State.cput_rising h c w.1 w.2))

theorem State.cget_cputs_other {ws : List (Fld × Nat)} {f : Fld} (hf : ∀ w ∈ ws, f.pos ≠ w.1.pos) : (s.cputs c ws).cget c f = s.cget c f :=
  (State.writes_cputs h c ws).cget_eq fun a ha => by
    obtain ⟨w, hw, rfl⟩ := List.mem_map.1 ha
    simpa using hf w hw

/-- Of several fields at different places, each reads as it was written. -/
theorem State.cget_cputs_mem {ws : List (Fld × Nat)} (hp : ws.Pairwise fun a b => a.1.pos ≠ b.1.pos) {f : Fld} {v : Nat} (hm : (f, v) ∈ ws)
    (hv : v < 2 ^ f.width) : (s.cputs c ws).cget c f = v := by
  induction ws generalizing s with
  | nil => simp at hm
  | cons w ws ih =>
    obtain ⟨hw, hp⟩ := List.pairwise_cons.1 hp
    have h1 := State.cput_rising h c w.1 w.2
    rcases List.mem_cons.1 hm with rfl | hm
    · exact (State.cget_cputs_other h1 c hw).trans (State.cget_cput_of_lt h c f hv)
    · exact ih h1 hp hm
end

end Sys2Proof.Machine
end

section
/-! PROOFS. The words the schedule's rows make: one slot in its place, and the other slots without an operation (R31). -/

namespace Sys2Proof.Machine

/-! ### Bit fields -/

theorem bitsOf_lt (v hi lo : Nat) : bitsOf v hi lo < 2 ^ (hi + 1 - lo) := Nat.mod_lt _ (by positivity)

@[simp] theorem bitsOf_zero (hi lo : Nat) : bitsOf 0 hi lo = 0 := by simp [bitsOf]

theorem testBit_bitsOf (v hi lo i : Nat) : (bitsOf v hi lo).testBit i = (decide (i < hi + 1 - lo) && v.testBit (lo + i)) := by
  simp [bitsOf, Nat.testBit_mod_two_pow, Nat.testBit_div_two_pow, Nat.add_comm]

/-- A field replaced in a number: its bits are the new ones, and the others stay. -/
theorem testBit_withField {v hi lo x : Nat} (hle : lo ≤ hi) (hx : x < 2 ^ (hi + 1 - lo)) (i : Nat) :
    (withField v hi lo x).testBit i = if lo ≤ i ∧ i ≤ hi then x.testBit (i - lo) else v.testBit i := by
  have hsplit : withField v hi lo x = 2 ^ lo * (2 ^ (hi + 1 - lo) * (v / 2 ^ (hi + 1)) + x) + v % 2 ^ lo := by
    have hp : 2 ^ (hi + 1) = 2 ^ lo * 2 ^ (hi + 1 - lo) := by rw [← pow_add]; congr 1; omega
    have h1 := Nat.div_add_mod v (2 ^ lo)
    have h2 := Nat.div_add_mod (v / 2 ^ lo) (2 ^ (hi + 1 - lo))
    rw [Nat.div_div_eq_div_mul, ← hp] at h2
    unfold withField bitsOf
    generalize v / 2 ^ lo % 2 ^ (hi + 1 - lo) = b at *
    have hv : v = 2 ^ lo * (2 ^ (hi + 1 - lo) * (v / 2 ^ (hi + 1)) + b) + v % 2 ^ lo := by rw [h2, h1]
    generalize v / 2 ^ (hi + 1) = a at *
    generalize v % 2 ^ lo = r at *
    rw [hv]
    simp only [Nat.mul_add, Nat.mul_comm b, Nat.mul_comm x]
    omega
  have hr : v % 2 ^ lo < 2 ^ lo := Nat.mod_lt _ (by positivity)
  rw [hsplit, Nat.testBit_two_pow_mul_add _ hr]
  by_cases hlo : i < lo
  · simp [hlo, Nat.testBit_mod_two_pow, show ¬ lo ≤ i by omega]
  · rw [if_neg hlo, Nat.testBit_two_pow_mul_add _ hx]
    by_cases hhi : i ≤ hi
    · rw [if_pos (by omega), if_pos ⟨by omega, hhi⟩]
    · rw [if_neg (by omega), if_neg (by omega), Nat.testBit_div_two_pow]
      congr 1; omega

theorem bitsOf_withField_same {v hi lo x : Nat} (hle : lo ≤ hi) (hx : x < 2 ^ (hi + 1 - lo)) : bitsOf (withField v hi lo x) hi lo = x := by
  refine Nat.eq_of_testBit_eq fun i => ?_
  rw [testBit_bitsOf, testBit_withField hle hx]
  by_cases hi' : i < hi + 1 - lo
  · simp [hi', show lo + i ≤ hi by omega]
  · simp [hi', Nat.testBit_lt_two_pow (lt_of_lt_of_le hx (Nat.pow_le_pow_right (by decide) (by omega : hi + 1 - lo ≤ i)))]

/-- A bit field that does not meet the replaced one reads as before. -/
theorem bitsOf_withField_other {v hi lo x h l : Nat} (hle : lo ≤ hi) (hx : x < 2 ^ (hi + 1 - lo)) (hd : h < lo ∨ hi < l) :
    bitsOf (withField v hi lo x) h l = bitsOf v h l := by
  refine Nat.eq_of_testBit_eq fun i => ?_
  rw [testBit_bitsOf, testBit_bitsOf, testBit_withField hle hx]
  by_cases hi' : i < h + 1 - l
  · rw [if_neg (by omega)]
  · simp [hi']

theorem testBit_withField_other {v hi lo x i : Nat} (hle : lo ≤ hi) (hx : x < 2 ^ (hi + 1 - lo)) (hd : i < lo ∨ hi < i) :
    (withField v hi lo x).testBit i = v.testBit i := by
  rw [testBit_withField hle hx, if_neg (by omega)]

/-- A field inside `n` bits replaced in a number of `n` bits. -/
theorem withField_lt {v hi lo x n : Nat} (hle : lo ≤ hi) (hx : x < 2 ^ (hi + 1 - lo)) (hn : hi < n) (hv : v < 2 ^ n) :
    withField v hi lo x < 2 ^ n := by
  refine Nat.lt_pow_two_of_testBit _ fun i hi' => ?_
  rw [testBit_withField_other hle hx (by omega)]
  exact Nat.testBit_lt_two_pow (lt_of_lt_of_le hv (Nat.pow_le_pow_right (by decide) hi'))

/-- A mask of the low `n` bits leaves nothing over in a number of `n` bits. -/
theorem extraBits_low {v n : Nat} (hv : v < 2 ^ n) : extraBits v (2 ^ n - 1) = false := by
  simp [extraBits, Nat.and_two_pow_sub_one_eq_mod, Nat.mod_eq_of_lt hv]

theorem extraBits_high {v n : Nat} (hv : 2 ^ n ≤ v) : extraBits v (2 ^ n - 1) = true := by
  have : v % 2 ^ n < 2 ^ n := Nat.mod_lt _ (by positivity)
  simp [extraBits, Nat.and_two_pow_sub_one_eq_mod]; omega

/-! ### One slot of a word -/

theorem bitsOf_shifted_same {v lo hi : Nat} (hv : v < 2 ^ (hi + 1 - lo)) : bitsOf (v * 2 ^ lo) hi lo = v := by
  simp [bitsOf, Nat.mod_eq_of_lt hv]

theorem bitsOf_shifted_below {v n hi lo : Nat} (h : hi < n) : bitsOf (v * 2 ^ n) hi lo = 0 := by
  refine Nat.eq_of_testBit_eq fun i => ?_
  rw [testBit_bitsOf, Nat.testBit_mul_two_pow]
  simp; omega

theorem bitsOf_shifted_above {v n k hi lo : Nat} (hv : v < 2 ^ k) (h : n + k ≤ lo) : bitsOf (v * 2 ^ n) hi lo = 0 := by
  refine Nat.eq_of_testBit_eq fun i => ?_
  rw [testBit_bitsOf, Nat.testBit_mul_two_pow]
  have : v.testBit (lo + i - n) = false := Nat.testBit_lt_two_pow (lt_of_lt_of_le hv (Nat.pow_le_pow_right (by decide) (by omega)))
  simp [this]

/-- A word whose slots have no operation. -/
def Slots.none : Slots := ⟨0, 0, 0, 0, 0, 0, 0⟩

/-- A word whose predicate/loop slot is `v`. -/
@[simps] def plWord (v : Nat) : Slots := ⟨0, 0, 0, 0, 0, 0, v⟩
/-- A word whose wait/huddle slot is `v`. -/
@[simps] def wtWord (v : Nat) : Slots := ⟨0, 0, 0, 0, 0, v, 0⟩
/-- A word whose queue-port slot is `v`. -/
@[simps] def qpWord (v : Nat) : Slots := ⟨0, 0, 0, 0, v, 0, 0⟩
/-- A word whose move slot of a channel is `v`. -/
def mvWord (ch v : Nat) : Slots := if ch = 0 then ⟨0, 0, v, 0, 0, 0, 0⟩ else ⟨0, 0, 0, v, 0, 0, 0⟩

theorem slotsOf_zero : slotsOf 0 = Slots.none := by simp [slotsOf, Slots.none]

variable {v : Nat}

theorem oneSlot_plWord (hv : v < 2 ^ 24) : oneSlot 232 v = plWord v := by
  simp (disch := decide) only [oneSlot, slotsOf, plWord, bitsOf_shifted_same (hi := 255) (lo := 232) hv, bitsOf_shifted_below]

theorem oneSlot_wtWord (hv : v < 2 ^ 24) : oneSlot 208 v = wtWord v := by
  simp (disch := decide) only [oneSlot, slotsOf, wtWord, bitsOf_shifted_same (hi := 231) (lo := 208) hv, bitsOf_shifted_above hv, bitsOf_shifted_below]

theorem oneSlot_qpWord (hv : v < 2 ^ 32) : oneSlot 176 v = qpWord v := by
  simp (disch := decide) only [oneSlot, slotsOf, qpWord, bitsOf_shifted_same (hi := 207) (lo := 176) hv, bitsOf_shifted_above hv, bitsOf_shifted_below]

theorem oneSlot_mvWord (hv : v < 2 ^ 24) (ch : Nat) : oneSlot (if ch = 0 then 128 else 152) v = mvWord ch v := by
  unfold mvWord
  split <;> simp (disch := decide) only [oneSlot, slotsOf, bitsOf_shifted_same (hi := 151) (lo := 128) hv,
    bitsOf_shifted_same (hi := 175) (lo := 152) hv, bitsOf_shifted_above hv, bitsOf_shifted_below]

/-! ### Guards -/

theorem live_withField (s : State) (c : CoreRef) {hi lo x : Nat} (hg : 5 < lo) (hle : lo ≤ hi) (hx : x < 2 ^ (hi + 1 - lo)) :
    s.live c (withField v hi lo x) = s.live c v := by
  unfold State.live
  rw [testBit_withField_other hle hx (.inl hg), testBit_withField_other hle hx (.inl (by omega)), bitsOf_withField_other hle hx (.inl (by omega))]

theorem badGuard_withField {hi lo x : Nat} (hg : 5 < lo) (hle : lo ≤ hi) (hx : x < 2 ^ (hi + 1 - lo)) :
    badGuard (withField v hi lo x) = badGuard v := by
  unfold badGuard
  rw [testBit_withField_other hle hx (.inl hg), bitsOf_withField_other hle hx (.inl (by omega))]

@[simp] theorem live_zero (s : State) (c : CoreRef) : s.live c 0 = true := by simp [State.live]
@[simp] theorem badGuard_zero : badGuard 0 = false := by simp [badGuard]
@[simp] theorem gated_zero (s : State) (c : CoreRef) : s.gated c 0 = 0 := by simp [State.gated]

/-- A slot whose guard is false is guarded, so its guard is in order. -/
theorem badGuard_of_not_live {s : State} {c : CoreRef} (h : s.live c v = false) : badGuard v = false := by
  simp only [State.live, Bool.or_eq_false_iff, Bool.not_eq_false'] at h
  simp [badGuard, h.1]

/-! ### Slots without an operation -/

@[simp] theorem mxStatic_zero : mxStatic 0 = [] := rfl
@[simp] theorem vxStatic_zero (s : State) (c : CoreRef) : vxStatic s c 0 = [] := rfl
@[simp] theorem qpStatic_zero : qpStatic 0 = [] := rfl
@[simp] theorem wtStatic_zero : wtStatic 0 = [] := rfl
@[simp] theorem plStatic_zero (s : State) (c : CoreRef) : plStatic s c 0 = [] := rfl
@[simp] theorem mvStatic_zero (s : State) (c : CoreRef) : mvStatic s c 0 = [] := rfl
@[simp] theorem mxDynamic_zero (s : State) (c : CoreRef) : mxDynamic s c 0 = [] := rfl
@[simp] theorem vxDynamic_zero (s : State) (c : CoreRef) : vxDynamic s c 0 = [] := rfl
@[simp] theorem mvDynamic_zero (s : State) (c : CoreRef) (ch : Nat) : mvDynamic s c ch 0 = [] := rfl
@[simp] theorem qpDynamic_zero (s : State) (c : CoreRef) : qpDynamic s c 0 = [] := rfl
@[simp] theorem wtDynamic_zero (s : State) (c : CoreRef) : wtDynamic s c 0 = [] := rfl
@[simp] theorem plDynamic_zero (s : State) (c : CoreRef) (a : Nat) : plDynamic s c 0 a = [] := rfl
@[simp] theorem tileFault_zero (s : State) (c : CoreRef) : s.tileFault c 0 0 = [] := by simp [State.tileFault, State.tileUses]
@[simp] theorem mxIssue_zero (s : State) (c : CoreRef) (a : Nat) : s.mxIssue c 0 a = s := rfl
@[simp] theorem vxIssue_zero (s : State) (c : CoreRef) : s.vxIssue c 0 = s := rfl
@[simp] theorem qpIssue_zero (s : State) (c : CoreRef) : s.qpIssue c 0 = s := rfl
@[simp] theorem qpReady_zero (s : State) (c : CoreRef) : qpReady s c 0 = true := rfl
@[simp] theorem startMove_zero (s : State) (c : CoreRef) (ch a : Nat) : s.startMove c ch 0 a = s := rfl
@[simp] theorem takeWait_zero (s : State) (c : CoreRef) : s.takeWait c 0 = s := rfl
@[simp] theorem loadCount_zero (s s0 : State) (c : CoreRef) : s.loadCount s0 c 0 = s := rfl
@[simp] theorem plPred_zero (s : State) (c : CoreRef) : plPred s c 0 = none := rfl
@[simp] theorem signalArrival_zero (s : State) (c : CoreRef) : s.signalArrival c 0 = s := rfl
@[simp] theorem waitCause_zero (s : State) (c : CoreRef) : waitCause s c 0 = 0 := rfl
@[simp] theorem pausesHere_zero (s : State) (c : CoreRef) : s.pausesHere c 0 = false := rfl

/-- What a word's slots break, in the order of the checks: its guards, what each slot decides alone, and what depends on the core (R63). -/
theorem wordFault_plWord (s : State) (c : CoreRef) (a : Nat) :
    s.wordFault c (plWord v) a
      = ((if badGuard v then [0x01] else []) ++ plStatic s c v ++ (if s.live c v then plDynamic s c v a else [])).min? := by
  simp [State.wordFault, plWord]
  rfl

theorem wordFault_wtWord (s : State) (c : CoreRef) (a : Nat) :
    s.wordFault c (wtWord v) a
      = ((if badGuard v then [0x01] else []) ++ wtStatic v ++ (if s.live c v then wtDynamic s c v else [])).min? := by
  simp [State.wordFault, wtWord]
  rfl

theorem wordFault_mvWord (s : State) (c : CoreRef) {ch : Nat} (hc : ch < 2) (a : Nat) :
    s.wordFault c (mvWord ch v) a
      = ((if badGuard v then [0x01] else []) ++ mvStatic s c v ++ (if s.live c v then mvDynamic s c ch v else [])).min? := by
  obtain rfl | rfl : ch = 0 ∨ ch = 1 := by omega
  · simp [State.wordFault, mvWord]
  · simp [State.wordFault, mvWord]

/-- A queue-port slot whose guard is false breaks only what it decides alone. -/
theorem wordFault_qpWord_not_live (s : State) (c : CoreRef) (a : Nat) (h : s.live c v = false) :
    s.wordFault c (qpWord v) a = (qpStatic v).min? := by
  simp [State.wordFault, qpWord, h, badGuard_of_not_live h]

theorem wordFault_none (s : State) (c : CoreRef) (a : Nat) : s.wordFault c Slots.none a = none := by simp [State.wordFault, Slots.none]

end Sys2Proof.Machine
end

section
/-! PROOFS. A core with nothing under way: a cycle of its channels and engines changes nothing (R49, R55). -/

namespace Sys2Proof.Machine

section
variable {s : State} {c : CoreRef} (hf : ∀ u ∈ s.flights, u.owner ≠ c)
include hf

theorem State.predsDue_eq : s.predsDue c = [] := by
  unfold State.predsDue
  rw [List.filterMap_eq_nil_iff]
  intro u hu
  cases u.what <;> simp [hf u hu]

theorem State.flights_kept : ((s.flights.filter fun u => !(u.owner == c && u.left == 0)).map fun u => u.age c) = s.flights := by
  rw [List.filter_eq_self.2 fun u hu => by simp [hf u hu]]
  conv_rhs => rw [← List.map_id s.flights]
  exact List.map_congr_left fun u hu => by simp [EngineUse.age, hf u hu]

/-- A cycle of the engines' uses that are under way, where none is the core's. -/
theorem State.ageFlights_eq : s.ageFlights c = s := by
  simp only [State.ageFlights, State.predsDue_eq hf, State.flights_kept hf, List.foldl_nil]

end

/-- No beat and no use of an engine of a core is under way. -/
structure State.Unused (s : State) (c : CoreRef) : Prop where
  beats : ∀ b ∈ s.beats, b.owner ≠ c
  flights : ∀ u ∈ s.flights, u.owner ≠ c

namespace State.Unused
variable {s : State} {c : CoreRef}

theorem beats_filter (h : s.Unused c) (p : Beat → Bool) : (s.beats.filter fun b => b.owner == c && p b) = [] := by
  rw [List.filter_eq_nil_iff]
  intro b hb
  simp [h.beats b hb]

theorem dueBeats (h : s.Unused c) : s.beats.filter (fun b => b.dueNow c) = [] := h.beats_filter _

theorem flights_filter (h : s.Unused c) (p : EngineUse → Bool) : (s.flights.filter fun u => u.owner == c && p u) = [] := by
  rw [List.filter_eq_nil_iff]
  intro u hu
  simp [h.flights u hu]

theorem beats_kept (h : s.Unused c) : ((s.beats.filter fun b => !b.dueNow c).map fun b => b.age c) = s.beats := by
  rw [List.filter_eq_self.2 fun b hb => by simp [Beat.dueNow, h.beats b hb]]
  conv_rhs => rw [← List.map_id s.beats]
  exact List.map_congr_left fun b hb => by simp [Beat.age, h.beats b hb]

theorem predsDue (h : s.Unused c) : s.predsDue c = [] := State.predsDue_eq h.flights
theorem ageFlights (h : s.Unused c) : s.ageFlights c = s := State.ageFlights_eq h.flights

/-- No write of the core to a cluster memory is due. -/
theorem cmWrites (h : s.Unused c) : (s.beats.filter fun b => b.dueNow c && b.space == 0) = [] := by
  have hd := h.beats_filter fun b => decide (b.left ≤ 1) && b.space == 0
  simpa only [Beat.dueNow, Bool.and_assoc] using hd

end State.Unused

/-- Nothing that a core has issued is still under way. -/
structure State.Quiet (s : State) (c : CoreRef) : Prop where
  busy0 : s.cget c (Core.CH_BUSY 0) = 0
  busy1 : s.cget c (Core.CH_BUSY 1) = 0
  mx : s.cget c Reg.CORE_MX_STATUS.OCC_LEFT = 0
  vx : s.cget c Reg.CORE_VX_STATUS.OCC_LEFT = 0
  beats : ∀ b ∈ s.beats, b.owner ≠ c
  flights : ∀ u ∈ s.flights, u.owner ≠ c

namespace State.Quiet
variable {s : State} {c : CoreRef}

theorem unused (h : s.Quiet c) : s.Unused c := ⟨h.beats, h.flights⟩

theorem not_busy (h : s.Quiet c) {ch : Nat} (hc : ch < 2) : s.cflag c (Core.CH_BUSY ch) = false := by
  rw [State.cflag_false_iff s c (Core.CH_BUSY ch) rfl]
  obtain rfl | rfl : ch = 0 ∨ ch = 1 := by omega
  exacts [h.busy0, h.busy1]

/-- No channel of the core has a beat to read. -/
theorem channels (h : s.Quiet c) (p : Nat → Bool) :
    ((List.range 2).filter fun ch => s.cflag c (Core.CH_BUSY ch) && !s.cflag c (Core.CH_SUSP ch) && p ch) = [] := by
  rw [List.filter_eq_nil_iff]
  intro ch hc
  rw [h.not_busy (List.mem_range.1 hc)]
  simp

theorem cmAccesses (h : s.Quiet c) : s.cmAccesses c = [] := by
  unfold State.cmAccesses
  rw [h.unused.cmWrites, h.channels]
  rfl

theorem spReads (h : s.Quiet c) : s.spReads c = [] := by
  unfold State.spReads
  rw [h.channels]
  rfl

/-- Nothing of the core collides at a port. -/
theorem portCollision (h : s.Quiet c) : s.portCollision c = none := by
  simp [State.portCollision, State.dueBeats, h.unused.dueBeats, h.unused.flights_filter, h.spReads]

/-- A cycle of a quiet core's channels and engines changes nothing. -/
theorem tick (h : s.Quiet c) : s.tick c = s := by
  have hb0 := h.not_busy (ch := 0) (by decide)
  have hb1 := h.not_busy (ch := 1) (by decide)
  have hk := h.unused.beats_kept
  have hd := h.unused.dueBeats
  have ha := h.unused.ageFlights
  have hm := h.mx
  have hv := h.vx
  have hf : ∀ f, { s with beats := [] }.cflag c f = s.cflag c f := fun _ => rfl
  simp only [State.tick, h.cmAccesses, State.serveBanks, List.isEmpty_nil, if_true, hf, hb0, hb1, Bool.false_and, Bool.false_eq_true, if_false,
    hd, hk, List.foldl_nil, List.append_nil, hm, hv, ha]

theorem tickChecked (h : s.Quiet c) : s.tickChecked c = s := by simp [State.tickChecked, h.portCollision, h.tick]

/-- Writes of other fields leave a core quiet. -/
theorem of_writes (h : s.Quiet c) {t : State} {es : List (Nat × Fld)} (hw : s.Writes t es)
    (he : ∀ g ∈ [Core.CH_BUSY 0, Core.CH_BUSY 1, Reg.CORE_MX_STATUS.OCC_LEFT, Reg.CORE_VX_STATUS.OCC_LEFT], Apart (coreFld c g) es) :
    t.Quiet c where
  busy0 := by rw [hw.cget_eq (he _ (by simp)), h.busy0]
  busy1 := by rw [hw.cget_eq (he _ (by simp)), h.busy1]
  mx := by rw [hw.cget_eq (he _ (by simp)), h.mx]
  vx := by rw [hw.cget_eq (he _ (by simp)), h.vx]
  beats := by rw [hw.beats_eq]; exact h.beats
  flights := by rw [hw.flights_eq]; exact h.flights

end State.Quiet
end Sys2Proof.Machine
end

section
/-! PROOFS. The issue of a word of a core that runs: what the slots' effects leave to the sequencer, and where the core goes on (R28, R34). -/

namespace Sys2Proof.Machine

/-! ### The fields the sequencer goes by -/

/-- Fields of a core that the sequencer reads after the slots' effects: no effect of a control slot writes one. -/
def seqFlds : List Fld :=
  [Reg.CORE_SCHED_STATUS.STATE, Reg.CORE_SCHED_STATUS.SLIP_CAUSE, Reg.CORE_SCHED_STATUS.ADDR, Reg.CORE_ISSUE_COUNT.COUNT,
   Core.STOPPING, Core.PAST, Core.STEPPING, Reg.CORE_SCHED_CTL.BREAK_EN, Core.CH_BUSY 0, Core.CH_BUSY 1,
   Reg.CORE_MX_STATUS.OCC_LEFT, Reg.CORE_VX_STATUS.OCC_LEFT, Reg.CORE_SCHED_STATUS.OPEN_LOOPS,
   Reg.CORE_LOOP_STATE.END 0, Reg.CORE_LOOP_STATE.END 1, Reg.CORE_LOOP_STATE.END 2, Reg.CORE_LOOP_STATE.END 3]

/-- The listed fields are none that the sequencer reads. -/
def SeqApart (c : CoreRef) (es : List (Nat × Fld)) : Prop := ∀ g ∈ seqFlds, Apart (coreFld c g) es

theorem seqApart_nil (c : CoreRef) : SeqApart c [] := fun _ _ => by simp

theorem seqApart_map {c : CoreRef} {fs : List Fld} (h : ∀ g ∈ seqFlds, ∀ f ∈ fs, g.pos ≠ f.pos) : SeqApart c (fs.map (coreFld c)) :=
  fun g hg => apart_coreFlds (h g hg)

theorem SeqApart.mono {c : CoreRef} {as bs : List (Nat × Fld)} (h : SeqApart c bs) (hab : as ⊆ bs) : SeqApart c as :=
  fun g hg a ha => h g hg a (hab ha)

/-- Fields by which the sequencer stops after a word. -/
def stopFlds : List Fld := [Core.STOPPING, Core.PAST, Core.STEPPING, Reg.CORE_SCHED_CTL.BREAK_EN]

/-- Fields by which open loops end at a word. -/
def loopEndFlds : List Fld :=
  [Reg.CORE_SCHED_STATUS.OPEN_LOOPS, Reg.CORE_LOOP_STATE.END 0, Reg.CORE_LOOP_STATE.END 1, Reg.CORE_LOOP_STATE.END 2, Reg.CORE_LOOP_STATE.END 3]

/-- Sequencer fields stay apart from further fields of the core at other places. -/
theorem SeqApart.append {c : CoreRef} {es : List (Nat × Fld)} (he : SeqApart c es) {gs fs : List Fld} (hg : ∀ g ∈ gs, g ∈ seqFlds)
    (hf : ∀ g ∈ gs, ∀ f ∈ fs, g.pos ≠ f.pos) : ∀ g ∈ gs, Apart (coreFld c g) (es ++ fs.map (coreFld c)) :=
  fun g hm => (apart_append ..).2 ⟨he g (hg g hm), apart_coreFlds (hf g hm)⟩

namespace State.coreRuns
variable {s : State} {c : CoreRef}

theorem quiet (h : s.coreRuns c) : s.Quiet c :=
  let ⟨_, _, _, _, _, _, _, _, h0, h1, hm, hv, hb, hu, _⟩ := h
  ⟨h0, h1, hm, hv, hb, hu⟩

theorem wf (h : s.coreRuns c) : c.wf = true := h.1
theorem state (h : s.coreRuns c) : s.cget c Reg.CORE_SCHED_STATUS.STATE = 1 ∨ s.cget c Reg.CORE_SCHED_STATUS.STATE = 2 := h.2.1
theorem stopping (h : s.coreRuns c) : s.cget c Core.STOPPING = 0 := h.2.2.1
theorem past (h : s.coreRuns c) : s.cflag c Core.PAST = false := (State.cflag_false_iff s c Core.PAST rfl).2 h.2.2.2.1
theorem breakOff (h : s.coreRuns c) : s.cflag c Reg.CORE_SCHED_CTL.BREAK_EN = false :=
  (State.cflag_false_iff s c Reg.CORE_SCHED_CTL.BREAK_EN rfl).2 h.2.2.2.2.1
theorem stepping (h : s.coreRuns c) : s.cflag c Core.STEPPING = false :=
  (State.cflag_false_iff s c Core.STEPPING rfl).2 h.2.2.2.2.2.1
theorem addr_lt (h : s.coreRuns c) : s.wordAddr c < 2047 := h.2.2.2.2.2.2.1
theorem loops_le (h : s.coreRuns c) : s.openLoops c ≤ 4 := h.2.2.2.2.2.2.2.1
theorem no_pause (h : s.coreRuns c) : s.pausePending c.site = false :=
  let ⟨_, _, _, _, _, _, _, _, _, _, _, _, _, _, hp⟩ := h
  hp

end State.coreRuns

/-- A core that runs, without a stop, pause or breakpoint, and with nothing under way: it may be stepping. -/
structure State.Offered (s : State) (c : CoreRef) : Prop where
  state : s.cget c Reg.CORE_SCHED_STATUS.STATE = 1 ∨ s.cget c Reg.CORE_SCHED_STATUS.STATE = 2
  stopping : s.cget c Core.STOPPING = 0
  past : s.cflag c Core.PAST = false
  breakOff : s.cflag c Reg.CORE_SCHED_CTL.BREAK_EN = false
  quiet : s.Quiet c
  noPause : s.pausePending c.site = false

theorem State.coreRuns.offered {s : State} {c : CoreRef} (h : s.coreRuns c) : s.Offered c :=
  ⟨h.state, h.stopping, h.past, h.breakOff, h.quiet, h.no_pause⟩

/-- A word offered to a core that runs is due. -/
theorem State.Offered.issueWord {s : State} {c : CoreRef} (h : s.Offered c) (w : Slots) : s.issueWord c w = s.issueDue c w := by
  have hst : ¬ (s.cget c Reg.CORE_SCHED_STATUS.STATE ≠ 1 ∧ s.cget c Reg.CORE_SCHED_STATUS.STATE ≠ 2) := by have := h.state; omega
  unfold State.issueWord
  simp only [hst, h.stopping, h.breakOff, ne_eq, not_true_eq_false, or_self, Bool.false_eq_true, false_and, if_false]

/-- A word after which no pause stops the core is an issued one. -/
theorem State.runWord_of_issueWord {s u : State} {c : CoreRef} {w : Slots} (h : s.issueWord c w = u) (hu : u.cget c Core.STOPPING ≠ 1) :
    s.runWord c w = u := by
  simp only [State.runWord, h, hu, false_and, if_false]

/-- A core that runs, with no step and no breakpoint, goes on after a word. -/
theorem State.afterIssue_running {t : State} {c : CoreRef} (hst : t.cget c Reg.CORE_SCHED_STATUS.STATE = 1) (hp : t.cflag c Core.PAST = false)
    (hs : t.cflag c Core.STEPPING = false) (hb : t.cflag c Reg.CORE_SCHED_CTL.BREAK_EN = false) : t.afterIssue c false false = t := by
  simp only [State.afterIssue, hst, hp, hs, hb, Bool.false_eq_true, false_and, if_false, OfNat.one_ne_ofNat]

/-! ### A word that issues -/

/-- A word issues: STATE, the slip cause and the pass of a breakpoint. -/
def State.mark (s : State) (c : CoreRef) : State :=
  ((s.cput c Reg.CORE_SCHED_STATUS.STATE 1).cput c Reg.CORE_SCHED_STATUS.SLIP_CAUSE 0).cset c Core.BRK_PASS false

/-- The fields `mark` writes. -/
def markFlds (c : CoreRef) : List (Nat × Fld) :=
  [coreFld c Reg.CORE_SCHED_STATUS.STATE, coreFld c Reg.CORE_SCHED_STATUS.SLIP_CAUSE, coreFld c Core.BRK_PASS]

/-- In `t` the core's word is issuing: besides the marks of its issue, only the listed fields differ from those of `s`. -/
structure State.Issuing (s t : State) (c : CoreRef) (es : List (Nat × Fld)) : Prop where
  writes : s.Writes t (markFlds c ++ es)
  state : t.cget c Reg.CORE_SCHED_STATUS.STATE = 1
  slip : t.cget c Reg.CORE_SCHED_STATUS.SLIP_CAUSE = 0

namespace State.Issuing
variable {s t : State} {c : CoreRef} {es : List (Nat × Fld)}

theorem mark (h : risingFrom 0 s.fld = true) (c : CoreRef) : s.Issuing (s.mark c) c [] where
  writes := (((Writes.refl h).cput c Reg.CORE_SCHED_STATUS.STATE 1).cput c Reg.CORE_SCHED_STATUS.SLIP_CAUSE 0).cset c Core.BRK_PASS false
  state := by
    have h1 := State.cput_rising h c Reg.CORE_SCHED_STATUS.STATE 1
    have h2 := State.cput_rising h1 c Reg.CORE_SCHED_STATUS.SLIP_CAUSE 0
    exact (State.cget_cput_other h2 c (by decide) _).trans
      ((State.cget_cput_other h1 c (by decide) _).trans (State.cget_cput_of_lt h c _ (by decide)))
  slip := by
    have h1 := State.cput_rising h c Reg.CORE_SCHED_STATUS.STATE 1
    have h2 := State.cput_rising h1 c Reg.CORE_SCHED_STATUS.SLIP_CAUSE 0
    exact (State.cget_cput_other h2 c (by decide) _).trans (State.cget_cput_of_lt h1 c _ (by decide))

theorem ordered (h : s.Issuing t c es) : risingFrom 0 t.fld = true := h.writes.ordered

/-- A write of another field goes on with the issue. -/
theorem of_writes (h : s.Issuing t c es) {u : State} {fs : List (Nat × Fld)} (hw : t.Writes u fs)
    (h1 : Apart (coreFld c Reg.CORE_SCHED_STATUS.STATE) fs) (h2 : Apart (coreFld c Reg.CORE_SCHED_STATUS.SLIP_CAUSE) fs) :
    s.Issuing u c (es ++ fs) where
  writes := List.append_assoc _ _ _ ▸ h.writes.trans hw
  state := by rw [hw.cget_eq h1, h.state]
  slip := by rw [hw.cget_eq h2, h.slip]

theorem cput (h : s.Issuing t c es) (f : Fld) (v : Nat) (h1 : Reg.CORE_SCHED_STATUS.STATE.pos ≠ f.pos)
    (h2 : Reg.CORE_SCHED_STATUS.SLIP_CAUSE.pos ≠ f.pos) : s.Issuing (t.cput c f v) c (es ++ [coreFld c f]) :=
  h.of_writes ((Writes.refl h.ordered).cput c f v) (by simpa using h1) (by simpa using h2)

/-- A field that neither the marks nor the listed writes touch. -/
theorem cget_eq (h : s.Issuing t c es) {f : Fld} (h1 : Apart (coreFld c f) (markFlds c)) (h2 : Apart (coreFld c f) es) :
    t.cget c f = s.cget c f := h.writes.cget_eq (by simp [h1, h2])

theorem cflag_eq (h : s.Issuing t c es) {f : Fld} (h1 : Apart (coreFld c f) (markFlds c)) (h2 : Apart (coreFld c f) es) :
    t.cflag c f = s.cflag c f := h.writes.cflag_eq (by simp [h1, h2])

end State.Issuing

/-- Fields that the marks of an issue leave. -/
theorem apart_mark {c : CoreRef} {f : Fld}
    (h : ∀ g ∈ [Reg.CORE_SCHED_STATUS.STATE, Reg.CORE_SCHED_STATUS.SLIP_CAUSE, Core.BRK_PASS], f.pos ≠ g.pos) :
    Apart (coreFld c f) (markFlds c) := apart_coreFlds h

namespace State.Issuing
variable {s t : State} {c : CoreRef} {es : List (Nat × Fld)}

/-- A core whose word is issuing is as quiet as before. -/
theorem quiet (h : s.Issuing t c es) (hq : s.Quiet c) (he : SeqApart c es) : t.Quiet c where
  busy0 := (h.cget_eq (apart_mark (by decide)) (he _ (by decide))).trans hq.busy0
  busy1 := (h.cget_eq (apart_mark (by decide)) (he _ (by decide))).trans hq.busy1
  mx := (h.cget_eq (apart_mark (by decide)) (he _ (by decide))).trans hq.mx
  vx := (h.cget_eq (apart_mark (by decide)) (he _ (by decide))).trans hq.vx
  beats := by rw [h.writes.beats_eq]; exact hq.beats
  flights := by rw [h.writes.flights_eq]; exact hq.flights

/-- The sequencer of a core that runs goes on. -/
theorem afterIssue (h : s.Issuing t c es) (hr : s.coreRuns c)
    (he : ∀ g ∈ stopFlds, Apart (coreFld c g) es) : t.afterIssue c false false = t :=
  State.afterIssue_running h.state ((h.cflag_eq (apart_mark (by decide)) (he Core.PAST (by decide))).trans hr.past)
    ((h.cflag_eq (apart_mark (by decide)) (he Core.STEPPING (by decide))).trans hr.stepping)
    ((h.cflag_eq (apart_mark (by decide)) (he Reg.CORE_SCHED_CTL.BREAK_EN (by decide))).trans hr.breakOff)

/-- A core that runs is not stopping while its word issues. -/
theorem not_stopping (h : s.Issuing t c es) (hr : s.coreRuns c) (he : Apart (coreFld c Core.STOPPING) es) : t.cget c Core.STOPPING ≠ 1 := by
  rw [h.cget_eq (apart_mark (by decide)) he, hr.stopping]
  decide

/-- `END` stops the sequencer. -/
theorem afterIssue_end (h : s.Issuing t c es) (paused : Bool) : t.afterIssue c true paused = t.cput c Core.STOPPING 2 := by
  simp only [State.afterIssue, h.state, OfNat.one_ne_ofNat, if_false, if_true]

/-- No open loop ends at a word where none did. -/
theorem noLoopEnds (h : s.Issuing t c es) (hl : s.openLoops c ≤ 4)
    (he : ∀ g ∈ loopEndFlds, Apart (coreFld c g) es) {a : Nat}
    (hn : s.noLoopEnds c a) : t.noLoopEnds c a := by
  have ho : t.openLoops c = s.openLoops c := h.cget_eq (apart_mark (by decide)) (he _ (by decide))
  unfold State.noLoopEnds at *
  rw [ho]
  rcases Nat.eq_zero_or_pos (s.openLoops c) with h0 | h0
  · exact .inl h0
  · have hk : s.openLoops c - 1 < 4 := by omega
    have hm : Apart (coreFld c (Reg.CORE_LOOP_STATE.END (s.openLoops c - 1))) (markFlds c) :=
      apart_mark ((by decide : ∀ l < 4, ∀ g ∈ [Reg.CORE_SCHED_STATUS.STATE, Reg.CORE_SCHED_STATUS.SLIP_CAUSE, Core.BRK_PASS],
        (Reg.CORE_LOOP_STATE.END l).pos ≠ g.pos) _ hk)
    rw [h.cget_eq hm (he _ ((by decide : ∀ l < 4, Reg.CORE_LOOP_STATE.END l ∈ loopEndFlds) _ hk))]
    exact hn

/-- The core goes on at a word of the store. -/
theorem wordIssued (h : s.Issuing t c (coreFld c Reg.CORE_ISSUE_COUNT.COUNT :: es))
    (hc : t.cget c Reg.CORE_ISSUE_COUNT.COUNT = min (s.cget c Reg.CORE_ISSUE_COUNT.COUNT + 1) (2 ^ 48 - 1)) {a : Nat} (ha : a ≤ 2047) :
    s.wordIssued (t.gotoWord c a) c a es := by
  have hgoto : t.gotoWord c a = t.cput c Reg.CORE_SCHED_STATUS.ADDR a := if_neg (by omega)
  have hu := h.cput Reg.CORE_SCHED_STATUS.ADDR a (by decide) (by decide)
  rw [hgoto]
  refine ⟨⟨hu.state, hu.slip, State.cget_cput_of_lt h.ordered c _ (show a < 2 ^ 11 by omega), ?_, ?_⟩, hu.writes.eq_with_fld⟩
  · exact (State.cget_cput_other h.ordered c (by decide) _).trans hc
  · refine (hu.writes.mono fun e he => ?_).only.2
    simp only [markFlds, issueFlds, List.mem_append, List.mem_cons, List.not_mem_nil, or_false] at he ⊢
    tauto

end State.Issuing

theorem State.nextWord_goto (n : Nat) {s : State} {c : CoreRef} {a : Nat} (h : s.noLoopEnds c a) : State.nextWord n s c a = s.gotoWord c (a + 1) := by
  cases n with
  | zero => rfl
  | succ n =>
    unfold State.nextWord
    exact if_pos h

/-! ### A word whose checks pass and whose waits are met -/

/-- A word passes its checks, signals no arrival, and waits for nothing. -/
structure State.Passes (s : State) (c : CoreRef) (w : Slots) : Prop where
  checks : s.wordFault c w (s.wordAddr c) = none
  arrival : s.signalArrival c (s.gated c w.wt) = s
  waits : waitCause s c (s.gated c w.wt) = 0
  port : qpReady s c (s.gated c w.qp) = true

/-- Only the wait/huddle and the predicate/loop slot of a word have an effect. -/
structure State.Control (s : State) (c : CoreRef) (w : Slots) : Prop where
  mx : s.gated c w.mx = 0
  vx : s.gated c w.vx = 0
  mv0 : s.gated c w.mv0 = 0
  mv1 : s.gated c w.mv1 = 0
  qp : s.gated c w.qp = 0

/-- What the wait/huddle and the predicate/loop slot of an issuing word do before the sequencer goes on. -/
def State.controlEffects (s : State) (c : CoreRef) (w : Slots) : State :=
  (((s.mark c).takeWait c (s.gated c w.wt)).loadCount s c (s.gated c w.pl)).writePred c (plPred s c (s.gated c w.pl))

section
variable {s : State} {c : CoreRef} {w : Slots} {es : List (Nat × Fld)}

theorem State.Offered.issueWord_of_passes (hr : s.Offered c) (hp : s.Passes c w) : s.issueWord c w = s.issueSlots c w (s.wordAddr c) := by
  rw [hr.issueWord]
  have hf := hp.checks
  unfold State.wordAddr at *
  simp only [State.issueDue, hr.past, hf, hp.arrival, hp.waits, hp.port, ne_eq, not_true_eq_false, Bool.not_true, Bool.false_eq_true, if_false]

/-- After the effects of the control slots the count goes up and the sequencer goes on: nothing of the core is under way (R49). -/
theorem State.Offered.issueSlots_control (hr : s.Offered c) (hz : s.Control c w) (hI : s.Issuing (s.controlEffects c w) c es)
    (he : SeqApart c es) (a : Nat) :
    s.issueSlots c w a = (((s.controlEffects c w).cbump c Reg.CORE_ISSUE_COUNT.COUNT).sequence s c (s.gated c w.pl) a).afterIssue c
      (bitsOf (s.gated c w.pl) 9 6 == 6) false := by
  have hb := hI.of_writes ((Writes.refl hI.ordered).cbump c Reg.CORE_ISSUE_COUNT.COUNT) (by simp; decide) (by simp; decide)
  have hq : ((s.controlEffects c w).cbump c Reg.CORE_ISSUE_COUNT.COUNT).Quiet c :=
    (hI.quiet hr.quiet he).of_writes ((Writes.refl hI.ordered).cbump c Reg.CORE_ISSUE_COUNT.COUNT) (by simp; decide)
  have hst := hb.state
  have ht := hq.tickChecked
  have hpause : s.pausesHere c (s.gated c w.wt) = false := by simp [State.pausesHere, hr.noPause]
  simp only [State.controlEffects, State.mark] at hst ht ⊢
  simp only [State.issueSlots, hz.mx, hz.vx, hz.mv0, hz.mv1, hz.qp, mxIssue_zero, vxIssue_zero, startMove_zero, qpIssue_zero, hpause, ht, hst,
    OfNat.one_ne_ofNat, Bool.false_eq_true, if_false]

/-- A word of control slots, without `END`, goes on where the sequencer takes it. -/
theorem State.coreRuns.runWord_of_sequence (hr : s.coreRuns c) (hz : s.Control c w) (hI : s.Issuing (s.controlEffects c w) c es)
    (he : SeqApart c es) (hp : s.Passes c w) (h6 : bitsOf (s.gated c w.pl) 9 6 ≠ 6) {u : State} {fs : List (Nat × Fld)}
    (hseq : ((s.controlEffects c w).cbump c Reg.CORE_ISSUE_COUNT.COUNT).sequence s c (s.gated c w.pl) (s.wordAddr c) = u)
    (hu : s.Issuing u c fs) (hf : ∀ g ∈ stopFlds, Apart (coreFld c g) fs) : s.runWord c w = u := by
  refine State.runWord_of_issueWord ?_ (hu.not_stopping hr (hf _ (by decide)))
  rw [hr.offered.issueWord_of_passes hp, hr.offered.issueSlots_control hz hI he, hseq, beq_false_of_ne h6]
  exact hu.afterIssue hr fun g hg => hf g hg

end
end Sys2Proof.Machine
end

section
/-! PROOFS. Words with one control slot: what they check, and how a core that is ready goes on after one (R28, R36, R41, R44). -/

namespace Sys2Proof.Machine

variable {s t : State} {c : CoreRef} {w : Slots} {es : List (Nat × Fld)}

/-! ### The step to the next word -/

theorem State.gotoWord_of_le (t : State) (c : CoreRef) {a : Nat} (ha : a ≤ 2047) :
    t.gotoWord c a = t.cput c Reg.CORE_SCHED_STATUS.ADDR a := if_neg (by omega)

/-- The issue is counted, and the sequencer goes to word `a`. -/
def State.issueNext (t : State) (c : CoreRef) (a : Nat) : State := (t.cbump c Reg.CORE_ISSUE_COUNT.COUNT).gotoWord c a

/-- The issue is counted. -/
theorem State.Issuing.count (h : s.Issuing t c es) (he : SeqApart c es) :
    s.Issuing (t.cbump c Reg.CORE_ISSUE_COUNT.COUNT) c (es ++ [coreFld c Reg.CORE_ISSUE_COUNT.COUNT])
      ∧ (t.cbump c Reg.CORE_ISSUE_COUNT.COUNT).cget c Reg.CORE_ISSUE_COUNT.COUNT = min (s.cget c Reg.CORE_ISSUE_COUNT.COUNT + 1) (2 ^ 48 - 1) := by
  refine ⟨h.cput _ _ (by decide) (by decide), ?_⟩
  rw [State.cget_cbump_same h.ordered, h.cget_eq (apart_mark (by decide)) (he _ (by decide))]
  rfl

theorem State.Issuing.issueNext (h : s.Issuing t c es) (he : SeqApart c es) {a : Nat} (ha : a ≤ 2047) : s.wordIssued (t.issueNext c a) c a es := by
  obtain ⟨hb, hc⟩ := h.count he
  exact State.Issuing.wordIssued ⟨hb.writes.mono fun e => by simp; tauto, hb.state, hb.slip⟩ hc ha

/-- The sequencer's step leaves every other field of the core. -/
theorem State.cget_issueNext (h : risingFrom 0 t.fld = true) {f : Fld} (h1 : f.pos ≠ Reg.CORE_ISSUE_COUNT.COUNT.pos)
    (h2 : f.pos ≠ Reg.CORE_SCHED_STATUS.ADDR.pos) {a : Nat} (ha : a ≤ 2047) : (t.issueNext c a).cget c f = t.cget c f := by
  rw [State.issueNext, State.gotoWord_of_le _ _ ha, State.cget_cput_other (s := t.cbump c Reg.CORE_ISSUE_COUNT.COUNT) (State.cput_rising h c _ _) c h2]
  exact State.cget_cput_other h c h1 _

theorem SeqApart.pos_ne {f g : Fld} (h : SeqApart c es) (hf : coreFld c f ∈ es) (hg : g ∈ seqFlds) : g.pos ≠ f.pos := by
  simpa using h g hg _ hf

/-- A field that an effect wrote reads after the step as the effect wrote it. -/
theorem SeqApart.cget_issueNext {f : Fld} (h : SeqApart c es) (hf : coreFld c f ∈ es) (ht : risingFrom 0 t.fld = true) {a : Nat}
    (ha : a ≤ 2047) : (t.issueNext c a).cget c f = t.cget c f :=
  State.cget_issueNext ht (h.pos_ne hf (by decide)).symm (h.pos_ne hf (by decide)).symm ha

theorem SeqApart.cflag_issueNext {f : Fld} (h : SeqApart c es) (hf : coreFld c f ∈ es) (ht : risingFrom 0 t.fld = true) {a : Nat}
    (ha : a ≤ 2047) : (t.issueNext c a).cflag c f = t.cflag c f := by
  have := h.cget_issueNext hf ht ha
  simp_all [State.flag]

section
variable (hr : s.coreReady c) (hz : s.Control c w) (hI : s.Issuing (s.controlEffects c w) c es) (he : SeqApart c es)
include hr hI

theorem State.coreReady.issuing_next :
    s.Issuing ((s.controlEffects c w).issueNext c (s.wordAddr c + 1)) c
      (es ++ [coreFld c Reg.CORE_ISSUE_COUNT.COUNT, coreFld c Reg.CORE_SCHED_STATUS.ADDR]) := by
  rw [State.issueNext, State.gotoWord_of_le _ _ (show s.wordAddr c + 1 ≤ 2047 from hr.1.addr_lt)]
  exact List.append_assoc es [_] [_] ▸ (hI.cput Reg.CORE_ISSUE_COUNT.COUNT _ (by decide) (by decide)).cput Reg.CORE_SCHED_STATUS.ADDR _
    (by decide) (by decide)

include he

/-- The sequencer goes to the next word of a core that is ready. -/
theorem State.coreReady.sequence_next (h1 : bitsOf (s.gated c w.pl) 9 6 ≠ 1) :
    ((s.controlEffects c w).cbump c Reg.CORE_ISSUE_COUNT.COUNT).sequence s c (s.gated c w.pl) (s.wordAddr c)
      = (s.controlEffects c w).issueNext c (s.wordAddr c + 1) := by
  have hnl := (hI.count he).1.noLoopEnds hr.1.loops_le (he.append (fs := [Reg.CORE_ISSUE_COUNT.COUNT]) (by decide) (by decide)) hr.2
  rw [State.sequence, if_neg h1, State.nextWord_goto 5 (a := s.wordAddr c) hnl]
  rfl

include hz

/-- A word without `LOOP` or `END`: the core goes on. -/
theorem State.coreReady.runWord (hp : s.Passes c w) (h1 : bitsOf (s.gated c w.pl) 9 6 ≠ 1) (h6 : bitsOf (s.gated c w.pl) 9 6 ≠ 6) :
    s.runWord c w = (s.controlEffects c w).issueNext c (s.wordAddr c + 1)
      ∧ s.wordIssued ((s.controlEffects c w).issueNext c (s.wordAddr c + 1)) c (s.wordAddr c + 1) es :=
  ⟨hr.1.runWord_of_sequence hz hI he hp h6 (hr.sequence_next hI he h1) (hr.issuing_next hI)
    (he.append (fs := [Reg.CORE_ISSUE_COUNT.COUNT, Reg.CORE_SCHED_STATUS.ADDR]) (by decide) (by decide)),
    hI.issueNext he hr.1.addr_lt⟩

end
end Sys2Proof.Machine
end

section
/-! PROOFS. The slots that write a predicate, and slots whose guard is false (R35, R36, R41). -/

namespace Sys2Proof.Machine

variable {s : State} {c : CoreRef} {w : Slots} {es : List (Nat × Fld)}

/-! ### The rows' words -/

/-- A number below `2 ^ k` with no bit from `n` on. -/
theorem lt_of_bitsOf_zero {v n k : Nat} (hv : v < 2 ^ (k + 1)) (h : bitsOf v k n = 0) : v < 2 ^ n := by
  refine Nat.lt_pow_two_of_testBit _ fun i hi => ?_
  by_cases hk : i < k + 1
  · have hb := testBit_bitsOf v k n (i - n)
    rw [h, Nat.zero_testBit, show n + (i - n) = i by omega, decide_eq_true (by omega)] at hb
    simpa using hb.symm
  · exact Nat.testBit_lt_two_pow (lt_of_lt_of_le hv (Nat.pow_le_pow_right (by decide) (by omega)))

theorem lt_of_bitsOf_ne_zero {v n k : Nat} (h : bitsOf v k n ≠ 0) : 2 ^ n ≤ v := by
  by_contra hv
  exact h (by rw [bitsOf, Nat.div_eq_of_lt (by omega), Nat.zero_mod])

theorem runPl_eq (s : State) (c : CoreRef) (w : BitVec 24) {op : Nat} (hop : op < 16) :
    s.runPl c w.toNat op = s.runWord c (plWord (withField w.toNat 9 6 op)) := by
  rw [State.runPl, oneSlot_plWord (withField_lt (by decide) hop (by decide) w.isLt)]

theorem runWt_eq (s : State) (c : CoreRef) (w : BitVec 24) {k : Nat} (hk : k < 4) :
    s.runWt c w.toNat k = s.runWord c (wtWord (withField w.toNat 7 6 k)) := by
  rw [State.runWt, oneSlot_wtWord (withField_lt (by decide) hk (by decide) w.isLt)]

theorem runHuddle_eq (s : State) (c : CoreRef) (w : BitVec 24) {m : Nat} (hm : m < 4) :
    s.runHuddle c w.toNat m = s.runWord c (wtWord (withField (withField w.toNat 7 6 3) 13 12 m)) := by
  rw [State.runHuddle, oneSlot_wtWord (withField_lt (by decide) hm (by decide) (withField_lt (by decide) (by decide) (by decide) w.isLt))]

theorem runQp_eq (s : State) (c : CoreRef) (w : BitVec 32) {op : Nat} (hop : op < 16) :
    s.runQp c w.toNat op = s.runWord c (qpWord (withField w.toNat 9 6 op)) := by
  rw [State.runQp, oneSlot_qpWord (withField_lt (by decide) hop (by decide) w.isLt)]

/-! ### Words of one slot that pass -/

section
variable {v : Nat}

theorem gated_of_live (h : s.live c v = true) : s.gated c v = v := if_pos h
theorem gated_of_not_live (h : s.live c v = false) : s.gated c v = 0 := if_neg (by simp [h])

theorem control_pl (s : State) (c : CoreRef) (v : Nat) : s.Control c (plWord v) := by constructor <;> exact gated_zero s c
theorem control_wt (s : State) (c : CoreRef) (v : Nat) : s.Control c (wtWord v) := by constructor <;> exact gated_zero s c

/-- A predicate/loop slot with a true guard passes where its own bits and the core's state break nothing. -/
theorem passes_pl (hl : s.slotLive c v) (hs : plStatic s c v = []) (hd : plDynamic s c v (s.wordAddr c) = []) :
    s.Passes c (plWord v) where
  checks := by rw [wordFault_plWord, hs, hd, hl.1]; simp
  arrival := by simp [plWord]
  waits := by simp [plWord]
  port := by simp [plWord]

theorem slotLive_withField {hi lo x : Nat} (h : s.slotLive c v) (hg : 5 < lo) (hle : lo ≤ hi) (hx : x < 2 ^ (hi + 1 - lo)) :
    s.slotLive c (withField v hi lo x) :=
  ⟨(badGuard_withField hg hle hx).trans h.1, (live_withField s c hg hle hx).trans h.2⟩

end

/-! ### Slots whose guard is false -/

/-- A word all of whose slots have a false guard or no operation: the core's address and counts change, and nothing else (R35). -/
theorem State.coreReady.runWord_gated (hs : s.canonical = true) (hr : s.coreReady c) (hf : s.wordFault c w (s.wordAddr c) = none)
    (hz : s.Control c w) (hw : s.gated c w.wt = 0) (hp : s.gated c w.pl = 0) :
    s.wordIssued (s.runWord c w) c (s.wordAddr c + 1) [] := by
  have hpass : s.Passes c w := ⟨hf, by simp [hw], by simp [hw], by simp [hz.qp]⟩
  have he : s.controlEffects c w = s.mark c := by simp [State.controlEffects, hw, hp, State.writePred]
  obtain ⟨hu, hi⟩ := hr.runWord hz (he ▸ State.Issuing.mark (State.canonical_fld hs) c) (seqApart_nil c) hpass (by simp [hp]) (by simp [hp])
  exact hu ▸ hi

section
variable {v : Nat} (hs : s.canonical = true) (hr : s.coreReady c) (hl : s.live c v = false)
include hs hr hl

theorem runWord_pl_not_live (hst : plStatic s c v = []) :
    s.wordIssued (s.runWord c (plWord v)) c (s.wordAddr c + 1) [] :=
  hr.runWord_gated hs (by rw [wordFault_plWord, badGuard_of_not_live hl, hst, hl]; simp) (control_pl s c v) (gated_zero s c) (gated_of_not_live hl)

theorem runWord_wt_not_live (hst : wtStatic v = []) :
    s.wordIssued (s.runWord c (wtWord v)) c (s.wordAddr c + 1) [] :=
  hr.runWord_gated hs (by rw [wordFault_wtWord, badGuard_of_not_live hl, hst, hl]; simp) (control_wt s c v) (gated_of_not_live hl) (gated_zero s c)

theorem runWord_qp_not_live (hst : qpStatic v = []) :
    s.wordIssued (s.runWord c (qpWord v)) c (s.wordAddr c + 1) [] :=
  hr.runWord_gated hs (by rw [wordFault_qpWord_not_live s c _ hl, hst]; rfl)
    ⟨gated_zero s c, gated_zero s c, gated_zero s c, gated_zero s c, gated_of_not_live hl⟩ (gated_zero s c) (gated_zero s c)

end

/-! ### What the slots of the plain rows decide alone -/

/-- The operation of a predicate/loop slot or a queue-port slot is the row's. -/
@[simp] theorem bitsOf_op {v op : Nat} (hop : op < 16) : bitsOf (withField v 9 6 op) 9 6 = op := bitsOf_withField_same (by decide) hop

/-- The other fields of the slot are those of the row's bits. -/
theorem bitsOf_op_other {v op hi lo : Nat} (hop : op < 16) (h : 9 < lo) : bitsOf (withField v 9 6 op) hi lo = bitsOf v hi lo :=
  bitsOf_withField_other (by decide) hop (.inr h)

theorem plSlot_lt {w : BitVec 24} {op n : Nat} (hop : op < 16) (hn : 9 < n) (h : bitsOf w.toNat 23 n = 0) : withField w.toNat 9 6 op < 2 ^ n :=
  withField_lt (by decide) hop hn (lt_of_bitsOf_zero w.isLt h)

section
variable (s : State) (c : CoreRef) (w : BitVec 24)

theorem plStatic_pset (h : bitsOf w.toNat 23 15 = 0) : plStatic s c (withField w.toNat 9 6 2) = [] := by
  have : extraBits (withField w.toNat 9 6 2) 0x7FFF = false := extraBits_low (n := 15) (plSlot_lt (by decide) (by decide) h)
  simp [plStatic, this]

theorem plStatic_ploop (h : bitsOf w.toNat 23 19 = 0) (h5 : bitsOf w.toNat 18 16 ≤ 5) : plStatic s c (withField w.toNat 9 6 3) = [] := by
  have : extraBits (withField w.toNat 9 6 3) 0x7FFFF = false := extraBits_low (n := 19) (plSlot_lt (by decide) (by decide) h)
  have h5' := (bitsOf_op_other (v := w.toNat) (op := 3) (hi := 18) (lo := 16) (by decide) (by decide)).trans_le h5
  simp [plStatic, this, h5']

theorem plStatic_plogic : plStatic s c (withField w.toNat 9 6 4) = [] := by simp [plStatic]

theorem plStatic_ldcnt (h : bitsOf w.toNat 23 17 = 0) : plStatic s c (withField w.toNat 9 6 5) = [] := by
  have : extraBits (withField w.toNat 9 6 5) 0x1FFFF = false := extraBits_low (n := 17) (plSlot_lt (by decide) (by decide) h)
  simp [plStatic, this]

theorem plStatic_endSched (h : bitsOf w.toNat 23 10 = 0) : plStatic s c (withField w.toNat 9 6 6) = [] := by
  have : extraBits (withField w.toNat 9 6 6) 0x3FF = false := extraBits_low (n := 10) (plSlot_lt (by decide) (by decide) h)
  simp [plStatic, this]

end

@[simp] theorem bitsOf_kind {v k : Nat} (hk : k < 4) : bitsOf (withField v 7 6 k) 7 6 = k := bitsOf_withField_same (by decide) hk

theorem wtStatic_counterWait (v : Nat) : wtStatic (withField v 7 6 1) = [] := by simp [wtStatic]

theorem wtStatic_queueWait {v : Nat} (h : bitsOf v 19 18 ≠ 3) : wtStatic (withField v 7 6 2) = [] := by
  have h' : bitsOf (withField v 7 6 2) 19 18 ≠ 3 := by rwa [bitsOf_withField_other (by decide) (by decide) (.inr (by decide))]
  simp [wtStatic, h']

/-- The slot of a huddle in a mode. -/
def huddleSlot (v m : Nat) : Nat := withField (withField v 7 6 3) 13 12 m

section
variable (v : Nat) {m : Nat} (hm : m < 4)
include hm

@[simp] theorem bitsOf_huddle_mode : bitsOf (huddleSlot v m) 13 12 = m := bitsOf_withField_same (by decide) hm
@[simp] theorem bitsOf_huddle_kind : bitsOf (huddleSlot v m) 7 6 = 3 :=
  (bitsOf_withField_other (by decide) hm (.inl (by decide))).trans (bitsOf_kind (by decide))
@[simp] theorem bitsOf_huddle_line : bitsOf (huddleSlot v m) 11 8 = bitsOf v 11 8 :=
  (bitsOf_withField_other (by decide) hm (.inl (by decide))).trans (bitsOf_withField_other (by decide) (by decide) (.inr (by decide)))
@[simp] theorem bitsOf_huddle_rest : bitsOf (huddleSlot v m) 23 14 = bitsOf v 23 14 :=
  (bitsOf_withField_other (by decide) hm (.inr (by decide))).trans (bitsOf_withField_other (by decide) (by decide) (.inr (by decide)))

theorem live_huddle (s : State) (c : CoreRef) : s.live c (huddleSlot v m) = s.live c v :=
  (live_withField s c (by decide) (by decide) hm).trans (live_withField s c (by decide) (by decide) (by decide))

theorem wtStatic_huddle (h3 : m ≠ 3) (h : bitsOf v 23 14 = 0) : wtStatic (huddleSlot v m) = [] := by
  simp [wtStatic, hm, h, h3]
end

/-- A queue-port slot without reserved bits. -/
theorem qpStatic_of_op {v op : Nat} (hop : 1 ≤ op ∧ op ≤ 7) (h : bitsOf v 31 30 = 0) (h2 : 2 < op → bitsOf v 29 20 = 0) :
    qpStatic (withField v 9 6 op) = [] := by
  have hlt : op < 16 := by omega
  have hport : 2 < op → bitsOf v 21 20 = 0 ∧ bitsOf v 29 22 = 0 := fun h => by
    have := h2 h
    unfold bitsOf at *
    omega
  unfold qpStatic
  simp only [qpSlot, bitsOf_op hlt, bitsOf_op_other hlt (show 9 < 30 by decide), bitsOf_op_other hlt (show 9 < 20 by decide),
    bitsOf_op_other hlt (show 9 < 22 by decide), h]
  split
  · rfl
  · rw [if_neg (by rintro (h7 | h0 | ⟨h0, -⟩ | ⟨h0, h1⟩) <;> [omega; exact h0 rfl; omega; (have := hport h0; tauto)])]

end Sys2Proof.Machine
end

section
/-! PROOFS. Predicates (O11). -/

namespace Sys2Proof.Machine

variable {s : State} {c : CoreRef}

/-! ### The write of a predicate -/

/-- The sequencer reads no predicate. -/
theorem seqApart_pred (c : CoreRef) {i : Nat} (hi : i < 16) : SeqApart c [coreFld c (Reg.CORE_PRED.P i)] :=
  seqApart_map (fs := [Reg.CORE_PRED.P i]) fun g hg f hf => by
    rw [List.mem_singleton.1 hf]
    exact (by decide : ∀ i < 16, ∀ g ∈ seqFlds, g.pos ≠ (Reg.CORE_PRED.P i).pos) i hi g hg

/-- With nothing of the core under way, the slot's predicate collides with none of the vector engine (R36). -/
theorem State.Quiet.writePred {t : State} (h : t.Quiet c) (p : Nat × Bool) : t.writePred c (some p) = t.cset c (Reg.CORE_PRED.P p.1) p.2 := by
  have hf : ∀ q : EngineUse → Bool, t.flights.filter (fun u => !(u.owner == c && q u)) = t.flights := fun q =>
    List.filter_eq_self.2 fun u hu => by simp [h.flights u hu]
  simp only [State.writePred, h.unused.predsDue, List.any_nil, Bool.false_eq_true, if_false, Bool.and_assoc]
  rw [hf]

/-- The effect of a slot that names a predicate. -/
theorem State.coreRuns.effects_pred (hs : s.canonical = true) (hr : s.coreRuns c) {v i : Nat} {b : Bool} (hl : s.slotLive c v)
    (h5 : bitsOf v 9 6 ≠ 5) (hp : plPred s c v = some (i, b)) (hi : i < 16) :
    s.controlEffects c (plWord v) = (s.mark c).cset c (Reg.CORE_PRED.P i) b
      ∧ s.Issuing (s.controlEffects c (plWord v)) c [coreFld c (Reg.CORE_PRED.P i)] := by
  have hm := State.Issuing.mark (State.canonical_fld hs) c
  have hload : (s.mark c).loadCount s c v = s.mark c := if_neg h5
  have he : s.controlEffects c (plWord v) = (s.mark c).cset c (Reg.CORE_PRED.P i) b := by
    have hq := (hm.quiet hr.quiet (seqApart_nil c)).writePred (i, b)
    simp only [State.controlEffects, plWord, gated_zero, takeWait_zero, gated_of_live hl.2, hload, hp, hq]
  exact ⟨he, he ▸ hm.cput (Reg.CORE_PRED.P i) _ ((seqApart_pred c hi).pos_ne (by simp) (by decide))
    ((seqApart_pred c hi).pos_ne (by simp) (by decide))⟩

/-- The slots of the predicate/loop field that name a predicate: it takes their value, and the core goes on with the next word. -/
theorem State.coreReady.runWord_pred (hs : s.canonical = true) (hr : s.coreReady c) {v i op : Nat} {b : Bool} (hl : s.slotLive c v)
    (hop : bitsOf v 9 6 = op) (h1 : op = 2 ∨ op = 3 ∨ op = 4) (hst : plStatic s c v = []) (hd : plDynamic s c v (s.wordAddr c) = [])
    (hp : plPred s c v = some (i, b)) (hi : i < 16) :
    (s.runWord c (plWord v)).cflag c (Reg.CORE_PRED.P i) = b
      ∧ s.wordIssued (s.runWord c (plWord v)) c (s.wordAddr c + 1) [coreFld c (Reg.CORE_PRED.P i)] := by
  have hm := State.Issuing.mark (State.canonical_fld hs) c
  obtain ⟨he, hI⟩ := hr.1.effects_pred hs hl (by omega) hp hi
  obtain ⟨hu, hw⟩ := hr.runWord (control_pl s c v) hI (seqApart_pred c hi) (passes_pl hl hst hd)
    (by rw [plWord_pl, gated_of_live hl.2]; omega) (by rw [plWord_pl, gated_of_live hl.2]; omega)
  refine ⟨?_, hu ▸ hw⟩
  rw [hu, (seqApart_pred c hi).cflag_issueNext (by simp) hI.ordered hr.1.addr_lt, he, State.cflag_cset_same hm.ordered c _ b rfl]

theorem testBit_eq_bitsOf (v i : Nat) : v.testBit i = (bitsOf v i i == 1) := by
  rw [Nat.testBit_eq_decide_div_mod_eq, bitsOf, show i + 1 - i = 1 by omega]
  rfl

section
variable (s : State) (c : CoreRef) (w : BitVec 24)

theorem plPred_pset : plPred s c (withField w.toNat 9 6 2) = some (bitsOf w.toNat 13 10, bitsOf w.toNat 14 14 == 1) := by
  simp [plPred, bitsOf_op_other, testBit_eq_bitsOf]

theorem plPred_ploop (h5 : bitsOf w.toNat 18 16 ≤ 5) :
    let i := s.iteration c (bitsOf w.toNat 15 14)
    let left := s.cget c (Reg.CORE_LOOP_STATE.LEFT (bitsOf w.toNat 15 14))
    let k := bitsOf w.toNat 18 16
    plPred s c (withField w.toNat 9 6 3) = some (bitsOf w.toNat 13 10, (k == 0 && i == 0) || (k == 1 && left == 0) || (k == 2 && i != 0)
      || (k == 3 && left != 0) || (k == 4 && i % 2 == 0) || (k == 5 && i % 2 == 1)) := by
  intro i left k
  have hk : bitsOf w.toNat 18 16 = k := rfl
  simp (disch := decide) only [plPred, bitsOf_op, bitsOf_op_other, hk] at h5 ⊢
  clear_value k
  interval_cases k <;> simp [i, left]

theorem plPred_plogic :
    let p (j : Nat) : Bool := s.cflag c (Reg.CORE_PRED.P j)
    let a := p (bitsOf w.toNat 17 14)
    let b := p (bitsOf w.toNat 21 18)
    let k := bitsOf w.toNat 23 22
    plPred s c (withField w.toNat 9 6 4)
      = some (bitsOf w.toNat 13 10, (k == 0 && a && b) || (k == 1 && (a || b)) || (k == 2 && a != b) || (k == 3 && a && !b)) := by
  intro p a b k
  have hk : bitsOf w.toNat 23 22 = k := rfl
  have h4 : k < 4 := bitsOf_lt _ 23 22
  simp (disch := decide) only [plPred, bitsOf_op, bitsOf_op_other, hk]
  clear_value k
  interval_cases k <;> simp [a, b, p]

end

theorem exec_pset (c : CoreRef) (w : BitVec 24) (s : State) : exec (.pset c w) s = .next (s.runPl c w.toNat 2) := rfl
theorem exec_ploop (c : CoreRef) (w : BitVec 24) (s : State) : exec (.ploop c w) s = .next (s.runPl c w.toNat 3) := rfl
theorem exec_plogic (c : CoreRef) (w : BitVec 24) (s : State) : exec (.plogic c w) s = .next (s.runPl c w.toNat 4) := rfl

/-- A slot of the predicate/loop field that names a predicate, by its row. -/
theorem runPl_pred (hs : s.canonical = true) (hr : s.coreReady c) {w : BitVec 24} (hl : s.slotLive c w.toNat) {op : Nat} {b : Bool}
    (hop : op = 2 ∨ op = 3 ∨ op = 4) (hst : plStatic s c (withField w.toNat 9 6 op) = [])
    (hd : plDynamic s c (withField w.toNat 9 6 op) (s.wordAddr c) = [])
    (hp : plPred s c (withField w.toNat 9 6 op) = some (bitsOf w.toNat 13 10, b)) :
    (s.runPl c w.toNat op).cflag c (Reg.CORE_PRED.P (bitsOf w.toNat 13 10)) = b
      ∧ s.wordIssued (s.runPl c w.toNat op) c (s.wordAddr c + 1) [coreFld c (Reg.CORE_PRED.P (bitsOf w.toNat 13 10))] := by
  have hlt : op < 16 := by omega
  exact runPl_eq s c w hlt ▸ hr.runWord_pred hs (slotLive_withField hl (by decide) (by decide) hlt) (bitsOf_op hlt) hop hst hd hp
    (bitsOf_lt _ 13 10)

/-! ### Rows whose guard is false -/

/-- A row's word issues, and nothing but the core's address and counts changes. -/
def State.hasNoEffect (s : State) (c : CoreRef) (i : Instr) : Prop := ∃ u, exec i s = .next u ∧ s.wordIssued u c (s.wordAddr c + 1) []

section
variable (hs : s.canonical = true) (hr : s.coreReady c)
include hs hr

theorem hasNoEffect_pl {w : BitVec 24} {i : Instr} {op : Nat} (hi : exec i s = .next (s.runPl c w.toNat op)) (hop : op < 16)
    (hst : plStatic s c (withField w.toNat 9 6 op) = []) (hl : s.live c w.toNat = false) : s.hasNoEffect c i :=
  ⟨_, hi, runPl_eq s c w hop ▸ runWord_pl_not_live hs hr ((live_withField s c (by decide) (by decide) hop).trans hl) hst⟩

theorem hasNoEffect_wt {w : BitVec 24} {i : Instr} {k : Nat} (hi : exec i s = .next (s.runWt c w.toNat k)) (hk : k < 4)
    (hst : wtStatic (withField w.toNat 7 6 k) = []) (hl : s.live c w.toNat = false) : s.hasNoEffect c i :=
  ⟨_, hi, runWt_eq s c w hk ▸ runWord_wt_not_live hs hr ((live_withField s c (by decide) (by decide) hk).trans hl) hst⟩

theorem hasNoEffect_huddle {w : BitVec 24} {i : Instr} {m : Nat} (hi : exec i s = .next (s.runHuddle c w.toNat m)) (hm : m < 3)
    (hst : bitsOf w.toNat 23 14 = 0) (hl : s.live c w.toNat = false) : s.hasNoEffect c i :=
  have hm4 : m < 4 := by omega
  ⟨_, hi, runHuddle_eq s c w hm4 ▸ runWord_wt_not_live hs hr ((live_huddle w.toNat hm4 s c).trans hl) (wtStatic_huddle w.toNat hm4 (by omega) hst)⟩

theorem hasNoEffect_qp {q : BitVec 32} {i : Instr} {op : Nat} (hi : exec i s = .next (s.runQp c q.toNat op)) (hop : 1 ≤ op ∧ op ≤ 7)
    (hst : bitsOf q.toNat 31 30 = 0) (h2 : 2 < op → bitsOf q.toNat 29 20 = 0) (hl : s.live c q.toNat = false) : s.hasNoEffect c i :=
  have hlt : op < 16 := by omega
  ⟨_, hi, runQp_eq s c q hlt ▸ runWord_qp_not_live hs hr ((live_withField s c (by decide) (by decide) hlt).trans hl) (qpStatic_of_op hop hst h2)⟩

/-- Every row of the statement's table, with a false guard. -/
theorem plainSlots_gated (w : BitVec 24) (q : BitVec 32) :
    ∀ e ∈ plainSlots c w q, e.2.2 → s.live c e.2.1 = false → s.hasNoEffect c e.1 := by
  simp only [plainSlots, List.forall_mem_cons, List.not_mem_nil, false_imp_iff, implies_true, and_true]
  exact ⟨fun h => hasNoEffect_pl hs hr rfl (by decide) (plStatic_pset s c w h),
    fun h => hasNoEffect_pl hs hr rfl (by decide) (plStatic_ploop s c w h.1 h.2),
    fun _ => hasNoEffect_pl hs hr rfl (by decide) (plStatic_plogic s c w),
    fun h => hasNoEffect_pl hs hr rfl (by decide) (plStatic_ldcnt s c w h),
    fun h => hasNoEffect_pl hs hr rfl (by decide) (plStatic_endSched s c w h),
    fun _ => hasNoEffect_wt hs hr rfl (by decide) (wtStatic_counterWait w.toNat),
    fun h => hasNoEffect_wt hs hr rfl (by decide) (wtStatic_queueWait h),
    hasNoEffect_huddle hs hr rfl (by decide), hasNoEffect_huddle hs hr rfl (by decide), hasNoEffect_huddle hs hr rfl (by decide),
    fun h => hasNoEffect_qp hs hr rfl (by decide) h (absurd · (by decide)), fun h => hasNoEffect_qp hs hr rfl (by decide) h (absurd · (by decide)),
    fun h => hasNoEffect_qp hs hr rfl (by decide) h.1 fun _ => h.2, fun h => hasNoEffect_qp hs hr rfl (by decide) h.1 fun _ => h.2,
    fun h => hasNoEffect_qp hs hr rfl (by decide) h.1 fun _ => h.2, fun h => hasNoEffect_qp hs hr rfl (by decide) h.1 fun _ => h.2,
    fun h => hasNoEffect_qp hs hr rfl (by decide) h.1 fun _ => h.2⟩

end

/-- Settles O11: a slot that names a predicate writes the value `plPred` gives (`coreReady.runWord_pred`), and a slot with a false guard is
the issue of a word without an operation (`coreReady.runWord_gated`). -/
theorem predicateSlotsAndGuards : Obligations.PredicateSlotsAndGuards := by
  refine ⟨fun s c w hs hr hl => ?_, fun s c w q hs hr => plainSlots_gated hs hr w q⟩
  simp only [predicateSlots, List.forall_mem_cons, List.not_mem_nil, false_imp_iff, implies_true, and_true]
  refine ⟨fun h => ⟨_, exec_pset c w s, ?_⟩, fun ⟨h, h5, ho⟩ => ⟨_, exec_ploop c w s, ?_⟩, fun _ => ⟨_, exec_plogic c w s, ?_⟩⟩
  · exact runPl_pred hs hr hl (.inl rfl) (plStatic_pset s c w h) (by simp [plDynamic]) (plPred_pset s c w)
  · exact runPl_pred hs hr hl (.inr (.inl rfl)) (plStatic_ploop s c w h h5) (by simp [plDynamic, bitsOf_op_other, ho]) (plPred_ploop s c w h5)
  · exact runPl_pred hs hr hl (.inr (.inr rfl)) (plStatic_plogic s c w) (by simp [plDynamic]) (plPred_plogic s c w)

end Sys2Proof.Machine
end

section
/-! PROOFS. `LDCNT` and `END` (R40, R66). -/

namespace Sys2Proof.Machine

variable {s : State} {c : CoreRef} {es : List (Nat × Fld)}

/-- A field that no issue writes, written after the word. -/
theorem State.wordIssued.cput {t : State} {a : Nat} (h : s.wordIssued t c a es) (ht : risingFrom 0 t.fld = true) {f : Fld}
    (hf : ∀ g ∈ [Reg.CORE_SCHED_STATUS.STATE, Reg.CORE_SCHED_STATUS.SLIP_CAUSE, Reg.CORE_SCHED_STATUS.ADDR, Reg.CORE_ISSUE_COUNT.COUNT],
      g.pos ≠ f.pos) (v : Nat) : s.wordIssued (t.cput c f v) c a (es ++ [coreFld c f]) := by
  obtain ⟨⟨h1, h2, h3, h4, h5⟩, h6⟩ := h
  have hw : s.Writes (t.cput c f v) (issueFlds c ++ es ++ [coreFld c f]) := State.Writes.cput ⟨⟨h6, h5⟩, ht⟩ c f v
  have hr (g : Fld) (hg : g.pos ≠ f.pos) : (t.cput c f v).cget c g = t.cget c g := State.cget_cput_other ht c hg v
  exact ⟨⟨(hr _ (hf _ (by simp))).trans h1, (hr _ (hf _ (by simp))).trans h2, (hr _ (hf _ (by simp))).trans h3,
    (hr _ (hf _ (by simp))).trans h4, List.append_assoc .. ▸ hw.only.2⟩, hw.eq_with_fld⟩

theorem State.wordIssued.mono {t : State} {a : Nat} (h : s.wordIssued t c a es) {fs : List (Nat × Fld)} (hf : es ⊆ fs) :
    s.wordIssued t c a fs := by
  obtain ⟨⟨h1, h2, h3, h4, h5⟩, h6⟩ := h
  exact ⟨⟨h1, h2, h3, h4, fun site f hne => h5 site f fun e he => hne e (List.append_subset.2 ⟨List.subset_append_left _ _, List.subset_append_of_subset_right _ hf⟩ he)⟩, h6⟩

/-! ### `LDCNT` -/

/-- The sequencer reads no count register and no completion counter. -/
theorem seqApart_ldcnt (c : CoreRef) {reg ctr : Nat} (hr : reg < 8) (hc : ctr < 16) :
    SeqApart c [coreFld c (Reg.CORE_LOOPCNT.VALUE reg), coreFld c (Reg.CORE_CCOUNT.VALUE ctr)] :=
  seqApart_map (fs := [Reg.CORE_LOOPCNT.VALUE reg, Reg.CORE_CCOUNT.VALUE ctr]) fun g hg f hf => by
    simp only [List.mem_cons, List.not_mem_nil, or_false] at hf
    rcases hf with rfl | rfl
    · exact (by decide : ∀ i < 8, ∀ g ∈ seqFlds, g.pos ≠ (Reg.CORE_LOOPCNT.VALUE i).pos) reg hr g hg
    · exact (by decide : ∀ i < 16, ∀ g ∈ seqFlds, g.pos ≠ (Reg.CORE_CCOUNT.VALUE i).pos) ctr hc g hg

theorem exec_ldcnt (c : CoreRef) (w : BitVec 24) (s : State) : exec (.ldcnt c w) s = .next (s.runPl c w.toNat 5) := rfl
theorem exec_endSched (c : CoreRef) (w : BitVec 24) (s : State) : exec (.endSched c w) s = .next (s.runPl c w.toNat 6) := rfl

section
variable (hs : s.canonical = true) (hr : s.coreReady c) {w : BitVec 24} (hl : s.slotLive c w.toNat)
include hs hr hl

theorem ldcnt_copies (h : bitsOf w.toNat 23 17 = 0) (hc : s.ringCounter c (bitsOf w.toNat 16 13) = false) :
    let reg := bitsOf w.toNat 12 10
    let ctr := bitsOf w.toNat 16 13
    (s.runPl c w.toNat 5).cget c (Reg.CORE_LOOPCNT.VALUE reg) = s.cget c (Reg.CORE_CCOUNT.VALUE ctr)
      ∧ (s.runPl c w.toNat 5).cget c (Reg.CORE_CCOUNT.VALUE ctr) = 0
      ∧ s.wordIssued (s.runPl c w.toNat 5) c (s.wordAddr c + 1)
          [coreFld c (Reg.CORE_LOOPCNT.VALUE reg), coreFld c (Reg.CORE_CCOUNT.VALUE ctr)] := by
  intro reg ctr
  have hreg : reg < 8 := bitsOf_lt _ 12 10
  have hctr : ctr < 16 := bitsOf_lt _ 16 13
  have ha := seqApart_ldcnt c hreg hctr
  have hl' := slotLive_withField (hi := 9) (lo := 6) (x := 5) hl (by decide) (by decide) (by decide)
  have hm := State.Issuing.mark (State.canonical_fld hs) c
  let w' := plWord (withField w.toNat 9 6 5)
  have he : s.controlEffects c w'
      = ((s.mark c).cput c (Reg.CORE_LOOPCNT.VALUE reg) (s.cget c (Reg.CORE_CCOUNT.VALUE ctr))).cput c (Reg.CORE_CCOUNT.VALUE ctr) 0 := by
    simp (disch := decide) only [State.controlEffects, w', plWord, gated_zero, takeWait_zero, gated_of_live hl'.2, State.loadCount,
      bitsOf_op, bitsOf_op_other, if_true, plPred, State.writePred, reg, ctr]
  have hI : s.Issuing (s.controlEffects c w') c [coreFld c (Reg.CORE_LOOPCNT.VALUE reg), coreFld c (Reg.CORE_CCOUNT.VALUE ctr)] :=
    he ▸ (hm.cput (Reg.CORE_LOOPCNT.VALUE reg) _ (ha.pos_ne (by simp) (by decide)) (ha.pos_ne (by simp) (by decide))).cput
      (Reg.CORE_CCOUNT.VALUE ctr) _ (ha.pos_ne (by simp) (by decide)) (ha.pos_ne (by simp) (by decide))
  have hp : s.Passes c w' := passes_pl hl' (plStatic_ldcnt s c w h) (by simp [plDynamic, bitsOf_op_other, hc])
  obtain ⟨hu, hw⟩ := hr.runWord (control_pl s c _) hI ha hp (by simp [gated_of_live hl'.2]) (by simp [gated_of_live hl'.2])
  have h1 := State.cput_rising hm.ordered c (Reg.CORE_LOOPCNT.VALUE reg) (s.cget c (Reg.CORE_CCOUNT.VALUE ctr))
  rw [runPl_eq s c w (by decide)]
  refine ⟨?_, ?_, hu ▸ hw⟩
  · rw [hu, ha.cget_issueNext (by simp) hI.ordered hr.1.addr_lt, he,
      State.cget_cput_other h1 c (by simp [Fld.pos, Reg.CORE_LOOPCNT.VALUE, Reg.CORE_CCOUNT.VALUE]; omega)]
    exact State.cget_cput_of_lt hm.ordered c (Reg.CORE_LOOPCNT.VALUE reg) (s.cget_lt c (Reg.CORE_CCOUNT.VALUE ctr))
  · rw [hu, ha.cget_issueNext (by simp) hI.ordered hr.1.addr_lt, he]
    exact State.cget_cput_of_lt h1 c (Reg.CORE_CCOUNT.VALUE ctr) (show 0 < 2 ^ 24 by decide)

/-! ### `END` -/

/-- `END` issues, and the core's schedule stops. -/
theorem endSched_stops (h : bitsOf w.toNat 23 10 = 0) :
    (s.runPl c w.toNat 6).cget c Core.STOPPING = 2
      ∧ s.wordIssued (s.runPl c w.toNat 6) c (s.wordAddr c + 1) [coreFld c Core.STOPPING] := by
  have hl' := slotLive_withField (hi := 9) (lo := 6) (x := 6) hl (by decide) (by decide) (by decide)
  have hm := State.Issuing.mark (State.canonical_fld hs) c
  let w' := plWord (withField w.toNat 9 6 6)
  have he : s.controlEffects c w' = s.mark c := by
    simp (disch := decide) [State.controlEffects, w', plWord, gated_of_live hl'.2, State.loadCount, plPred, State.writePred]
  have hI : s.Issuing (s.controlEffects c w') c [] := he ▸ hm
  have hp : s.Passes c w' := passes_pl hl' (plStatic_endSched s c w h) (by simp [plDynamic])
  have ht := hr.issuing_next hI
  have hu : s.issueWord c w' = ((s.controlEffects c w').issueNext c (s.wordAddr c + 1)).cput c Core.STOPPING 2 := by
    rw [hr.1.offered.issueWord_of_passes hp, hr.1.offered.issueSlots_control (control_pl s c _) hI (seqApart_nil c),
      hr.sequence_next hI (seqApart_nil c) (by simp [w', gated_of_live hl'.2])]
    simp only [w', plWord, gated_of_live hl'.2, bitsOf_op (show 6 < 16 by decide), BEq.rfl]
    exact ht.afterIssue_end false
  have hst : (((s.controlEffects c w').issueNext c (s.wordAddr c + 1)).cput c Core.STOPPING 2).cget c Core.STOPPING = 2 :=
    State.cget_cput_of_lt ht.ordered c _ (by decide)
  have hrun := State.runWord_of_issueWord hu (by rw [hst]; decide)
  rw [runPl_eq s c w (by decide), hrun]
  exact ⟨hst, (hI.issueNext (seqApart_nil c) hr.1.addr_lt).cput ht.ordered (by decide) 2⟩

end

/-- A core that stops issues nothing (R66). -/
theorem runWord_of_stopping (w : Slots) (h : s.cget c Core.STOPPING = 2) : s.runWord c w = s :=
  State.runWord_of_issueWord (if_pos (.inr (by rw [h]; decide))) (by rw [h]; decide)

/-- Settles O13: `LDCNT` is `ldcnt_copies`, and `END` leaves the core stopping (`endSched_stops`), which refuses every word. -/
theorem ldcntCopiesAndEndStops : Obligations.LdcntCopiesAndEndStops := by
  intro s c w hs hr hl
  refine ⟨fun h hc => ⟨_, exec_ldcnt c w s, ldcnt_copies hs hr hl h hc⟩, fun h => ?_⟩
  obtain ⟨hst, hw⟩ := endSched_stops hs hr hl h
  exact ⟨_, exec_endSched c w s, hst, hw, fun w' => (exec_pset c w' _).trans (congrArg _ (runWord_of_stopping _ hst))⟩

end Sys2Proof.Machine
end

section
/-! PROOFS. Huddles: arrivals, waits that slip, and completions taken (R47, R48). -/

namespace Sys2Proof.Machine

variable {s : State} {c : CoreRef} {w : Slots} {es : List (Nat × Fld)}

/-! ### A word that slips -/

/-- The fields a slip writes. -/
def slipFlds : List Fld := [Reg.CORE_SCHED_STATUS.STATE, Reg.CORE_SCHED_STATUS.SLIP_CAUSE, Core.WAITPORT, Reg.CORE_SLIP_WAIT.COUNT]

theorem wordSlipped_slip {t : State} (hw : s.Writes t es) (hc : Apart (coreFld c Reg.CORE_SLIP_WAIT.COUNT) es) {cause port : Nat}
    (h1 : cause < 8) (h2 : port < 2048) : s.wordSlipped (t.slip c cause port) c cause port es := by
  have r0 := hw.ordered
  have r1 := State.cput_rising r0 c Reg.CORE_SCHED_STATUS.STATE 2
  have r2 := State.cput_rising r1 c Reg.CORE_SCHED_STATUS.SLIP_CAUSE cause
  have r3 := State.cput_rising r2 c Core.WAITPORT port
  have hu := (((hw.cput c Reg.CORE_SCHED_STATUS.STATE 2).cput c Reg.CORE_SCHED_STATUS.SLIP_CAUSE cause).cput c Core.WAITPORT port).cbump c
    Reg.CORE_SLIP_WAIT.COUNT
  refine ⟨?_, ?_, ?_, ?_, (hu.mono fun e he => ?_).only⟩
  · exact (State.cget_cput_other r3 c (by decide) _).trans ((State.cget_cput_other r2 c (by decide) _).trans
      ((State.cget_cput_other r1 c (by decide) _).trans (State.cget_cput_of_lt r0 c _ (by decide))))
  · exact (State.cget_cput_other r3 c (by decide) _).trans ((State.cget_cput_other r2 c (by decide) _).trans
      (State.cget_cput_of_lt r1 c _ h1))
  · exact (State.cget_cput_other r3 c (by decide) _).trans (State.cget_cput_of_lt r2 c _ h2)
  · rw [State.slip, State.cget_cbump_same r3, State.cget_cput_other r2 c (by decide), State.cget_cput_other r1 c (by decide),
      State.cget_cput_other r0 c (by decide), hw.cget_eq hc]
    rfl
  · simp only [List.mem_append, List.mem_cons, List.not_mem_nil, or_false] at he ⊢
    tauto

/-- A slip leaves every other field of the core. -/
theorem State.cget_slip {t : State} (ht : risingFrom 0 t.fld = true) {f : Fld} (hf : ∀ g ∈ slipFlds, f.pos ≠ g.pos) (cause port : Nat) :
    (t.slip c cause port).cget c f = t.cget c f := by
  have r1 := State.cput_rising ht c Reg.CORE_SCHED_STATUS.STATE 2
  have r2 := State.cput_rising r1 c Reg.CORE_SCHED_STATUS.SLIP_CAUSE cause
  have r3 := State.cput_rising r2 c Core.WAITPORT port
  exact (State.cget_cput_other r3 c (hf _ (by decide)) _).trans ((State.cget_cput_other r2 c (hf _ (by decide)) _).trans
    ((State.cget_cput_other r1 c (hf _ (by decide)) _).trans (State.cget_cput_other ht c (hf _ (by decide)) _)))

/-- A word whose wait is not met: its own arrival is signalled, and it slips for a cycle (R47, R48). -/
theorem State.coreRuns.runWord_slips (hr : s.coreRuns c) (hf : s.wordFault c w (s.wordAddr c) = none)
    (hw : s.Writes (s.signalArrival c (s.gated c w.wt)) es) (h1 : Apart (coreFld c Reg.CORE_SLIP_WAIT.COUNT) es)
    (h2 : Apart (coreFld c Core.STOPPING) es) {cause : Nat} (hc : waitCause (s.signalArrival c (s.gated c w.wt)) c (s.gated c w.wt) = cause)
    (h0 : cause ≠ 0) (h8 : cause < 8) :
    s.runWord c w = (s.signalArrival c (s.gated c w.wt)).slip c cause (if cause = 2 then bitsOf w.wt 17 8 + 1 else 0)
      ∧ s.wordSlipped (s.runWord c w) c cause (if cause = 2 then bitsOf w.wt 17 8 + 1 else 0) es := by
  have hport : (if cause = 2 then bitsOf w.wt 17 8 + 1 else 0) < 2048 := by have := bitsOf_lt w.wt 17 8; split <;> omega
  have hu := wordSlipped_slip hw h1 h8 hport
  have hissue : s.issueWord c w = (s.signalArrival c (s.gated c w.wt)).slip c cause (if cause = 2 then bitsOf w.wt 17 8 + 1 else 0) := by
    rw [hr.offered.issueWord]
    unfold State.wordAddr at hf
    simp only [State.issueDue, hr.past, hf, hc, h0, Bool.false_eq_true, if_false, ne_eq, not_false_eq_true, if_true]
  have hstop : Apart (coreFld c Core.STOPPING) (slipFlds.map (coreFld c) ++ es) := (apart_append ..).2 ⟨apart_coreFlds (by decide), h2⟩
  obtain ⟨-, -, -, -, -, hsame⟩ := id hu
  have hrun := State.runWord_of_issueWord hissue (ne_of_eq_of_ne ((hsame _ _ hstop).trans hr.stopping) (by decide))
  exact ⟨hrun, hrun ▸ hu⟩

/-! ### Huddle slots -/

/-- The sequencer reads no huddle line's state. -/
theorem seqApart_huddle (c : CoreRef) {n : Nat} (hn : n < 16) : SeqApart c [coreFld c (Core.HUDDLE n), coreFld c Core.WAITLINE] :=
  seqApart_map (fs := [Core.HUDDLE n, Core.WAITLINE]) fun g hg f hf => by
    simp only [List.mem_cons, List.not_mem_nil, or_false] at hf
    rcases hf with rfl | rfl
    · exact (by decide : ∀ i < 16, ∀ g ∈ seqFlds, g.pos ≠ (Core.HUDDLE i).pos) n hn g hg
    · exact (by decide : ∀ g ∈ seqFlds, g.pos ≠ Core.WAITLINE.pos) g hg

theorem pos_huddle_ne {n : Nat} (hn : n < 16) :
    ∀ g ∈ [Core.WAITLINE, Reg.CORE_POISON_CTL.HALT_PENDING, Reg.CORE_SLIP_WAIT.COUNT, Core.STOPPING, Core.BRK_PASS], g.pos ≠ (Core.HUDDLE n).pos :=
  (by decide : ∀ i < 16, ∀ g ∈ [Core.WAITLINE, Reg.CORE_POISON_CTL.HALT_PENDING, Reg.CORE_SLIP_WAIT.COUNT, Core.STOPPING, Core.BRK_PASS],
    g.pos ≠ (Core.HUDDLE i).pos) n hn

/-- An arrival that no poison event withholds. -/
theorem arrive_eq {t : State} (h : t.cget c Reg.CORE_POISON_CTL.HALT_PENDING = 0) (line : Nat) : t.arrive c line = t.cput c (Core.HUDDLE line) 1 :=
  if_neg (by rw [(State.cflag_false_iff t c Reg.CORE_POISON_CTL.HALT_PENDING rfl).2 h]; decide)

section
variable {v m line : Nat} (hm : m < 3) (hline : bitsOf v 11 8 = line)
include hm hline

/-- What a huddle slot breaks: its line's bit of the mask, and the line's state (R47). -/
theorem wtDynamic_huddle :
    wtDynamic s c (huddleSlot v m) =
      if (s.cget c Reg.CORE_POISON_CTL.HUDDLE_MASK).testBit line = false ∨ (m = 1 ∧ s.cget c (Core.HUDDLE line) = 1)
          ∨ (m = 0 ∧ s.cget c (Core.HUDDLE line) = 1 ∧ s.cget c Core.WAITLINE ≠ line + 1) ∨ (m = 2 ∧ s.cget c (Core.HUDDLE line) = 0)
        then [0x07] else [] := by
  have hm4 : m < 4 := by omega
  simp only [wtDynamic, bitsOf_huddle_kind v hm4, bitsOf_huddle_mode v hm4, bitsOf_huddle_line v hm4, hline]
  refine if_congr ?_ rfl rfl
  simp only [Bool.or_eq_true, Bool.not_eq_true', Bool.and_eq_true, beq_iff_eq, decide_eq_false_iff_not]
  tauto

/-- A huddle slot that breaks nothing. -/
theorem wordFault_huddle (hl : s.slotLive c v) (h : bitsOf v 23 14 = 0) (hmask : (s.cget c Reg.CORE_POISON_CTL.HUDDLE_MASK).testBit line = true)
    (h1 : m = 1 → s.cget c (Core.HUDDLE line) ≠ 1) (h0 : m = 0 → s.cget c (Core.HUDDLE line) = 1 → s.cget c Core.WAITLINE = line + 1)
    (h2 : m = 2 → s.cget c (Core.HUDDLE line) ≠ 0) (a : Nat) : s.wordFault c (wtWord (huddleSlot v m)) a = none := by
  have hm4 : m < 4 := by omega
  have hg : badGuard (huddleSlot v m) = false :=
    (badGuard_withField (by decide) (by decide) hm4).trans ((badGuard_withField (by decide) (by decide) (by decide)).trans hl.1)
  have hd : wtDynamic s c (huddleSlot v m) = [] := by
    rw [wtDynamic_huddle hm hline, hmask, if_neg]
    simp only [Bool.true_eq_false, false_or]
    tauto
  rw [wordFault_wtWord, hg, wtStatic_huddle v hm4 (by omega) h, hd]
  simp

theorem signalArrival_huddle :
    s.signalArrival c (huddleSlot v m) =
      if m = 0 ∧ s.cget c Core.WAITLINE ≠ line + 1 then (s.arrive c line).cput c Core.WAITLINE (line + 1) else s := by
  have hm4 : m < 4 := by omega
  simp only [State.signalArrival, bitsOf_huddle_kind v hm4, bitsOf_huddle_mode v hm4, bitsOf_huddle_line v hm4, hline, true_and]

theorem waitCause_huddle : waitCause s c (huddleSlot v m) = if m = 1 ∨ s.cget c (Core.HUDDLE line) = 2 then 0 else 4 := by
  have hm4 : m < 4 := by omega
  simp only [waitCause, bitsOf_huddle_kind v hm4, bitsOf_huddle_mode v hm4, bitsOf_huddle_line v hm4, hline]

theorem takeWait_huddle :
    s.takeWait c (huddleSlot v m) =
      if m = 1 then s.arrive c line else (s.cput c (Core.HUDDLE line) 0).cput c Core.WAITLINE 0 := by
  have hm4 : m < 4 := by omega
  simp only [State.takeWait, bitsOf_huddle_kind v hm4, bitsOf_huddle_mode v hm4, bitsOf_huddle_line v hm4, hline]

end

/-! ### What a huddle slot does to a core that is ready -/

/-- The effects of a word whose only slot is a live wait/huddle slot. -/
theorem controlEffects_wtWord {v : Nat} (hl : s.live c v = true) : s.controlEffects c (wtWord v) = (s.mark c).takeWait c v := by
  simp [State.controlEffects, gated_of_live hl, State.writePred]

/-- A word of a live wait/huddle slot that breaks nothing and waits for nothing. -/
theorem State.coreReady.runWord_wt {v : Nat} (hr : s.coreReady c) (hl : s.live c v = true) (hf : s.wordFault c (wtWord v) (s.wordAddr c) = none)
    (ha : s.signalArrival c v = s) (hc : waitCause s c v = 0) (hI : s.Issuing ((s.mark c).takeWait c v) c es) (he : SeqApart c es) :
    s.runWord c (wtWord v) = ((s.mark c).takeWait c v).issueNext c (s.wordAddr c + 1)
      ∧ s.wordIssued (s.runWord c (wtWord v)) c (s.wordAddr c + 1) es := by
  have hp : s.Passes c (wtWord v) := ⟨hf, by simpa [gated_of_live hl] using ha, by simpa [gated_of_live hl] using hc, by simp⟩
  obtain ⟨hu, hw⟩ := hr.runWord (control_wt s c v) (controlEffects_wtWord hl ▸ hI) he hp (by simp) (by simp)
  rw [controlEffects_wtWord hl] at hu hw
  exact ⟨hu, hu ▸ hw⟩

section
variable {v line : Nat} (hs : s.canonical = true) (hr : s.coreReady c) (hl : s.slotLive c v) (h : bitsOf v 23 14 = 0) (hline : bitsOf v 11 8 = line)
  (hmask : (s.cget c Reg.CORE_POISON_CTL.HUDDLE_MASK).testBit line = true)
include hs hr hl h hline hmask

/-- An arrival alone issues at once. -/
theorem arriveOnly_issues (hp : s.cget c Reg.CORE_POISON_CTL.HALT_PENDING = 0) (h1 : s.cget c (Core.HUDDLE line) ≠ 1) :
    (s.runWord c (wtWord (huddleSlot v 1))).cget c (Core.HUDDLE line) = 1
      ∧ s.wordIssued (s.runWord c (wtWord (huddleSlot v 1))) c (s.wordAddr c + 1) [coreFld c (Core.HUDDLE line)] := by
  have hlt : line < 16 := hline ▸ bitsOf_lt v 11 8
  have hm := State.Issuing.mark (State.canonical_fld hs) c
  have ha : SeqApart c [coreFld c (Core.HUDDLE line)] := (seqApart_huddle c hlt).mono (by simp)
  have hlive := (live_huddle v (m := 1) (by decide) s c).trans hl.2
  have he : (s.mark c).takeWait c (huddleSlot v 1) = (s.mark c).cput c (Core.HUDDLE line) 1 := by
    rw [takeWait_huddle (by decide) hline, if_pos rfl, arrive_eq ((hm.cget_eq (apart_mark (by decide)) (by simp)).trans hp)]
  obtain ⟨hu, hw⟩ := hr.runWord_wt hlive
    (wordFault_huddle (by decide) hline hl h hmask (by omega) (by omega) (by omega) _)
    (by rw [signalArrival_huddle (by decide) hline, if_neg (by omega)]) (by rw [waitCause_huddle (by decide) hline, if_pos (.inl rfl)])
    (he ▸ hm.cput (Core.HUDDLE line) 1 (ha.pos_ne (by simp) (by decide)) (ha.pos_ne (by simp) (by decide))) ha
  refine ⟨?_, hw⟩
  rw [hu, ha.cget_issueNext (by simp) (he ▸ State.cput_rising hm.ordered _ _ _) hr.1.addr_lt, he]
  exact State.cget_cput_of_lt hm.ordered c (Core.HUDDLE line) (show 1 < 2 ^ 2 by decide)

/-- A completion that a waiting slot finds is taken: the line is NONE again. -/
theorem huddle_taken {m : Nat} (hm : m = 0 ∨ m = 2) (h2 : s.cget c (Core.HUDDLE line) = 2) (hw : m = 0 → s.cget c Core.WAITLINE = line + 1) :
    (s.runWord c (wtWord (huddleSlot v m))).cget c (Core.HUDDLE line) = 0
      ∧ (s.runWord c (wtWord (huddleSlot v m))).cget c Core.WAITLINE = 0
      ∧ s.wordIssued (s.runWord c (wtWord (huddleSlot v m))) c (s.wordAddr c + 1) [coreFld c (Core.HUDDLE line), coreFld c Core.WAITLINE] := by
  have hlt : line < 16 := hline ▸ bitsOf_lt v 11 8
  have hm3 : m < 3 := by omega
  have hk := State.Issuing.mark (State.canonical_fld hs) c
  have ha := seqApart_huddle c hlt
  have hlive := (live_huddle v (m := m) (by omega) s c).trans hl.2
  have he : (s.mark c).takeWait c (huddleSlot v m) = ((s.mark c).cput c (Core.HUDDLE line) 0).cput c Core.WAITLINE 0 := by
    rw [takeWait_huddle hm3 hline, if_neg (by omega)]
  have hr1 := State.cput_rising hk.ordered c (Core.HUDDLE line) 0
  have hI := (hk.cput (Core.HUDDLE line) 0 (ha.pos_ne (by simp) (by decide)) (ha.pos_ne (by simp) (by decide))).cput Core.WAITLINE 0 (by decide)
    (by decide)
  obtain ⟨hu, hw⟩ := hr.runWord_wt hlive
    (wordFault_huddle hm3 hline hl h hmask (by omega) (by omega) (by omega) _)
    (by rw [signalArrival_huddle hm3 hline, if_neg (by tauto)]) (by rw [waitCause_huddle hm3 hline, if_pos (.inr h2)]) (he ▸ hI) ha
  refine ⟨?_, ?_, hw⟩
  · rw [hu, ha.cget_issueNext (by simp) (he ▸ hI.ordered) hr.1.addr_lt, he, State.cget_cput_other hr1 c (pos_huddle_ne hlt _ (by decide)).symm]
    exact State.cget_cput_of_lt hk.ordered c (Core.HUDDLE line) (show 0 < 2 ^ 2 by decide)
  · rw [hu, ha.cget_issueNext (by simp) (he ▸ hI.ordered) hr.1.addr_lt, he]
    exact State.cget_cput_of_lt hr1 c Core.WAITLINE (by decide)

/-- A slot that waits on an OUTSTANDING line, its own arrival signalled before, slips. -/
theorem huddle_slips {m : Nat} (hm : m = 0 ∨ m = 2) (h1 : s.cget c (Core.HUDDLE line) = 1) (hw : m = 0 → s.cget c Core.WAITLINE = line + 1) :
    s.wordSlipped (s.runWord c (wtWord (huddleSlot v m))) c 4 0 [] := by
  have hm3 : m < 3 := by omega
  have hlive := (live_huddle v (m := m) (by omega) s c).trans hl.2
  have harr : s.signalArrival c (s.gated c (wtWord (huddleSlot v m)).wt) = s := by
    rw [wtWord_wt, gated_of_live hlive, signalArrival_huddle hm3 hline, if_neg (by tauto)]
  exact (hr.1.runWord_slips (cause := 4) (wordFault_huddle hm3 hline hl h hmask (by omega) (by omega) (by omega) _)
    (harr.symm ▸ State.Writes.refl (State.canonical_fld hs)) (by simp) (by simp)
    (by rw [harr, wtWord_wt, gated_of_live hlive, waitCause_huddle hm3 hline, if_neg (by omega)]) (by decide) (by decide)).2

/-- An arrive-and-wait signals its arrival and slips. -/
theorem arriveAndWait_arrives (hp : s.cget c Reg.CORE_POISON_CTL.HALT_PENDING = 0) (h1 : s.cget c (Core.HUDDLE line) ≠ 1)
    (hw : s.cget c Core.WAITLINE ≠ line + 1) :
    (s.runWord c (wtWord (huddleSlot v 0))).cget c (Core.HUDDLE line) = 1
      ∧ (s.runWord c (wtWord (huddleSlot v 0))).cget c Core.WAITLINE = line + 1
      ∧ s.wordSlipped (s.runWord c (wtWord (huddleSlot v 0))) c 4 0 [coreFld c (Core.HUDDLE line), coreFld c Core.WAITLINE] := by
  have hlt : line < 16 := hline ▸ bitsOf_lt v 11 8
  have hlive := (live_huddle v (m := 0) (by decide) s c).trans hl.2
  have harr : s.signalArrival c (s.gated c (wtWord (huddleSlot v 0)).wt)
      = (s.cput c (Core.HUDDLE line) 1).cput c Core.WAITLINE (line + 1) := by
    rw [wtWord_wt, gated_of_live hlive, signalArrival_huddle (by decide) hline, if_pos ⟨rfl, hw⟩, arrive_eq hp]
  have r0 := State.canonical_fld hs
  have r1 := State.cput_rising r0 c (Core.HUDDLE line) 1
  have r2 := State.cput_rising r1 c Core.WAITLINE (line + 1)
  have hne := pos_huddle_ne hlt
  have hhud : ((s.cput c (Core.HUDDLE line) 1).cput c Core.WAITLINE (line + 1)).cget c (Core.HUDDLE line) = 1 :=
    (State.cget_cput_other r1 c (hne _ (by decide)).symm _).trans (State.cget_cput_of_lt r0 c (Core.HUDDLE line) (show 1 < 2 ^ 2 by decide))
  have hwait : ((s.cput c (Core.HUDDLE line) 1).cput c Core.WAITLINE (line + 1)).cget c Core.WAITLINE = line + 1 :=
    State.cget_cput_of_lt r1 c Core.WAITLINE (show line + 1 < 2 ^ 5 by omega)
  obtain ⟨hu, hslip⟩ := hr.1.runWord_slips (cause := 4) (es := [coreFld c (Core.HUDDLE line), coreFld c Core.WAITLINE])
    (wordFault_huddle (by decide) hline hl h hmask (by omega) (by omega) (by omega) _)
    (harr.symm ▸ ((State.Writes.refl r0).cput c (Core.HUDDLE line) 1).cput c Core.WAITLINE (line + 1))
    (by simpa using ⟨hne _ (by decide), by decide⟩) (by simpa using ⟨hne _ (by decide), by decide⟩)
    (by rw [harr, wtWord_wt, gated_of_live hlive, waitCause_huddle (by decide) hline, hhud]; rfl) (by decide) (by decide)
  have hsf : ∀ g ∈ slipFlds, (Core.HUDDLE line).pos ≠ g.pos :=
    (by decide : ∀ i < 16, ∀ g ∈ slipFlds, (Core.HUDDLE i).pos ≠ g.pos) line hlt
  refine ⟨?_, ?_, hslip⟩
  · rw [hu, harr, State.cget_slip r2 hsf, hhud]
  · rw [hu, harr, State.cget_slip r2 (by decide), hwait]

end

theorem exec_arriveOnly (c : CoreRef) (w : BitVec 24) (s : State) : exec (.arriveOnly c w) s = .next (s.runHuddle c w.toNat 1) := rfl
theorem exec_arriveAndWait (c : CoreRef) (w : BitVec 24) (s : State) : exec (.arriveAndWait c w) s = .next (s.runHuddle c w.toNat 0) := rfl
theorem exec_waitOnly (c : CoreRef) (w : BitVec 24) (s : State) : exec (.waitOnly c w) s = .next (s.runHuddle c w.toNat 2) := rfl

/-- Settles O15: by the line's state and the core's own wait, a huddle slot arrives (`arriveOnly_issues`, `arriveAndWait_arrives`), slips
(`huddle_slips`) or takes the completion (`huddle_taken`). -/
theorem huddlesArriveWaitAndTake : Obligations.HuddlesArriveWaitAndTake := by
  intro s c w hs hr hl h line hud waiting next hmask hp
  have slot (m : Nat) (hm : m < 4) : s.runHuddle c w.toNat m = s.runWord c (wtWord (huddleSlot w.toNat m)) := runHuddle_eq s c w hm
  refine ⟨fun h1 => ⟨_, exec_arriveOnly c w s, ?_⟩, fun h1 hw => ⟨_, exec_arriveAndWait c w s, ?_⟩,
    fun h1 hw => ⟨_, exec_arriveAndWait c w s, ?_⟩, fun h2 hw => ⟨_, exec_arriveAndWait c w s, ?_⟩, fun h1 => ⟨_, exec_waitOnly c w s, ?_⟩,
    fun h2 => ⟨_, exec_waitOnly c w s, ?_⟩⟩
  · rw [slot 1 (by decide)]
    exact arriveOnly_issues hs hr hl h rfl hmask hp h1
  · rw [slot 0 (by decide)]
    exact arriveAndWait_arrives hs hr hl h rfl hmask hp h1 hw
  · rw [slot 0 (by decide)]
    exact huddle_slips hs hr hl h rfl hmask (.inl rfl) h1 fun _ => hw
  · rw [slot 0 (by decide)]
    exact huddle_taken hs hr hl h rfl hmask (.inl rfl) h2 fun _ => hw
  · rw [slot 2 (by decide)]
    exact huddle_slips hs hr hl h rfl hmask (.inr rfl) h1 (absurd · (by decide))
  · rw [slot 2 (by decide)]
    obtain ⟨hu, -, hw⟩ := huddle_taken hs hr hl h rfl hmask (.inr rfl) h2 (absurd · (by decide))
    exact ⟨hu, hw⟩

end Sys2Proof.Machine
end

section
/-! PROOFS. Hardware loops: opening, the empty body, the repetition and the close (R37, R38, R39). -/

namespace Sys2Proof.Machine

variable {s t : State} {c : CoreRef}

/-! ### The fields of a loop level -/

/-- What opening or closing a loop writes at its level. -/
def loopWrites (l left start fin opened count loops : Nat) : List (Fld × Nat) :=
  [(Reg.CORE_LOOP_STATE.LEFT l, left), (Reg.CORE_LOOP_STATE.START l, start), (Reg.CORE_LOOP_STATE.END l, fin),
   (Reg.CORE_LOOP_STATE.OPEN l, opened), (Core.LOOPCOUNT l, count), (Reg.CORE_SCHED_STATUS.OPEN_LOOPS, loops)]

theorem openLoop_eq (t : State) (c : CoreRef) (l start fin n : Nat) : t.openLoop c l start fin n = t.cputs c (loopWrites l (n - 1) start fin 1 n (l + 1)) :=
  rfl

theorem closeLoop_eq (t : State) (c : CoreRef) (l : Nat) : t.closeLoop c l = t.cputs c (loopWrites l 0 0 0 0 0 l) := rfl

/-- The fields a loop level stands in. -/
def loopLevel (l : Nat) : List Fld :=
  [Reg.CORE_LOOP_STATE.LEFT l, Reg.CORE_LOOP_STATE.START l, Reg.CORE_LOOP_STATE.END l, Reg.CORE_LOOP_STATE.OPEN l, Core.LOOPCOUNT l,
   Reg.CORE_SCHED_STATUS.OPEN_LOOPS]

/-- Fields of the core that no loop level shares. -/
def loopFree : List Fld :=
  stopFlds ++ [Reg.CORE_SCHED_STATUS.STATE, Reg.CORE_SCHED_STATUS.SLIP_CAUSE, Core.BRK_PASS, Reg.CORE_SCHED_STATUS.ADDR,
    Reg.CORE_ISSUE_COUNT.COUNT]

theorem loopLevel_pos {l : Nat} (hl : l < 4) : ∀ g ∈ loopFree, ∀ f ∈ loopLevel l, g.pos ≠ f.pos :=
  (by decide : ∀ l < 4, ∀ g ∈ loopFree, ∀ f ∈ loopLevel l, g.pos ≠ f.pos) l hl

theorem loopLevel_pairwise {l : Nat} (hl : l < 4) : (loopLevel l).Pairwise fun f g => f.pos ≠ g.pos :=
  (by decide : ∀ l < 4, (loopLevel l).Pairwise fun f g => f.pos ≠ g.pos) l hl

section
variable (h : risingFrom 0 t.fld = true) {l : Nat} (hl : l < 4) (left start fin opened count loops : Nat)
include h

theorem writes_loopWrites : t.Writes (t.cputs c (loopWrites l left start fin opened count loops)) (loopFlds c l) := State.writes_cputs h c _

include hl

/-- Each field of the level reads as it was written. -/
theorem cget_loopWrites {f : Fld} {v : Nat} (hm : (f, v) ∈ loopWrites l left start fin opened count loops) (hv : v < 2 ^ f.width) :
    (t.cputs c (loopWrites l left start fin opened count loops)).cget c f = v :=
  State.cget_cputs_mem h c (List.Pairwise.of_map Prod.fst (fun _ _ h => h) (loopLevel_pairwise hl)) hm hv

end

theorem State.Issuing.loopWrites {es : List (Nat × Fld)} (h : s.Issuing t c es) {l : Nat} (hl : l < 4) (left start fin opened count loops : Nat) :
    s.Issuing (t.cputs c (loopWrites l left start fin opened count loops)) c (es ++ loopFlds c l) :=
  h.of_writes (writes_loopWrites h.ordered left start fin opened count loops) (apart_coreFlds (loopLevel_pos hl _ (by decide)))
    (apart_coreFlds (loopLevel_pos hl _ (by decide)))

/-! ### `LOOP` -/

theorem exec_loop (c : CoreRef) (w : BitVec 24) (s : State) : exec (.loop c w) s = .next (s.runPl c w.toNat 1) := rfl

/-- The iterations a loop descriptor asks for. -/
def State.loopIterations (s : State) (c : CoreRef) (d : Nat) : Nat :=
  if d.testBit 24 then s.cget c (Reg.CORE_LOOPCNT.VALUE (bitsOf d 27 25)) else bitsOf d 23 0

theorem loopIterations_lt (s : State) (c : CoreRef) (d : Nat) : s.loopIterations c d < 2 ^ 24 := by
  unfold State.loopIterations
  split
  · exact s.cget_lt c (Reg.CORE_LOOPCNT.VALUE _)
  · exact bitsOf_lt d 23 0

section
variable {w : BitVec 24} (hl : s.slotLive c w.toNat)
include hl

/-- A `LOOP` at the level of the number of open loops, with its descriptor in order, passes its checks. -/
theorem passes_loop (h : bitsOf w.toNat 23 17 = 0) (hlv : bitsOf w.toNat 11 10 = s.openLoops c) (h4 : s.openLoops c < 4)
    (hd : s.loopLegal c (s.loopDesc c (bitsOf w.toNat 16 12)) (s.wordAddr c)) : s.Passes c (plWord (withField w.toNat 9 6 1)) := by
  obtain ⟨hr63, ht, hf, hfin, hin⟩ := hd
  have hx : extraBits (withField w.toNat 9 6 1) 0x1FFFF = false := extraBits_low (n := 17) (plSlot_lt (by decide) (by decide) h)
  refine passes_pl (slotLive_withField hl (by decide) (by decide) (by decide)) ?_ ?_
  · simp (disch := decide) only [plStatic, bitsOf_op, bitsOf_op_other, hx, hr63]
    rw [if_neg]
    rintro (h0 | h0 | ⟨h1, h0⟩ | ⟨h1, h0⟩)
    exacts [absurd h0 (by decide), h0 rfl, h0 (ht h1), h0 (hf (by simpa using h1))]
  · simp (disch := decide) only [plDynamic, bitsOf_op, bitsOf_op_other, hlv]
    rw [if_neg (by omega), if_neg, List.append_nil]
    rw [List.any_eq_true]
    rintro (h0 | ⟨l, hm, h0⟩)
    · omega
    · have := hin l (List.mem_range.1 hm)
      have := of_decide_eq_true h0
      omega

/-- The effects of a `LOOP` before the sequencer goes on are those of any word. -/
theorem effects_loop : s.controlEffects c (plWord (withField w.toNat 9 6 1)) = s.mark c := by
  have hl' := slotLive_withField (hi := 9) (lo := 6) (x := 1) hl (by decide) (by decide) (by decide)
  simp (disch := decide) [State.controlEffects, gated_of_live hl'.2, State.loadCount, plPred, State.writePred]

/-- Where the sequencer takes a `LOOP`: past its body, or into it (R38). -/
theorem sequence_loop (hsram : t.sram = s.sram) :
    t.sequence s c (s.gated c (plWord (withField w.toNat 9 6 1)).pl) (s.wordAddr c) =
      if s.loopIterations c (s.loopDesc c (bitsOf w.toNat 16 12)) = 0
      then State.nextWord 5 t c (bitsOf (s.loopDesc c (bitsOf w.toNat 16 12)) 38 28)
      else (t.openLoop c (bitsOf w.toNat 11 10) (s.wordAddr c + 1) (bitsOf (s.loopDesc c (bitsOf w.toNat 16 12)) 38 28)
        (s.loopIterations c (s.loopDesc c (bitsOf w.toNat 16 12)))).gotoWord c (s.wordAddr c + 1) := by
  have hl' := slotLive_withField (hi := 9) (lo := 6) (x := 1) hl (by decide) (by decide) (by decide)
  have hd : t.loopDesc c = s.loopDesc c := by
    funext n
    simp only [State.loopDesc, State.table, State.rdNat, State.rd, hsram]
  simp (disch := decide) only [State.sequence, plWord_pl, gated_of_live hl'.2, bitsOf_op, bitsOf_op_other, hd, if_true]
  rfl

end

theorem State.Issuing.gotoWord {es : List (Nat × Fld)} (h : s.Issuing t c es) {a : Nat} (ha : a ≤ 2047) :
    s.Issuing (t.gotoWord c a) c (es ++ [coreFld c Reg.CORE_SCHED_STATUS.ADDR]) :=
  State.gotoWord_of_le t c ha ▸ h.cput _ _ (by decide) (by decide)

/-- Reading a field but the address after the step to a word. -/
theorem State.cget_gotoWord (h : risingFrom 0 t.fld = true) {f : Fld} (hf : f.pos ≠ Reg.CORE_SCHED_STATUS.ADDR.pos) {a : Nat} (ha : a ≤ 2047) :
    (t.gotoWord c a).cget c f = t.cget c f := by
  rw [State.gotoWord_of_le t c ha, State.cget_cput_other h c hf]

section
variable (hs : s.canonical = true) (hr : s.coreReady c) {w : BitVec 24} (hl : s.slotLive c w.toNat) (h : bitsOf w.toNat 23 17 = 0)
  (hlv : bitsOf w.toNat 11 10 = s.openLoops c) (h4 : s.openLoops c < 4)
  (hd : s.loopLegal c (s.loopDesc c (bitsOf w.toNat 16 12)) (s.wordAddr c))
include hs hr hl h hlv h4 hd

/-- A `LOOP`'s word goes on where the sequencer takes it. -/
theorem runPl_loop {u : State} {fs : List (Nat × Fld)}
    (hseq : ((s.mark c).cbump c Reg.CORE_ISSUE_COUNT.COUNT).sequence s c (s.gated c (plWord (withField w.toNat 9 6 1)).pl) (s.wordAddr c) = u)
    (hu : s.Issuing u c fs) (hf : ∀ g ∈ stopFlds, Apart (coreFld c g) fs) : s.runPl c w.toNat 1 = u := by
  have hl' := slotLive_withField (hi := 9) (lo := 6) (x := 1) hl (by decide) (by decide) (by decide)
  have he := effects_loop hl
  rw [runPl_eq s c w (by decide)]
  exact hr.1.runWord_of_sequence (control_pl s c _) (he ▸ State.Issuing.mark (State.canonical_fld hs) c) (seqApart_nil c)
    (passes_loop hl h hlv h4 hd) (by simp [gated_of_live hl'.2]) (he ▸ hseq) hu hf

theorem loop_opens (hn : 0 < s.loopIterations c (s.loopDesc c (bitsOf w.toNat 16 12))) :
    let l := s.openLoops c
    let d := s.loopDesc c (bitsOf w.toNat 16 12)
    let u := s.runPl c w.toNat 1
    s.wordIssued u c (s.wordAddr c + 1) (loopFlds c l) ∧ u.openLoops c = l + 1
      ∧ u.cget c (Reg.CORE_LOOP_STATE.START l) = s.wordAddr c + 1 ∧ u.cget c (Reg.CORE_LOOP_STATE.END l) = bitsOf d 38 28
      ∧ u.cget c (Reg.CORE_LOOP_STATE.LEFT l) = s.loopIterations c d - 1 ∧ u.cflag c (Reg.CORE_LOOP_STATE.OPEN l) = true := by
  intro l d u
  have ha : s.wordAddr c + 1 ≤ 2047 := hr.1.addr_lt
  have hlt := loopIterations_lt s c d
  obtain ⟨hI, hc⟩ := (State.Issuing.mark (State.canonical_fld hs) c).count (seqApart_nil c)
  set t := (s.mark c).cbump c Reg.CORE_ISSUE_COUNT.COUNT
  have ho := hI.loopWrites h4 (s.loopIterations c d - 1) (s.wordAddr c + 1) (bitsOf d 38 28) 1 (s.loopIterations c d) (l + 1)
  set ws := loopWrites l (s.loopIterations c d - 1) (s.wordAddr c + 1) (bitsOf d 38 28) 1 (s.loopIterations c d) (l + 1)
  have hpos := loopLevel_pos h4
  have hu : u = (t.cputs c ws).gotoWord c (s.wordAddr c + 1) := by
    refine runPl_loop hs hr hl h hlv h4 hd ?_ (ho.gotoWord ha) fun g hg => ?_
    · rw [sequence_loop hl hI.writes.sram_eq, if_neg (by omega), hlv, openLoop_eq]
    · exact apart_coreFlds (fs := Reg.CORE_ISSUE_COUNT.COUNT :: loopLevel l ++ [Reg.CORE_SCHED_STATUS.ADDR])
        ((by decide : ∀ l < 4, ∀ g ∈ stopFlds, ∀ f ∈ Reg.CORE_ISSUE_COUNT.COUNT :: loopLevel l ++ [Reg.CORE_SCHED_STATUS.ADDR], g.pos ≠ f.pos)
          l h4 g hg)
  have hcount : (t.cputs c ws).cget c Reg.CORE_ISSUE_COUNT.COUNT = min (s.cget c Reg.CORE_ISSUE_COUNT.COUNT + 1) (2 ^ 48 - 1) :=
    ((writes_loopWrites hI.ordered ..).cget_eq (apart_coreFlds (hpos _ (by decide)))).trans hc
  have hread {f : Fld} {v : Nat} (hm : (f, v) ∈ ws) (hf : f ∈ loopLevel l) (hv : v < 2 ^ f.width) : u.cget c f = v := by
    rw [hu, State.cget_gotoWord ho.ordered (hpos _ (by decide) f hf).symm ha]
    exact cget_loopWrites hI.ordered h4 _ _ _ _ _ _ hm hv
  refine ⟨hu ▸ ho.wordIssued hcount ha, hread (by simp [ws, loopWrites]) (by simp [loopLevel]) (show l + 1 < 2 ^ 3 by omega),
    hread (by simp [ws, loopWrites]) (by simp [loopLevel]) (show _ < 2 ^ 11 by omega),
    hread (by simp [ws, loopWrites]) (by simp [loopLevel]) (bitsOf_lt d 38 28),
    hread (by simp [ws, loopWrites]) (by simp [loopLevel]) (show _ < 2 ^ 24 by omega), ?_⟩
  have hopen : u.cget c (Reg.CORE_LOOP_STATE.OPEN l) = 1 := hread (by simp [ws, loopWrites]) (by simp [loopLevel]) (show 1 < 2 ^ 1 by decide)
  simpa [State.flag] using hopen

/-- A `LOOP` of no iterations goes on after its END word. -/
theorem loop_skips (hn : s.loopIterations c (s.loopDesc c (bitsOf w.toNat 16 12)) = 0)
    (hfin : bitsOf (s.loopDesc c (bitsOf w.toNat 16 12)) 38 28 < 2047) (hne : s.noLoopEnds c (bitsOf (s.loopDesc c (bitsOf w.toNat 16 12)) 38 28)) :
    s.wordIssued (s.runPl c w.toNat 1) c (bitsOf (s.loopDesc c (bitsOf w.toNat 16 12)) 38 28 + 1) [] := by
  obtain ⟨hI, hc⟩ := (State.Issuing.mark (State.canonical_fld hs) c).count (seqApart_nil c)
  have hnl := hI.noLoopEnds hr.1.loops_le ((seqApart_nil c).append (fs := [Reg.CORE_ISSUE_COUNT.COUNT]) (by decide) (by decide)) hne
  have hu := runPl_loop hs hr hl h hlv h4 hd
    (by rw [sequence_loop hl hI.writes.sram_eq, if_pos hn, State.nextWord_goto 5 hnl]) (hI.gotoWord hfin)
    ((seqApart_nil c).append (fs := [Reg.CORE_ISSUE_COUNT.COUNT, Reg.CORE_SCHED_STATUS.ADDR]) (by decide) (by decide))
  exact hu ▸ hI.wordIssued hc hfin

end
/-! ### The END of the innermost loop -/

section
variable {n l a : Nat} (ho : t.openLoops c = l + 1) (he : t.cget c (Reg.CORE_LOOP_STATE.END l) = a)
include ho he

/-- While iterations are left, the body starts again (R39). -/
theorem State.nextWord_repeat (hleft : t.cget c (Reg.CORE_LOOP_STATE.LEFT l) ≠ 0) :
    State.nextWord (n + 1) t c a = (t.cput c (Reg.CORE_LOOP_STATE.LEFT l) (t.cget c (Reg.CORE_LOOP_STATE.LEFT l) - 1)).gotoWord c
      (t.cget c (Reg.CORE_LOOP_STATE.START l)) := by
  simp only [State.nextWord, ho, Nat.add_sub_cancel, he, Nat.add_one_ne_zero, ne_eq, not_true_eq_false, or_self, if_false, hleft,
    not_false_eq_true, if_true]

/-- With no iteration left the loop closes, and the loops around it are checked (R39). -/
theorem State.nextWord_close (hleft : t.cget c (Reg.CORE_LOOP_STATE.LEFT l) = 0) :
    State.nextWord (n + 1) t c a = State.nextWord n (t.closeLoop c l) c a := by
  simp only [State.nextWord, ho, Nat.add_sub_cancel, he, Nat.add_one_ne_zero, ne_eq, not_true_eq_false, or_self, if_false, hleft]

end

/-- The sequencer's loop fields that no predicate shares. -/
theorem pred_loop_pos {i l : Nat} (hi : i < 16) (hl : l < 4) : ∀ g ∈ loopLevel l, g.pos ≠ (Reg.CORE_PRED.P i).pos :=
  (by decide : ∀ i < 16, ∀ l < 4, ∀ g ∈ loopLevel l, g.pos ≠ (Reg.CORE_PRED.P i).pos) i hi l hl

theorem stop_pred_pos {i : Nat} (hi : i < 16) : ∀ g ∈ stopFlds, g.pos ≠ (Reg.CORE_PRED.P i).pos := fun g hg =>
  (seqApart_pred ⟨0, 0⟩ hi).pos_ne (by simp) ((by decide : ∀ g ∈ stopFlds, g ∈ seqFlds) g hg)

section
variable (hs : s.canonical = true) (hr : s.coreRuns c) {w : BitVec 24} (hl : s.slotLive c w.toNat) {l : Nat} (ho : s.openLoops c = l + 1)
  (he : s.cget c (Reg.CORE_LOOP_STATE.END l) = s.wordAddr c) (hw : bitsOf w.toNat 23 15 = 0)
include hs hr hl hw

/-- A `PSET` at the END of the innermost loop: the state the sequencer finds, and what it reads of the loop's level. -/
theorem pset_counted :
    ∃ t, s.Issuing t c [coreFld c (Reg.CORE_PRED.P (bitsOf w.toNat 13 10)), coreFld c Reg.CORE_ISSUE_COUNT.COUNT]
      ∧ t.cget c Reg.CORE_ISSUE_COUNT.COUNT = min (s.cget c Reg.CORE_ISSUE_COUNT.COUNT + 1) (2 ^ 48 - 1)
      ∧ (∀ k < 4, ∀ f ∈ loopLevel k, t.cget c f = s.cget c f)
      ∧ ∀ {u fs}, State.nextWord 5 t c (s.wordAddr c) = u → s.Issuing u c fs → (∀ g ∈ stopFlds, Apart (coreFld c g) fs) → s.runPl c w.toNat 2 = u := by
  have hl' := slotLive_withField (hi := 9) (lo := 6) (x := 2) hl (by decide) (by decide) (by decide)
  have hi : bitsOf w.toNat 13 10 < 16 := bitsOf_lt _ 13 10
  have hsa := seqApart_pred c hi
  obtain ⟨-, hI⟩ := hr.effects_pred hs hl' (by simp) (plPred_pset s c w) hi
  obtain ⟨hb, hc⟩ := hI.count hsa
  refine ⟨_, hb, hc, fun k hk f hf => hb.cget_eq (apart_mark fun g hg => (loopLevel_pos hk g ?_ f hf).symm) ?_, fun hseq hu hf => ?_⟩
  · exact (by decide : ∀ g ∈ [Reg.CORE_SCHED_STATUS.STATE, Reg.CORE_SCHED_STATUS.SLIP_CAUSE, Core.BRK_PASS], g ∈ loopFree) g hg
  · simpa using ⟨pred_loop_pos hi hk f hf, (loopLevel_pos hk Reg.CORE_ISSUE_COUNT.COUNT (by decide) f hf).symm⟩
  · rw [runPl_eq s c w (by decide)]
    refine hr.runWord_of_sequence (control_pl s c _) hI hsa (passes_pl hl' (plStatic_pset s c w hw) (by simp [plDynamic]))
      (by simp [gated_of_live hl'.2]) ?_ hu hf
    rw [State.sequence, if_neg (by simp [gated_of_live hl'.2])]
    exact hseq

include ho he

theorem pset_repeats (hleft : s.cget c (Reg.CORE_LOOP_STATE.LEFT l) ≠ 0) :
    (s.runPl c w.toNat 2).cget c (Reg.CORE_LOOP_STATE.LEFT l) = s.cget c (Reg.CORE_LOOP_STATE.LEFT l) - 1
      ∧ s.wordIssued (s.runPl c w.toNat 2) c (s.cget c (Reg.CORE_LOOP_STATE.START l))
          [coreFld c (Reg.CORE_PRED.P (bitsOf w.toNat 13 10)), coreFld c (Reg.CORE_LOOP_STATE.LEFT l)] := by
  have h4 : l < 4 := by have := hr.loops_le; omega
  have hpos := loopLevel_pos h4
  have hleftl : Reg.CORE_LOOP_STATE.LEFT l ∈ loopLevel l := by simp [loopLevel]
  obtain ⟨t, hb, hc, hread, hrun⟩ := pset_counted hs hr hl hw
  have hstart : s.cget c (Reg.CORE_LOOP_STATE.START l) ≤ 2047 := Nat.le_of_lt_succ (s.cget_lt c (Reg.CORE_LOOP_STATE.START l))
  have hI := hb.cput (Reg.CORE_LOOP_STATE.LEFT l) (s.cget c (Reg.CORE_LOOP_STATE.LEFT l) - 1) (hpos _ (by decide) _ hleftl)
    (hpos _ (by decide) _ hleftl)
  have hseq := State.nextWord_repeat (n := 4) ((hread l h4 _ (by simp [loopLevel])).trans ho) ((hread l h4 _ (by simp [loopLevel])).trans he)
    (by rwa [hread l h4 _ hleftl])
  rw [hread l h4 _ hleftl, hread l h4 (Reg.CORE_LOOP_STATE.START l) (by simp [loopLevel])] at hseq
  have hu := hrun hseq (hI.gotoWord hstart) fun g hg => by
    have h1 := stop_pred_pos (bitsOf_lt w.toNat 13 10) g hg
    have h2 := hpos g (List.mem_append_left _ hg) _ hleftl
    have h3 := (by decide : ∀ g ∈ stopFlds, g.pos ≠ Reg.CORE_ISSUE_COUNT.COUNT.pos ∧ g.pos ≠ Reg.CORE_SCHED_STATUS.ADDR.pos) g hg
    simpa using ⟨h1, h3.1, h2, h3.2⟩
  rw [hu]
  refine ⟨?_, State.Issuing.wordIssued ⟨hI.writes.mono fun e => by simp; tauto, hI.state, hI.slip⟩
    ((State.cget_cput_other hb.ordered c (hpos _ (by decide) _ hleftl) _).trans hc) hstart⟩
  rw [State.cget_gotoWord hI.ordered (hpos _ (by decide) _ hleftl).symm hstart]
  have hlt := s.cget_lt c (Reg.CORE_LOOP_STATE.LEFT l)
  exact State.cget_cput_of_lt hb.ordered c _ (lt_of_le_of_lt (Nat.sub_le _ _) hlt)

theorem pset_closes (hleft : s.cget c (Reg.CORE_LOOP_STATE.LEFT l) = 0)
    (hout : l = 0 ∨ s.cget c (Reg.CORE_LOOP_STATE.END (l - 1)) ≠ s.wordAddr c) :
    (s.runPl c w.toNat 2).openLoops c = l ∧ (s.runPl c w.toNat 2).cflag c (Reg.CORE_LOOP_STATE.OPEN l) = false
      ∧ s.wordIssued (s.runPl c w.toNat 2) c (s.wordAddr c + 1) (coreFld c (Reg.CORE_PRED.P (bitsOf w.toNat 13 10)) :: loopFlds c l) := by
  have h4 : l < 4 := by have := hr.loops_le; omega
  have ha : s.wordAddr c + 1 ≤ 2047 := hr.addr_lt
  have hpos := loopLevel_pos h4
  obtain ⟨t, hb, hc, hread, hrun⟩ := pset_counted hs hr hl hw
  have hI : s.Issuing (t.closeLoop c l) c _ := hb.loopWrites h4 0 0 0 0 0 l
  have hval {f : Fld} {v : Nat} (hm : (f, v) ∈ loopWrites l 0 0 0 0 0 l) (hv : v < 2 ^ f.width) : (t.closeLoop c l).cget c f = v :=
    cget_loopWrites hb.ordered h4 _ _ _ _ _ _ hm hv
  have hloops : (t.closeLoop c l).openLoops c = l := hval (by simp [loopWrites]) (show l < 2 ^ 3 by omega)
  have hnl : (t.closeLoop c l).noLoopEnds c (s.wordAddr c) := by
    unfold State.noLoopEnds
    rw [hloops]
    rcases hout with h0 | hne
    · exact .inl h0
    · rcases Nat.eq_zero_or_pos l with h0 | h0
      · exact .inl h0
      · refine .inr ?_
        have hk := (by decide : ∀ l < 4, l ≠ 0 → ∀ g ∈ loopLevel l, (Reg.CORE_LOOP_STATE.END (l - 1)).pos ≠ g.pos) l h4 (by omega)
        rw [closeLoop_eq, (writes_loopWrites hb.ordered 0 0 0 0 0 l).cget_eq (apart_coreFlds hk), hread (l - 1) (by omega) _ (by simp [loopLevel])]
        exact hne
  have hseq := (State.nextWord_close (n := 4) ((hread l h4 _ (by simp [loopLevel])).trans ho) ((hread l h4 _ (by simp [loopLevel])).trans he)
    ((hread l h4 _ (by simp [loopLevel])).trans hleft)).trans (State.nextWord_goto 4 hnl)
  have hu := hrun hseq (hI.gotoWord ha) fun g hg => by
    have h1 := stop_pred_pos (bitsOf_lt w.toNat 13 10) g hg
    have h2 : Apart (coreFld c g) (loopFlds c l) := apart_coreFlds (hpos g (List.mem_append_left _ hg))
    have h3 := (by decide : ∀ g ∈ stopFlds, g.pos ≠ Reg.CORE_ISSUE_COUNT.COUNT.pos ∧ g.pos ≠ Reg.CORE_SCHED_STATUS.ADDR.pos) g hg
    simpa using ⟨h1, h3.1, h2, h3.2⟩
  rw [hu]
  refine ⟨(State.cget_gotoWord hI.ordered (by decide) ha).trans hloops, ?_,
    State.Issuing.wordIssued ⟨hI.writes.mono fun e => by simp; tauto, hI.state, hI.slip⟩
      (((writes_loopWrites hb.ordered 0 0 0 0 0 l).cget_eq (apart_coreFlds (hpos _ (by decide)))).trans hc) ha⟩
  rw [State.cflag_false_iff _ c (Reg.CORE_LOOP_STATE.OPEN l) rfl,
    State.cget_gotoWord hI.ordered (hpos _ (by decide) _ (by simp [loopLevel])).symm ha]
  exact hval (by simp [loopWrites]) (show 0 < 2 ^ 1 by decide)

end

/-- Settles O12: a `LOOP` opens its level or skips its body (`loop_opens`, `loop_skips`), and at the END of the innermost loop a word repeats
it or closes it (`pset_repeats`, `pset_closes`). -/
theorem loopsOpenRepeatAndClose : Obligations.LoopsOpenRepeatAndClose := by
  refine ⟨?_, ?_⟩
  · intro s c w hs hr hl a l d fin n h hlv h4 hd
    exact ⟨fun hn => ⟨_, exec_loop c w s, loop_opens hs hr hl h hlv h4 hd hn⟩,
      fun hn hfin hne => ⟨_, exec_loop c w s, loop_skips hs hr hl h hlv h4 hd hn hfin hne⟩⟩
  · intro s c w l hs hr hl ho he hw p left
    exact ⟨fun hleft => ⟨_, exec_pset c w s, pset_repeats hs hr hl ho he hw hleft⟩,
      fun hleft hout => ⟨_, exec_pset c w s, pset_closes hs hr hl ho he hw hleft hout⟩⟩

end Sys2Proof.Machine
end

section
/-! PROOFS. Notices and lines of a die, and schedule faults (R63, R335, R478). -/

namespace Sys2Proof.Machine

variable {s t : State} {c : CoreRef}

/-! ### Fields of a core, of its die and of the panel -/

theorem coreRef_wf_iff (c : CoreRef) : c.wf = true ↔ c.site < 256 ∧ c.core < 48 := by simp [CoreRef.wf]

/-- Fields of the die that lie below or above those of its cores. -/
theorem apart_core_die {f : Fld} {fs : List Fld} (hc : c.wf = true) (hf : ∀ g ∈ fs, g.pos < f.pos ∨ f.pos + 47 * 2 ^ 22 < g.pos) :
    Apart (coreFld c f) (fs.map (Prod.mk c.site)) := by
  obtain ⟨-, hcore⟩ := (coreRef_wf_iff c).1 hc
  intro a ha
  obtain ⟨g, hg, rfl⟩ := List.mem_map.1 ha
  have := hf g hg
  simp only [coreFld, fldKey_eq_pos, Fld.pos_nth]
  omega

theorem apart_die_core {f : Fld} {fs : List Fld} (hc : c.wf = true) (hf : ∀ g ∈ fs, f.pos < g.pos ∨ g.pos + 47 * 2 ^ 22 < f.pos) :
    Apart (c.site, f) (fs.map (coreFld c)) := by
  obtain ⟨-, hcore⟩ := (coreRef_wf_iff c).1 hc
  intro a ha
  obtain ⟨g, hg, rfl⟩ := List.mem_map.1 ha
  have := hf g hg
  simp only [coreFld, fldKey_eq_pos, Fld.pos_nth]
  omega

/-- Fields of one site at other places. -/
theorem apart_die {site : Nat} {f : Fld} {fs : List Fld} (hf : ∀ g ∈ fs, f.pos ≠ g.pos) : Apart (site, f) (fs.map (Prod.mk site)) := by
  intro a ha
  obtain ⟨g, hg, rfl⟩ := List.mem_map.1 ha
  have := hf g hg
  simp only [fldKey_eq_pos]
  omega

/-- Fields of two sites. -/
theorem apart_sites {k k' : Nat} {f : Fld} {fs : List Fld} (hk : k ≠ k') (hf : f.pos < 2 ^ 32) (hfs : ∀ g ∈ fs, g.pos < 2 ^ 32) :
    Apart (k, f) (fs.map (Prod.mk k')) := by
  intro a ha
  obtain ⟨g, hg, rfl⟩ := List.mem_map.1 ha
  have := hfs g hg
  simp only [fldKey_eq_pos]
  omega

theorem apart_core_panel {f : Fld} {fs : List Fld} (hc : c.wf = true) (hf : f.pos + 47 * 2 ^ 22 < 2 ^ 32) (hfs : ∀ g ∈ fs, g.pos < 2 ^ 32) :
    Apart (coreFld c f) (fs.map panelFld) := by
  obtain ⟨hsite, hcore⟩ := (coreRef_wf_iff c).1 hc
  have hlt : (f.nth c.core).pos < 2 ^ 32 := by
    have hle : c.core * 2 ^ 22 ≤ 47 * 2 ^ 22 := Nat.mul_le_mul_right _ (by omega)
    exact Fld.pos_nth f c.core ▸ lt_of_le_of_lt (Nat.add_le_add_left hle _) hf
  exact apart_sites (Nat.ne_of_lt hsite) hlt hfs

theorem apart_panel_core {f : Fld} {fs : List Fld} (hc : c.wf = true) (hf : f.pos < 2 ^ 32) (hfs : ∀ g ∈ fs, g.pos + 47 * 2 ^ 22 < 2 ^ 32) :
    Apart (panelFld f) (fs.map (coreFld c)) := by
  obtain ⟨hsite, hcore⟩ := (coreRef_wf_iff c).1 hc
  intro a ha
  obtain ⟨g, hg, rfl⟩ := List.mem_map.1 ha
  have := hfs g hg
  simp only [coreFld, panelFld, panelSite, fldKey_eq_pos, Fld.pos_nth]
  omega

theorem State.Writes.flag_eq {es : List (Nat × Fld)} (h : s.Writes t es) {site : Nat} {f : Fld} (he : Apart (site, f) es) :
    t.flag site f = s.flag site f := by
  have := h.get_eq he
  simp_all [State.flag]

theorem State.Writes.withNotes {es : List (Nat × Fld)} (h : s.Writes t es) (b : List Notice) :
    { s with noticeBuf := b }.Writes { t with noticeBuf := b } es := by
  obtain ⟨⟨ht, hf⟩, hr⟩ := h
  exact ⟨⟨by rw [ht], hf⟩, hr⟩

/-- Besides the listed fields only the notices that wait in the dies differ. -/
def State.WritesAndNotes (s t : State) (es : List (Nat × Fld)) : Prop := ∃ b, { s with noticeBuf := b }.Writes t es

namespace State.WritesAndNotes
variable {u : State} {es fs : List (Nat × Fld)}

theorem of_writes (h : s.Writes t es) : s.WritesAndNotes t es := ⟨s.noticeBuf, h⟩

theorem ordered (h : s.WritesAndNotes t es) : risingFrom 0 t.fld = true := let ⟨_, hw⟩ := h; hw.ordered

theorem get_eq (h : s.WritesAndNotes t es) {e : Nat × Fld} (he : Apart e es) : t.get e.1 e.2 = s.get e.1 e.2 := let ⟨_, hw⟩ := h; hw.get_eq he

theorem flag_eq (h : s.WritesAndNotes t es) {site : Nat} {f : Fld} (he : Apart (site, f) es) : t.flag site f = s.flag site f :=
  let ⟨_, hw⟩ := h; hw.flag_eq he

theorem trans (h : s.WritesAndNotes t es) (k : t.WritesAndNotes u fs) : s.WritesAndNotes u (es ++ fs) := by
  obtain ⟨a, hw⟩ := h
  obtain ⟨b, hk⟩ := k
  exact ⟨b, (hw.withNotes b).trans hk⟩

/-- The core is as quiet as before. -/
theorem quiet (h : s.WritesAndNotes t es) (hq : s.Quiet c)
    (he : ∀ g ∈ [Core.CH_BUSY 0, Core.CH_BUSY 1, Reg.CORE_MX_STATUS.OCC_LEFT, Reg.CORE_VX_STATUS.OCC_LEFT], Apart (coreFld c g) es) : t.Quiet c :=
  let ⟨b, hw⟩ := h
  State.Quiet.of_writes (s := { s with noticeBuf := b }) ⟨hq.busy0, hq.busy1, hq.mx, hq.vx, hq.beats, hq.flights⟩ hw he

end State.WritesAndNotes

/-! ### Notices -/

/-- The counts of a die's notices. -/
def noticeFs : List Fld := [Reg.DIE_NOTICE.RAISED, Reg.DIE_NOTICE.BUFFERED, Reg.DIE_NOTICE.LOST, Die.LOSS]

/-- A raised notice is counted; besides the die's counts, only the notices that wait in the dies change (R478, R479). -/
theorem raise_writes (h : risingFrom 0 s.fld = true) (n : Notice) :
    s.WritesAndNotes (s.raise n) (noticeFlds n.site)
      ∧ (s.raise n).get n.site Reg.DIE_NOTICE.RAISED = min (s.get n.site Reg.DIE_NOTICE.RAISED + 1) (2 ^ 32 - 1) := by
  have w1 : s.Writes (s.bump n.site Reg.DIE_NOTICE.RAISED) [(n.site, Reg.DIE_NOTICE.RAISED)] := (State.Writes.refl h).put (n.site, _) _
  have hget : (s.bump n.site Reg.DIE_NOTICE.RAISED).get n.site Reg.DIE_NOTICE.RAISED = min (s.get n.site Reg.DIE_NOTICE.RAISED + 1) (2 ^ 32 - 1) :=
    (s.get_put_same _ _ _ h).trans (Nat.mod_eq_of_lt (lt_of_le_of_lt (Nat.min_le_right _ _) (by decide)))
  unfold State.raise
  dsimp only
  generalize s.bump n.site Reg.DIE_NOTICE.RAISED = s1 at w1 hget
  split
  case isTrue hfull =>
    have w2 := ((State.Writes.refl w1.ordered).put (n.site, Reg.DIE_NOTICE.LOST) (min (s1.get n.site Reg.DIE_NOTICE.LOST + 1) (2 ^ 16 - 1))).put
      (n.site, Die.LOSS) 1
    exact ⟨.of_writes ((w1.trans w2).mono (by simp [noticeFlds])),
      (w2.get_eq (apart_die (fs := [Reg.DIE_NOTICE.LOST, Die.LOSS]) (by decide))).trans hget⟩
  case isFalse hroom =>
    have w2 := ((State.Writes.refl w1.ordered).put (n.site, Reg.DIE_NOTICE.BUFFERED) (s1.get n.site Reg.DIE_NOTICE.BUFFERED + 1)).put
      (n.site, Die.LOSS) 0
    exact ⟨⟨_, ((w1.trans w2).mono (by simp [noticeFlds])).withNotes _⟩,
      (w2.get_eq (apart_die (fs := [Reg.DIE_NOTICE.BUFFERED, Die.LOSS]) (by decide))).trans hget⟩

/-! ### Whistle lines -/

/-- A bit of a mask that is set reads as set. -/
theorem State.testBit_setBit (h : risingFrom 0 s.fld = true) (site : Nat) (f : Fld) {i : Nat} (hi : i < f.width) :
    ((s.setBit site f i).get site f).testBit i = true := by
  have hlt : s.get site f ||| 2 ^ i < 2 ^ f.width := Nat.or_lt_two_pow (s.get_lt site f) (Nat.pow_lt_pow_right (by decide) hi)
  rw [State.setBit, s.get_put_same site f _ h, Nat.mod_eq_of_lt hlt, Nat.testBit_or, Nat.testBit_two_pow_self, Bool.or_true]

/-- What driving the line of one squad writes. -/
theorem lineFlds_squad {n : Nat} (hn : n < 16) : lineFlds n =
    [Reg.SQD_LINES.WHISTLE, Reg.SQD_STATUS.CAUSE n, Reg.SQD_STATUS.SOURCE n, Reg.SQD_STATUS.SITE n].map panelFld := by
  simp [lineFlds, squadsOfLine, show n ≠ 16 by omega]

/-- Where the fields of the lines stand. -/
theorem lineFlds_pos {n : Nat} (hn : n < 16) :
    ∀ g ∈ [Reg.SQD_LINES.WHISTLE, Reg.SQD_STATUS.CAUSE n, Reg.SQD_STATUS.SOURCE n, Reg.SQD_STATUS.SITE n], g.pos < 2 ^ 32 :=
  (by decide : ∀ n < 16, ∀ g ∈ [Reg.SQD_LINES.WHISTLE, Reg.SQD_STATUS.CAUSE n, Reg.SQD_STATUS.SOURCE n, Reg.SQD_STATUS.SITE n],
    g.pos < 2 ^ 32) n hn

/-- A driven line of a squad is up, and of the panel only the line and what the squad records of it change (R335, R337). -/
theorem driveLine_writes (h : risingFrom 0 s.fld = true) {n : Nat} (hn : n < 16) (cause source site : Nat) :
    s.Writes (s.driveLine n cause source site) (lineFlds n)
      ∧ ((s.driveLine n cause source site).get panelSite Reg.SQD_LINES.WHISTLE).testBit n = true := by
  have hup := State.testBit_setBit h panelSite Reg.SQD_LINES.WHISTLE (i := n) (show n < 17 by omega)
  have hw : s.Writes (s.setBit panelSite Reg.SQD_LINES.WHISTLE n) [panelFld Reg.SQD_LINES.WHISTLE] :=
    (State.Writes.refl h).put (panelSite, Reg.SQD_LINES.WHISTLE) (s.get panelSite Reg.SQD_LINES.WHISTLE ||| 2 ^ n)
  have hd : s.driveLine n cause source site = (s.setBit panelSite Reg.SQD_LINES.WHISTLE n).noteCause n cause source site := by
    simp [State.driveLine, squadsOfLine, show n ≠ 16 by omega]
  have hnote : (s.setBit panelSite Reg.SQD_LINES.WHISTLE n).Writes ((s.setBit panelSite Reg.SQD_LINES.WHISTLE n).noteCause n cause source site)
      ([Reg.SQD_STATUS.CAUSE n, Reg.SQD_STATUS.SOURCE n, Reg.SQD_STATUS.SITE n].map panelFld) := by
    unfold State.noteCause
    split
    · exact (((State.Writes.refl hw.ordered).put (panelFld (Reg.SQD_STATUS.CAUSE n)) _).put (panelFld (Reg.SQD_STATUS.SOURCE n)) _).put
        (panelFld (Reg.SQD_STATUS.SITE n)) _
    · exact (State.Writes.refl hw.ordered).mono (by simp)
  refine ⟨lineFlds_squad hn ▸ hd ▸ hw.trans hnote, ?_⟩
  have hap : Apart (panelSite, Reg.SQD_LINES.WHISTLE) ([Reg.SQD_STATUS.CAUSE n, Reg.SQD_STATUS.SOURCE n, Reg.SQD_STATUS.SITE n].map panelFld) :=
    apart_die ((by decide : ∀ n < 16, ∀ g ∈ [Reg.SQD_STATUS.CAUSE n, Reg.SQD_STATUS.SOURCE n, Reg.SQD_STATUS.SITE n],
      Reg.SQD_LINES.WHISTLE.pos ≠ g.pos) n hn)
  rw [hd, hnote.get_eq hap, hup]

/-- A die drives the line of its squad (R335). -/
theorem whistle_writes (h : risingFrom 0 s.fld = true) (site cause : Nat) :
    s.Writes (s.whistle site cause) (lineFlds (s.get site Reg.DIE_SIDEBAND.SQUAD))
      ∧ (s.flag site Reg.DIE_SIDEBAND.MEMBER = true →
          ((s.whistle site cause).get panelSite Reg.SQD_LINES.WHISTLE).testBit (s.get site Reg.DIE_SIDEBAND.SQUAD) = true) := by
  have hn : s.get site Reg.DIE_SIDEBAND.SQUAD < 16 := s.get_lt site Reg.DIE_SIDEBAND.SQUAD
  unfold State.whistle
  split
  case isTrue hm =>
    obtain ⟨hw, hb⟩ := driveLine_writes h hn cause 1 site
    exact ⟨hw, fun _ => hb⟩
  case isFalse hm => exact ⟨(State.Writes.refl h).mono (by simp), fun hm' => absurd hm' hm⟩

/-! ### Schedule faults -/

/-- What a schedule fault writes in its core. -/
def faultWrites (code addr : Nat) : List (Fld × Nat) :=
  [(Reg.CORE_SCHED_STATUS.STATE, 6), (Reg.CORE_SCHED_STATUS.SLIP_CAUSE, 0), (Reg.CORE_SCHED_STATUS.FAULT_CODE, code),
   (Reg.CORE_SCHED_STATUS.ADDR, addr)]

/-- The fields that a schedule fault writes in its core. -/
def faultFs : List Fld :=
  [Reg.CORE_SCHED_STATUS.STATE, Reg.CORE_SCHED_STATUS.SLIP_CAUSE, Reg.CORE_SCHED_STATUS.FAULT_CODE, Reg.CORE_SCHED_STATUS.ADDR]

/-- The fields that a schedule fault of a core writes. -/
def faultFlds (s : State) (c : CoreRef) : List (Nat × Fld) :=
  faultFs.map (coreFld c) ++ noticeFlds c.site ++ lineFlds (s.get c.site Reg.DIE_SIDEBAND.SQUAD)

/-- A field of a core is none of its die's notice counts and none of the lines. -/
theorem apart_notice_line (hc : c.wf = true) {f : Fld} (hp : f.pos + 47 * 2 ^ 22 < 2 ^ 32)
    (hd : ∀ g ∈ noticeFs, g.pos < f.pos ∨ f.pos + 47 * 2 ^ 22 < g.pos)
    {n : Nat} (hn : n < 16) : Apart (coreFld c f) (noticeFlds c.site ++ lineFlds n) := by
  rw [lineFlds_squad hn]
  exact (apart_append ..).2 ⟨apart_core_die hc hd, apart_core_panel hc hp (lineFlds_pos hn)⟩

/-- A core that neither faulted nor is halted takes a schedule fault: it is FAULTED at the word, the notice is counted, and the line of its
squad is up (R63). -/
theorem schedFault_writes (h : risingFrom 0 s.fld = true) (hc : c.wf = true)
    (hst : s.cget c Reg.CORE_SCHED_STATUS.STATE = 1 ∨ s.cget c Reg.CORE_SCHED_STATUS.STATE = 2) {code addr : Nat} (hk : code < 2 ^ 8)
    (ha : addr < 2 ^ 11) :
    s.WritesAndNotes (s.schedFault c code addr) (faultFlds s c)
      ∧ (s.schedFault c code addr).cget c Reg.CORE_SCHED_STATUS.STATE = 6
      ∧ (s.schedFault c code addr).cget c Reg.CORE_SCHED_STATUS.FAULT_CODE = code
      ∧ (s.schedFault c code addr).cget c Reg.CORE_SCHED_STATUS.ADDR = addr
      ∧ (s.schedFault c code addr).get c.site Reg.DIE_NOTICE.RAISED = min (s.get c.site Reg.DIE_NOTICE.RAISED + 1) (2 ^ 32 - 1)
      ∧ (s.flag c.site Reg.DIE_SIDEBAND.MEMBER = true →
          ((s.schedFault c code addr).get panelSite Reg.SQD_LINES.WHISTLE).testBit (s.get c.site Reg.DIE_SIDEBAND.SQUAD) = true) := by
  have hn : s.get c.site Reg.DIE_SIDEBAND.SQUAD < 16 := s.get_lt c.site Reg.DIE_SIDEBAND.SQUAD
  obtain ⟨hsite, -⟩ := (coreRef_wf_iff c).1 hc
  -- the core's fields
  have w1 : s.Writes (s.cputs c (faultWrites code addr)) (faultFs.map (coreFld c)) := State.writes_cputs h c (faultWrites code addr)
  have v1 {f : Fld} {v : Nat} (hm : (f, v) ∈ faultWrites code addr) (hv : v < 2 ^ f.width) : (s.cputs c (faultWrites code addr)).cget c f = v :=
    State.cget_cputs_mem h c (by simp [faultWrites, List.pairwise_cons]; decide) hm hv
  generalize hs1 : s.cputs c (faultWrites code addr) = s1 at w1 v1
  have hdie {f : Fld} (hf : ∀ g ∈ faultFs, f.pos < g.pos ∨ g.pos + 47 * 2 ^ 22 < f.pos) : s1.get c.site f = s.get c.site f :=
    w1.get_eq (e := (c.site, f)) (apart_die_core hc hf)
  have hmem : s1.flag c.site Reg.DIE_SIDEBAND.MEMBER = s.flag c.site Reg.DIE_SIDEBAND.MEMBER := by
    unfold State.flag; rw [hdie (by decide)]
  -- the notice
  obtain ⟨w2, hraised⟩ : s1.WritesAndNotes (s1.notify c.site c.core 0x0102 3 code addr) (noticeFlds c.site)
      ∧ (s1.notify c.site c.core 0x0102 3 code addr).get c.site Reg.DIE_NOTICE.RAISED = min (s1.get c.site Reg.DIE_NOTICE.RAISED + 1) (2 ^ 32 - 1) :=
    raise_writes w1.ordered _
  have hs : s.schedFault c code addr = (s1.notify c.site c.core 0x0102 3 code addr).whistle c.site Cause.SCHED_FAULT := by
    rw [State.schedFault, if_neg (by omega), ← hs1]
    rfl
  generalize s1.notify c.site c.core 0x0102 3 code addr = s2 at w2 hraised hs
  have hsq : s2.get c.site Reg.DIE_SIDEBAND.SQUAD = s.get c.site Reg.DIE_SIDEBAND.SQUAD :=
    (w2.get_eq (e := (c.site, Reg.DIE_SIDEBAND.SQUAD)) (apart_die (fs := noticeFs) (by decide))).trans (hdie (f := Reg.DIE_SIDEBAND.SQUAD) (by decide))
  have hfl : s2.flag c.site Reg.DIE_SIDEBAND.MEMBER = s.flag c.site Reg.DIE_SIDEBAND.MEMBER :=
    (w2.flag_eq (apart_die (fs := noticeFs) (by decide))).trans hmem
  -- the line
  obtain ⟨w3, hline⟩ := whistle_writes w2.ordered c.site Cause.SCHED_FAULT
  rw [hsq] at w3 hline
  rw [hfl] at hline
  rw [hs]
  have hcore {f : Fld} (hf : f ∈ faultFs) : (s2.whistle c.site Cause.SCHED_FAULT).cget c f = s1.cget c f := by
    have ha := apart_notice_line hc ((by decide : ∀ f ∈ faultFs, f.pos + 47 * 2 ^ 22 < 2 ^ 32) f hf) ((by decide : ∀ f ∈ faultFs,
      ∀ g ∈ noticeFs, g.pos < f.pos ∨ f.pos + 47 * 2 ^ 22 < g.pos) f hf) hn
    obtain ⟨ha2, ha3⟩ := (apart_append ..).1 ha
    exact (w3.get_eq ha3).trans (w2.get_eq ha2)
  refine ⟨((State.WritesAndNotes.of_writes w1).trans w2).trans (.of_writes w3), ?_, ?_, ?_, ?_, hline⟩
  · exact (hcore (by decide)).trans (v1 (by simp [faultWrites]) (by decide))
  · exact (hcore (by decide)).trans (v1 (by simp [faultWrites]) hk)
  · exact (hcore (by decide)).trans (v1 (by simp [faultWrites]) ha)
  · have hpanel : Apart (c.site, Reg.DIE_NOTICE.RAISED) (lineFlds (s.get c.site Reg.DIE_SIDEBAND.SQUAD)) := by
      rw [lineFlds_squad hn]
      exact apart_sites (by unfold panelSite; omega) (by decide) (lineFlds_pos hn)
    rw [w3.get_eq hpanel, hraised, hdie (by decide)]

/-- Fields by which a core is quiet. -/
def quietFs : List Fld := [Core.CH_BUSY 0, Core.CH_BUSY 1, Reg.CORE_MX_STATUS.OCC_LEFT, Reg.CORE_VX_STATUS.OCC_LEFT]

/-- A field of the core that a schedule fault leaves. -/
theorem apart_faultFlds (hc : c.wf = true) {f : Fld} (h1 : ∀ g ∈ faultFs, f.pos ≠ g.pos) (h2 : f.pos + 47 * 2 ^ 22 < 2 ^ 32)
    (h3 : ∀ g ∈ noticeFs, g.pos < f.pos ∨ f.pos + 47 * 2 ^ 22 < g.pos) : Apart (coreFld c f) (faultFlds s c) := by
  rw [faultFlds, List.append_assoc]
  exact (apart_append ..).2 ⟨apart_coreFlds h1, apart_notice_line hc h2 h3 (s.get_lt c.site Reg.DIE_SIDEBAND.SQUAD)⟩

/-- A word that breaks a check stops a core that runs at the word (R63): nothing of the core is under way. -/
theorem State.coreRuns.runWord_faults (hs : s.canonical = true) (hr : s.coreRuns c) {w : Slots} {code : Nat} (hk : code < 2 ^ 8)
    (hf : s.wordFault c w (s.wordAddr c) = some code) : s.wordFaulted (s.runWord c w) c code := by
  have ha : s.wordAddr c < 2 ^ 11 := hr.addr_lt.trans (by decide)
  obtain ⟨hw, hst, hcode, haddr, hraised, hline⟩ := schedFault_writes (State.canonical_fld hs) hr.wf hr.state hk ha
  have hq : (s.schedFault c code (s.wordAddr c)).Quiet c := hw.quiet hr.quiet fun g hg => apart_faultFlds hr.wf
    ((by decide : ∀ g ∈ quietFs, ∀ f ∈ faultFs, g.pos ≠ f.pos) g hg) ((by decide : ∀ g ∈ quietFs, g.pos + 47 * 2 ^ 22 < 2 ^ 32) g hg)
    ((by decide : ∀ g ∈ quietFs, ∀ f ∈ noticeFs, f.pos < g.pos ∨ g.pos + 47 * 2 ^ 22 < f.pos) g hg)
  have hfault : s.faultWord c code (s.wordAddr c) = s.schedFault c code (s.wordAddr c) := by
    unfold State.faultWord
    split
    · exact hq.tick
    · rw [hr.quiet.portCollision, hr.quiet.tick]
  have hissue : s.issueWord c w = s.schedFault c code (s.wordAddr c) := by
    rw [hr.offered.issueWord, ← hfault]
    unfold State.wordAddr at *
    simp only [State.issueDue, hr.past, hf, Bool.false_eq_true, if_false]
  have hstop : (s.schedFault c code (s.wordAddr c)).cget c Core.STOPPING = 0 :=
    (hw.get_eq (apart_faultFlds hr.wf (f := Core.STOPPING) (by decide) (by decide) (by decide))).trans hr.stopping
  rw [State.runWord_of_issueWord hissue (ne_of_eq_of_ne hstop (by decide))]
  obtain ⟨b, hb⟩ := hw
  exact ⟨hst, hcode, haddr, hraised, hline, hb.sameMemory, hb.queues_eq⟩

/-! ### The faults of the rows (O16) -/

/-- A check that is broken alone decides the code. -/
theorem wordFault_pl_dynamic {v a code : Nat} (hl : s.slotLive c v) (hst : plStatic s c v = []) (hd : plDynamic s c v a = [code]) :
    s.wordFault c (plWord v) a = some code := by
  rw [wordFault_plWord, hl.1, hst, if_pos hl.2, hd]
  rfl

theorem plDynamic_pos (s : State) (c : CoreRef) (v a : Nat) : ∀ k ∈ plDynamic s c v a, 1 ≤ k := by
  intro k hk
  unfold plDynamic at hk
  split at hk <;> grind

/-- A reserved bit of a slot has the lowest code (R63). -/
theorem wordFault_pl_reserved {v a : Nat} (hl : s.slotLive c v) (hst : plStatic s c v = [0x01]) : s.wordFault c (plWord v) a = some 0x01 := by
  rw [wordFault_plWord, hl.1, hst, if_pos hl.2]
  exact List.min?_eq_some_iff.2 ⟨by simp, by simpa using plDynamic_pos s c v a⟩

section
variable (hs : s.canonical = true) (hr : s.coreRuns c) {w : BitVec 24} (hl : s.slotLive c w.toNat)
include hs hr hl

theorem runPl_faults_dynamic {op code : Nat} (hop : op < 16) (hk : code < 2 ^ 8) (hst : plStatic s c (withField w.toNat 9 6 op) = [])
    (hd : plDynamic s c (withField w.toNat 9 6 op) (s.wordAddr c) = [code]) : s.wordFaulted (s.runPl c w.toNat op) c code :=
  runPl_eq s c w hop ▸ hr.runWord_faults hs hk (wordFault_pl_dynamic (slotLive_withField hl (by decide) (by decide) hop) hst hd)

theorem runPl_faults_reserved {op : Nat} (hop : op < 16) (hst : plStatic s c (withField w.toNat 9 6 op) = [0x01]) :
    s.wordFaulted (s.runPl c w.toNat op) c 0x01 :=
  runPl_eq s c w hop ▸ hr.runWord_faults hs (by decide) (wordFault_pl_reserved (slotLive_withField hl (by decide) (by decide) hop) hst)

theorem runHuddle_faults {m line : Nat} (hm : m < 3) (hline : bitsOf w.toNat 11 8 = line) (h : bitsOf w.toNat 23 14 = 0)
    (hf : (s.cget c Reg.CORE_POISON_CTL.HUDDLE_MASK).testBit line = false ∨ (m = 1 ∧ s.cget c (Core.HUDDLE line) = 1)
      ∨ (m = 0 ∧ s.cget c (Core.HUDDLE line) = 1 ∧ s.cget c Core.WAITLINE ≠ line + 1) ∨ (m = 2 ∧ s.cget c (Core.HUDDLE line) = 0)) :
    s.wordFaulted (s.runHuddle c w.toNat m) c 0x07 := by
  have hm4 : m < 4 := by omega
  have hg := slotLive_withField (slotLive_withField hl (hi := 7) (lo := 6) (x := 3) (by decide) (by decide) (by decide)) (hi := 13) (lo := 12)
    (by decide) (by decide) hm4
  rw [runHuddle_eq s c w hm4]
  refine hr.runWord_faults hs (by decide) ?_
  rw [wordFault_wtWord, hg.1, if_pos hg.2, ← huddleSlot, wtStatic_huddle w.toNat hm4 (by omega) h, wtDynamic_huddle hm hline, if_pos hf]
  rfl

end

theorem extraBits_op {w : BitVec 24} {op n : Nat} (hop : op < 16) (hn : 9 < n) (h : bitsOf w.toNat 23 n ≠ 0) :
    2 ^ n ≤ withField w.toNat 9 6 op := lt_of_bitsOf_ne_zero (by rwa [bitsOf_op_other hop hn])

theorem plStatic_reserved (s : State) (c : CoreRef) (w : BitVec 24) :
    (bitsOf w.toNat 23 15 ≠ 0 → plStatic s c (withField w.toNat 9 6 2) = [0x01])
      ∧ (bitsOf w.toNat 23 10 ≠ 0 → plStatic s c (withField w.toNat 9 6 6) = [0x01])
      ∧ (bitsOf w.toNat 23 17 ≠ 0 → plStatic s c (withField w.toNat 9 6 1) = [0x01]) := by
  refine ⟨fun h => ?_, fun h => ?_, fun h => ?_⟩
  · have : extraBits (withField w.toNat 9 6 2) 0x7FFF = true := extraBits_high (n := 15) (extraBits_op (by decide) (by decide) h)
    simp [plStatic, this]
  · have : extraBits (withField w.toNat 9 6 6) 0x3FF = true := extraBits_high (n := 10) (extraBits_op (by decide) (by decide) h)
    simp [plStatic, this]
  · have : extraBits (withField w.toNat 9 6 1) 0x1FFFF = true := extraBits_high (n := 17) (extraBits_op (by decide) (by decide) h)
    simp [plStatic, this]

/-- Settles O16: each row's word breaks one check (`wordFault`), and a core that runs takes the schedule fault (`coreRuns.runWord_faults`). -/
theorem scheduleFaultsStopTheCore : Obligations.ScheduleFaultsStopTheCore := by
  intro s c w hs hr hl b line h mask
  obtain ⟨hpset, hend, hloop⟩ := plStatic_reserved s c w
  simp only [List.forall_mem_cons, List.not_mem_nil, false_imp_iff, implies_true, and_true]
  refine ⟨fun ⟨h0, hf⟩ => ⟨_, exec_arriveOnly c w s, ?_⟩, fun ⟨h0, hf⟩ => ⟨_, exec_arriveAndWait c w s, ?_⟩,
    fun ⟨h0, hf⟩ => ⟨_, exec_waitOnly c w s, ?_⟩, fun ⟨h0, hf⟩ => ⟨_, exec_ldcnt c w s, ?_⟩, fun ⟨h0, h5, hf⟩ => ⟨_, exec_ploop c w s, ?_⟩,
    fun hf => ⟨_, exec_pset c w s, ?_⟩, fun hf => ⟨_, exec_endSched c w s, ?_⟩, fun hf => ⟨_, exec_loop c w s, ?_⟩⟩
  · exact runHuddle_faults hs hr hl (by decide) rfl h0 (hf.imp_right fun h => .inl ⟨rfl, h⟩)
  · exact runHuddle_faults hs hr hl (by decide) rfl h0 (hf.imp_right fun h => .inr (.inl ⟨rfl, h⟩))
  · exact runHuddle_faults hs hr hl (by decide) rfl h0 (hf.imp_right fun h => .inr (.inr ⟨rfl, h⟩))
  · exact runPl_faults_dynamic hs hr hl (by decide) (by decide) (plStatic_ldcnt s c w h0) (by simp [plDynamic, bitsOf_op_other, b] at hf ⊢; exact hf)
  · exact runPl_faults_dynamic hs hr hl (by decide) (by decide) (plStatic_ploop s c w h0 h5) (by simp [plDynamic, bitsOf_op_other, b] at hf ⊢; exact hf)
  · exact runPl_faults_reserved hs hr hl (by decide) (hpset hf)
  · exact runPl_faults_reserved hs hr hl (by decide) (hend hf)
  · exact runPl_faults_reserved hs hr hl (by decide) (hloop hf)

end Sys2Proof.Machine
end

section
/-! PROOFS. Breakpoints, steps, pauses and endings of a core (O23). -/

namespace Sys2Proof.Machine

variable {s t r : State} {c : CoreRef}

/-! ### A word of no operation -/

theorem passes_none (s : State) (c : CoreRef) : s.Passes c Slots.none :=
  ⟨wordFault_none s c _, by simp [Slots.none], by simp [Slots.none], by simp [Slots.none]⟩

theorem control_none (s : State) (c : CoreRef) : s.Control c Slots.none := by constructor <;> exact gated_zero s c

theorem controlEffects_none (s : State) (c : CoreRef) : s.controlEffects c Slots.none = s.mark c := by
  simp [State.controlEffects, Slots.none, State.writePred]

/-- The fields that the issue of a word of no operation writes. -/
def passFs : List Fld :=
  [Reg.CORE_SCHED_STATUS.STATE, Reg.CORE_SCHED_STATUS.SLIP_CAUSE, Core.BRK_PASS, Reg.CORE_ISSUE_COUNT.COUNT, Reg.CORE_SCHED_STATUS.ADDR]

/-- A word of no operation issues and is counted, and the sequencer goes to the next word before it stops, steps or goes on. -/
theorem State.Offered.issueWord_none (h : risingFrom 0 s.fld = true) (ho : s.Offered c) (hl : s.openLoops c ≤ 4)
    (hn : s.noLoopEnds c (s.wordAddr c)) :
    s.issueWord c Slots.none = ((s.mark c).issueNext c (s.wordAddr c + 1)).afterIssue c false false := by
  have hm := State.Issuing.mark h c
  have hends := (hm.count (seqApart_nil c)).1.noLoopEnds hl ((seqApart_nil c).append (fs := [Reg.CORE_ISSUE_COUNT.COUNT]) (by decide) (by decide)) hn
  have hseq : ((s.mark c).cbump c Reg.CORE_ISSUE_COUNT.COUNT).sequence s c 0 (s.wordAddr c) = (s.mark c).issueNext c (s.wordAddr c + 1) :=
    (if_neg (by decide)).trans (State.nextWord_goto 5 hends)
  rw [ho.issueWord_of_passes (passes_none s c),
    ho.issueSlots_control (control_none s c) (controlEffects_none s c ▸ hm) (seqApart_nil c), controlEffects_none]
  simp only [Slots.none, gated_zero, hseq]
  rfl

/-- Back to BREAK after a step (R68). -/
theorem State.afterIssue_step (hst : t.cget c Reg.CORE_SCHED_STATUS.STATE = 1) (hp : t.cflag c Core.PAST = false)
    (hs : t.cflag c Core.STEPPING = true) :
    t.afterIssue c false false = t.cputs c [(Core.STEPPING, 0), (Reg.CORE_SCHED_STATUS.STATE, 7)] := by
  simp only [State.afterIssue, hst, hp, hs, Bool.false_eq_true, if_false, if_true, OfNat.one_ne_ofNat]
  rfl

/-- A core's read of words without upset bits changes nothing. -/
theorem State.pathRead_of_noUpsets {k n : Nat} (h : s.noUpsets k n) (c : CoreRef) : s.pathRead c k n = s := by
  unfold State.noUpsets at h
  simp [State.pathRead, State.firstBad, State.checkRange, h]

/-- The sequencer's step to the next word. -/
theorem writes_issueNext (h : risingFrom 0 t.fld = true) (c : CoreRef) {a : Nat} (ha : a ≤ 2047) :
    t.Writes (t.issueNext c a) ([Reg.CORE_ISSUE_COUNT.COUNT, Reg.CORE_SCHED_STATUS.ADDR].map (coreFld c)) := by
  rw [State.issueNext, State.gotoWord_of_le _ _ ha]
  exact ((State.Writes.refl h).cbump c Reg.CORE_ISSUE_COUNT.COUNT).cput c Reg.CORE_SCHED_STATUS.ADDR a

/-- A word of no operation issues, is counted, and the sequencer is at the next word: what has been written by then. -/
theorem writes_mark_issueNext (h : risingFrom 0 s.fld = true) (c : CoreRef) {a : Nat} (ha : a ≤ 2047) :
    s.Writes ((s.mark c).issueNext c a) (passFs.map (coreFld c)) :=
  (State.Issuing.mark h c).writes.trans (writes_issueNext (State.Issuing.mark h c).ordered c ha)

/-! ### A step -/

/-- The states of a core's die and of the panel by which a pause is pending (R343). -/
theorem State.Writes.pausePending_eq {fs : List Fld} (h : s.Writes t (fs.map (coreFld c))) (hc : c.wf = true)
    (hd : ∀ f ∈ [Reg.DIE_SIDEBAND.MEMBER, Reg.DIE_SIDEBAND.SQUAD], ∀ g ∈ fs, f.pos < g.pos ∨ g.pos + 47 * 2 ^ 22 < f.pos)
    (hfs : ∀ g ∈ fs, g.pos + 47 * 2 ^ 22 < 2 ^ 32) : t.pausePending c.site = s.pausePending c.site := by
  have hm := h.flag_eq (site := c.site) (f := Reg.DIE_SIDEBAND.MEMBER) (apart_die_core hc (hd _ (by simp)))
  have hq := h.get_eq (e := (c.site, Reg.DIE_SIDEBAND.SQUAD)) (apart_die_core hc (hd _ (by simp)))
  have hp : ∀ n < 16, t.flag panelSite (Reg.SQD_STATUS.PAUSE_PENDING n) = s.flag panelSite (Reg.SQD_STATUS.PAUSE_PENDING n) := fun n hn =>
    h.flag_eq (apart_panel_core hc ((by decide : ∀ n < 16, (Reg.SQD_STATUS.PAUSE_PENDING n).pos < 2 ^ 32) n hn) hfs)
  simp only at hq
  rw [State.pausePending, hm, hq, hp _ (s.get_lt c.site Reg.DIE_SIDEBAND.SQUAD)]
  rfl

/-- The core as a step offers it the word: it runs, and is stepping. -/
def State.stepped (s : State) (c : CoreRef) : State := (s.cset c Core.STEPPING true).cput c Reg.CORE_SCHED_STATUS.STATE 1

theorem writes_stepped (h : risingFrom 0 s.fld = true) (c : CoreRef) :
    s.Writes (s.stepped c) ([Core.STEPPING, Reg.CORE_SCHED_STATUS.STATE].map (coreFld c)) :=
  ((State.Writes.refl h).cset c Core.STEPPING true).cput c Reg.CORE_SCHED_STATUS.STATE 1

theorem stepping_stepped (h : risingFrom 0 s.fld = true) (c : CoreRef) : (s.stepped c).cflag c Core.STEPPING = true := by
  have h1 : (s.stepped c).cget c Core.STEPPING = (s.cset c Core.STEPPING true).cget c Core.STEPPING :=
    State.cget_cput_other (State.cput_rising h c _ _) c (by decide) 1
  have h2 : (s.cset c Core.STEPPING true).cget c Core.STEPPING = 1 := State.cget_cput_of_lt h c Core.STEPPING (by decide)
  have h3 := h1.trans h2
  simp_all [State.flag]

/-- The step of a word whose bits are all zero, from BREAK in debug mode. -/
theorem stepWord_eq (hd : s.flag panelSite Reg.SEC_STATUS.DEBUG = true) (h7 : s.cget c Reg.CORE_SCHED_STATUS.STATE = 7)
    (hk : s.rdNat (coreKey c Mem.SCHED (s.wordAddr c * 32)) 32 = 0) (hu : s.noUpsets (coreKey c Mem.SCHED (s.wordAddr c * 32)) 32) :
    s.stepWord c = (s.stepped c).runWord c Slots.none := by
  unfold State.wordAddr at hk hu
  simp only [State.stepWord, hd, h7, hk, State.pathRead_of_noUpsets hu c, slotsOf_zero, true_and, true_or, if_true]
  rfl

theorem cget_stepped_eq (hs : s.canonical = true) {f : Fld} (h1 : f.pos ≠ Reg.CORE_SCHED_STATUS.STATE.pos) (h2 : f.pos ≠ Core.STEPPING.pos) :
    (s.stepped c).cget c f = (s.cput c Reg.CORE_SCHED_STATUS.STATE 1).cget c f := by
  have h := State.canonical_fld hs
  exact ((writes_stepped h c).cget_eq (by simp [h1, h2])).trans (State.cget_cput_other h c h1 1).symm

section
variable (hs : s.canonical = true) (hr : (s.cput c Reg.CORE_SCHED_STATUS.STATE 1).coreReady c)
include hs hr

theorem offered_stepped : (s.stepped c).Offered c := by
  have h := State.canonical_fld hs
  have hget {f : Fld} (h1 : f.pos ≠ Reg.CORE_SCHED_STATUS.STATE.pos) (h2 : f.pos ≠ Core.STEPPING.pos) := cget_stepped_eq (c := c) hs h1 h2
  have hq := hr.1.quiet
  have hpause : (s.stepped c).pausePending c.site = (s.cput c Reg.CORE_SCHED_STATUS.STATE 1).pausePending c.site :=
    ((writes_stepped h c).pausePending_eq hr.1.wf (by decide) (by decide)).trans
      (State.Writes.pausePending_eq (fs := [Reg.CORE_SCHED_STATUS.STATE]) ((State.Writes.refl h).cput c _ 1) hr.1.wf (by decide) (by decide)).symm
  exact {
    state := .inl (State.cget_cput_of_lt (State.cput_rising h c _ _) c Reg.CORE_SCHED_STATUS.STATE (by decide))
    stopping := (hget (by decide) (by decide)).trans hr.1.stopping
    past := (State.cflag_false_iff _ c Core.PAST rfl).2
      ((hget (by decide) (by decide)).trans ((State.cflag_false_iff _ c Core.PAST rfl).1 hr.1.past))
    breakOff := (State.cflag_false_iff _ c Reg.CORE_SCHED_CTL.BREAK_EN rfl).2
      ((hget (by decide) (by decide)).trans ((State.cflag_false_iff _ c Reg.CORE_SCHED_CTL.BREAK_EN rfl).1 hr.1.breakOff))
    quiet := ⟨(hget (by decide) (by decide)).trans hq.busy0, (hget (by decide) (by decide)).trans hq.busy1,
      (hget (by decide) (by decide)).trans hq.mx, (hget (by decide) (by decide)).trans hq.vx, hq.beats, hq.flights⟩
    noPause := hpause.trans hr.1.no_pause }

theorem noLoopEnds_stepped : (s.stepped c).openLoops c ≤ 4 ∧ (s.stepped c).noLoopEnds c ((s.stepped c).wordAddr c) := by
  have hloops : (s.stepped c).openLoops c = (s.cput c Reg.CORE_SCHED_STATUS.STATE 1).openLoops c := cget_stepped_eq hs (by decide) (by decide)
  have haddr : (s.stepped c).wordAddr c = (s.cput c Reg.CORE_SCHED_STATUS.STATE 1).wordAddr c := cget_stepped_eq hs (by decide) (by decide)
  have hle := hr.1.loops_le
  refine ⟨hloops ▸ hle, ?_⟩
  rw [State.noLoopEnds, hloops, haddr]
  refine hr.2.imp_right fun hne => ?_
  have hlt : (s.cput c Reg.CORE_SCHED_STATUS.STATE 1).openLoops c - 1 < 4 := by omega
  rwa [cget_stepped_eq hs ((by decide : ∀ l < 4, (Reg.CORE_LOOP_STATE.END l).pos ≠ Reg.CORE_SCHED_STATUS.STATE.pos) _ hlt)
    ((by decide : ∀ l < 4, (Reg.CORE_LOOP_STATE.END l).pos ≠ Core.STEPPING.pos) _ hlt)]

/-- A step of a word of no operation issues it and returns to BREAK (R68). -/
theorem runWord_stepped :
    let u := (s.stepped c).runWord c Slots.none
    u.cget c Reg.CORE_SCHED_STATUS.STATE = 7 ∧ u.wordAddr c = s.wordAddr c + 1
      ∧ u.cget c Reg.CORE_ISSUE_COUNT.COUNT = min (s.cget c Reg.CORE_ISSUE_COUNT.COUNT + 1) (2 ^ 48 - 1)
      ∧ s.onlyFields u (coreFld c Core.STEPPING :: issueFlds c) := by
  have h := State.canonical_fld hs
  have hw0 := writes_stepped h c
  have ho := offered_stepped hs hr
  obtain ⟨hl, hn⟩ := noLoopEnds_stepped hs hr
  have haddr : (s.stepped c).wordAddr c = s.wordAddr c := hw0.cget_eq (apart_coreFlds (by decide))
  have hcount : (s.stepped c).cget c Reg.CORE_ISSUE_COUNT.COUNT = s.cget c Reg.CORE_ISSUE_COUNT.COUNT := hw0.cget_eq (apart_coreFlds (by decide))
  have hlt : (s.cput c Reg.CORE_SCHED_STATUS.STATE 1).wordAddr c = s.wordAddr c :=
    State.cget_cput_other h c (f := Reg.CORE_SCHED_STATUS.STATE) (g := Reg.CORE_SCHED_STATUS.ADDR) (by decide) 1
  have hle : (s.stepped c).wordAddr c + 1 ≤ 2047 := haddr ▸ hlt ▸ hr.1.addr_lt
  -- the word issues
  obtain ⟨⟨hst, -, ha, hc, -⟩, -⟩ := (State.Issuing.mark hw0.ordered c).issueNext (seqApart_nil c) hle
  have hv := writes_mark_issueNext hw0.ordered c hle
  have hissue := ho.issueWord_none hw0.ordered hl hn
  generalize ((s.stepped c).mark c).issueNext c ((s.stepped c).wordAddr c + 1) = v at hst ha hc hv hissue
  -- the step ends
  have hpast : v.cflag c Core.PAST = false := (hv.cflag_eq (apart_coreFlds (by decide))).trans ho.past
  have hstep : v.cflag c Core.STEPPING = true := (hv.cflag_eq (apart_coreFlds (by decide))).trans (stepping_stepped h c)
  rw [State.afterIssue_step hst hpast hstep] at hissue
  have hu := State.writes_cputs hv.ordered c [(Core.STEPPING, 0), (Reg.CORE_SCHED_STATUS.STATE, 7)]
  have hstop : (v.cputs c [(Core.STEPPING, 0), (Reg.CORE_SCHED_STATUS.STATE, 7)]).cget c Core.STOPPING = 0 :=
    (hu.cget_eq (apart_coreFlds (fs := [_, _]) (by decide))).trans ((hv.cget_eq (apart_coreFlds (by decide))).trans ho.stopping)
  have hrun := State.runWord_of_issueWord hissue (ne_of_eq_of_ne hstop (by decide))
  simp only [hrun]
  refine ⟨State.cget_cputs_mem hv.ordered c (by decide) (by simp) (by decide), ?_, ?_, ?_⟩
  · exact (hu.cget_eq (apart_coreFlds (fs := [_, _]) (by decide))).trans (ha.trans (by rw [haddr]))
  · exact (hu.cget_eq (apart_coreFlds (fs := [_, _]) (by decide))).trans (hc.trans (by rw [hcount]))
  · refine ((hw0.trans (hv.trans hu)).mono ?_).only
    simp [passFs, issueFlds]

end
/-! ### Pauses and endings -/

/-- What is under way is none of the core's: nothing is written at its end. -/
theorem flushBeats_eq (hb : ∀ b ∈ s.beats, b.owner ≠ c) : s.flushBeats c = s := by
  have h0 : (s.beats.filter fun b => b.owner == c) = [] := List.filter_eq_nil_iff.2 fun b h => by simp [hb b h]
  have h1 : (s.beats.filter fun b => b.owner != c) = s.beats := List.filter_eq_self.2 fun b h => by simp [hb b h]
  rw [State.flushBeats, h0, h1]
  rfl

theorem endFlights_eq (hf : ∀ u ∈ s.flights, u.owner ≠ c) : s.endFlights c = s := by
  have h0 : (s.flights.filter fun u => u.owner == c) = [] := List.filter_eq_nil_iff.2 fun u h => by simp [hf u h]
  have h1 : (s.flights.filter fun u => u.owner != c) = s.flights := List.filter_eq_self.2 fun u h => by simp [hf u h]
  rw [State.endFlights, h0, h1]
  rfl

/-- The engines' fields of an idle core. -/
def idleWrites : List (Fld × Nat) :=
  [(Reg.CORE_MX_STATUS.OCC_LEFT, 0), (Reg.CORE_MX_STATUS.BUSY, 0), (Reg.CORE_VX_STATUS.OCC_LEFT, 0), (Reg.CORE_VX_STATUS.BUSY, 0)]

/-- A core that has drained: only its engines' fields change. -/
theorem drained_eq (hb : ∀ b ∈ s.beats, b.owner ≠ c) (hf : ∀ u ∈ s.flights, u.owner ≠ c) : (s.flushBeats c).idleEngines c = s.cputs c idleWrites := by
  rw [flushBeats_eq hb, State.idleEngines, endFlights_eq hf]
  rfl

/-- The end of a core that has drained: its engines idle, its STATE, and no stop. -/
def drainWrites (st : Nat) : List (Fld × Nat) := idleWrites ++ [(Reg.CORE_SCHED_STATUS.STATE, st), (Core.STOPPING, 0)]

section
variable (hs : s.canonical = true) (hst : s.cget c Reg.CORE_SCHED_STATUS.STATE = 1)
  (hb : ∀ b ∈ s.beats, b.owner ≠ c) (hf : ∀ u ∈ s.flights, u.owner ≠ c)
include hs

theorem drained_state {st : Nat} (h8 : st < 8) :
    (s.cputs c (drainWrites st)).cget c Reg.CORE_SCHED_STATUS.STATE = st
      ∧ s.Writes (s.cputs c (drainWrites st)) ([Reg.CORE_MX_STATUS.OCC_LEFT, Reg.CORE_MX_STATUS.BUSY, Reg.CORE_VX_STATUS.OCC_LEFT,
          Reg.CORE_VX_STATUS.BUSY, Reg.CORE_SCHED_STATUS.STATE, Core.STOPPING].map (coreFld c)) := by
  refine ⟨State.cget_cputs_mem (State.canonical_fld hs) c ?_ (by simp [drainWrites]) h8, State.writes_cputs (State.canonical_fld hs) c _⟩
  simp [drainWrites, idleWrites]
  decide

include hst hb hf

theorem exec_corePaused (h1 : s.cget c Core.STOPPING = 1) : exec (.corePaused c) s = .next (s.cputs c (drainWrites 3)) := by
  have hi : (s.cputs c idleWrites).cget c Reg.CORE_SCHED_STATUS.STATE = 1 :=
    (State.cget_cputs_other (State.canonical_fld hs) c (by decide)).trans hst
  show execCorePaused c s = _
  simp only [execCorePaused, h1, hst, drained_eq hb hf, hi, and_self, if_true]
  rfl

theorem exec_coreEnded (hc : c.wf = true) (h0 : s.cget c (Core.CH_BUSY 0) = 0) (h1 : s.cget c (Core.CH_BUSY 1) = 0)
    (h2 : s.cget c Core.STOPPING = 2) (hp : s.pausePending c.site = false) : exec (.coreEnded c) s = .next (s.cputs c (drainWrites 4)) := by
  have hi : (s.cputs c idleWrites).cget c Reg.CORE_SCHED_STATUS.STATE = 1 :=
    (State.cget_cputs_other (State.canonical_fld hs) c (by decide)).trans hst
  have hb0 : s.cflag c (Core.CH_BUSY 0) = false := (State.cflag_false_iff s c (Core.CH_BUSY 0) rfl).2 h0
  have hb1 : s.cflag c (Core.CH_BUSY 1) = false := (State.cflag_false_iff s c (Core.CH_BUSY 1) rfl).2 h1
  have hp' : (((s.cputs c idleWrites).cput c Reg.CORE_SCHED_STATUS.STATE 4).cput c Core.STOPPING 0).pausePending c.site = false :=
    ((drained_state hs (c := c) (st := 4) (by decide)).2.pausePending_eq hc (by decide) (by decide)).trans hp
  show execCoreEnded c s = _
  simp only [execCoreEnded, h2, hst, hb0, hb1, Bool.false_eq_true, if_false, drained_eq hb hf, hi, hp', and_self, if_true]
  rfl

end

theorem exec_stepWord (c : CoreRef) (s : State) : exec (.stepWord c) s = .next (s.stepWord c) := rfl

theorem exec_continueCore (hd : s.flag panelSite Reg.SEC_STATUS.DEBUG = true) (h7 : s.cget c Reg.CORE_SCHED_STATUS.STATE = 7) :
    exec (.continueCore c) s = .next (s.cputs c [(Reg.CORE_SCHED_STATUS.STATE, 1), (Core.BRK_PASS, 1)]) := by
  show execContinueCore c s = _
  simp only [execContinueCore, State.continueCore, hd, h7, and_self, if_true]
  rfl

/-- Settles O23: a step is the issue of a word of no operation by a core marked as stepping (`runWord_stepped`); the other events are writes of the
core's fields, for nothing of the core is under way (`drained_eq`). -/
theorem breaksPausesAndEndings : Obligations.BreaksPausesAndEndings := by
  refine ⟨fun s c hs hc hd h7 => ⟨fun hr hk hu => ⟨_, exec_stepWord c s, ?_⟩, ⟨_, exec_continueCore hd h7, ?_, ?_, ?_⟩⟩,
    fun s c hs hc hst h0 h1 hb hf => ⟨fun hstop => ⟨_, exec_corePaused hs hst hb hf hstop, ?_⟩,
      fun hstop hp => ⟨_, exec_coreEnded hs hst hb hf hc h0 h1 hstop hp, ?_⟩⟩⟩
  · exact stepWord_eq hd h7 hk hu ▸ runWord_stepped hs hr
  · exact State.cget_cputs_mem (State.canonical_fld hs) c (by decide) (by simp) (by decide)
  · exact State.cget_cputs_mem (State.canonical_fld hs) c (by decide) (by simp) (by decide)
  · exact (State.writes_cputs (State.canonical_fld hs) c _).only
  · obtain ⟨hu, hw⟩ := drained_state hs (c := c) (st := 3) (by decide)
    exact ⟨hu, (hw.mono (by simp)).only⟩
  · obtain ⟨hu, hw⟩ := drained_state hs (c := c) (st := 4) (by decide)
    exact ⟨hu, (hw.mono (by simp)).only⟩

end Sys2Proof.Machine
end

section
/-! PROOFS. Dies that latch a whistle (R65, R335, R336). -/

namespace Sys2Proof.Machine

variable {s t : State} {c : CoreRef}

/-! ### Runs of writes over a list -/

/-- A fold whose step for `x` writes only the fields `es x`. -/
theorem State.Writes.foldl {α : Type} {f : State → α → State} {es : α → List (Nat × Fld)} {l : List α}
    (hf : ∀ (t : State) x, x ∈ l → risingFrom 0 t.fld = true → t.Writes (f t x) (es x)) (h : risingFrom 0 s.fld = true) :
    s.Writes (l.foldl f s) (l.flatMap es) := by
  induction l generalizing s with
  | nil => exact .refl h
  | cons x l ih =>
    have h1 := hf s x (by simp) h
    exact h1.trans (ih (fun t y hy => hf t y (by simp [hy])) h1.ordered)

theorem apart_flatMap {α : Type} {e : Nat × Fld} {es : α → List (Nat × Fld)} {l : List α} (h : ∀ x ∈ l, Apart e (es x)) : Apart e (l.flatMap es) := by
  intro a ha
  obtain ⟨x, hx, hax⟩ := List.mem_flatMap.1 ha
  exact h x hx a hax

/-- In a fold over a list without repetition each element has its step once; before and after it only fields of the others are written. -/
theorem State.Writes.foldl_at {α : Type} {f : State → α → State} {es : α → List (Nat × Fld)} {l : List α} (hl : l.Nodup)
    (hf : ∀ (t : State) x, x ∈ l → risingFrom 0 t.fld = true → t.Writes (f t x) (es x)) (h : risingFrom 0 s.fld = true) {x : α} (hx : x ∈ l) :
    ∃ t as bs, s.Writes t as ∧ (f t x).Writes (l.foldl f s) bs ∧ ∀ e, (∀ y ∈ l, y ≠ x → Apart e (es y)) → Apart e as ∧ Apart e bs := by
  obtain ⟨l1, l2, rfl⟩ := List.mem_iff_append.1 hx
  have hnot : x ∉ l1 ++ l2 := (List.nodup_cons.1 (List.nodup_middle.1 hl)).1
  have h1 : s.Writes (l1.foldl f s) (l1.flatMap es) := .foldl (fun t y hy => hf t y (by simp [hy])) h
  have h2 : (f (l1.foldl f s) x).Writes (l2.foldl f (f (l1.foldl f s) x)) (l2.flatMap es) :=
    .foldl (fun t y hy => hf t y (by simp [hy])) (hf _ x hx h1.ordered).ordered
  refine ⟨_, _, _, h1, by simpa using h2, fun e he => ⟨apart_flatMap fun y hy => ?_, apart_flatMap fun y hy => ?_⟩⟩
  · exact he y (by simp [hy]) fun hyx => hnot (by simp [← hyx, hy])
  · exact he y (by simp [hy]) fun hyx => hnot (by simp [← hyx, hy])

/-! ### A core that is halted -/

/-- The core's fields that halting its threads writes. -/
def threadFs : List Fld := [Core.FT_STOP, Reg.CORE_FT_UNIT.RUNNING] ++ (List.range 48).map Reg.CORE_FT_THREAD.STATE

/-- The core's fields that halting it writes. -/
def haltFs : List Fld := [Reg.CORE_SCHED_STATUS.STATE, Reg.CORE_SCHED_STATUS.SLIP_CAUSE] ++ threadFs

theorem writes_setThread (h : risingFrom 0 s.fld = true) (t : ThreadRef) (st : Nat) :
    s.Writes (s.setThread t st) ([Reg.CORE_FT_THREAD.STATE t.thread, Reg.CORE_FT_UNIT.RUNNING].map (coreFld (coreOfThread t))) :=
  ((State.Writes.refl h).cput (coreOfThread t) (Reg.CORE_FT_THREAD.STATE t.thread) st).cput (coreOfThread t) Reg.CORE_FT_UNIT.RUNNING _

theorem writes_haltThreads (h : risingFrom 0 s.fld = true) (c : CoreRef) : s.Writes (s.haltThreads c) (threadFs.map (coreFld c)) := by
  unfold State.haltThreads
  split
  · exact (State.Writes.refl h).mono (by simp)
  · refine (((State.Writes.refl h).cput c Core.FT_STOP 2).trans (.foldl (es := fun _ => threadFs.map (coreFld c)) ?_ (State.cput_rising h c _ _))).mono ?_
    · intro t th hth ht
      obtain ⟨i, hi, rfl⟩ := List.mem_map.1 hth
      split
      · exact (writes_setThread ht ⟨c.site, c.core, i⟩ Thread.HALTED).mono (List.map_subset _
          (List.cons_subset.2 ⟨List.mem_append_right _ (List.mem_map_of_mem hi), by simp [threadFs]⟩))
      · exact (State.Writes.refl ht).mono (by simp)
    · intro a ha
      simp only [List.nil_append, List.mem_append, List.mem_flatMap] at ha
      obtain ha | ⟨-, -, ha⟩ := ha
      · exact List.mem_map.2 ⟨Core.FT_STOP, by simp [threadFs], (List.mem_singleton.1 ha).symm⟩
      · exact ha

/-- A core that ran, slipped or stood at a breakpoint is HALTED; any other keeps its STATE (R65). -/
theorem haltCore_writes (h : risingFrom 0 s.fld = true) (c : CoreRef) :
    let st := s.cget c Reg.CORE_SCHED_STATUS.STATE
    s.Writes (s.haltCore c) (haltFs.map (coreFld c))
      ∧ (s.haltCore c).cget c Reg.CORE_SCHED_STATUS.STATE = if st = 1 ∨ st = 2 ∨ st = 7 then 5 else st := by
  intro st
  have hthreads {t : State} (ht : risingFrom 0 t.fld = true) : (t.haltThreads c).cget c Reg.CORE_SCHED_STATUS.STATE = t.cget c Reg.CORE_SCHED_STATUS.STATE :=
    (writes_haltThreads ht c).cget_eq (apart_coreFlds (by decide))
  unfold State.haltCore State.freezeCore
  dsimp only
  split
  case isTrue hst =>
    have hw := ((State.Writes.refl h).cput c Reg.CORE_SCHED_STATUS.STATE 5).cput c Reg.CORE_SCHED_STATUS.SLIP_CAUSE 0
    refine ⟨(hw.trans (writes_haltThreads hw.ordered c)).mono (by simp [haltFs]), ?_⟩
    rw [hthreads hw.ordered, State.cget_cput_other (State.cput_rising h c _ _) c (by decide)]
    exact State.cget_cput_of_lt h c _ (by decide)
  case isFalse hst =>
    exact ⟨(writes_haltThreads h c).mono (by simp [haltFs]), hthreads h⟩

/-! ### Where the fields that a latching die writes stand -/

/-- The fields of its cores that halting a die writes. -/
def haltFlds (k : Nat) : List (Nat × Fld) := (coresOf k).flatMap fun c => haltFs.map (coreFld c)

/-- The marks of the panel for squads whose dies have latched. -/
def latchedFs : List Fld := (List.range 16).map Reg.SQD_STATUS.LATCHED

/-- The fields that a die writes when it latches a line. -/
def latchFlds (k : Nat) : List (Nat × Fld) :=
  [Reg.DIE_SIDEBAND.LATCH, Reg.DIE_SHOT.RUN].map (Prod.mk k) ++ haltFlds k ++ latchedFs.map panelFld

theorem haltFlds_site {k : Nat} : ∀ a ∈ haltFlds k, ∃ g ∈ haltFs, ∃ i < 48, a = (k, g.nth i) := by
  intro a ha
  obtain ⟨c, hc, hca⟩ := List.mem_flatMap.1 ha
  obtain ⟨i, hi, rfl⟩ := List.mem_map.1 hc
  obtain ⟨g, hg, rfl⟩ := List.mem_map.1 hca
  exact ⟨g, hg, i, List.mem_range.1 hi, rfl⟩

theorem haltFs_pos : ∀ g ∈ haltFs, g.pos + 47 * 2 ^ 22 < 2 ^ 32 := by decide

/-- A field of the die that lies below or above those that halting its cores writes. -/
theorem apart_haltFlds {k : Nat} {f : Fld} (hf : ∀ g ∈ haltFs, f.pos < g.pos ∨ g.pos + 47 * 2 ^ 22 < f.pos) : Apart (k, f) (haltFlds k) := by
  intro a ha
  obtain ⟨g, hg, i, hi, rfl⟩ := haltFlds_site a ha
  have := hf g hg
  simp only [fldKey_eq_pos, Fld.pos_nth]
  omega

/-- The fields of another site. -/
theorem apart_haltFlds_site {k k' : Nat} {f : Fld} (hk : k ≠ k') (hf : f.pos < 2 ^ 32) : Apart (k, f) (haltFlds k') := by
  intro a ha
  obtain ⟨g, hg, i, hi, rfl⟩ := haltFlds_site a ha
  have := haltFs_pos g hg
  simp only [fldKey_eq_pos, Fld.pos_nth]
  omega

/-- A field of a die is none of those that another die writes when it latches a line. -/
theorem apart_latchFlds_die {k k' : Nat} {f : Fld} (hk : k ≠ k') (h256 : k < 256) (hf : f.pos < 2 ^ 32) : Apart (k, f) (latchFlds k') := by
  refine (apart_append ..).2 ⟨(apart_append ..).2 ⟨apart_sites hk hf (by decide), apart_haltFlds_site hk hf⟩, ?_⟩
  exact apart_sites (k' := panelSite) (Nat.ne_of_lt h256) hf (by decide)

/-- A field of the panel beside the marks of latched squads. -/
theorem apart_latchFlds_panel {k : Nat} {f : Fld} (hk : k < 256) (hf : f.pos < 2 ^ 32) (hl : ∀ g ∈ latchedFs, f.pos ≠ g.pos) :
    Apart (panelSite, f) (latchFlds k) := by
  have hne : panelSite ≠ k := (Nat.ne_of_lt hk).symm
  exact (apart_append ..).2 ⟨(apart_append ..).2 ⟨apart_sites hne hf (by decide), apart_haltFlds_site hne hf⟩, apart_die hl⟩

/-- The STATE of one core is none of the fields that halting another core of the die writes. -/
theorem apart_state_core {k i j : Nat} (hij : i ≠ j) :
    Apart (coreFld ⟨k, i⟩ Reg.CORE_SCHED_STATUS.STATE) (haltFs.map (coreFld ⟨k, j⟩)) := by
  intro a ha
  obtain ⟨g, hg, rfl⟩ := List.mem_map.1 ha
  have := (by decide : ∀ g ∈ haltFs, g.pos % 2 ^ 22 ≠ Reg.CORE_SCHED_STATUS.STATE.pos % 2 ^ 22 ∨ g.pos = Reg.CORE_SCHED_STATUS.STATE.pos) g hg
  simp only [coreFld, fldKey_eq_pos, Fld.pos_nth]
  omega

/-! ### A die that latches a line -/

theorem nodup_coresOf (k : Nat) : (coresOf k).Nodup := List.nodup_range.map fun a b h => by simpa using h

/-- Every core of the die is halted (R65). -/
theorem haltCores_writes (h : risingFrom 0 s.fld = true) (k : Nat) :
    s.Writes ((coresOf k).foldl State.haltCore s) (haltFlds k)
      ∧ ∀ i < 48, let st := s.cget ⟨k, i⟩ Reg.CORE_SCHED_STATUS.STATE
        ((coresOf k).foldl State.haltCore s).cget ⟨k, i⟩ Reg.CORE_SCHED_STATUS.STATE = if st = 1 ∨ st = 2 ∨ st = 7 then 5 else st := by
  refine ⟨.foldl (fun t c _ ht => (haltCore_writes ht c).1) h, fun i hi => ?_⟩
  obtain ⟨t, as, bs, h1, h2, hap⟩ := State.Writes.foldl_at (nodup_coresOf k) (fun t c _ ht => (haltCore_writes ht c).1) h
    (x := ⟨k, i⟩) (List.mem_map.2 ⟨i, List.mem_range.2 hi, rfl⟩)
  obtain ⟨ha, hb⟩ := hap (coreFld ⟨k, i⟩ Reg.CORE_SCHED_STATUS.STATE) fun y hy hne => by
    obtain ⟨j, -, rfl⟩ := List.mem_map.1 hy
    exact apart_state_core fun hij => hne (by rw [hij])
  intro st
  have hst : t.cget ⟨k, i⟩ Reg.CORE_SCHED_STATUS.STATE = st := h1.cget_eq ha
  rw [h2.cget_eq hb, (haltCore_writes h1.ordered ⟨k, i⟩).2, hst]

theorem squadOf_eq {k n : Nat} (h : s.squadOf k = some n) : n = s.get k Reg.DIE_SIDEBAND.SQUAD ∧ n < 16 := by
  unfold State.squadOf at h
  split at h
  · obtain rfl := Option.some.inj h
    exact ⟨rfl, s.get_lt k Reg.DIE_SIDEBAND.SQUAD⟩
  · cases h

/-- Writes of a die that leave MEMBER and SQUAD leave its squad. -/
theorem State.Writes.squadOf_eq {es : List (Nat × Fld)} (h : s.Writes t es) {k : Nat} (h1 : Apart (k, Reg.DIE_SIDEBAND.MEMBER) es)
    (h2 : Apart (k, Reg.DIE_SIDEBAND.SQUAD) es) : t.squadOf k = s.squadOf k := by
  have hq := h.get_eq h2
  simp only at hq
  rw [State.squadOf, h.flag_eq h1, hq]
  rfl

/-- A die latches a line, and halts its cores unless its squad is PAUSED (R336). -/
theorem latchDie_writes (h : risingFrom 0 s.fld = true) {line k : Nat} (hline : line < 17) (hk : k < 256) :
    s.Writes (s.latchDie line k) (latchFlds k) ∧ ((s.latchDie line k).get k Reg.DIE_SIDEBAND.LATCH).testBit line = true
      ∧ ((∀ n, s.squadOf k = some n → s.squadState n ≠ Squad.PAUSED) → ∀ i < 48,
        let st := s.cget ⟨k, i⟩ Reg.CORE_SCHED_STATUS.STATE
        (s.latchDie line k).cget ⟨k, i⟩ Reg.CORE_SCHED_STATUS.STATE = if st = 1 ∨ st = 2 ∨ st = 7 then 5 else st) := by
  have w0 : s.Writes (s.setBit k Reg.DIE_SIDEBAND.LATCH line) [(k, Reg.DIE_SIDEBAND.LATCH)] := (State.Writes.refl h).put (k, _) _
  have w1 : s.Writes ((s.setBit k Reg.DIE_SIDEBAND.LATCH line).put k Reg.DIE_SHOT.RUN 0) ([Reg.DIE_SIDEBAND.LATCH, Reg.DIE_SHOT.RUN].map (Prod.mk k)) :=
    w0.put (k, Reg.DIE_SHOT.RUN) 0
  have hbit : (((s.setBit k Reg.DIE_SIDEBAND.LATCH line).put k Reg.DIE_SHOT.RUN 0).get k Reg.DIE_SIDEBAND.LATCH).testBit line = true := by
    have hrun := (State.Writes.refl w0.ordered).put (k, Reg.DIE_SHOT.RUN) 0
    rw [hrun.get_eq (e := (k, Reg.DIE_SIDEBAND.LATCH)) (apart_die (fs := [Reg.DIE_SHOT.RUN]) (by decide))]
    exact State.testBit_setBit h k Reg.DIE_SIDEBAND.LATCH hline
  unfold State.latchDie
  dsimp only
  generalize (s.setBit k Reg.DIE_SIDEBAND.LATCH line).put k Reg.DIE_SHOT.RUN 0 = s1 at w1 hbit
  have hsq : s1.squadOf k = s.squadOf k := w1.squadOf_eq (apart_die (by decide)) (apart_die (by decide))
  have halted : s.Writes ((coresOf k).foldl State.haltCore s1) (latchFlds k)
      ∧ (((coresOf k).foldl State.haltCore s1).get k Reg.DIE_SIDEBAND.LATCH).testBit line = true ∧ ∀ i < 48,
        let st := s.cget ⟨k, i⟩ Reg.CORE_SCHED_STATUS.STATE
        ((coresOf k).foldl State.haltCore s1).cget ⟨k, i⟩ Reg.CORE_SCHED_STATUS.STATE = if st = 1 ∨ st = 2 ∨ st = 7 then 5 else st := by
    obtain ⟨w2, hst⟩ := haltCores_writes w1.ordered k
    refine ⟨(w1.trans w2).mono (List.subset_append_left _ _), ?_, fun i hi => ?_⟩
    · rw [w2.get_eq (e := (k, Reg.DIE_SIDEBAND.LATCH)) (apart_haltFlds (by decide))]
      exact hbit
    · have hc : CoreRef.wf ⟨k, i⟩ = true := (coreRef_wf_iff _).2 ⟨hk, hi⟩
      have hsame : s1.cget ⟨k, i⟩ Reg.CORE_SCHED_STATUS.STATE = s.cget ⟨k, i⟩ Reg.CORE_SCHED_STATUS.STATE :=
        w1.get_eq (apart_core_die hc (by decide))
      have hi := hst i hi
      rw [hsame] at hi
      exact hi
  rw [hsq]
  split
  case h_1 n hn =>
    obtain ⟨-, hn16⟩ := squadOf_eq hn
    have hpanel : s1.squadState n = s.squadState n := w1.get_eq (e := (panelSite, _))
      (apart_sites (Nat.ne_of_lt hk).symm ((by decide : ∀ n < 16, (Reg.SQD_STATUS.STATE n).pos < 2 ^ 32) n hn16) (by decide))
    rw [hpanel]
    split
    case isTrue hp =>
      have w2 : s1.Writes (s1.put panelSite (Reg.SQD_STATUS.LATCHED n) 1) [(panelSite, Reg.SQD_STATUS.LATCHED n)] :=
        (State.Writes.refl w1.ordered).put (panelSite, _) 1
      have hmem : Reg.SQD_STATUS.LATCHED n ∈ latchedFs := List.mem_map_of_mem (List.mem_range.2 hn16)
      refine ⟨(w1.trans w2).mono (List.append_subset.2 ⟨?_, ?_⟩), ?_, fun hnp => absurd hp (hnp n hn)⟩
      · exact List.subset_append_of_subset_left _ (List.subset_append_left _ _)
      · exact List.cons_subset.2 ⟨List.mem_append_right _ (List.mem_map_of_mem hmem), List.nil_subset _⟩
      · rw [w2.get_eq (e := (k, Reg.DIE_SIDEBAND.LATCH)) (apart_sites (fs := [_]) (Nat.ne_of_lt hk) (by decide) fun g hg =>
          (by decide : ∀ g ∈ latchedFs, g.pos < 2 ^ 32) g (List.mem_singleton.1 hg ▸ hmem))]
        exact hbit
    case isFalse => exact ⟨halted.1, halted.2.1, fun _ => halted.2.2⟩
  case h_2 => exact ⟨halted.1, halted.2.1, fun _ => halted.2.2⟩

/-! ### A line that is latched (O24) -/

theorem mem_obeying {line k : Nat} : k ∈ (computeSites.filter fun k => (s.obey k).testBit line) ↔
    k < 256 ∧ isCompute k = true ∧ (s.obey k).testBit line = true := by
  simp [computeSites, and_comm]

theorem nodup_obeying (s : State) (line : Nat) : (computeSites.filter fun k => (s.obey k).testBit line).Nodup :=
  (List.nodup_range.filter _).filter _

theorem testBit_sub_two_pow {v i : Nat} (h : v.testBit i = true) : (v - 2 ^ i).testBit i = false := by
  rw [Nat.testBit_eq_decide_div_mod_eq] at h ⊢
  have hd : (v - 2 ^ i) / 2 ^ i = v / 2 ^ i - 1 := by simpa using Nat.sub_mul_div v (2 ^ i) 1
  simp only [decide_eq_true_eq, decide_eq_false_iff_not, hd] at h ⊢
  omega

/-- The line falls. -/
theorem clrBit_writes (h : risingFrom 0 s.fld = true) (site : Nat) (f : Fld) (i : Nat) :
    s.Writes (s.clrBit site f i) [(site, f)] ∧ ((s.clrBit site f i).get site f).testBit i = false := by
  unfold State.clrBit
  split
  case isTrue hb =>
    refine ⟨(State.Writes.refl h).put (site, f) _, ?_⟩
    have hlt : s.get site f - 2 ^ i < 2 ^ f.width := (Nat.sub_le _ _).trans_lt (s.get_lt site f)
    rw [s.get_put_same site f _ h, Nat.mod_eq_of_lt hlt]
    exact testBit_sub_two_pow hb
  case isFalse hb => exact ⟨(State.Writes.refl h).mono (by simp), by simpa using hb⟩

/-- What the dies that obey a line write when they latch it (R335). -/
theorem latchDies_writes (h : risingFrom 0 s.fld = true) {line : Nat} (hline : line < 17) :
    s.Writes ((computeSites.filter fun k => (s.obey k).testBit line).foldl (fun s k => s.latchDie line k) s)
      ((computeSites.filter fun k => (s.obey k).testBit line).flatMap latchFlds) :=
  .foldl (fun _ _ hk ht => (latchDie_writes ht hline (mem_obeying.1 hk).1).1) h

/-- Nothing waits for squads: what goes on changes nothing. -/
theorem progress_eq (h : s.settled) : s.progress = s := by
  obtain ⟨hd, hs, hf, hr, ht⟩ := h
  have hfence : s.settleFences = s := by simp [State.settleFences, hf]
  have hreset : s.advanceReset = s := by simp [State.advanceReset, hr]
  have htamper : s.advanceTamper = s := by simp [State.advanceTamper, ht]
  simp only [State.progress, hd, List.foldl_nil, hfence, hs, hreset, htamper]

/-- Writes of other fields leave the panel settled. -/
theorem State.Writes.settled {es : List (Nat × Fld)} (h : s.Writes t es) (hs : s.settled)
    (h1 : Apart (panelSite, Reg.CTL_RESET_STATUS.BUSY) es) (h2 : Apart (panelSite, Sec.TAMPER_STEP) es) : t.settled := by
  obtain ⟨hd, hb, hf, hr, ht⟩ := hs
  have he := h.eq_with_fld
  refine ⟨?_, ?_, ?_, (h.flag_eq h1).trans hr, (h.get_eq h2).trans ht⟩
  · rw [he]; exact hd
  · rw [he]; exact hb
  · rw [he]; exact hf

/-- A die that obeys the line when the dies latch it has latched it, with its cores halted unless its squad is PAUSED. -/
theorem latchDies_at (h : risingFrom 0 s.fld = true) {line k : Nat} (hline : line < 17) (hk : k < 256) (hc : isCompute k = true)
    (ho : (s.obey k).testBit line = true) :
    let u := (computeSites.filter fun k => (s.obey k).testBit line).foldl (fun s k => s.latchDie line k) s
    (u.get k Reg.DIE_SIDEBAND.LATCH).testBit line = true
      ∧ ((∀ n, s.squadOf k = some n → s.squadState n ≠ Squad.PAUSED) → ∀ i < 48,
        let st := s.cget ⟨k, i⟩ Reg.CORE_SCHED_STATUS.STATE
        u.cget ⟨k, i⟩ Reg.CORE_SCHED_STATUS.STATE = if st = 1 ∨ st = 2 ∨ st = 7 then 5 else st) := by
  obtain ⟨t, as, bs, w1, w2, hap⟩ := State.Writes.foldl_at (f := fun s k => s.latchDie line k) (nodup_obeying s line)
    (fun _ _ hk ht => (latchDie_writes ht hline (mem_obeying.1 hk).1).1) h (mem_obeying.2 ⟨hk, hc, ho⟩)
  obtain ⟨-, hlatch, hst⟩ := latchDie_writes w1.ordered hline hk
  have hown {f : Fld} (hf : f.pos < 2 ^ 32) : Apart (k, f) as ∧ Apart (k, f) bs :=
    hap (k, f) fun y _ hne => apart_latchFlds_die hne.symm hk hf
  have hpanel {f : Fld} (hf : f.pos < 2 ^ 32) (hl : ∀ g ∈ latchedFs, f.pos ≠ g.pos) : Apart (panelSite, f) as :=
    (hap (panelSite, f) fun y hy _ => apart_latchFlds_panel (mem_obeying.1 hy).1 hf hl).1
  have hsq : t.squadOf k = s.squadOf k := w1.squadOf_eq (hown (by decide)).1 (hown (by decide)).1
  have hstate : ∀ n < 16, t.squadState n = s.squadState n := fun n hn =>
    w1.get_eq (hpanel ((by decide : ∀ n < 16, (Reg.SQD_STATUS.STATE n).pos < 2 ^ 32) n hn)
      ((by decide : ∀ n < 16, ∀ g ∈ latchedFs, (Reg.SQD_STATUS.STATE n).pos ≠ g.pos) n hn))
  intro u
  refine ⟨by rw [w2.get_eq (hown (f := Reg.DIE_SIDEBAND.LATCH) (by decide)).2]; exact hlatch, fun hnp i hi => ?_⟩
  have hpos : (Reg.CORE_SCHED_STATUS.STATE.nth i).pos < 2 ^ 32 :=
    (by decide : ∀ i < 48, (Reg.CORE_SCHED_STATUS.STATE.nth i).pos < 2 ^ 32) i hi
  have hi := hst (fun n hn => hstate n (squadOf_eq hn).2 ▸ hnp n (hsq ▸ hn)) i hi
  have hbefore : t.cget ⟨k, i⟩ Reg.CORE_SCHED_STATUS.STATE = s.cget ⟨k, i⟩ Reg.CORE_SCHED_STATUS.STATE := w1.get_eq (hown hpos).1
  rw [hbefore] at hi
  exact (w2.get_eq (hown hpos).2).trans hi

/-- Settles O24: each die that obeys the line has its step once in the fold of the dies (`latchDies_at`); the line then falls, and nothing waits
for squads (`progress_eq`). -/
theorem whistleHaltsTheDies : Obligations.WhistleHaltsTheDies := by
  intro s line hs hset hline hdriven
  have h := State.canonical_fld hs
  have w1 := latchDies_writes h (line := line) (by omega)
  have hat {k : Nat} := latchDies_at h (line := line) (k := k) (by omega)
  generalize hu : (computeSites.filter fun k => (s.obey k).testBit line).foldl (fun s k => s.latchDie line k) s = u at w1 hat
  obtain ⟨w2, hfalls⟩ := clrBit_writes w1.ordered panelSite Reg.SQD_LINES.WHISTLE line
  have hlatch : s.latchLine line = u.clrBit panelSite Reg.SQD_LINES.WHISTLE line := by
    rw [State.latchLine, hu]
    exact if_neg (by omega)
  have hdies {f : Fld} (hf : f.pos < 2 ^ 32) (hl : ∀ g ∈ latchedFs, f.pos ≠ g.pos) :
      Apart (panelSite, f) ((computeSites.filter fun k => (s.obey k).testBit line).flatMap latchFlds) :=
    apart_flatMap fun k hk => apart_latchFlds_panel (mem_obeying.1 hk).1 hf hl
  have hsettled : (u.clrBit panelSite Reg.SQD_LINES.WHISTLE line).settled :=
    w2.settled (w1.settled hset (hdies (by decide) (by decide)) (hdies (by decide) (by decide)))
      (apart_die (fs := [_]) (by decide)) (apart_die (fs := [_]) (by decide))
  have hexec : exec (.whistleDriven line) s = .next (u.clrBit panelSite Reg.SQD_LINES.WHISTLE line) := by
    have hd : s.lineDriven line = true := by simp [State.lineDriven, hdriven]; omega
    show Host.Outcome.next (if s.lineDriven line then s.latched line else s) = _
    rw [if_pos hd, State.latched, hset.2.1, hlatch]
    exact congrArg _ (progress_eq hsettled)
  refine ⟨_, hexec, hfalls, (w1.trans w2).sameMemory, fun k hc ho => ?_⟩
  have hk : k < 256 := by
    by_contra hk
    simp [isCompute, dieKind, show 256 ≤ k by omega] at hc
  have hkeep {f : Fld} (hf : f.pos < 2 ^ 32) : (u.clrBit panelSite Reg.SQD_LINES.WHISTLE line).get k f = u.get k f :=
    w2.get_eq (e := (k, f)) (apart_sites (fs := [_]) (Nat.ne_of_lt hk) hf (by decide))
  obtain ⟨hl, hst⟩ := hat hk hc ho
  refine ⟨by rw [hkeep (by decide)]; exact hl, fun hnp i hi => ?_⟩
  exact (hkeep ((by decide : ∀ i < 48, (Reg.CORE_SCHED_STATUS.STATE.nth i).pos < 2 ^ 32) i hi)).trans (hst hnp i hi)

end Sys2Proof.Machine
end

section
/-! PROOFS. Moves: the words that start one, the arbitration of its first read, and a cycle that reads a beat (R53–R55, R155–R157). -/

namespace Sys2Proof.Machine

variable {s t : State} {c : CoreRef}

/-! ### The checks of a start -/

section
variable {v n : Nat} (hop : bitsOf v 7 6 = 1) (hn : bitsOf v 12 8 = n) (hm : s.moveLegal c n)
include hop hn hm

theorem mvStatic_start (h : bitsOf v 23 19 = 0) : mvStatic s c v = [] := by
  obtain ⟨hres, hsp, -⟩ := hm
  simp [mvStatic, hop, h, hn, hres]
  omega

/-- A start on a free channel of a core without anything under way breaks nothing that its descriptor allows (R55, R102, R161). -/
theorem mvDynamic_start {ch : Nat} (hch : ch < 2) (hq : s.Quiet c)
    (hr : v.testBit 17 = true → s.ringCounter c (bitsOf v 16 13) = false) : mvDynamic s c ch v = [] := by
  obtain ⟨-, -, hbeats, hrows, hso, hdo, hs0, hs1, hd0, hd1⟩ := hm
  have hring : ¬ (v.testBit 17 = true ∧ s.ringCounter c (bitsOf v 16 13) = true) := fun ⟨h1, h2⟩ => by simp [hr h1] at h2
  simp only [mvDynamic, hop, hn, hq.not_busy hch, hq.mx, hring, ne_eq, not_true_eq_false, Bool.false_eq_true, if_false, if_true, Nat.and_zero,
    List.nil_append, List.append_nil]
  refine if_neg ?_
  rintro (h | h | ⟨h, h'⟩ | ⟨h, h'⟩ | h | h | h | h)
  · exact hbeats h
  · exact hrows h
  · exact h' (hso h)
  · exact h' (hdo h)
  all_goals omega

end

/-! ### Beats beside the fields -/

/-- The state with other beats on their way. -/
def State.withBeats (s : State) (x : List Beat) : State := { s with beats := x }

/-- Writes of a core's fields do not see the beats. -/
theorem cputs_withBeats (ws : List (Fld × Nat)) (s : State) (c : CoreRef) (x : List Beat) :
    (s.withBeats x).cputs c ws = (s.cputs c ws).withBeats x := by
  induction ws generalizing s with
  | nil => rfl
  | cons w ws ih => exact ih (s.cput c w.1 w.2)

/-! ### The arbitration of one read -/

theorem cmBank_lt (l : Nat) : cmBank l < 64 :=
  Nat.xor_lt_two_pow (n := 6) (Nat.xor_lt_two_pow (Nat.mod_lt _ (by decide)) (Nat.mod_lt _ (by decide))) (Nat.mod_lt _ (by decide))

/-- An access that has no other beside it wins its banks: their pointers move on, and no loss is counted (R156, R157). -/
theorem serveOnce_alone (s : State) (c : CoreRef) {a : CmAccess} (ha : a.isWrite = false) :
    s.serveOnce c [a] = (a.banks.foldl (fun s k => s.qput a.q (Clu.BANK_PTR k) ((requester c a.q a.ch + 1) % 97)) s,
      if a.later = [] then [] else [{ a with banks := a.later, later := [] }]) := by
  have hwins : s.winsBanks c [a] a = true := by simp [State.winsBanks]
  cases hl : a.later <;> simp [State.serveOnce, ha, hwins, hl]

theorem bankPtr_mem (q : CluRef) (c : CoreRef) {k : Nat} (hk : k < 64) : cluFld q (Clu.BANK_PTR k) ∈ bankFlds c q :=
  List.mem_cons_of_mem _ (List.mem_map_of_mem (List.mem_range.2 hk))

/-- The arbitration of one read writes pointers of banks, and counts the slips between its lines (R157). -/
theorem serveBanks_alone (n : Nat) (h : risingFrom 0 s.fld = true) (c : CoreRef) {a : CmAccess} (ha : a.isWrite = false)
    (hb : ∀ k ∈ a.banks, k < 64) (hl : ∀ k ∈ a.later, k < 64) : s.Writes (State.serveBanks n s c [a]) (bankFlds c a.q) := by
  induction n generalizing s a with
  | zero => exact (State.Writes.refl h).mono (by simp)
  | succ n ih =>
    have h1 : s.Writes (a.banks.foldl (fun s k => s.qput a.q (Clu.BANK_PTR k) ((requester c a.q a.ch + 1) % 97)) s)
        (a.banks.flatMap fun k => [cluFld a.q (Clu.BANK_PTR k)]) :=
      .foldl (fun _ k _ ht => (State.Writes.refl ht).put (cluFld a.q (Clu.BANK_PTR k)) _) h
    have hsub : (a.banks.flatMap fun k => [cluFld a.q (Clu.BANK_PTR k)]) ⊆ bankFlds c a.q := by
      intro e he
      obtain ⟨k, hk, hek⟩ := List.mem_flatMap.1 he
      exact List.mem_singleton.1 hek ▸ bankPtr_mem a.q c (hb k hk)
    unfold State.serveBanks
    rw [serveOnce_alone s c ha]
    by_cases hlater : a.later = []
    · simpa [hlater] using h1.mono hsub
    · have h2 := h1.cbump c Reg.CORE_SLIP_BANK.COUNT
      have h3 := ih h2.ordered (a := { a with banks := a.later, later := [] }) ha hl (by simp)
      simpa [hlater] using (h2.trans h3).mono (List.append_subset.2 ⟨List.append_subset.2 ⟨hsub, by simp [bankFlds]⟩, List.Subset.refl _⟩)

theorem cmAccess_banks_lt (ch : Nat) (q : CluRef) (w : Bool) (unit : Nat) :
    (∀ k ∈ (cmAccess ch q w unit).banks, k < 64) ∧ ∀ k ∈ (cmAccess ch q w unit).later, k < 64 := by
  unfold cmAccess
  dsimp only
  split
  · simp [cmBank_lt]
  · split <;> simp [cmBank_lt]

theorem cmAccess_eq (ch : Nat) (q : CluRef) (w : Bool) (unit : Nat) : (cmAccess ch q w unit).q = q ∧ (cmAccess ch q w unit).isWrite = w := by
  unfold cmAccess
  dsimp only
  split
  · exact ⟨rfl, rfl⟩
  · split <;> exact ⟨rfl, rfl⟩

/-! ### A beat that is read -/

/-- The move that a channel runs. -/
def State.runningMove (s : State) (c : CoreRef) (ch : Nat) : MoveDesc := s.moveDesc c (s.cget c (Core.CH_DESC ch))

/-- Where the channel's next beat is read. -/
def State.beatKey (s : State) (c : CoreRef) (ch : Nat) : Nat :=
  moveKey c (s.runningMove c ch).srcSpace (s.runningMove c ch).srcOther (s.cget c (Core.CH_SRC ch))

/-- The channel's next beat is the last one of its row. -/
abbrev State.rowEnds (s : State) (c : CoreRef) (ch : Nat) : Prop := (s.runningMove c ch).beats ≤ s.cget c (Core.CH_BEAT ch) + 1

/-- The channel's next beat is the last one of its move. -/
def State.moveEnds (s : State) (c : CoreRef) (ch : Nat) : Bool := decide (s.rowEnds c ch) && decide (s.cget c (Core.CH_ROWS ch) ≤ 1)

/-- The beat that a channel reads next (R55). -/
def State.nextBeat (s : State) (c : CoreRef) (ch : Nat) : Beat :=
  { site := c.site, core := c.core, channel := ch
    left := if (s.runningMove c ch).srcOther || (s.runningMove c ch).dstOther then 8 else 6
    space := (s.runningMove c ch).dstSpace, other := (s.runningMove c ch).dstOther, addr := s.cget c (Core.CH_DST ch)
    data := (s.rdP (s.beatKey c ch) 128).map (·.1), poison := poisonMask (s.rdP (s.beatKey c ch) 128), last := s.moveEnds c ch
    counter := s.cget c (Core.CH_COUNTER ch), countEn := s.cflag c (Core.CH_COUNT_EN ch), word := s.cget c (Core.CH_WORD ch)
    order := s.cget c (Core.CH_ORDER ch), fill := s.cget c (Core.CH_FILL ch) }

/-- The unit after `a` in a move of a stride. -/
def State.nextUnit (s : State) (c : CoreRef) (ch a : Nat) (stride : Int) : Nat :=
  if s.rowEnds c ch then (((a : Int) - 2 * s.cget c (Core.CH_BEAT ch) + stride) % 2 ^ 20).toNat else a + 2

/-- The channel's progress at a beat, within its move. -/
def State.stepWrites (s : State) (c : CoreRef) (ch : Nat) : List (Fld × Nat) :=
  [(Core.CH_SRC ch, s.nextUnit c ch (s.cget c (Core.CH_SRC ch)) (s.runningMove c ch).srcStride),
   (Core.CH_DST ch, s.nextUnit c ch (s.cget c (Core.CH_DST ch)) (s.runningMove c ch).dstStride),
   (Core.CH_BEAT ch, if s.rowEnds c ch then 0 else s.cget c (Core.CH_BEAT ch) + 1),
   (Core.CH_ROWS ch, if s.rowEnds c ch then s.cget c (Core.CH_ROWS ch) - 1 else s.cget c (Core.CH_ROWS ch))]

/-- The channel's progress at a beat: after the last one of its move it is free. -/
def State.readWrites (s : State) (c : CoreRef) (ch : Nat) : List (Fld × Nat) :=
  s.stepWrites c ch ++ if s.moveEnds c ch then [(Core.CH_BUSY ch, 0)] else []

/-- A read of words without upset bits sends the beat on its way and steps the channel. -/
theorem readBeat_eq {ch : Nat} (hu : s.noUpsets (s.beatKey c ch) 128) :
    s.readBeat c ch = (s.cputs c (s.readWrites c ch)).withBeats (s.beats ++ [s.nextBeat c ch]) := by
  have hp : s.pathRead c (s.beatKey c ch) 128 = s := State.pathRead_of_noUpsets hu c
  have hread : s.readBeat c ch =
      let s1 := s.pathRead c (s.beatKey c ch) 128
      let s2 := (s1.withBeats (s1.beats ++ [s.nextBeat c ch])).cputs c (s.stepWrites c ch)
      if s.moveEnds c ch = true then s2.cset c (Core.CH_BUSY ch) false else s2 := rfl
  simp only [hread, hp, ← cputs_withBeats, State.readWrites]
  split
  · rfl
  · rw [List.append_nil]

/-! ### The cycle in which one channel reads -/

/-- In this cycle one channel of the core reads a beat, and nothing else of the core happens. -/
structure State.Reads (s : State) (c : CoreRef) (ch : Nat) : Prop where
  channel : ch < 2
  busy : s.cflag c (Core.CH_BUSY ch) = true
  notHeld : s.cflag c (Core.CH_SUSP ch) = false
  other : s.cflag c (Core.CH_BUSY (1 - ch)) = false
  mx : s.cget c Reg.CORE_MX_STATUS.OCC_LEFT = 0
  vx : s.cget c Reg.CORE_VX_STATUS.OCC_LEFT = 0
  unused : s.Unused c

namespace State.Reads
variable {ch : Nat}

theorem channels (h : s.Reads c ch) (p : Nat → Bool) :
    ((List.range 2).filter fun i => s.cflag c (Core.CH_BUSY i) && !s.cflag c (Core.CH_SUSP i) && p i) = if p ch then [ch] else [] := by
  have hb := h.busy
  have hs := h.notHeld
  rw [show List.range 2 = [0, 1] from rfl]
  obtain rfl | rfl : ch = 0 ∨ ch = 1 := by have := h.channel; omega
  · have ho : s.cflag c (Core.CH_BUSY 1) = false := h.other
    simp only [List.filter_cons, List.filter_nil, hb, hs, ho, Bool.not_false, Bool.true_and, Bool.false_and, Bool.false_eq_true, if_false]
  · have ho : s.cflag c (Core.CH_BUSY 0) = false := h.other
    simp only [List.filter_cons, List.filter_nil, hb, hs, ho, Bool.not_false, Bool.true_and, Bool.false_and, Bool.false_eq_true, if_false]

/-- The cluster memory that the channel reads. -/
theorem cmAccesses (h : s.Reads c ch) :
    s.cmAccesses c = if (s.runningMove c ch).srcSpace = 0 then
        [cmAccess ch ⟨c.site, if (s.runningMove c ch).srcOther then 1 - c.core / 24 else c.core / 24⟩ false (s.cget c (Core.CH_SRC ch))]
      else [] := by
  unfold State.cmAccesses
  rw [h.unused.cmWrites, h.channels]
  by_cases h0 : (s.runningMove c ch).srcSpace = 0
  · rw [if_pos h0, if_pos (beq_iff_eq.2 h0 : ((s.moveDesc c (s.cget c (Core.CH_DESC ch))).srcSpace == 0) = true)]
    rfl
  · rw [if_neg h0, if_neg (mt beq_iff_eq.1 h0 : ¬ ((s.moveDesc c (s.cget c (Core.CH_DESC ch))).srcSpace == 0) = true)]
    rfl

theorem spReads (h : s.Reads c ch) :
    s.spReads c = if (s.runningMove c ch).srcSpace = 1 then
        [(s.cget c (Core.CH_SRC ch), s.cget c (Core.CH_ORDER ch), s.cget c (Core.CH_WORD ch)),
         (s.cget c (Core.CH_SRC ch) + 1, s.cget c (Core.CH_ORDER ch), s.cget c (Core.CH_WORD ch))]
      else [] := by
  unfold State.spReads
  rw [h.channels]
  by_cases h1 : (s.runningMove c ch).srcSpace = 1
  · rw [if_pos h1, if_pos (beq_iff_eq.2 h1 : ((s.moveDesc c (s.cget c (Core.CH_DESC ch))).srcSpace == 1) = true)]
    rfl
  · rw [if_neg h1, if_neg (mt beq_iff_eq.1 h1 : ¬ ((s.moveDesc c (s.cget c (Core.CH_DESC ch))).srcSpace == 1) = true)]
    rfl

/-- The two lines of a read lie in two banks: nothing collides (R151). -/
theorem portCollision (h : s.Reads c ch)
    (hsp : (s.runningMove c ch).srcSpace = 1 → spBank (s.cget c (Core.CH_SRC ch)) ≠ spBank (s.cget c (Core.CH_SRC ch) + 1)) :
    s.portCollision c = none := by
  by_cases h1 : (s.runningMove c ch).srcSpace = 1
  · have hne := hsp h1
    have hr := h.spReads.trans (if_pos h1)
    generalize s.cget c (Core.CH_SRC ch) = u at hne hr
    simp [State.portCollision, State.dueBeats, h.unused.dueBeats, h.unused.flights_filter, hr, hne, hne.symm]
  · simp [State.portCollision, State.dueBeats, h.unused.dueBeats, h.unused.flights_filter, h.spReads, h1]

end State.Reads

/-- The fields of a channel. -/
def chanFs (ch : Nat) : List Fld :=
  [Core.CH_BUSY ch, Core.CH_SUSP ch, Core.CH_DESC ch, Core.CH_COUNTER ch, Core.CH_COUNT_EN ch, Core.CH_FILL ch, Core.CH_BEAT ch, Core.CH_ROWS ch,
   Core.CH_SRC ch, Core.CH_DST ch, Core.CH_WORD ch, Core.CH_ORDER ch]

/-- The cluster memory that a move's source lies in. -/
def sourceCluster (c : CoreRef) (d : MoveDesc) : CluRef := ⟨c.site, if d.srcOther then 1 - c.core / 24 else c.core / 24⟩

/-- The fields that the first read of a move writes at its cluster memory. -/
def readFlds (c : CoreRef) (d : MoveDesc) : List (Nat × Fld) := if d.srcSpace = 0 then bankFlds c (sourceCluster c d) else []

theorem bankPtr_pos : ∀ k < 64, 0x1400200 * 64 ≤ (Clu.BANK_PTR k).pos := by decide

/-- A field of a core is none of its cluster's bank pointers. -/
theorem apart_readFlds (hc : c.wf = true) {f : Fld} (h1 : f.pos ≠ Reg.CORE_SLIP_BANK.COUNT.pos) (h2 : f.pos + 47 * 2 ^ 22 < 0x1400200 * 64)
    (d : MoveDesc) : Apart (coreFld c f) (readFlds c d) := by
  unfold readFlds
  split
  · refine (apart_cons ..).2 ⟨(fldKey_coreFld_eq ..).not.2 h1, fun a ha => ?_⟩
    obtain ⟨k, hk, rfl⟩ := List.mem_map.1 ha
    have := bankPtr_pos k (List.mem_range.1 hk)
    obtain ⟨-, hcore⟩ := (coreRef_wf_iff c).1 hc
    simp only [coreFld, cluFld, sourceCluster, fldKey_eq_pos, Fld.pos_nth]
    omega
  · simp

theorem chanFs_pos {ch : Nat} (hch : ch < 2) : ∀ f ∈ chanFs ch, f.pos ≠ Reg.CORE_SLIP_BANK.COUNT.pos ∧ f.pos + 47 * 2 ^ 22 < 0x1400200 * 64 :=
  (by decide : ∀ ch < 2, ∀ f ∈ chanFs ch, f.pos ≠ Reg.CORE_SLIP_BANK.COUNT.pos ∧ f.pos + 47 * 2 ^ 22 < 0x1400200 * 64) ch hch

section
variable {ch : Nat} {es : List (Nat × Fld)} (h : s.Writes t es) (he : ∀ f ∈ chanFs ch, Apart (coreFld c f) es)
include h he

theorem State.Writes.runningMove_eq : t.runningMove c ch = s.runningMove c ch := by
  have hd := h.cget_eq (he (Core.CH_DESC ch) (by simp [chanFs]))
  simp only [State.runningMove, State.moveDesc, State.table, State.rdNat, State.rd, hd, h.sram_eq]

theorem State.Writes.beatKey_eq : t.beatKey c ch = s.beatKey c ch := by
  rw [State.beatKey, h.runningMove_eq he, h.cget_eq (he (Core.CH_SRC ch) (by simp [chanFs]))]
  rfl

theorem State.Writes.rowEnds_iff : t.rowEnds c ch ↔ s.rowEnds c ch := by
  rw [State.rowEnds, h.runningMove_eq he, h.cget_eq (he (Core.CH_BEAT ch) (by simp [chanFs]))]

theorem State.Writes.moveEnds_eq : t.moveEnds c ch = s.moveEnds c ch := by
  rw [State.moveEnds, h.cget_eq (he (Core.CH_ROWS ch) (by simp [chanFs])), decide_eq_decide.2 (h.rowEnds_iff he)]
  rfl

/-- Writes that leave a channel's fields leave the beat it reads next. -/
theorem State.Writes.nextBeat_eq : t.nextBeat c ch = s.nextBeat c ch := by
  have hr (k n : Nat) : t.rdP k n = s.rdP k n := by rw [h.eq_with_fld]; rfl
  rw [State.nextBeat, h.runningMove_eq he, h.beatKey_eq he, h.moveEnds_eq he, hr, h.cget_eq (he (Core.CH_DST ch) (by simp [chanFs])),
    h.cget_eq (he (Core.CH_COUNTER ch) (by simp [chanFs])), h.cflag_eq (he (Core.CH_COUNT_EN ch) (by simp [chanFs])),
    h.cget_eq (he (Core.CH_WORD ch) (by simp [chanFs])), h.cget_eq (he (Core.CH_ORDER ch) (by simp [chanFs])),
    h.cget_eq (he (Core.CH_FILL ch) (by simp [chanFs]))]
  rfl

end

/-- The fields that a channel's read of a beat writes. -/
def beatFs (ch : Nat) : List Fld := [Core.CH_SRC ch, Core.CH_DST ch, Core.CH_BEAT ch, Core.CH_ROWS ch, Core.CH_BUSY ch]

theorem writes_readWrites (h : risingFrom 0 s.fld = true) (t : State) (c : CoreRef) (ch : Nat) :
    s.Writes (s.cputs c (t.readWrites c ch)) ((beatFs ch).map (coreFld c)) := by
  refine (State.writes_cputs h c _).mono ?_
  rw [State.readWrites]
  split <;> simp [State.stepWrites, beatFs]

/-- After a beat the channel is busy unless the beat was the last one of its move. -/
theorem busy_readWrites (h : risingFrom 0 s.fld = true) (t : State) (c : CoreRef) {ch : Nat} (hch : ch < 2)
    (hb : s.cflag c (Core.CH_BUSY ch) = true) : (s.cputs c (t.readWrites c ch)).cflag c (Core.CH_BUSY ch) = !t.moveEnds c ch := by
  have hne : ∀ f ∈ [Core.CH_SRC ch, Core.CH_DST ch, Core.CH_BEAT ch, Core.CH_ROWS ch], (Core.CH_BUSY ch).pos ≠ f.pos :=
    (by decide : ∀ ch < 2, ∀ f ∈ [Core.CH_SRC ch, Core.CH_DST ch, Core.CH_BEAT ch, Core.CH_ROWS ch], (Core.CH_BUSY ch).pos ≠ f.pos) ch hch
  have hstep : s.Writes (s.cputs c (t.stepWrites c ch)) ([Core.CH_SRC ch, Core.CH_DST ch, Core.CH_BEAT ch, Core.CH_ROWS ch].map (coreFld c)) :=
    State.writes_cputs h c _
  rw [State.readWrites]
  cases t.moveEnds c ch
  · exact (congrArg (fun ws => (s.cputs c ws).cflag c (Core.CH_BUSY ch)) (List.append_nil _)).trans ((hstep.cflag_eq (apart_coreFlds hne)).trans hb)
  · have happ : s.cputs c (t.stepWrites c ch ++ [(Core.CH_BUSY ch, 0)]) = (s.cputs c (t.stepWrites c ch)).cset c (Core.CH_BUSY ch) false :=
      List.foldl_append ..
    exact happ ▸ State.cflag_cset_same hstep.ordered c (Core.CH_BUSY ch) false rfl

/-- A channel that is busy and not held reads in a cycle. -/
def State.readIfBusy (s : State) (c : CoreRef) (ch : Nat) : State :=
  if s.cflag c (Core.CH_BUSY ch) && !s.cflag c (Core.CH_SUSP ch) then s.readBeat c ch else s

theorem readIfBusy_of_free {ch : Nat} (h : s.cflag c (Core.CH_BUSY ch) = false) : s.readIfBusy c ch = s := by
  rw [State.readIfBusy, h, Bool.false_and]
  exact if_neg (by decide)

/-- Of the two channels only the one that is busy reads. -/
theorem State.Reads.readBeats (hf : risingFrom 0 s.fld = true) {ch : Nat} (h : s.Reads c ch) (hu : s.noUpsets (s.beatKey c ch) 128) (x : List Beat) :
    ((s.withBeats x).readIfBusy c 0).readIfBusy c 1 = (s.cputs c (s.readWrites c ch)).withBeats (x ++ [s.nextBeat c ch]) := by
  have hread : (s.withBeats x).readIfBusy c ch = (s.cputs c (s.readWrites c ch)).withBeats (x ++ [s.nextBeat c ch]) := by
    have hb : ((s.withBeats x).cflag c (Core.CH_BUSY ch) && !(s.withBeats x).cflag c (Core.CH_SUSP ch)) = true := by
      simp only [show (s.withBeats x).cflag c (Core.CH_BUSY ch) = true from h.busy, show (s.withBeats x).cflag c (Core.CH_SUSP ch) = false from h.notHeld]
      rfl
    have heq : (s.withBeats x).readBeat c ch = ((s.withBeats x).cputs c (s.readWrites c ch)).withBeats (x ++ [s.nextBeat c ch]) :=
      readBeat_eq (s := s.withBeats x) hu
    rw [State.readIfBusy, hb, if_pos rfl, heq, cputs_withBeats]
    rfl
  obtain rfl | rfl : ch = 0 ∨ ch = 1 := by have := h.channel; omega
  · have ho : (s.cputs c (s.readWrites c 0)).cflag c (Core.CH_BUSY 1) = false :=
      ((writes_readWrites hf s c 0).cflag_eq (apart_coreFlds (by decide))).trans h.other
    rw [hread]
    exact readIfBusy_of_free ho
  · rw [readIfBusy_of_free (s := s.withBeats x) h.other, hread]

/-- Writes of other fields leave the cycle's read. -/
theorem State.Reads.of_writes {ch : Nat} (h : s.Reads c ch) {es : List (Nat × Fld)} (hw : s.Writes t es)
    (he : ∀ f ∈ [Core.CH_BUSY ch, Core.CH_SUSP ch, Core.CH_BUSY (1 - ch), Reg.CORE_MX_STATUS.OCC_LEFT, Reg.CORE_VX_STATUS.OCC_LEFT],
      Apart (coreFld c f) es) : t.Reads c ch where
  channel := h.channel
  busy := (hw.cflag_eq (he _ (by simp))).trans h.busy
  notHeld := (hw.cflag_eq (he _ (by simp))).trans h.notHeld
  other := (hw.cflag_eq (he _ (by simp))).trans h.other
  mx := (hw.cget_eq (he _ (by simp))).trans h.mx
  vx := (hw.cget_eq (he _ (by simp))).trans h.vx
  unused := ⟨hw.beats_eq ▸ h.unused.beats, hw.flights_eq ▸ h.unused.flights⟩

/-- The arbitration of the cycle's read. -/
theorem State.Reads.serveBanks (hf : risingFrom 0 s.fld = true) {ch : Nat} (h : s.Reads c ch) :
    s.Writes (State.serveBanks 8 s c (s.cmAccesses c)) (readFlds c (s.runningMove c ch)) := by
  rw [h.cmAccesses, readFlds]
  split
  · obtain ⟨hb, hl⟩ := cmAccess_banks_lt ch (sourceCluster c (s.runningMove c ch)) false (s.cget c (Core.CH_SRC ch))
    obtain ⟨hq, hw⟩ := cmAccess_eq ch (sourceCluster c (s.runningMove c ch)) false (s.cget c (Core.CH_SRC ch))
    have := serveBanks_alone 8 hf c hw hb hl
    rwa [hq] at this
  · exact .refl hf

/-- The cycle: the arbitration of the read, the channel's progress, and the beat on its way (R55). -/
theorem State.Reads.tick (hf : risingFrom 0 s.fld = true) (hc : c.wf = true) {ch : Nat} (h : s.Reads c ch) (hu : s.noUpsets (s.beatKey c ch) 128) :
    ∃ t, s.Writes t (readFlds c (s.runningMove c ch))
      ∧ s.tick c = (t.cputs c (t.readWrites c ch)).withBeats (s.beats ++ [s.nextBeat c ch]) := by
  have hw := h.serveBanks hf
  have htick : s.tick c =
      let t := State.serveBanks 8 s c (s.cmAccesses c)
      let t1 := ((t.withBeats []).readIfBusy c 0).readIfBusy c 1
      let t2 := (t.beats.filter fun b => b.dueNow c).foldl State.writeBeat
        (t1.withBeats (((t.beats.filter fun b => !b.dueNow c).map fun b => b.age c) ++ t1.beats))
      let mo := t2.cget c Reg.CORE_MX_STATUS.OCC_LEFT
      let vo := t2.cget c Reg.CORE_VX_STATUS.OCC_LEFT
      let t3 := if mo = 0 then t2 else (t2.cput c Reg.CORE_MX_STATUS.OCC_LEFT (mo - 1)).cset c Reg.CORE_MX_STATUS.BUSY (mo ≠ 1)
      (if vo = 0 then t3 else (t3.cput c Reg.CORE_VX_STATUS.OCC_LEFT (vo - 1)).cset c Reg.CORE_VX_STATUS.BUSY (vo ≠ 1)).ageFlights c := rfl
  generalize State.serveBanks 8 s c (s.cmAccesses c) = t at hw htick
  have hch : ∀ f ∈ chanFs ch, Apart (coreFld c f) (readFlds c (s.runningMove c ch)) := fun f hf =>
    apart_readFlds hc (chanFs_pos h.channel f hf).1 (chanFs_pos h.channel f hf).2 _
  have ht : t.Reads c ch := h.of_writes hw fun f hf => by
    obtain ⟨h1, h2⟩ := (by decide : ∀ ch < 2, ∀ f ∈ [Core.CH_BUSY ch, Core.CH_SUSP ch, Core.CH_BUSY (1 - ch), Reg.CORE_MX_STATUS.OCC_LEFT,
      Reg.CORE_VX_STATUS.OCC_LEFT], f.pos ≠ Reg.CORE_SLIP_BANK.COUNT.pos ∧ f.pos + 47 * 2 ^ 22 < 0x1400200 * 64) ch h.channel f hf
    exact apart_readFlds hc h1 h2 _
  have hup : t.noUpsets (t.beatKey c ch) 128 := by rw [hw.beatKey_eq hch, State.noUpsets, hw.eq_with_fld]; exact hu
  have hkeep : ∀ g ∈ [Reg.CORE_MX_STATUS.OCC_LEFT, Reg.CORE_VX_STATUS.OCC_LEFT], (t.cputs c (t.readWrites c ch)).cget c g = t.cget c g :=
    fun g hg => (writes_readWrites hw.ordered t c ch).cget_eq (apart_coreFlds
      ((by decide : ∀ ch < 2, ∀ g ∈ [Reg.CORE_MX_STATUS.OCC_LEFT, Reg.CORE_VX_STATUS.OCC_LEFT], ∀ f ∈ beatFs ch, g.pos ≠ f.pos) ch h.channel g hg))
  refine ⟨t, hw, ?_⟩
  rw [htick]
  simp only [ht.readBeats hw.ordered hup, ht.unused.dueBeats, ht.unused.beats_kept, List.foldl_nil, hw.nextBeat_eq hch]
  have hbeats : ((t.cputs c (t.readWrites c ch)).withBeats ([] ++ [s.nextBeat c ch])).withBeats
      (t.beats ++ ((t.cputs c (t.readWrites c ch)).withBeats ([] ++ [s.nextBeat c ch])).beats)
        = (t.cputs c (t.readWrites c ch)).withBeats (s.beats ++ [s.nextBeat c ch]) := by rw [hw.beats_eq]; rfl
  rw [hbeats]
  generalize hu2 : t.cputs c (t.readWrites c ch) = t2 at hkeep
  have hmx : (t2.withBeats (s.beats ++ [s.nextBeat c ch])).cget c Reg.CORE_MX_STATUS.OCC_LEFT = 0 := (hkeep _ (by simp)).trans ht.mx
  have hvx : (t2.withBeats (s.beats ++ [s.nextBeat c ch])).cget c Reg.CORE_VX_STATUS.OCC_LEFT = 0 := (hkeep _ (by simp)).trans ht.vx
  simp only [hmx, hvx, if_true]
  refine State.ageFlights_eq (s := t2.withBeats _) ?_
  have hfl : t2.flights = t.flights := hu2 ▸ (State.writes_cputs hw.ordered c _).flights_eq
  exact hfl ▸ ht.unused.flights

end Sys2Proof.Machine
end

section
/-! PROOFS. `START` of a move (R53–R55). -/

namespace Sys2Proof.Machine

variable {s t : State} {c : CoreRef}

/-! ### What a start writes -/

/-- What a start takes from the slot, its descriptor and the core (R54, R55). -/
structure MoveStart where
  n : Nat
  counter : Nat
  countEn : Bool
  fill : Nat
  rows : Nat
  src : Nat
  dst : Nat
  word : Nat
  order : Nat
  adv : Bool
  srcNext : Nat
  dstNext : Nat

/-- The start of a slot at a word. -/
def State.moveStart (s : State) (c : CoreRef) (v addr : Nat) : MoveStart :=
  let n := bitsOf v 12 8
  let d := s.moveDesc c n
  let src := s.cget c (Core.MOVE_SRC n)
  let dst := s.cget c (Core.MOVE_DST n)
  let ext := moveExtent dst d.dstStride d.rows d.beats
  { n := n, counter := bitsOf v 16 13, countEn := v.testBit 17, fill := moveHalves d.dstSpace ext.1 ext.2, rows := d.rows, src := src, dst := dst
    word := addr, order := s.cget c Reg.CORE_ISSUE_COUNT.COUNT, adv := v.testBit 18
    srcNext := ((src + d.srcInc) % 2 ^ 20).toNat, dstNext := ((dst + d.dstInc) % 2 ^ 20).toNat }

/-- The fields of the channel that a start writes. -/
def MoveStart.chanWrites (m : MoveStart) (ch : Nat) : List (Fld × Nat) :=
  [(Core.CH_BUSY ch, 1), (Core.CH_SUSP ch, 0), (Core.CH_DESC ch, m.n), (Core.CH_COUNTER ch, m.counter),
   (Core.CH_COUNT_EN ch, if m.countEn then 1 else 0), (Core.CH_FILL ch, m.fill), (Core.CH_BEAT ch, 0), (Core.CH_ROWS ch, m.rows),
   (Core.CH_SRC ch, m.src), (Core.CH_DST ch, m.dst), (Core.CH_WORD ch, m.word), (Core.CH_ORDER ch, m.order)]

/-- Under ADV the descriptor's working addresses advance. -/
def MoveStart.tableWrites (m : MoveStart) : List (Fld × Nat) :=
  if m.adv then [(Core.MOVE_SRC m.n, m.srcNext), (Core.MOVE_DST m.n, m.dstNext)] else []

theorem startMove_eq {v : Nat} (hop : bitsOf v 7 6 = 1) (s : State) (c : CoreRef) (ch addr : Nat) :
    s.startMove c ch v addr = (s.cputs c ((s.moveStart c v addr).chanWrites ch)).cputs c (s.moveStart c v addr).tableWrites := by
  have hadv : (s.moveStart c v addr).adv = v.testBit 18 := rfl
  rw [State.startMove, if_neg (by simp [hop]), MoveStart.tableWrites, hadv]
  split <;> rfl

theorem moveFlds_eq (c : CoreRef) (ch n : Nat) : moveFlds c ch n = (chanFs ch ++ [Core.MOVE_SRC n, Core.MOVE_DST n]).map (coreFld c) := rfl

theorem chanFs_pairwise {ch : Nat} (hch : ch < 2) : (chanFs ch).Pairwise fun f g => f.pos ≠ g.pos :=
  (by decide : ∀ ch < 2, (chanFs ch).Pairwise fun f g => f.pos ≠ g.pos) ch hch

theorem chanFs_table {ch n : Nat} (hch : ch < 2) (hn : n < 32) : ∀ f ∈ chanFs ch, ∀ g ∈ [Core.MOVE_SRC n, Core.MOVE_DST n], f.pos ≠ g.pos :=
  (by decide : ∀ ch < 2, ∀ n < 32, ∀ f ∈ chanFs ch, ∀ g ∈ [Core.MOVE_SRC n, Core.MOVE_DST n], f.pos ≠ g.pos) ch hch n hn

section
variable (h : risingFrom 0 s.fld = true) (c : CoreRef) (m : MoveStart) {ch : Nat}
include h

theorem writes_chanWrites (ch : Nat) : s.Writes (s.cputs c (m.chanWrites ch)) ((chanFs ch).map (coreFld c)) := State.writes_cputs h c _

theorem writes_tableWrites : s.Writes (s.cputs c m.tableWrites) ([Core.MOVE_SRC m.n, Core.MOVE_DST m.n].map (coreFld c)) := by
  refine (State.writes_cputs h c _).mono ?_
  rw [MoveStart.tableWrites]
  split <;> simp

theorem writes_start (ch : Nat) : s.Writes ((s.cputs c (m.chanWrites ch)).cputs c m.tableWrites) (moveFlds c ch m.n) := by
  have h1 := writes_chanWrites h c m ch
  rw [moveFlds_eq, List.map_append]
  exact h1.trans (writes_tableWrites h1.ordered c m)

/-- A channel's field reads as the start wrote it. -/
theorem cget_start (hch : ch < 2) (hn : m.n < 32) {f : Fld} {v : Nat} (hm : (f, v) ∈ m.chanWrites ch) (hv : v < 2 ^ f.width) :
    ((s.cputs c (m.chanWrites ch)).cputs c m.tableWrites).cget c f = v := by
  have hf : f ∈ chanFs ch := List.mem_map_of_mem (f := Prod.fst) hm
  refine ((writes_tableWrites (writes_chanWrites h c m ch).ordered c m).cget_eq (apart_coreFlds (chanFs_table hch hn f hf))).trans ?_
  have hp : (m.chanWrites ch).Pairwise fun a b => a.1.pos ≠ b.1.pos :=
    (List.pairwise_map (f := Prod.fst) (R := fun f g : Fld => f.pos ≠ g.pos)).1 (chanFs_pairwise hch)
  exact State.cget_cputs_mem h c hp hm hv

/-- The working addresses after a start. -/
theorem cget_start_table (hch : ch < 2) (hn : m.n < 32) (hs : m.srcNext < 2 ^ 20) (hd : m.dstNext < 2 ^ 20) :
    let u := (s.cputs c (m.chanWrites ch)).cputs c m.tableWrites
    u.cget c (Core.MOVE_SRC m.n) = (if m.adv then m.srcNext else s.cget c (Core.MOVE_SRC m.n))
      ∧ u.cget c (Core.MOVE_DST m.n) = if m.adv then m.dstNext else s.cget c (Core.MOVE_DST m.n) := by
  have h1 := writes_chanWrites h c m ch
  have hkeep (f : Fld) (hf : f ∈ [Core.MOVE_SRC m.n, Core.MOVE_DST m.n]) : (s.cputs c (m.chanWrites ch)).cget c f = s.cget c f :=
    h1.cget_eq (apart_coreFlds fun g hg => (chanFs_table hch hn g hg f hf).symm)
  have hne : (Core.MOVE_SRC m.n).pos ≠ (Core.MOVE_DST m.n).pos :=
    (by decide : ∀ n < 32, (Core.MOVE_SRC n).pos ≠ (Core.MOVE_DST n).pos) m.n hn
  rw [MoveStart.tableWrites]
  split
  case isTrue =>
    exact ⟨State.cget_cputs_mem h1.ordered c (by simpa using hne) (by simp) hs, State.cget_cputs_mem h1.ordered c (by simpa using hne) (by simp) hd⟩
  case isFalse => exact ⟨hkeep _ (by simp), hkeep _ (by simp)⟩

end

/-! ### The cycle of a start -/

/-- A word of one live move slot: it starts its move, the channels have their cycle, and the sequencer goes on (R45, R53). -/
theorem issueSlots_move {v ch a : Nat} (hl : s.live c v = true) (hch : ch < 2) {u : State}
    (hu : (((s.mark c).startMove c ch v a).cbump c Reg.CORE_ISSUE_COUNT.COUNT).tickChecked c = u) (hst : u.cget c Reg.CORE_SCHED_STATUS.STATE = 1) :
    s.issueSlots c (mvWord ch v) a = (u.sequence s c 0 a).afterIssue c false false := by
  have hg := gated_of_live hl
  have hend : (bitsOf 0 9 6 == 6) = false := rfl
  unfold State.mark at hu
  obtain rfl | rfl : ch = 0 ∨ ch = 1 := by omega
  · simp -implicitDefEqProofs only [State.issueSlots, show mvWord 0 v = ⟨0, 0, v, 0, 0, 0, 0⟩ from rfl, gated_zero, hg, pausesHere_zero, takeWait_zero, loadCount_zero,
      qpIssue_zero, startMove_zero, mxIssue_zero, vxIssue_zero, plPred_zero, State.writePred, hu, hst, OfNat.one_ne_ofNat, Bool.false_eq_true,
      if_false, hend]
  · simp -implicitDefEqProofs only [State.issueSlots, show mvWord 1 v = ⟨0, 0, 0, v, 0, 0, 0⟩ from rfl, gated_zero, hg, pausesHere_zero, takeWait_zero, loadCount_zero,
      qpIssue_zero, startMove_zero, mxIssue_zero, vxIssue_zero, plPred_zero, State.writePred, hu, hst, OfNat.one_ne_ofNat, Bool.false_eq_true,
      if_false, hend]

/-! ### The start of a move -/

theorem moveDesc_rows_lt (s : State) (c : CoreRef) (n : Nat) : (s.moveDesc c n).rows < 2 ^ 16 := bitsOf_lt _ 95 80

/-- The issue of a start, up to the cycle of the channels. -/
def State.started (s : State) (c : CoreRef) (ch v a : Nat) : State := ((s.mark c).startMove c ch v a).cbump c Reg.CORE_ISSUE_COUNT.COUNT

theorem chanFs_seq {ch : Nat} (hch : ch < 2) : ∀ f ∈ chanFs ch, ∀ g ∈ [Reg.CORE_SCHED_STATUS.STATE, Reg.CORE_SCHED_STATUS.SLIP_CAUSE,
    Core.BRK_PASS, Reg.CORE_SCHED_STATUS.ADDR, Reg.CORE_ISSUE_COUNT.COUNT], g.pos ≠ f.pos :=
  (by decide : ∀ ch < 2, ∀ f ∈ chanFs ch, ∀ g ∈ [Reg.CORE_SCHED_STATUS.STATE, Reg.CORE_SCHED_STATUS.SLIP_CAUSE, Core.BRK_PASS,
    Reg.CORE_SCHED_STATUS.ADDR, Reg.CORE_ISSUE_COUNT.COUNT], g.pos ≠ f.pos) ch hch

/-- The core's fields that no start writes. -/
def startFree : List Fld :=
  [Reg.CORE_SCHED_STATUS.STATE, Reg.CORE_SCHED_STATUS.SLIP_CAUSE, Core.BRK_PASS, Reg.CORE_SCHED_STATUS.ADDR, Reg.CORE_ISSUE_COUNT.COUNT] ++ stopFlds
    ++ loopEndFlds ++ [Reg.CORE_MX_STATUS.OCC_LEFT, Reg.CORE_VX_STATUS.OCC_LEFT]

theorem startFree_pos {ch n : Nat} (hch : ch < 2) (hn : n < 32) : ∀ g ∈ startFree, ∀ f ∈ chanFs ch ++ [Core.MOVE_SRC n, Core.MOVE_DST n], g.pos ≠ f.pos := by
  intro g hg f hf
  rcases List.mem_append.1 hf with hf | hf
  · exact (by decide : ∀ ch < 2, ∀ g ∈ startFree, ∀ f ∈ chanFs ch, g.pos ≠ f.pos) ch hch g hg f hf
  · exact (by decide : ∀ n < 32, ∀ g ∈ startFree, ∀ f ∈ [Core.MOVE_SRC n, Core.MOVE_DST n], g.pos ≠ f.pos) n hn g hg f hf

theorem moveStart_n_lt (s : State) (c : CoreRef) (v a : Nat) : (s.moveStart c v a).n < 32 := bitsOf_lt v 12 8

theorem toNat_emod_lt (x : Int) : (x % 2 ^ 20).toNat < 2 ^ 20 := by omega

/-- The marks of the issue leave what the start takes. -/
theorem moveStart_mark (h : risingFrom 0 s.fld = true) (c : CoreRef) (v a : Nat) : (s.mark c).moveStart c v a = s.moveStart c v a := by
  have hm := State.Issuing.mark h c
  have hn : bitsOf v 12 8 < 32 := bitsOf_lt v 12 8
  have hfree : ∀ f ∈ [Core.MOVE_SRC (bitsOf v 12 8), Core.MOVE_DST (bitsOf v 12 8)], Apart (coreFld c f) (markFlds c) := fun f hf =>
    apart_mark ((by decide : ∀ n < 32, ∀ f ∈ [Core.MOVE_SRC n, Core.MOVE_DST n],
      ∀ g ∈ [Reg.CORE_SCHED_STATUS.STATE, Reg.CORE_SCHED_STATUS.SLIP_CAUSE, Core.BRK_PASS], f.pos ≠ g.pos) _ hn f hf)
  have hd : (s.mark c).moveDesc c (bitsOf v 12 8) = s.moveDesc c (bitsOf v 12 8) := rfl
  rw [State.moveStart, hd, hm.cget_eq (hfree _ (by simp)) (by simp), hm.cget_eq (hfree _ (by simp)) (by simp),
    hm.cget_eq (f := Reg.CORE_ISSUE_COUNT.COUNT) (apart_mark (by decide)) (by simp)]
  rfl

theorem started_eq (h : risingFrom 0 s.fld = true) {v : Nat} (hop : bitsOf v 7 6 = 1) (c : CoreRef) (ch a : Nat) :
    s.started c ch v a = (((s.mark c).cputs c ((s.moveStart c v a).chanWrites ch)).cputs c (s.moveStart c v a).tableWrites).cbump c
      Reg.CORE_ISSUE_COUNT.COUNT := by
  rw [State.started, startMove_eq hop, moveStart_mark h]

section
variable (h : risingFrom 0 s.fld = true) (c : CoreRef) {v ch : Nat} (hch : ch < 2) (hop : bitsOf v 7 6 = 1) (a : Nat)
include h hch hop

theorem issuing_started :
    s.Issuing (s.started c ch v a) c (moveFlds c ch (bitsOf v 12 8) ++ [coreFld c Reg.CORE_ISSUE_COUNT.COUNT])
      ∧ (s.started c ch v a).cget c Reg.CORE_ISSUE_COUNT.COUNT = min (s.cget c Reg.CORE_ISSUE_COUNT.COUNT + 1) (2 ^ 48 - 1) := by
  have hm := State.Issuing.mark h c
  have hfree (g : Fld) (hg : g ∈ startFree) : Apart (coreFld c g) (moveFlds c ch (bitsOf v 12 8)) :=
    apart_coreFlds (startFree_pos hch (moveStart_n_lt s c v a) g hg)
  have hI := hm.of_writes (writes_start hm.ordered c (s.moveStart c v a) ch) (hfree _ (by decide)) (hfree _ (by decide))
  rw [started_eq h hop]
  refine ⟨hI.cput Reg.CORE_ISSUE_COUNT.COUNT _ (by decide) (by decide), ?_⟩
  rw [State.cget_cbump_same hI.ordered, hI.cget_eq (apart_mark (by decide)) (hfree _ (by decide))]
  rfl

/-- The channel's fields after a start. -/
theorem cget_started {f : Fld} {x : Nat} (hm : (f, x) ∈ (s.moveStart c v a).chanWrites ch) (hx : x < 2 ^ f.width) :
    (s.started c ch v a).cget c f = x := by
  have hmk := (State.Issuing.mark h c).ordered
  have hf : f ∈ chanFs ch := List.mem_map_of_mem (f := Prod.fst) hm
  rw [started_eq h hop]
  exact (State.cget_cput_other (writes_start hmk c _ ch).ordered c (chanFs_seq hch f hf _ (by simp)).symm _).trans
    (cget_start hmk c _ hch (moveStart_n_lt s c v a) hm hx)

/-- The working addresses after a start. -/
theorem cget_started_table :
    let m := s.moveStart c v a
    (s.started c ch v a).cget c (Core.MOVE_SRC m.n) = (if m.adv then m.srcNext else m.src)
      ∧ (s.started c ch v a).cget c (Core.MOVE_DST m.n) = if m.adv then m.dstNext else m.dst := by
  intro m
  have hn : m.n < 32 := moveStart_n_lt s c v a
  have hmk := State.Issuing.mark h c
  have hw := writes_start hmk.ordered c m ch
  have hpos : ∀ f ∈ [Core.MOVE_SRC m.n, Core.MOVE_DST m.n], (∀ g ∈ [Reg.CORE_SCHED_STATUS.STATE, Reg.CORE_SCHED_STATUS.SLIP_CAUSE, Core.BRK_PASS],
      f.pos ≠ g.pos) ∧ f.pos ≠ Reg.CORE_ISSUE_COUNT.COUNT.pos :=
    (by decide : ∀ n < 32, ∀ f ∈ [Core.MOVE_SRC n, Core.MOVE_DST n], (∀ g ∈ [Reg.CORE_SCHED_STATUS.STATE, Reg.CORE_SCHED_STATUS.SLIP_CAUSE,
      Core.BRK_PASS], f.pos ≠ g.pos) ∧ f.pos ≠ Reg.CORE_ISSUE_COUNT.COUNT.pos) m.n hn
  have hsrc : (s.mark c).cget c (Core.MOVE_SRC m.n) = m.src := hmk.cget_eq (apart_mark (hpos _ (by simp)).1) (by simp)
  have hdst : (s.mark c).cget c (Core.MOVE_DST m.n) = m.dst := hmk.cget_eq (apart_mark (hpos _ (by simp)).1) (by simp)
  obtain ⟨h1, h2⟩ := cget_start_table hmk.ordered c m hch hn (toNat_emod_lt _) (toNat_emod_lt _)
  rw [hsrc] at h1
  rw [hdst] at h2
  rw [started_eq h hop]
  exact ⟨(State.cget_cput_other hw.ordered c (hpos _ (by simp)).2 _).trans h1, (State.cget_cput_other hw.ordered c (hpos _ (by simp)).2 _).trans h2⟩

end

/-- The channel's fields after a start are in their widths. -/
theorem started_channel (h : risingFrom 0 s.fld = true) (c : CoreRef) {v ch : Nat} (hch : ch < 2) (hop : bitsOf v 7 6 = 1) (a : Nat) :
    let u := s.started c ch v a
    let n := bitsOf v 12 8
    (u.cget c (Core.CH_BUSY ch) = 1 ∧ u.cget c (Core.CH_SUSP ch) = 0 ∧ u.cget c (Core.CH_DESC ch) = n ∧ u.cget c (Core.CH_COUNTER ch) = bitsOf v 16 13)
      ∧ (u.cget c (Core.CH_COUNT_EN ch) = (if v.testBit 17 then 1 else 0) ∧ u.cget c (Core.CH_BEAT ch) = 0
        ∧ u.cget c (Core.CH_ROWS ch) = (s.moveDesc c n).rows)
      ∧ u.cget c (Core.CH_SRC ch) = s.cget c (Core.MOVE_SRC n) ∧ u.cget c (Core.CH_DST ch) = s.cget c (Core.MOVE_DST n) := by
  intro u n
  have hget {f : Fld} {x : Nat} (i : Nat) (hm : ((s.moveStart c v a).chanWrites ch)[i]? = some (f, x)) (hx : x < 2 ^ f.width) : u.cget c f = x :=
    cget_started h c hch hop a (List.mem_of_getElem? hm) hx
  have hen : (if v.testBit 17 then 1 else 0) < 2 ^ 1 := by split <;> decide
  exact ⟨⟨hget 0 rfl (show 1 < 2 ^ 1 by decide), hget 1 rfl (show 0 < 2 ^ 1 by decide), hget 2 rfl (bitsOf_lt v 12 8), hget 3 rfl (bitsOf_lt v 16 13)⟩,
    ⟨hget 4 rfl hen, hget 6 rfl (show 0 < 2 ^ 12 by decide), hget 7 rfl (moveDesc_rows_lt s c n)⟩, hget 8 rfl (s.cget_lt c (Core.MOVE_SRC n)),
    hget 9 rfl (s.cget_lt c (Core.MOVE_DST n))⟩

/-- A field of the core that the start leaves. -/
theorem cget_started_other (h : risingFrom 0 s.fld = true) {v ch : Nat} (hch : ch < 2) (hop : bitsOf v 7 6 = 1) (a : Nat) {g : Fld}
    (h1 : ∀ f ∈ [Reg.CORE_SCHED_STATUS.STATE, Reg.CORE_SCHED_STATUS.SLIP_CAUSE, Core.BRK_PASS], g.pos ≠ f.pos)
    (h2 : g.pos ≠ Reg.CORE_ISSUE_COUNT.COUNT.pos)
    (h3 : ∀ f ∈ chanFs ch ++ [Core.MOVE_SRC (bitsOf v 12 8), Core.MOVE_DST (bitsOf v 12 8)], g.pos ≠ f.pos) :
    (s.started c ch v a).cget c g = s.cget c g :=
  (issuing_started h c hch hop a).1.cget_eq (apart_mark h1) ((apart_append ..).2 ⟨apart_coreFlds h3, by simpa using h2⟩)

/-- After its start the channel reads the first beat of its move in the same cycle, and nothing else of the core happens in it. -/
theorem reads_started (h : risingFrom 0 s.fld = true) (hq : s.Quiet c) {v ch : Nat} (hch : ch < 2) (hop : bitsOf v 7 6 = 1) (a : Nat) :
    (s.started c ch v a).Reads c ch := by
  obtain ⟨hI, -⟩ := issuing_started h c hch hop a
  obtain ⟨⟨hbusy, hsusp, -, -⟩, -, -⟩ := started_channel h c hch hop a
  have hn : bitsOf v 12 8 < 32 := bitsOf_lt v 12 8
  have hother : (s.started c ch v a).cget c (Core.CH_BUSY (1 - ch)) = s.cget c (Core.CH_BUSY (1 - ch)) := by
    obtain ⟨h1, h2, h3⟩ := (by decide : ∀ ch < 2,
      (∀ f ∈ [Reg.CORE_SCHED_STATUS.STATE, Reg.CORE_SCHED_STATUS.SLIP_CAUSE, Core.BRK_PASS], (Core.CH_BUSY (1 - ch)).pos ≠ f.pos)
        ∧ (Core.CH_BUSY (1 - ch)).pos ≠ Reg.CORE_ISSUE_COUNT.COUNT.pos ∧ ∀ f ∈ chanFs ch, (Core.CH_BUSY (1 - ch)).pos ≠ f.pos) ch hch
    refine cget_started_other h hch hop a h1 h2 fun f hf => (List.mem_append.1 hf).elim (h3 f) fun hf => ?_
    exact (by decide : ∀ ch < 2, ∀ n < 32, ∀ f ∈ [Core.MOVE_SRC n, Core.MOVE_DST n], (Core.CH_BUSY (1 - ch)).pos ≠ f.pos) ch hch _ hn f hf
  exact {
    channel := hch
    busy := decide_eq_true hbusy
    notHeld := (State.cflag_false_iff _ c (Core.CH_SUSP ch) rfl).2 hsusp
    other := (State.cflag_false_iff _ c (Core.CH_BUSY (1 - ch)) rfl).2
      (hother.trans ((State.cflag_false_iff s c (Core.CH_BUSY (1 - ch)) rfl).1 (hq.not_busy (by omega))))
    mx := (cget_started_other h hch hop a (by decide) (by decide) (startFree_pos hch hn _ (by decide))).trans hq.mx
    vx := (cget_started_other h hch hop a (by decide) (by decide) (startFree_pos hch hn _ (by decide))).trans hq.vx
    unused := ⟨hI.writes.beats_eq ▸ hq.beats, hI.writes.flights_eq ▸ hq.flights⟩ }

theorem length_expand {β : Type} (d : β) (n lo : Nat) (m : SMap β) : (expand d n lo m).length = n := by
  induction n generalizing lo m with
  | zero => rfl
  | succ n ih =>
    unfold expand
    split
    · simp [ih]
    · split <;> simp [ih]

@[simp] theorem State.length_rd (s : State) (k n : Nat) : (s.rd k n).length = n := length_expand ..

theorem rdP_fst (s : State) (k n : Nat) : (s.rdP k n).map (·.1) = s.rd k n :=
  List.map_fst_zip (by simp [State.bytePoison])

section
variable (h : risingFrom 0 s.fld = true) {v ch : Nat} (hch : ch < 2) (hop : bitsOf v 7 6 = 1) (a : Nat)
include h hch hop

theorem runningMove_started : (s.started c ch v a).runningMove c ch = s.moveDesc c (bitsOf v 12 8) := by
  obtain ⟨⟨-, -, hdesc, -⟩, -, -⟩ := started_channel h c hch hop a
  have hram := (issuing_started h c hch hop a).1.writes.sram_eq
  simp only [State.runningMove, hdesc, State.moveDesc, State.table, State.rdNat, State.rd, hram]

theorem beatKey_started :
    let d := s.moveDesc c (bitsOf v 12 8)
    (s.started c ch v a).beatKey c ch = moveKey c d.srcSpace d.srcOther (s.cget c (Core.MOVE_SRC (bitsOf v 12 8))) := by
  obtain ⟨-, -, hsrc, -⟩ := started_channel h c hch hop a
  rw [State.beatKey, runningMove_started h hch hop, hsrc]

/-- The first beat is the last one where the move has no other. -/
theorem moveEnds_started (hb : (s.moveDesc c (bitsOf v 12 8)).beats ≠ 0) (hr : (s.moveDesc c (bitsOf v 12 8)).rows ≠ 0) :
    (s.started c ch v a).moveEnds c ch = decide ((s.moveDesc c (bitsOf v 12 8)).beats * (s.moveDesc c (bitsOf v 12 8)).rows = 1) := by
  obtain ⟨-, ⟨-, hbeat, hrows⟩, -, -⟩ := started_channel h c hch hop a
  unfold State.moveEnds State.rowEnds
  rw [runningMove_started h hch hop, hbeat, hrows, ← Bool.decide_and]
  refine decide_eq_decide.2 ?_
  rw [mul_eq_one]
  omega

/-- The beat that the start sends on its way (R55). -/
theorem nextBeat_started :
    let d := s.moveDesc c (bitsOf v 12 8)
    let key := moveKey c d.srcSpace d.srcOther (s.cget c (Core.MOVE_SRC (bitsOf v 12 8)))
    let b := (s.started c ch v a).nextBeat c ch
    (b.left = (if d.srcOther || d.dstOther then 8 else 6) ∧ b.space = d.dstSpace ∧ b.other = d.dstOther
        ∧ b.addr = s.cget c (Core.MOVE_DST (bitsOf v 12 8)))
      ∧ (b.data = s.rd key 128 ∧ b.poison = poisonMask (s.rdP key 128)) ∧ b.counter = bitsOf v 16 13 ∧ b.countEn = v.testBit 17 := by
  intro d key b
  obtain ⟨⟨-, -, -, hctr⟩, ⟨hen, -, -⟩, -, hdst⟩ := started_channel h c hch hop a
  have hd : (s.started c ch v a).runningMove c ch = d := runningMove_started h hch hop a
  have hkey : (s.started c ch v a).beatKey c ch = key := beatKey_started h hch hop a
  have hp : (s.started c ch v a).rdP key 128 = s.rdP key 128 := by
    rw [(issuing_started h c hch hop a).1.writes.eq_with_fld]
    rfl
  refine ⟨⟨?_, ?_, ?_, hdst⟩, ⟨?_, ?_⟩, hctr, ?_⟩
  · simp only [b, State.nextBeat, hd]
  · simp only [b, State.nextBeat, hd]
  · simp only [b, State.nextBeat, hd]
  · simp only [b, State.nextBeat, hkey, hp, rdP_fst]
  · simp only [b, State.nextBeat, hkey, hp]
  · show decide ((s.started c ch v a).cget c (Core.CH_COUNT_EN ch) = 1) = v.testBit 17
    rw [hen]
    cases v.testBit 17 <;> rfl

end

/-- Fields that neither a start, nor the cycle of its first read, nor the issue's marks write. -/
theorem apart_started (hc : c.wf = true) {ch n : Nat} (hch : ch < 2) (hn : n < 32) (d : MoveDesc) {g : Fld} (hg : g ∈ startFree) :
    Apart (coreFld c g) (moveFlds c ch n) ∧ Apart (coreFld c g) (readFlds c d) ∧ Apart (coreFld c g) ((beatFs ch).map (coreFld c)) := by
  obtain ⟨h1, h2⟩ := (by decide : ∀ g ∈ startFree, g.pos ≠ Reg.CORE_SLIP_BANK.COUNT.pos ∧ g.pos + 47 * 2 ^ 22 < 0x1400200 * 64) g hg
  exact ⟨apart_coreFlds (startFree_pos hch hn g hg), apart_readFlds hc h1 h2 d,
    apart_coreFlds ((by decide : ∀ ch < 2, ∀ g ∈ startFree, ∀ f ∈ beatFs ch, g.pos ≠ f.pos) ch hch g hg)⟩

theorem beatFlds_subset (c : CoreRef) (ch n : Nat) : (beatFs ch).map (coreFld c) ⊆ moveFlds c ch n :=
  moveFlds_eq c ch n ▸ List.map_subset _ (by simp [beatFs, chanFs])

/-- A start that its descriptor and the core allow breaks no check. -/
theorem wordFault_start {v ch : Nat} (hl : s.slotLive c v) (hch : ch < 2) (hop : bitsOf v 7 6 = 1) (h0 : bitsOf v 23 19 = 0)
    (hm : s.moveLegal c (bitsOf v 12 8)) (hq : s.Quiet c) (hring : v.testBit 17 = true → s.ringCounter c (bitsOf v 16 13) = false) (a : Nat) :
    s.wordFault c (mvWord ch v) a = none := by
  rw [wordFault_mvWord s c hch, hl.1, mvStatic_start hop rfl hm h0, mvDynamic_start hop rfl hm hch hq hring]
  simp

/-- A word of a move slot waits for nothing. -/
theorem passes_mv {v ch : Nat} (hf : s.wordFault c (mvWord ch v) (s.wordAddr c) = none) : s.Passes c (mvWord ch v) := by
  have hwt : (mvWord ch v).wt = 0 := by unfold mvWord; split <;> rfl
  have hqp : (mvWord ch v).qp = 0 := by unfold mvWord; split <;> rfl
  exact ⟨hf, by simp [hwt], by simp [hwt], by simp [hqp]⟩

section
variable (hs : s.canonical = true) (hr : s.coreReady c) {v ch : Nat} (hl : s.slotLive c v) (hch : ch < 2) (hop : bitsOf v 7 6 = 1)
  (h0 : bitsOf v 23 19 = 0) (hm : s.moveLegal c (bitsOf v 12 8)) (hring : v.testBit 17 = true → s.ringCounter c (bitsOf v 16 13) = false)
  (hu : s.noUpsets (moveKey c (s.moveDesc c (bitsOf v 12 8)).srcSpace (s.moveDesc c (bitsOf v 12 8)).srcOther
    (s.cget c (Core.MOVE_SRC (bitsOf v 12 8)))) 128)
  (hbank : (s.moveDesc c (bitsOf v 12 8)).srcSpace = 1 →
    spBank (s.cget c (Core.MOVE_SRC (bitsOf v 12 8))) ≠ spBank (s.cget c (Core.MOVE_SRC (bitsOf v 12 8)) + 1))
include hs hr hl hch hop h0 hm hring hu hbank

/-- The word starts its move, the beat goes on its way, and the core goes on with the next word. -/
theorem runWord_start :
    ∃ t u, (s.started c ch v (s.wordAddr c)).Writes t (readFlds c (s.moveDesc c (bitsOf v 12 8)))
      ∧ u = t.cputs c (t.readWrites c ch)
      ∧ s.runWord c (mvWord ch v)
        = (u.gotoWord c (s.wordAddr c + 1)).withBeats (s.beats ++ [(s.started c ch v (s.wordAddr c)).nextBeat c ch])
      ∧ s.wordIssued (u.gotoWord c (s.wordAddr c + 1)) c (s.wordAddr c + 1)
          (moveFlds c ch (bitsOf v 12 8) ++ readFlds c (s.moveDesc c (bitsOf v 12 8))) := by
  have h := State.canonical_fld hs
  have hn : bitsOf v 12 8 < 32 := bitsOf_lt v 12 8
  obtain ⟨hI, hcount⟩ := issuing_started h c hch hop (s.wordAddr c)
  have hR := reads_started h hr.1.quiet hch hop (s.wordAddr c)
  have hmove := runningMove_started (c := c) h hch hop (s.wordAddr c)
  have hkey := beatKey_started (c := c) h hch hop (s.wordAddr c)
  obtain ⟨-, -, hsrc, -⟩ := started_channel h c hch hop (s.wordAddr c)
  have hup : (s.started c ch v (s.wordAddr c)).noUpsets ((s.started c ch v (s.wordAddr c)).beatKey c ch) 128 := by
    rw [hkey, State.noUpsets, hI.writes.eq_with_fld]
    exact hu
  have hcol := hR.portCollision (by rw [hmove, hsrc]; exact hbank)
  have hbeats := hI.writes.beats_eq
  obtain ⟨t, hw, htick⟩ := hR.tick hI.ordered hr.1.wf hup
  rw [hmove] at hw
  rw [hbeats] at htick
  have hcheck : (s.started c ch v (s.wordAddr c)).tickChecked c = (s.started c ch v (s.wordAddr c)).tick c := by
    simp only [State.tickChecked, hcol]
  generalize (s.started c ch v (s.wordAddr c)).nextBeat c ch = b at htick
  -- the state without the beat
  have hfree {g : Fld} (hg : g ∈ startFree) := apart_started hr.1.wf hch hn (s.moveDesc c (bitsOf v 12 8)) hg
  have hwu := writes_readWrites hw.ordered t c ch
  have hIu := (hI.of_writes hw (hfree (by decide)).2.1 (hfree (by decide)).2.1).of_writes hwu (hfree (by decide)).2.2 (hfree (by decide)).2.2
  refine ⟨t, _, hw, rfl, ?_, ?_⟩
  · have hadd : s.wordAddr c + 1 ≤ 2047 := hr.1.addr_lt
    have hI' : s.Issuing ((t.cputs c (t.readWrites c ch)).gotoWord c (s.wordAddr c + 1)) c _ :=
      State.gotoWord_of_le _ c hadd ▸ hIu.cput Reg.CORE_SCHED_STATUS.ADDR _ (by decide) (by decide)
    have hap {g : Fld} (hg : g ∈ startFree) (h1 : g.pos ≠ Reg.CORE_ISSUE_COUNT.COUNT.pos) (h2 : g.pos ≠ Reg.CORE_SCHED_STATUS.ADDR.pos) :
        Apart (coreFld c g) (moveFlds c ch (bitsOf v 12 8) ++ [coreFld c Reg.CORE_ISSUE_COUNT.COUNT]
          ++ readFlds c (s.moveDesc c (bitsOf v 12 8)) ++ (beatFs ch).map (coreFld c) ++ [coreFld c Reg.CORE_SCHED_STATUS.ADDR]) := by
      simp [hfree hg, h1, h2]
    have hnl : (t.cputs c (t.readWrites c ch)).noLoopEnds c (s.wordAddr c) := hIu.noLoopEnds hr.1.loops_le
      (fun g hg => by
        have hg' : g ∈ startFree := List.mem_append_left _ (List.mem_append_right _ hg)
        simp [hfree hg', (by decide : ∀ g ∈ loopEndFlds, g.pos ≠ Reg.CORE_ISSUE_COUNT.COUNT.pos) g hg]) hr.2
    generalize t.cputs c (t.readWrites c ch) = u at htick hIu hI' hnl
    have hseq : (u.withBeats (s.beats ++ [b])).sequence s c 0 (s.wordAddr c) = (u.gotoWord c (s.wordAddr c + 1)).withBeats (s.beats ++ [b]) := by
      refine (if_neg (by decide)).trans ((State.nextWord_goto 5 (s := u.withBeats (s.beats ++ [b])) hnl).trans ?_)
      rw [State.gotoWord_of_le _ _ hadd, State.gotoWord_of_le _ _ hadd]
      rfl
    have hslots : s.issueSlots c (mvWord ch v) (s.wordAddr c) = (u.gotoWord c (s.wordAddr c + 1)).withBeats (s.beats ++ [b]) := by
      rw [issueSlots_move hl.2 hch (hcheck.trans htick) hIu.state, hseq]
      exact State.afterIssue_running hI'.state
        ((hI'.cflag_eq (f := Core.PAST) (apart_mark (by decide)) (hap (by decide) (by decide) (by decide))).trans hr.1.past)
        ((hI'.cflag_eq (f := Core.STEPPING) (apart_mark (by decide)) (hap (by decide) (by decide) (by decide))).trans hr.1.stepping)
        ((hI'.cflag_eq (f := Reg.CORE_SCHED_CTL.BREAK_EN) (apart_mark (by decide)) (hap (by decide) (by decide) (by decide))).trans hr.1.breakOff)
    refine State.runWord_of_issueWord ?_ (hI'.not_stopping hr.1 (hap (by decide) (by decide) (by decide)))
    rw [hr.1.offered.issueWord_of_passes (passes_mv (wordFault_start hl hch hop h0 hm hr.1.quiet hring _)), hslots]
  · refine State.Issuing.wordIssued ⟨hIu.writes.mono ?_, hIu.state, hIu.slip⟩ ?_ hr.1.addr_lt
    · have hsub := beatFlds_subset c ch (bitsOf v 12 8)
      intro e he
      simp only [List.mem_append, List.mem_cons, List.not_mem_nil, or_false] at he ⊢
      rcases he with he | ((he | he) | he) | he
      · exact .inl he
      · exact .inr (.inr (.inl he))
      · exact .inr (.inl he)
      · exact .inr (.inr (.inr he))
      · exact .inr (.inr (.inl (hsub he)))
    · rw [hwu.cget_eq (hfree (by decide)).2.2, hw.cget_eq (hfree (by decide)).2.1, hcount]

end

theorem exec_start (c : CoreRef) (ch : Nat) (w : BitVec 24) (s : State) : exec (.start c ch w) s = .next (s.runWord c (mvWord ch (withField w.toNat 7 6 1))) := by
  rw [← oneSlot_mvWord (withField_lt (by decide) (by decide) (by decide) w.isLt)]
  rfl

/-- The fields of a start's slot are those of the row's bits. -/
theorem bitsOf_start (v : Nat) {hi lo : Nat} (h : 7 < lo) : bitsOf (withField v 7 6 1) hi lo = bitsOf v hi lo :=
  bitsOf_withField_other (by decide) (by decide) (.inr h)

theorem testBit_start (v : Nat) {i : Nat} (h : 7 < i) : (withField v 7 6 1).testBit i = v.testBit i :=
  testBit_withField_other (by decide) (by decide) (.inr h)

/-- The channel and the working addresses once the first beat is read and the core has gone on. -/
theorem start_fields (h : risingFrom 0 s.fld = true) (hc : c.wf = true) (hq : s.Quiet c) {v ch a : Nat} (hch : ch < 2) (hop : bitsOf v 7 6 = 1)
    (ha : a + 1 ≤ 2047) {d : MoveDesc} (hw : (s.started c ch v a).Writes t (readFlds c d)) :
    let u := (t.cputs c (t.readWrites c ch)).gotoWord c (a + 1)
    u.cflag c (Core.CH_BUSY ch) = !(s.started c ch v a).moveEnds c ch
      ∧ ∀ f ∈ [Core.MOVE_SRC (bitsOf v 12 8), Core.MOVE_DST (bitsOf v 12 8)], u.cget c f = (s.started c ch v a).cget c f := by
  have hn : bitsOf v 12 8 < 32 := bitsOf_lt v 12 8
  have hR := reads_started h hq hch hop a
  have hchan : ∀ f ∈ chanFs ch, Apart (coreFld c f) (readFlds c d) := fun f hf =>
    apart_readFlds hc (chanFs_pos hch f hf).1 (chanFs_pos hch f hf).2 _
  have hwu := writes_readWrites hw.ordered t c ch
  have hgo : (t.cputs c (t.readWrites c ch)).Writes ((t.cputs c (t.readWrites c ch)).gotoWord c (a + 1)) [coreFld c Reg.CORE_SCHED_STATUS.ADDR] :=
    State.gotoWord_of_le _ c ha ▸ (State.Writes.refl hwu.ordered).cput c Reg.CORE_SCHED_STATUS.ADDR (a + 1)
  have hbusy : Core.CH_BUSY ch ∈ chanFs ch := by simp [chanFs]
  refine ⟨?_, fun f hf => ?_⟩
  · rw [hgo.cflag_eq (by simpa using (chanFs_seq hch _ hbusy Reg.CORE_SCHED_STATUS.ADDR (by simp)).symm),
      busy_readWrites hw.ordered t c hch ((hw.cflag_eq (hchan _ hbusy)).trans hR.busy), hw.moveEnds_eq hchan]
  · obtain ⟨h1, h2, h3⟩ := (by decide : ∀ n < 32, ∀ f ∈ [Core.MOVE_SRC n, Core.MOVE_DST n], f.pos ≠ Reg.CORE_SCHED_STATUS.ADDR.pos
      ∧ f.pos ≠ Reg.CORE_SLIP_BANK.COUNT.pos ∧ f.pos + 47 * 2 ^ 22 < 0x1400200 * 64) _ hn f hf
    have hbeat : ∀ g ∈ beatFs ch, f.pos ≠ g.pos := fun g hg => (chanFs_table hch hn g (by
      simp only [beatFs, chanFs, List.mem_cons, List.not_mem_nil, or_false] at hg ⊢
      tauto) f hf).symm
    rw [hgo.cget_eq (by simpa using h1), hwu.cget_eq (apart_coreFlds hbeat), hw.cget_eq (apart_readFlds hc h2 h3 d)]

end Sys2Proof.Machine
end

section
/-! PROOFS. What a read of a range holds, and what a write of whole words leaves (R55, R165). -/

namespace Sys2Proof.Machine

variable {s t : State} {c : CoreRef}

/-! ### Reads of a range -/

theorem mapGet_cons_above {β : Type} (d : β) {k key : Nat} (h : k < key) (v : β) (m : SMap β) : mapGet d ((k, v) :: m) key = mapGet d m key := by
  rw [mapGet, if_neg (by omega), if_neg (by omega)]

/-- A run of values read from a map is the values at its keys. -/
theorem expand_eq {β : Type} (d : β) (n : Nat) {lo : Nat} {m : SMap β} (hm : risingFrom lo m = true) :
    expand d n lo m = (List.range n).map fun i => mapGet d m (lo + i) := by
  induction n generalizing lo m with
  | zero => rfl
  | succ n ih =>
    have hshift {m' : SMap β} (h : risingFrom (lo + 1) m' = true) :
        expand d n (lo + 1) m' = (List.range n).map fun i => mapGet d m' (lo + (i + 1)) := by
      rw [ih h]
      exact List.map_congr_left fun i _ => by rw [show lo + 1 + i = lo + (i + 1) by omega]
    rw [List.range_succ_eq_map, List.map_cons, List.map_map]
    cases m with
    | nil => exact congrArg (d :: ·) (hshift rfl)
    | cons e r =>
      obtain ⟨k, v⟩ := e
      obtain ⟨hk, hr⟩ := rising_cons.1 hm
      by_cases heq : k = lo
      · subst heq
        rw [expand, if_pos rfl, hshift hr]
        refine congrArg₂ _ (by simp [mapGet]) (List.map_congr_left fun i _ => ?_)
        exact (mapGet_cons_above d (by omega) v r).symm
      · have hm' : risingFrom (lo + 1) ((k, v) :: r) = true := rising_cons.2 ⟨by omega, hr⟩
        rw [expand, if_neg heq, hshift hm']
        exact congrArg₂ _ (mapGet_below d (by omega) hm').symm rfl

theorem mapRead_eq {β : Type} (d : β) {m : SMap β} (hm : risingFrom 0 m = true) (lo n : Nat) :
    mapRead d m lo n = (List.range n).map fun i => mapGet d m (lo + i) := by
  have hr : risingFrom lo (mapRange lo (lo + n) m) = true := by
    have hsplit : mapRange lo (lo + n) m = (m.filter fun e => decide (lo ≤ e.1)).filter fun e => decide (e.1 < lo + n) := by
      rw [mapRange, mapFilter, List.filter_filter]
      exact List.filter_congr fun e _ => Bool.and_comm ..
    exact hsplit ▸ rising_filter _ (rising_above hm)
  rw [mapRead, expand_eq d n hr]
  exact List.map_congr_left fun i hi => mapGet_filter d _ (by have := List.mem_range.1 hi; simp; omega) hm

/-- Bytes of an on-die memory read one by one. -/
theorem rd_eq (hs : s.canonical = true) (k n : Nat) : s.rd k n = (List.range n).map fun i => mapGet 0 s.sram (k + i) :=
  mapRead_eq 0 (wf_iff.1 (State.canonical_maps hs).2.2.1).1 k n

/-- A write reads back. -/
theorem rd_wrP (hs : s.canonical = true) (k : Nat) (bs : List (Byte × Bool)) : (s.wrP k bs).rd k bs.length = bs.map (·.1) := by
  rw [rd_eq (State.wrP_canonical k bs hs)]
  refine List.ext_getElem (by simp) fun i hi _ => ?_
  have hi' : i < bs.length := by simpa using hi
  rw [List.getElem_map, List.getElem_range, State.wrP_sram_in hs k bs hi']
  simp [hi']

/-! ### Writes -/

/-- A write is of the dies' memories and their marks alone. -/
theorem wrP_eq (s : State) (k : Nat) (bs : List (Byte × Bool)) :
    s.wrP k bs = { s with sram := (s.wrP k bs).sram, sramPoison := (s.wrP k bs).sramPoison, sramUpset := (s.wrP k bs).sramUpset } := by
  unfold State.wrP
  split <;> rfl

/-- A write leaves every byte outside it, and HBM. -/
theorem sameBytesBut_wrP (hs : s.canonical = true) (k : Nat) (bs : List (Byte × Bool)) : s.sameBytesBut (s.wrP k bs) k bs.length :=
  ⟨fun _ ha => State.wrP_sram_other hs k bs ha, by rw [wrP_eq], by rw [wrP_eq], by rw [wrP_eq]⟩

/-- A word that a write covers takes the marks of its own bytes (R165). -/
theorem markAfter_covered (s : State) {k i : Nat} {ps : List Bool} (hk : k % 8 = 0) (hi : 8 * i + 8 ≤ ps.length) :
    markAfter s k ps (k / 8 + i) = if ((ps.drop (8 * i)).take 8).any id then 1 else 0 := by
  have hlo : max k (8 * (k / 8 + i)) = k + 8 * i := by omega
  have hhi : min (k + ps.length) (8 * (k / 8 + i) + 8) = k + 8 * i + 8 := by omega
  simp only [markAfter, hlo, hhi, show k + 8 * i - k = 8 * i by omega, show k + 8 * i + 8 - (k + 8 * i) = 8 by omega, Nat.lt_irrefl,
    decide_false, Bool.false_and, Bool.or_false]

/-- The mark of a word after a write of whole words. -/
theorem sramPoison_wrP (hs : s.canonical = true) {k i n : Nat} {bs : List (Byte × Bool)} (hk : k % 8 = 0) (hn : bs.length = 8 * n) (hi : i < n) :
    mapGet 0 (s.wrP k bs).sramPoison (k / 8 + i) = if (((bs.map (·.2)).drop (8 * i)).take 8).any id then 1 else 0 := by
  obtain ⟨-, -, -, -, -, -, hp, -⟩ := State.canonical_maps hs
  have hbs : ¬ bs.isEmpty = true := by rw [List.isEmpty_iff_length_eq_zero]; omega
  have hcount : (k + bs.length - 1) / 8 + 1 - k / 8 = n := by omega
  rw [State.wrP, if_neg hbs]
  dsimp only
  rw [hcount, mapGet_write_in 0 (wf_iff.1 hp).1 _ _ (by simpa using hi), ← markAfter_covered s hk (by simp; omega)]
  simp [hi]

end Sys2Proof.Machine
end

section
/-! PROOFS. The two halves of a move (O17): its start, and the write of its last beat (R42, R53–R55, R165). -/

namespace Sys2Proof.Machine

variable {s t : State} {c : CoreRef}

/-! ### The start -/

/-- `START` reads the first beat and sends it on its way. -/
theorem start_sends {w : BitVec 24} {ch : Nat} (hs : s.canonical = true) (hr : s.coreReady c) (hl : s.slotLive c w.toNat) (hch : ch < 2) :
    let n := bitsOf w.toNat 12 8
    let d := s.moveDesc c n
    let src := s.cget c (Core.MOVE_SRC n)
    let dst := s.cget c (Core.MOVE_DST n)
    let key := moveKey c d.srcSpace d.srcOther src
    let adv := w.toNat.testBit 18
    let last := decide (d.beats * d.rows = 1)
    let q : CluRef := ⟨c.site, if d.srcOther then 1 - c.core / 24 else c.core / 24⟩
    bitsOf w.toNat 23 19 = 0 → s.moveLegal c n → (w.toNat.testBit 17 = true → s.ringCounter c (bitsOf w.toNat 16 13) = false) →
    s.noUpsets key 128 → (d.srcSpace = 1 → spBank src ≠ spBank (src + 1)) →
    ∃ u b, exec (.start c ch w) s = .next u ∧ u = { s with fld := u.fld, beats := s.beats ++ [b] }
      ∧ s.coreGoesOn u c (s.wordAddr c + 1) (moveFlds c ch n ++ if d.srcSpace = 0 then bankFlds c q else [])
      ∧ b.owner = c ∧ b.channel = ch ∧ b.left = (if d.srcOther || d.dstOther then 8 else 6) ∧ b.space = d.dstSpace ∧ b.other = d.dstOther
      ∧ b.addr = dst ∧ b.data = s.rd key 128 ∧ b.poison = poisonMask (s.rdP key 128) ∧ b.last = last
      ∧ b.counter = bitsOf w.toNat 16 13 ∧ b.countEn = w.toNat.testBit 17
      ∧ u.cflag c (Core.CH_BUSY ch) = !last
      ∧ u.cget c (Core.MOVE_SRC n) = (if adv then (((src : Int) + d.srcInc) % 2 ^ 20).toNat else src)
      ∧ u.cget c (Core.MOVE_DST n) = (if adv then (((dst : Int) + d.dstInc) % 2 ^ 20).toNat else dst) := by
  intro n d src dst key adv last q h0 hm hring hu hbank
  have h := State.canonical_fld hs
  obtain ⟨-, -, hbeats, hrows, -⟩ := id hm
  have hop : bitsOf (withField w.toNat 7 6 1) 7 6 = 1 := bitsOf_withField_same (by decide) (by decide)
  have hn : bitsOf (withField w.toNat 7 6 1) 12 8 = n := bitsOf_start _ (by decide)
  have hctr : bitsOf (withField w.toNat 7 6 1) 16 13 = bitsOf w.toNat 16 13 := bitsOf_start _ (by decide)
  have hen : (withField w.toNat 7 6 1).testBit 17 = w.toNat.testBit 17 := testBit_start _ (by decide)
  have hadv : (withField w.toNat 7 6 1).testBit 18 = adv := testBit_start _ (by decide)
  have hexec := exec_start c ch w s
  have hlv : s.slotLive c (withField w.toNat 7 6 1) := slotLive_withField hl (by decide) (by decide) (by decide)
  have h0v : bitsOf (withField w.toNat 7 6 1) 23 19 = 0 := (bitsOf_start _ (by decide)).trans h0
  generalize withField w.toNat 7 6 1 = v at *
  obtain ⟨t, u, hw, rfl, hrun, hiss, hfld⟩ := runWord_start hs hr hlv hch hop h0v (hn ▸ hm) (by rw [hen, hctr]; exact hring) (by rw [hn]; exact hu)
    (by rw [hn]; exact hbank)
  have hends := moveEnds_started (c := c) h hch hop (s.wordAddr c) (hn ▸ hbeats) (hn ▸ hrows)
  obtain ⟨⟨hleft, hspace, hother, haddr⟩, ⟨hdata, hpoison⟩, hcounter, hcountEn⟩ := nextBeat_started (c := c) h hch hop (s.wordAddr c)
  obtain ⟨hbusy, htable⟩ := start_fields h hr.1.wf hr.1.quiet hch hop hr.1.addr_lt hw
  obtain ⟨hsrc, hdst⟩ := cget_started_table h c hch hop (s.wordAddr c)
  simp only [State.moveStart, hn, hadv] at hsrc hdst
  rw [hn] at hiss hends hleft hspace hother haddr hdata hpoison htable
  rw [hends] at hbusy
  refine ⟨_, _, hexec.trans (congrArg _ hrun), ?_, hiss, rfl, rfl, hleft, hspace, hother, haddr, hdata, hpoison, hends, hcounter.trans hctr,
    hcountEn.trans hen, hbusy, ?_, ?_⟩
  · rw [hfld]
    rfl
  · exact (htable _ (by simp)).trans hsrc
  · exact (htable _ (by simp)).trans hdst

/-! ### The write of a beat -/

/-- Where a beat is written. -/
def Beat.key (b : Beat) : Nat := moveKey b.owner b.space b.other b.addr

/-- The bytes of a beat with their poison marks. -/
def Beat.bytes (b : Beat) : List (Byte × Bool) := b.data.zipIdx.map fun p => (p.1, b.poison.testBit p.2)

/-- The field of the counter that a move increments. -/
def Beat.counterFld (b : Beat) : Fld := Reg.CORE_CCOUNT.VALUE b.counter

@[simp] theorem Beat.length_bytes (b : Beat) : b.bytes.length = b.data.length := by simp [Beat.bytes]

theorem Beat.bytes_data (b : Beat) : b.bytes.map (·.1) = b.data := by
  refine List.ext_getElem (by simp) fun i _ _ => by simp [Beat.bytes]

theorem Beat.bytes_poison (b : Beat) : b.bytes.map (·.2) = (List.range b.data.length).map b.poison.testBit := by
  refine List.ext_getElem (by simp) fun i _ _ => by simp [Beat.bytes]

/-- A word of a beat is poisoned where the beat's poison has one of its bytes. -/
theorem Beat.any_poison (b : Beat) {i : Nat} (hi : 8 * i + 8 ≤ b.data.length) :
    (((b.bytes.map (·.2)).drop (8 * i)).take 8).any id = true ↔ ∃ j < 8, b.poison.testBit (8 * i + j) = true := by
  have hword : ((List.range b.data.length).drop (8 * i)).take 8 = List.range' (8 * i) 8 :=
    List.ext_getElem (by simp; omega) fun j _ _ => by simp
  rw [b.bytes_poison, ← List.map_drop, ← List.map_take, hword]
  simp only [List.any_map, List.any_eq_true, List.mem_range'_1, Function.comp_apply, id]
  constructor
  · rintro ⟨x, ⟨hlo, hhi⟩, hx⟩
    exact ⟨x - 8 * i, by omega, by rwa [Nat.add_sub_cancel' hlo]⟩
  · rintro ⟨j, hj, hx⟩
    exact ⟨8 * i + j, ⟨by omega, by omega⟩, hx⟩

/-- Beats are written at whole words. -/
theorem moveKey_mod (c : CoreRef) (sp : Nat) (other : Bool) (unit : Nat) : moveKey c sp other unit % 8 = 0 := by
  unfold moveKey
  split <;> simp only [cluKey, coreKey, sramKey] <;> omega

/-- The write of a move's last beat: its bytes, and 1 more in its counter where that is enabled (R42, R55). -/
theorem writeBeat_last (h : risingFrom 0 s.fld = true) {b : Beat} (hl : b.last = true) (hv : s.cget b.owner b.counterFld < 0xFFFFFF) :
    (s.wrP b.key b.bytes).Writes (s.writeBeat b) [coreFld b.owner b.counterFld]
      ∧ (s.writeBeat b).cget b.owner b.counterFld = s.cget b.owner b.counterFld + (if b.countEn then 1 else 0) := by
  have hfld : (s.wrP b.key b.bytes).fld = s.fld := by rw [wrP_eq]
  have ht : risingFrom 0 (s.wrP b.key b.bytes).fld = true := hfld ▸ h
  have hval : (s.wrP b.key b.bytes).cget b.owner b.counterFld = s.cget b.owner b.counterFld := by rw [wrP_eq]; rfl
  have hdef : s.writeBeat b = if b.last ∧ b.countEn then (s.wrP b.key b.bytes).addCounter b.owner b.counter 1 else s.wrP b.key b.bytes := rfl
  rw [hdef]
  cases hen : b.countEn
  · rw [if_neg (by simp)]
    exact ⟨(State.Writes.refl ht).mono (by simp), hval⟩
  · have hadd : (s.wrP b.key b.bytes).addCounter b.owner b.counter 1
        = (s.wrP b.key b.bytes).cput b.owner b.counterFld (s.cget b.owner b.counterFld + 1) := by
      rw [← hval] at hv ⊢
      exact if_pos (show (s.wrP b.key b.bytes).cget b.owner b.counterFld + 1 ≤ 0xFFFFFF by omega)
    rw [if_pos ⟨hl, rfl⟩, hadd]
    exact ⟨(State.Writes.refl ht).cput _ _ _, State.cget_cput_of_lt ht _ _ (show _ < 2 ^ 24 by omega)⟩

/-- A channel whose reads are done and that has one beat on its way finishes its move with the write of that beat (R55). -/
theorem finishMove_single {ch : Nat} {b : Beat} (hb : s.cget c (Core.CH_BUSY ch) = 0)
    (h : (s.beats.filter fun x => x.owner == c && x.channel == ch) = [b]) :
    s.finishMove c ch = (s.withBeats (s.beats.filter fun x => !(x.owner == c && x.channel == ch))).writeBeat b := by
  have hbusy : s.cflag c (Core.CH_BUSY ch) = false := (State.cflag_false_iff s c (Core.CH_BUSY ch) rfl).2 hb
  have hold : s.oldestMove c ch = some b.order := by
    simp only [State.oldestMove, ← List.head?_filter, h, List.head?_cons]
  have hmine : ∀ x ∈ s.beats, (x.owner == c && x.channel == ch && x.order == b.order) = (x.owner == c && x.channel == ch) := fun x hx => by
    cases hx' : x.owner == c && x.channel == ch
    · rfl
    · have : x ∈ [b] := h ▸ List.mem_filter.2 ⟨hx, hx'⟩
      rw [List.mem_singleton.1 this]
      simp
  have hkept : (s.beats.filter fun x => !(x.owner == c && x.channel == ch && x.order == b.order))
      = s.beats.filter fun x => !(x.owner == c && x.channel == ch) := List.filter_congr fun x hx => congrArg _ (hmine x hx)
  simp only [State.finishMove, hold, hbusy, Bool.false_eq_true, false_and, if_false, List.filter_congr hmine, h, hkept]
  rfl

/-- Settles O17: a start sends the first beat on its way with its data and poison; the write of the last beat of a move puts its bytes and their
poison at the destination and counts it. -/
theorem movesReadAndWriteBeats : Obligations.MovesReadAndWriteBeats := by
  refine ⟨fun s c w ch hs hr hl hch => start_sends hs hr hl hch, ?_⟩
  intro s c ch b hs _ hch hstate hsusp hbusy hone hlen hlast hval k
  have hc : b.owner = c := by
    have : b ∈ s.beats.filter fun x => x.owner == c && x.channel == ch := hone ▸ List.mem_singleton_self b
    simp at this
    exact this.2.1
  subst hc
  have hlen' : b.bytes.length = 128 := b.length_bytes.trans hlen
  generalize hrest : (s.beats.filter fun x => !(x.owner == b.owner && x.channel == ch)) = rest
  have hs' : (s.withBeats rest).canonical = true := hs
  obtain ⟨hw, hcount⟩ := writeBeat_last (s := s.withBeats rest) (State.canonical_fld hs) hlast hval
  have hexec : exec (.moveComplete b.owner ch) s = .next ((s.withBeats rest).writeBeat b) := by
    have hgo : ¬ (s.cget b.owner Reg.CORE_SCHED_STATUS.STATE = 5 ∨ s.cflag b.owner (Core.CH_SUSP ch) = true) := 
      not_or.2 ⟨hstate, Bool.not_eq_true _ ▸ (State.cflag_false_iff s b.owner (Core.CH_SUSP ch) rfl).2 hsusp⟩
    have hdef : exec (.moveComplete b.owner ch) s = execMoveComplete b.owner ch s := rfl
    rw [hdef, execMoveComplete, Nat.mod_eq_of_lt hch, if_neg hgo, finishMove_single hbusy hone, hrest]
  have hread (n : Nat) : ((s.withBeats rest).writeBeat b).rd b.key n = ((s.withBeats rest).wrP b.key b.bytes).rd b.key n := by
    rw [hw.eq_with_fld]; rfl
  refine ⟨_, hexec, ?_, ?_, fun i hi => ?_, ?_, hcount, ?_⟩
  · have := rd_wrP hs' b.key b.bytes
    rw [hlen', b.bytes_data] at this
    exact (hread 128).trans this
  · have := sameBytesBut_wrP hs' b.key b.bytes
    rw [hlen'] at this
    rw [hw.eq_with_fld]
    exact this
  · have hmark := sramPoison_wrP hs' (moveKey_mod b.owner b.space b.other b.addr) (n := 16) hlen' hi
    rw [hw.eq_with_fld, ← b.any_poison (hlen ▸ (by omega : 8 * i + 8 ≤ 128))]
    exact hmark ▸ by simp
  · rw [hw.beats_eq, wrP_eq]
    rfl
  · intro site f hne
    refine (hw.only.2 site f hne).trans ?_
    rw [wrP_eq]
    rfl

end Sys2Proof.Machine
end

section
/-! PROOFS. Words without poison and upset bits, and what an engine that reads and writes only such words leaves (R60, R142, R165). -/

namespace Sys2Proof.Machine

variable {s t u : State} {c : CoreRef}

/-! ### Ranges without marks -/

/-- A map lists no key of a range. -/
theorem mapRange_eq_nil {β : Type} {lo hi : Nat} {m : SMap β} : mapRange lo hi m = [] ↔ ∀ e ∈ m, lo ≤ e.1 → hi ≤ e.1 := by
  simp [mapRange, mapFilter, List.filter_eq_nil_iff]

theorem mapGet_not_listed {β : Type} (d : β) {m : SMap β} {key : Nat} (h : ∀ e ∈ m, e.1 ≠ key) : mapGet d m key = d := by
  induction m with
  | nil => rfl
  | cons e m ih =>
    obtain ⟨k, v⟩ := e
    have hk : k ≠ key := h (k, v) (by simp)
    simp [mapGet, hk.symm, ih fun e he => h e (by simp [he])]

/-- The words of a range carry no mark. -/
theorem wordsIn_eq_nil {m : SMap Nat} {k n : Nat} : wordsIn m k n = [] ↔ n = 0 ∨ mapRange (k / 8) ((k + n - 1) / 8 + 1) m = [] := by
  unfold wordsIn
  split <;> simp [*]

theorem wordsIn_sub {m : SMap Nat} {k n k' n' : Nat} (h : wordsIn m k n = []) (hk : k ≤ k') (hn : k' + n' ≤ k + n) : wordsIn m k' n' = [] := by
  rw [wordsIn_eq_nil] at h ⊢
  rcases Nat.eq_zero_or_pos n' with h0 | h0
  · exact .inl h0
  · rcases h with h | h
    · omega
    · rw [mapRange_eq_nil] at h ⊢
      exact .inr fun e he hlo => by have := h e he (by omega); omega

theorem State.cleanRange.sub {k n k' n' : Nat} (h : s.cleanRange k n) (hk : k ≤ k') (hn : k' + n' ≤ k + n) : s.cleanRange k' n' :=
  ⟨wordsIn_sub h.1 hk hn, wordsIn_sub h.2 hk hn⟩

/-- A word of a clean range is delivered without poison (R164). -/
theorem State.cleanRange.wordPoison {k n w : Nat} (h : s.cleanRange k n) (hn : n ≠ 0) (hlo : k / 8 ≤ w) (hhi : w ≤ (k + n - 1) / 8) :
    s.wordPoison w = false := by
  obtain ⟨hu, hp⟩ := h
  have hget {m : SMap Nat} (hm : wordsIn m k n = []) : mapGet 0 m w = 0 := by
    have hr := mapRange_eq_nil.1 ((wordsIn_eq_nil.1 hm).resolve_left hn)
    exact mapGet_not_listed 0 fun e he hew => by have := hr e he (by omega); omega
  simp [State.wordPoison, State.wordBad, hget hu, hget hp]

theorem State.cleanRange.rangePoison {k n : Nat} (h : s.cleanRange k n) : s.rangePoison k n = false := by
  obtain ⟨hu, hp⟩ := h
  rcases Nat.eq_zero_or_pos n with h0 | h0
  · simp [State.rangePoison, h0]
  · have hu' := (wordsIn_eq_nil.1 hu).resolve_left (by omega)
    have hp' := (wordsIn_eq_nil.1 hp).resolve_left (by omega)
    simp [State.rangePoison, hu', hp']

/-- A read of clean words as an operand changes nothing (R60). -/
theorem State.cleanRange.operandRead {k n : Nat} (h : s.cleanRange k n) (c : CoreRef) : s.operandRead c k n = s := by
  obtain ⟨hu, hp⟩ := h
  unfold State.noUpsets at hu
  simp [State.operandRead, State.firstPoison, State.firstBad, State.checkRange, hu, hp]

/-! ### Writes without poison -/

/-- Bytes that are written without poison. -/
def NoPoison (bs : List (Byte × Bool)) : Prop := ∀ b ∈ bs, b.2 = false

theorem noPoison_map {bs : List Byte} {p : Bool} (hp : p = false) : NoPoison (bs.map fun b => (b, p)) := by
  intro b hb
  obtain ⟨x, -, rfl⟩ := List.mem_map.1 hb
  exact hp

theorem NoPoison.any {bs : List (Byte × Bool)} (h : NoPoison bs) : bs.any (·.2) = false := by simpa [NoPoison] using h

/-- An engine's write without poison logs nothing (R169). -/
theorem engineWrite_noPoison {bs : List (Byte × Bool)} (h : NoPoison bs) (s : State) (c : CoreRef) (k : Nat) : s.engineWrite c k bs = s.wrP k bs := by
  have hn : bs.findIdx? (·.2) = none := List.findIdx?_eq_none_iff.2 fun b hb => h b hb
  simp [State.engineWrite, hn]

theorem entriesOf_listed {d lo : Nat} {vs : List Nat} {e : Nat × Nat} (he : e ∈ entriesOf d lo vs) :
    lo ≤ e.1 ∧ vs[e.1 - lo]? = some e.2 ∧ e.2 ≠ d := by
  induction vs generalizing lo with
  | nil => simp [entriesOf] at he
  | cons v vs ih =>
    have hstep (h : e ∈ entriesOf d (lo + 1) vs) : lo ≤ e.1 ∧ (v :: vs)[e.1 - lo]? = some e.2 ∧ e.2 ≠ d := by
      obtain ⟨h1, h2, h3⟩ := ih h
      refine ⟨by omega, ?_, h3⟩
      rw [show e.1 - lo = e.1 - (lo + 1) + 1 by omega]
      exact h2
    unfold entriesOf at he
    split at he
    · exact hstep he
    · rcases List.mem_cons.1 he with rfl | he
      · simpa
      · exact hstep he

/-- A word without poison keeps none after a write without poison (R165). -/
theorem markAfter_noPoison {k w : Nat} {ps : List Bool} (hps : ∀ p ∈ ps, p = false) (hw : s.wordPoison w = false) : markAfter s k ps w = 0 := by
  have hany (a b : Nat) : ((ps.drop a).take b).any id = false :=
    List.any_eq_false.2 fun p hp => by simp [hps p (List.mem_of_mem_drop (List.mem_of_mem_take hp))]
  simp [markAfter, hany, hw]

/-- A write without poison leaves clean ranges clean. -/
theorem State.cleanRange.wrP {k n a : Nat} {bs : List (Byte × Bool)} (h : s.cleanRange k n) (hbs : NoPoison bs) : (s.wrP a bs).cleanRange k n := by
  rcases Nat.eq_zero_or_pos n with h0 | h0
  · simp [State.cleanRange, State.noUpsets, wordsIn, h0]
  have hword := fun w => h.wordPoison (w := w) (by omega)
  obtain ⟨hu, hp⟩ := h
  have hps : ∀ p ∈ bs.map (·.2), p = false := by simpa [NoPoison] using hbs
  unfold State.wrP
  split
  · exact ⟨hu, hp⟩
  · unfold State.noUpsets at hu
    rw [wordsIn_eq_nil, mapRange_eq_nil] at hu hp
    unfold State.cleanRange State.noUpsets
    rw [wordsIn_eq_nil, wordsIn_eq_nil, mapRange_eq_nil, mapRange_eq_nil]
    refine ⟨.inr fun e he hlo => hu.resolve_left (by omega) e (List.mem_filter.1 he).1 hlo, .inr fun e he hlo => ?_⟩
    rcases List.mem_append.1 he with he | he
    · rcases List.mem_append.1 he with he | he
      · exact hp.resolve_left (by omega) e (List.mem_filter.1 he).1 hlo
      · obtain ⟨h1, h2, h3⟩ := entriesOf_listed he
        by_contra hhi
        obtain ⟨_, hval⟩ := List.getElem?_eq_some_iff.1 h2
        rw [List.getElem_map, List.getElem_range, show a / 8 + (e.1 - a / 8) = e.1 by omega,
          markAfter_noPoison hps (hword e.1 hlo (by omega))] at hval
        exact h3 hval.symm
    · exact hp.resolve_left (by omega) e (List.mem_filter.1 he).1 hlo

/-! ### What an engine changes -/

/-- `t` comes from `s` by writes of the listed fields and of bytes of `[k, k + n)`, which leave clean ranges clean. -/
structure State.Engine (s t : State) (es : List (Nat × Fld)) (k n : Nat) : Prop where
  frame : t = { s with fld := t.fld, sram := t.sram, sramPoison := t.sramPoison, sramUpset := t.sramUpset }
  fields : s.sameFields t es
  bytes : s.sameBytesBut t k n
  canonical : t.canonical = true
  clean : ∀ a m, s.cleanRange a m → t.cleanRange a m

namespace State.Engine
variable {es fs : List (Nat × Fld)} {k n : Nat}

theorem refl (hs : s.canonical = true) : s.Engine s es k n :=
  ⟨rfl, fun _ _ _ => rfl, ⟨fun _ _ => rfl, rfl, rfl, rfl⟩, hs, fun _ _ h => h⟩

theorem trans (h : s.Engine t es k n) (g : t.Engine u es k n) : s.Engine u es k n where
  frame := by rw [g.frame, h.frame]
  fields := fun site f hne => (g.fields site f hne).trans (h.fields site f hne)
  bytes := by
    obtain ⟨hb, h1, h2, h3⟩ := h.bytes
    obtain ⟨gb, g1, g2, g3⟩ := g.bytes
    exact ⟨fun a ha => (gb a ha).trans (hb a ha), g1.trans h1, g2.trans h2, g3.trans h3⟩
  canonical := g.canonical
  clean := fun a m hc => g.clean a m (h.clean a m hc)

theorem mono (h : s.Engine t es k n) (hes : es ⊆ fs) : s.Engine t fs k n :=
  { h with fields := fun site f hne => h.fields site f fun e he => hne e (hes he) }

theorem get_eq (h : s.Engine t es k n) {e : Nat × Fld} (he : Apart e es) : t.get e.1 e.2 = s.get e.1 e.2 := h.fields _ _ he

theorem cget_eq (h : s.Engine t es k n) {f : Fld} (he : Apart (coreFld c f) es) : t.cget c f = s.cget c f := h.get_eq he

theorem ordered (h : s.Engine t es k n) : risingFrom 0 t.fld = true := State.canonical_fld h.canonical

theorem beats_eq (h : s.Engine t es k n) : t.beats = s.beats := by rw [h.frame]
theorem flights_eq (h : s.Engine t es k n) : t.flights = s.flights := by rw [h.frame]

/-- Writes of fields. -/
theorem of_writes (hs : s.canonical = true) (h : s.Writes t es) : s.Engine t es k n where
  frame := by rw [h.eq_with_fld]
  fields := h.only.2
  bytes := by rw [h.eq_with_fld]; exact ⟨fun _ _ => rfl, rfl, rfl, rfl⟩
  canonical := by
    obtain ⟨-, hr⟩ := State.canonical_maps hs
    rw [h.eq_with_fld]
    exact State.canonical_of_maps ⟨h.ordered, hr⟩
  clean := by rw [h.eq_with_fld]; exact fun _ _ hc => hc

theorem cput (hs : s.canonical = true) (f : Fld) (v : Nat) (hf : coreFld c f ∈ es) : s.Engine (s.cput c f v) es k n :=
  of_writes hs (((State.Writes.refl (State.canonical_fld hs)).cput c f v).mono (by simpa using hf))

/-- A write without poison. -/
theorem wrP (hs : s.canonical = true) {a : Nat} {bs : List (Byte × Bool)} (hbs : NoPoison bs) (hlo : k ≤ a) (hhi : a + bs.length ≤ k + n) :
    s.Engine (s.wrP a bs) es k n where
  frame := by rw [wrP_eq]
  fields := by intro site f _; rw [wrP_eq]; rfl
  bytes := by
    obtain ⟨hb, hr⟩ := sameBytesBut_wrP hs a bs
    exact ⟨fun x hx => hb x (by omega), hr⟩
  canonical := State.wrP_canonical a bs hs
  clean := fun _ _ hc => hc.wrP hbs

end State.Engine

/-- The state with other uses of engines under way. -/
def State.withFlights (s : State) (fs : List EngineUse) : State := { s with flights := fs }

/-- What an engine changes does not depend on what is under way. -/
theorem State.Engine.withFlights {es : List (Nat × Fld)} {k n : Nat} (h : s.Engine t es k n) (fs : List EngineUse) :
    (s.withFlights fs).Engine (t.withFlights fs) es k n := by
  obtain ⟨hf, hfields, hbytes, hcanonical, hclean⟩ := h
  exact ⟨by rw [hf]; rfl, hfields, hbytes, hcanonical, hclean⟩

end Sys2Proof.Machine
end

section
/-! PROOFS. Where the descriptors of a pass that breaks no check lie: the rows and blocks of its tensors in their buffers (R121–R125). -/

namespace Sys2Proof.Machine

variable {s t : State} {c : CoreRef}

theorem Fmt.blockBytes_pos (f : Fmt) : 0 < f.blockBytes := by cases f <;> decide

/-! ### Rows between the corners -/

/-- Over a run of indices a term lies between those of the first and the last one. -/
theorem term_between {a n : Nat} (ha : a < n) (st : Int) :
    (∃ m ∈ [0, n - 1], (m : Int) * st ≤ a * st) ∧ ∃ m ∈ [0, n - 1], (a : Int) * st ≤ m * st := by
  have hlo : (0 : Int) ≤ a := by omega
  have hhi : (a : Int) ≤ (n - 1 : Nat) := by omega
  rcases Int.le_total 0 st with hst | hst
  · exact ⟨⟨0, by simp, Int.mul_le_mul_of_nonneg_right hlo hst⟩, ⟨n - 1, by simp, Int.mul_le_mul_of_nonneg_right hhi hst⟩⟩
  · exact ⟨⟨n - 1, by simp, Int.mul_le_mul_of_nonpos_right hhi hst⟩, ⟨0, by simp, Int.mul_le_mul_of_nonpos_right hlo hst⟩⟩

/-- A row of the traversal. -/
structure TDesc.IsRow (d : TDesc) (row : Int) : Prop where
  lower : ∃ a ∈ d.corners, a ≤ row
  upper : ∃ a ∈ d.corners, row ≤ a
  aligned : d.badBlock = false → d.fmt.block = true → (d.fmt.blockBytes : Int) ∣ row - d.base

theorem TDesc.isRow_rowAddr (d : TDesc) {a b e : Nat} (ha : a < d.size 1) (hb : b < d.size 2) (he : e < d.size 3) : d.IsRow (d.rowAddr a b e) := by
  have hmem {a b e : Nat} (ha : a ∈ [0, d.size 1 - 1]) (hb : b ∈ [0, d.size 2 - 1]) (he : e ∈ [0, d.size 3 - 1]) : d.rowAddr a b e ∈ d.corners :=
    List.mem_flatMap.2 ⟨a, ha, List.mem_flatMap.2 ⟨b, hb, List.mem_map.2 ⟨e, he, rfl⟩⟩⟩
  obtain ⟨⟨a1, ha1, hla⟩, a2, ha2, hua⟩ := term_between ha (d.stride 1)
  obtain ⟨⟨b1, hb1, hlb⟩, b2, hb2, hub⟩ := term_between hb (d.stride 2)
  obtain ⟨⟨e1, he1, hle⟩, e2, he2, hue⟩ := term_between he (d.stride 3)
  refine ⟨⟨_, hmem ha1 hb1 he1, by unfold TDesc.rowAddr; omega⟩, ⟨_, hmem ha2 hb2 he2, by unfold TDesc.rowAddr; omega⟩, fun hbad hblk => ?_⟩
  simp only [TDesc.badBlock, hblk, Bool.true_and, Bool.or_eq_false_iff, bne_eq_false_iff_eq] at hbad
  obtain ⟨⟨⟨⟨⟨⟨-, h1⟩, h2⟩, h3⟩, -⟩, -⟩, -⟩ := hbad
  have hrow : d.rowAddr a b e - d.base = a * d.stride 1 + b * d.stride 2 + e * d.stride 3 := by unfold TDesc.rowAddr; ring
  exact hrow ▸ dvd_add (dvd_add (Dvd.dvd.mul_left (Int.dvd_of_emod_eq_zero h1) _) (Dvd.dvd.mul_left (Int.dvd_of_emod_eq_zero h2) _))
    (Dvd.dvd.mul_left (Int.dvd_of_emod_eq_zero h3) _)

/-! ### Descriptors of a pass -/

/-- What the checks say of a descriptor of a pass over X (R121, R123, R125, R143). -/
structure TDesc.Fits (d x : TDesc) : Prop where
  space : d.space < 3
  tbuf : d.tbuf < 4
  goodBlock : d.badBlock = false
  size : ∀ k < 4, d.size k = x.size k ∧ 0 < d.size k
  inSpace : d.inSpace = true

namespace TDesc.Fits
variable {d x : TDesc}

theorem size_eq (h : d.Fits x) {k : Nat} (hk : k < 4) : d.size k = x.size k := (h.size k hk).1

theorem rowIdx_eq (h : d.Fits x) (r : Nat) : d.rowIdx r = x.rowIdx r := by
  simp only [TDesc.rowIdx, h.size_eq (show 1 < 4 by decide), h.size_eq (show 2 < 4 by decide)]

/-- A row of the pass. -/
theorem isRow (h : d.Fits x) {r : Nat} (hr : r < x.rows) : d.IsRow (d.rowAddr (x.rowIdx r).1 (x.rowIdx r).2.1 (x.rowIdx r).2.2) := by
  obtain ⟨h1, hp1⟩ := h.size 1 (by decide)
  obtain ⟨h2, hp2⟩ := h.size 2 (by decide)
  obtain ⟨h3, hp3⟩ := h.size 3 (by decide)
  rw [h1] at hp1
  rw [h2] at hp2
  refine d.isRow_rowAddr (h1 ▸ Nat.mod_lt _ hp1) (h2 ▸ Nat.mod_lt _ hp2) (h3 ▸ ?_)
  exact Nat.div_lt_of_lt_mul hr

/-- A row lies in the space. -/
theorem row_in (h : d.Fits x) {row : Int} (hrow : d.IsRow row) : 0 ≤ row ∧ row + d.rowBytes ≤ spaceSize d.space := by
  obtain ⟨a, ha, hla⟩ := hrow.lower
  obtain ⟨b, hb, hub⟩ := hrow.upper
  have hin := List.all_eq_true.1 h.inSpace
  have h1 := hin a ha
  have h2 := hin b hb
  simp only [Bool.and_eq_true, decide_eq_true_eq] at h1 h2
  omega

/-- So does its side data. -/
theorem side_in (h : d.Fits x) (hblk : d.fmt.block = true) {row : Int} (hrow : d.IsRow row) :
    0 ≤ d.sideAddr (row - d.base) ∧ d.sideAddr (row - d.base + d.rowBytes) ≤ spaceSize d.space := by
  have hmono {o o' : Int} (ho : o ≤ o') : d.sideAddr o ≤ d.sideAddr o' :=
    Int.add_le_add_left (Int.mul_le_mul_of_nonneg_right (Int.ediv_le_ediv (mod_cast d.fmt.blockBytes_pos) ho) (by omega)) _
  obtain ⟨a, ha, hla⟩ := hrow.lower
  obtain ⟨b, hb, hub⟩ := hrow.upper
  have hin := List.all_eq_true.1 h.inSpace
  have h1 := hin a ha
  have h2 := hin b hb
  simp only [hblk, Bool.not_true, Bool.false_or, Bool.and_eq_true, decide_eq_true_eq] at h1 h2
  have hlo := hmono (show a - d.base ≤ row - d.base by omega)
  have hhi := hmono (show row - d.base + d.rowBytes ≤ b - d.base + d.rowBytes by omega)
  omega

end TDesc.Fits

end Sys2Proof.Machine
end

section
/-! PROOFS. The ranges that the chunks of a pass read and write, in the memories of its core (R122, R123, R130, R135). -/

namespace Sys2Proof.Machine

variable {s t : State} {c : CoreRef} {d x : TDesc} {row : Int} {p n : Nat}

/-! ### Elements and blocks of a row -/

/-- Bytes of elements of a row without blocks. -/
theorem TDesc.elems_le (hblk : d.fmt.block = false) (hb : d.bcast = false) (hp : p % 32 = 0) (hn : p + n ≤ d.size 0) :
    p * d.fmt.bits / 8 + (n * d.fmt.bits + 7) / 8 ≤ d.rowBytes := by
  have hle : p * d.fmt.bits + n * d.fmt.bits ≤ d.size 0 * d.fmt.bits := by rw [← Nat.add_mul]; exact Nat.mul_le_mul_right _ hn
  have hdvd : p * d.fmt.bits % 8 = 0 := Nat.mod_eq_zero_of_dvd (Dvd.dvd.mul_right (by omega) _)
  simp only [TDesc.rowBytes, hblk, hb, Bool.false_eq_true, if_false]
  omega

theorem TDesc.bcast_le (hblk : d.fmt.block = false) (hb : d.bcast = true) : (d.fmt.bits + 7) / 8 ≤ d.rowBytes := by
  simp [TDesc.rowBytes, hblk, hb]

/-- The bytes of one element of a run. -/
theorem elem_le (b : Nat) {e n : Nat} (he : e < n) : e * b / 8 + ((e * b + b + 7) / 8 - e * b / 8) ≤ (n * b + 7) / 8 := by
  have h1 : e * b + b ≤ n * b := by rw [← Nat.succ_mul]; exact Nat.mul_le_mul_right _ he
  omega

/-- Blocks of a row. -/
theorem TDesc.blocks_le (hblk : d.fmt.block = true) {q m : Nat} (hq : q + m ≤ d.size 0 / 32) :
    q * d.fmt.blockBytes + m * d.fmt.blockBytes ≤ d.rowBytes := by
  simp only [TDesc.rowBytes, hblk, if_true, ← Nat.add_mul]
  exact Nat.mul_le_mul_right _ hq

namespace TDesc.Fits

/-- A row of block formats holds whole blocks (R123). -/
theorem size_mod (h : d.Fits x) (hblk : d.fmt.block = true) : d.size 0 % 32 = 0 := by
  have hb := h.goodBlock
  simp only [TDesc.badBlock, hblk, Bool.true_and, Bool.or_eq_false_iff, bne_eq_false_iff_eq] at hb
  exact hb.1.2

/-- Where the side data of block `q` of a row stands (R123). -/
theorem sideAddr_block (h : d.Fits x) (hblk : d.fmt.block = true) (hrow : d.IsRow row) (q : Nat) :
    d.sideAddr (row - d.base + (q * d.fmt.blockBytes : Nat)) = d.sideAddr (row - d.base) + (q * d.fmt.sideBytes : Nat) := by
  have hdvd := hrow.aligned h.goodBlock hblk
  have hpos : (d.fmt.blockBytes : Int) ≠ 0 := by have := d.fmt.blockBytes_pos; omega
  unfold TDesc.sideAddr
  push_cast
  rw [Int.add_mul_ediv_right _ _ hpos]
  ring

/-- Side data of blocks of a row, in the space. -/
theorem side_le (h : d.Fits x) (hblk : d.fmt.block = true) (hrow : d.IsRow row) {q m : Nat} (hq : q + m ≤ d.size 0 / 32) :
    (d.sideAddr (row - d.base + (q * d.fmt.blockBytes : Nat))).toNat + m * d.fmt.sideBytes ≤ spaceSize d.space := by
  obtain ⟨hlo, hhi⟩ := h.side_in hblk hrow
  have hbytes : d.rowBytes = d.size 0 / 32 * d.fmt.blockBytes := by simp [TDesc.rowBytes, hblk]
  rw [hbytes, h.sideAddr_block hblk hrow] at hhi
  rw [h.sideAddr_block hblk hrow]
  have hmul : q * d.fmt.sideBytes + m * d.fmt.sideBytes ≤ d.size 0 / 32 * d.fmt.sideBytes := by
    rw [← Nat.add_mul]
    exact Nat.mul_le_mul_right _ hq
  omega

/-- Bytes of a row, in the space. -/
theorem row_le (h : d.Fits x) (hrow : d.IsRow row) {o m : Nat} (ho : o + m ≤ d.rowBytes) : (row.toNat + o + m : Int) ≤ spaceSize d.space := by
  have := h.row_in hrow
  omega

end TDesc.Fits

/-! ### Spaces of a core -/

/-- The memories of a core. -/
abbrev State.coreClean (s : State) (c : CoreRef) : Prop := s.cleanRange (coreKey c 0 0) (2 ^ 29)

/-- The bytes of a core's memories that lie below its finished-tile queue. -/
def bufBytes : Nat := 5 * 2 ^ 25

/-- Where a space starts among the memories of its core. -/
theorem spaceKey_eq (s : State) (c : CoreRef) (d : TDesc) :
    s.spaceKey c d = coreKey c 0 0 + (if d.space = 0 then 3 * 2 ^ 25 + d.tbuf * 16384 else if d.space = 1 then 0
      else 5 * 2 ^ 25 + s.cget c Core.FTQ_HEAD * 8200) := by
  have htile (o : Nat) : coreKey c Mem.TILE o = coreKey c 0 0 + (3 * 2 ^ 25 + o) := by unfold coreKey sramKey Mem.TILE; omega
  have hftq (o : Nat) : coreKey c Mem.FTQ o = coreKey c 0 0 + (5 * 2 ^ 25 + o) := by unfold coreKey sramKey Mem.FTQ; omega
  unfold State.spaceKey ftqKey
  split_ifs
  · exact htile _
  · exact (Nat.add_zero (coreKey c 0 0)).symm
  · exact hftq _

/-- What a descriptor of a pass reaches lies in its core's memories. -/
theorem TDesc.Fits.clean (h : d.Fits x) (hc : s.coreClean c) {o m : Nat} (ho : (o + m : Int) ≤ spaceSize d.space) :
    s.cleanRange (s.spaceKey c d + o) m := by
  have hh : s.cget c Core.FTQ_HEAD < 8 := s.cget_lt c Core.FTQ_HEAD
  have ht := h.tbuf
  unfold spaceSize at ho
  rw [spaceKey_eq]
  refine hc.sub (by omega) ?_
  split_ifs at ho ⊢ <;> omega

/-- What a pass may write lies below the finished-tile queue. -/
theorem TDesc.Fits.below (h : d.Fits x) (hsp : d.space ≠ 2) (s : State) (c : CoreRef) {o m : Nat} (ho : (o + m : Int) ≤ spaceSize d.space) :
    coreKey c 0 0 ≤ s.spaceKey c d + o ∧ s.spaceKey c d + o + m ≤ coreKey c 0 0 + bufBytes := by
  have ht := h.tbuf
  have hs := h.space
  unfold spaceSize at ho
  rw [spaceKey_eq]
  unfold bufBytes
  refine ⟨by omega, ?_⟩
  split_ifs at ho ⊢ <;> omega

/-- The range of a row's bytes. -/
theorem TDesc.Fits.clean_row (h : d.Fits x) (hc : s.coreClean c) (hrow : d.IsRow row) {o m : Nat} (ho : o + m ≤ d.rowBytes) :
    s.cleanRange (s.spaceKey c d + row.toNat + o) m := by
  rw [Nat.add_assoc]
  exact h.clean hc (by have := h.row_le hrow ho; push_cast; omega)

/-- The range of a row's side data. -/
theorem TDesc.Fits.clean_side (h : d.Fits x) (hc : s.coreClean c) (hblk : d.fmt.block = true) (hrow : d.IsRow row) {q m : Nat}
    (hq : q + m ≤ d.size 0 / 32) :
    s.cleanRange (s.spaceKey c d + (d.sideAddr (row - d.base + (q * d.fmt.blockBytes : Nat))).toNat) (m * d.fmt.sideBytes) :=
  h.clean hc (by exact_mod_cast h.side_le hblk hrow hq)

end Sys2Proof.Machine
end

section
/-! PROOFS. One chunk of a pass over clean words: it is read without effect, and written without poison (R60, R119, R130, R135, R142). -/

namespace Sys2Proof.Machine

variable {s t u : State} {c : CoreRef} {d x y : TDesc} {row : Int} {p n : Nat} {i : VInstr}

/-! ### Parts of a row -/

/-- The `n` positions from position `p` of a row on, at a block's start (R137). -/
structure TDesc.Part (d : TDesc) (row : Int) (p n : Nat) : Prop where
  isRow : d.IsRow row
  start : p % 32 = 0
  fits : p + n ≤ d.size 0

/-- The head of the finished-tile queue is marked POISON (R127). -/
def State.headPoison (s : State) (c : CoreRef) : Bool := (leNat (s.rd (ftqKey c (s.cget c Core.FTQ_HEAD) + 8194) 1)).testBit 0

theorem spaceKey_queue (h : d.space = 2) (s : State) (c : CoreRef) : s.spaceKey c d = ftqKey c (s.cget c Core.FTQ_HEAD) := by
  simp [State.spaceKey, h]

/-- A stream's read of clean words changes nothing (R142). -/
theorem TDesc.Fits.chunkRead (h : d.Fits x) (hc : s.coreClean c) (hq : d.space = 2 → s.headPoison c = false) (hp : d.Part row p n) :
    s.chunkRead c d row p n = s := by
  obtain ⟨hrow, hstart, hfits⟩ := hp
  have hhead : ¬ (d.space = 2 ∧ (leNat (s.rd (s.spaceKey c d + 8194) 1)).testBit 0 = true) := fun ⟨h2, hb⟩ => by
    have hf := hq h2
    rw [spaceKey_queue h2, ← State.headPoison, hf] at hb
    cases hb
  unfold State.chunkRead
  dsimp only
  rw [if_neg hhead]
  split_ifs with h0 hblk hb
  · rfl
  · have hq : p / 32 + (n + 31) / 32 ≤ d.size 0 / 32 := by have := h.size_mod hblk; omega
    have hbytes : (n * d.fmt.bits + 7) / 8 ≤ (n + 31) / 32 * d.fmt.blockBytes := by
      have hm : n * d.fmt.bits ≤ (n + 31) / 32 * 32 * d.fmt.bits := Nat.mul_le_mul_right _ (by omega)
      have hbb : (n + 31) / 32 * d.fmt.blockBytes * 8 = (n + 31) / 32 * 32 * d.fmt.bits := by unfold Fmt.blockBytes; ring
      omega
    have h1 := h.clean_row hc hrow (le_trans (Nat.add_le_add_left hbytes _) (TDesc.blocks_le hblk hq))
    have h2 := h.clean_side hc hblk hrow hq
    push_cast at h2
    rw [h1.operandRead, h2.operandRead]
  · have h1 := h.clean_row hc hrow (o := 0) ((Nat.zero_add _).le.trans (TDesc.bcast_le (by simpa using hblk) hb))
    exact h1.operandRead c
  · exact (h.clean_row hc hrow (TDesc.elems_le (by simpa using hblk) (by simpa using hb) hstart hfits)).operandRead c

/-! ### What a chunk brings -/

/-- The `n` elements read from clean words, none of them poisoned (R130, R142). -/
structure ReadsClean (l : List (FVal × Bool)) (n : Nat) : Prop where
  length : l.length = n
  clean : ∀ v ∈ l, v.2 = false

/-- Elements read block by block (R123). -/
theorem readsClean_blocks {f : List (FVal × Bool) × ConvFlags → Nat → List (FVal × Bool) × ConvFlags} {m : Nat}
    (hf : ∀ acc, ∀ j < m, ∃ vs, ReadsClean vs (min 32 (n - 32 * j)) ∧ (f acc j).1 = acc.1 ++ vs) :
    ReadsClean ((List.range m).foldl f ([], {})).1 (min (32 * m) n) := by
  induction m with
  | zero => exact ⟨by simp, by simp⟩
  | succ m ih =>
    obtain ⟨hlen, hclean⟩ := ih fun acc j hj => hf acc j (by omega)
    obtain ⟨vs, ⟨hvl, hvc⟩, hv⟩ := hf ((List.range m).foldl f ([], {})) m (by omega)
    rw [List.range_succ, List.foldl_append, List.foldl_cons, List.foldl_nil, hv]
    refine ⟨by rw [List.length_append, hlen, hvl]; omega, fun v hmem => ?_⟩
    rcases List.mem_append.1 hmem with hmem | hmem
    exacts [hclean v hmem, hvc v hmem]

/-- The elements of a part of a row (R130). -/
theorem TDesc.Fits.readElems (h : d.Fits x) (hc : s.coreClean c) (hp : d.Part row p n) : ReadsClean (s.readElems c d row p n).1 n := by
  obtain ⟨hrow, hstart, hfits⟩ := hp
  unfold State.readElems
  dsimp only
  split_ifs with h0 hblk hb
  · exact ⟨by simp [h0], by simp⟩
  · have hsize := h.size_mod hblk
    have hlen : min (32 * ((n + 31) / 32)) n = n := by omega
    refine (congrArg (ReadsClean _) hlen).mp (readsClean_blocks fun acc j hj => ⟨_, ⟨?_, fun v hv => ?_⟩, rfl⟩)
    · rw [List.length_map, List.length_map, List.length_range]
    · obtain ⟨w, hw, rfl⟩ := List.mem_map.1 hv
      obtain ⟨e, he, rfl⟩ := List.mem_map.1 hw
      have he32 : e < 32 := by have := List.mem_range.1 he; omega
      have hside := h.clean_side hc hblk hrow (q := p / 32 + j) (m := 1) (by omega)
      have hblock := TDesc.blocks_le hblk (q := p / 32 + j) (m := 1) (by omega)
      have helem := elem_le d.fmt.bits he32
      have hbb : (32 * d.fmt.bits + 7) / 8 = d.fmt.blockBytes := by unfold Fmt.blockBytes; omega
      have hdata := h.clean_row hc hrow (o := (p / 32 + j) * d.fmt.blockBytes + e * d.fmt.bits / 8)
        (m := (e * d.fmt.bits + d.fmt.bits + 7) / 8 - e * d.fmt.bits / 8) (by omega)
      rw [Nat.one_mul] at hside
      rw [← Nat.add_assoc] at hdata
      exact Bool.or_eq_false_iff.2 ⟨hside.rangePoison, hdata.rangePoison⟩
  · have h1 := h.clean_row hc hrow (o := 0) ((Nat.zero_add _).le.trans (TDesc.bcast_le (by simpa using hblk) hb))
    refine ⟨by simp, fun v hv => ?_⟩
    rw [(List.mem_replicate.1 hv).2]
    exact h1.rangePoison
  · refine ⟨by simp, fun v hv => ?_⟩
    obtain ⟨e, he, rfl⟩ := List.mem_map.1 hv
    have helem := elem_le d.fmt.bits (List.mem_range.1 he)
    have hle := TDesc.elems_le (d := d) (by simpa using hblk) (by simpa using hb) hstart hfits
    have hdata := h.clean_row hc hrow (o := p * d.fmt.bits / 8 + e * d.fmt.bits / 8)
      (m := (e * d.fmt.bits + d.fmt.bits + 7) / 8 - e * d.fmt.bits / 8) (by omega)
    rw [← Nat.add_assoc] at hdata
    exact hdata.rangePoison

end Sys2Proof.Machine
end

section
/-! PROOFS. The status bits, the write of a chunk and the reduction of a row (R90, R133, R135, R142, R145). -/

namespace Sys2Proof.Machine

variable {s t u : State} {c : CoreRef} {d x y r : TDesc} {row : Int} {p n : Nat} {i : VInstr}

/-! ### Status bits -/

/-- The status bits that a chunk's values may set (R90, R145). -/
def flagFs : List Fld :=
  [Reg.CORE_VX_STATUS.OVERFLOW, Reg.CORE_VX_STATUS.INVALID, Reg.CORE_VX_STATUS.DIV_ZERO, Reg.CORE_CONV_STATUS.OVERFLOW,
   Reg.CORE_CONV_STATUS.NAN_ZERO, Reg.CORE_CONV_STATUS.NAN_BLOCK, Reg.CORE_CONV_STATUS.DECODE_INF]

/-- The same, with where they stand. -/
def flagFlds (c : CoreRef) : List (Nat × Fld) := flagFs.map (coreFld c)

/-- A status bit is set if a report holds. -/
def State.setIf (s : State) (c : CoreRef) (b : Bool) (f : Fld) : State := if b then s.cset c f true else s

theorem writes_setIf (h : s.Writes t (flagFlds c)) (b : Bool) {f : Fld} (hf : f ∈ flagFs) : s.Writes (t.setIf c b f) (flagFlds c) := by
  unfold State.setIf
  split
  · exact (h.cset c f true).mono (List.append_subset.2 ⟨List.Subset.refl _, List.cons_subset.2 ⟨List.mem_map_of_mem hf, List.nil_subset _⟩⟩)
  · exact h

theorem writes_convFlags (h : risingFrom 0 s.fld = true) (c : CoreRef) (f : ConvFlags) : s.Writes (s.convFlags c f) (flagFlds c) :=
  writes_setIf (writes_setIf (writes_setIf (writes_setIf ((State.Writes.refl h).mono (by simp)) f.overflow (by decide)) f.nanZero (by decide))
    f.nanBlock (by decide)) f.decodeInf (by decide)

theorem writes_vxFlags (h : risingFrom 0 s.fld = true) (c : CoreRef) (f : VxFlags) : s.Writes (s.vxFlags c f) (flagFlds c) :=
  writes_setIf (writes_setIf (writes_setIf ((State.Writes.refl h).mono (by simp)) f.overflow (by decide)) f.invalid (by decide))
    f.divZero (by decide)

/-- What the chunks of a pass change: status bits, and bytes of `[k, k + n)`. -/
abbrev State.Computes (s t : State) (c : CoreRef) (k n : Nat) : Prop := s.Engine t (flagFlds c) k n

namespace State.Computes
variable {k n : Nat}

theorem convFlags (h : s.Computes t c k n) (f : ConvFlags) : s.Computes (t.convFlags c f) c k n :=
  h.trans (.of_writes h.canonical (writes_convFlags h.ordered c f))

theorem vxFlags (h : s.Computes t c k n) (f : VxFlags) : s.Computes (t.vxFlags c f) c k n :=
  h.trans (.of_writes h.canonical (writes_vxFlags h.ordered c f))

/-- A write of an engine without poison. -/
theorem write (h : s.Computes t c k n) {a : Nat} {bs : List (Byte × Bool)} (hbs : NoPoison bs) (hlo : k ≤ a) (hhi : a + bs.length ≤ k + n) :
    s.Computes (t.engineWrite c a bs) c k n := by
  rw [engineWrite_noPoison hbs]
  exact h.trans (.wrP h.canonical hbs hlo hhi)

theorem head_eq (h : s.Computes t c k n) : t.cget c Core.FTQ_HEAD = s.cget c Core.FTQ_HEAD := h.cget_eq (apart_coreFlds (by decide))

theorem spaceKey_eq (h : s.Computes t c k n) (d : TDesc) : t.spaceKey c d = s.spaceKey c d := by
  unfold State.spaceKey
  rw [h.head_eq]

/-- Below the finished-tile queue nothing writes the mark of its head. -/
theorem headPoison_eq (hs : s.canonical = true) (h : s.Computes t c k n) (hk : k + n ≤ coreKey c 0 0 + bufBytes) :
    t.headPoison c = s.headPoison c := by
  have hkey : k + n ≤ ftqKey c (s.cget c Core.FTQ_HEAD) + 8194 := by
    have hftq : ftqKey c (s.cget c Core.FTQ_HEAD) = coreKey c 0 0 + (5 * 2 ^ 25 + s.cget c Core.FTQ_HEAD * 8200) := by
      unfold ftqKey coreKey sramKey Mem.FTQ; omega
    unfold bufBytes at hk
    omega
  have hbyte := h.bytes.1 (ftqKey c (s.cget c Core.FTQ_HEAD) + 8194) (.inr hkey)
  simp only [State.headPoison, h.head_eq, rd_eq hs, rd_eq h.canonical, List.range_one, List.map_cons, List.map_nil, Nat.add_zero, hbyte]

end State.Computes

/-! ### The bytes of a chunk -/

@[simp] theorem length_leBytes (n v : Nat) : (leBytes n v).length = n := by
  induction n generalizing v with
  | zero => rfl
  | succ n ih => simp [leBytes, ih]

theorem any_drop_take {l : List Bool} (h : ∀ b ∈ l, b = false) (a m : Nat) : ((l.drop a).take m).any id = false :=
  List.any_eq_false.2 fun b hb => by simp [h b (List.mem_of_mem_drop (List.mem_of_mem_take hb))]

theorem getD_false {l : List Bool} (h : ∀ b ∈ l, b = false) (j : Nat) : l.getD j false = false := by
  rw [List.getD_eq_getElem?_getD]
  cases hj : l[j]? with
  | none => rfl
  | some b => exact h b (List.mem_of_getElem? hj)

@[simp] theorem poisonOut_false (s : State) (c : CoreRef) : s.poisonOut c false = s := rfl

/-- A chunk's values are no more than `n`, and none is poisoned. -/
structure ChunkOut.Clean (o : ChunkOut) (n : Nat) : Prop where
  length : o.vals.length ≤ n
  clean : ∀ b ∈ o.poison, b = false

/-- The lowest byte of a pass's buffers, and how many there are. -/
abbrev State.ComputesBelow (s t : State) (c : CoreRef) : Prop := s.Computes t c (coreKey c 0 0) bufBytes

/-- What a descriptor that a pass writes has besides (R143). -/
structure TDesc.Target (d x : TDesc) : Prop where
  fits : d.Fits x
  space : d.space ≠ 2

/-- A write to a row. -/
theorem TDesc.Target.write_row (h : d.Target x) (hw : s.ComputesBelow t c) (hrow : d.IsRow row) {o : Nat} {bs : List (Byte × Bool)}
    (hbs : NoPoison bs) (ho : o + bs.length ≤ d.rowBytes) : s.ComputesBelow (t.engineWrite c (s.spaceKey c d + row.toNat + o) bs) c := by
  obtain ⟨hlo, hhi⟩ := h.fits.below h.space s c (o := row.toNat + o) (m := bs.length) (by have := h.fits.row_le hrow ho; push_cast; omega)
  exact hw.write hbs (by omega) (by omega)

/-- A write of side data. -/
theorem TDesc.Target.write_side (h : d.Target x) (hw : s.ComputesBelow t c) (hblk : d.fmt.block = true) (hrow : d.IsRow row) {q : Nat}
    (hq : q < d.size 0 / 32) {bs : List Byte} (hbs : bs.length = d.fmt.sideBytes) (u : State) :
    s.ComputesBelow (t.wr (u.spaceKey c d + (d.sideAddr (row - d.base + (q * d.fmt.blockBytes : Nat))).toNat) bs) c := by
  have hle := h.fits.side_le hblk hrow (q := q) (m := 1) hq
  obtain ⟨hlo, hhi⟩ := h.fits.below h.space u c (o := (d.sideAddr (row - d.base + (q * d.fmt.blockBytes : Nat))).toNat) (m := d.fmt.sideBytes)
    (by push_cast at hle ⊢; omega)
  exact hw.trans (.wrP hw.canonical (noPoison_map rfl) hlo (by rw [List.length_map, hbs]; exact hhi))

end Sys2Proof.Machine
end

section
/-! PROOFS. A chunk of a pass is read, packed and reduced (R119, R129, R133, R135, R137). -/

namespace Sys2Proof.Machine

variable {s t u : State} {c : CoreRef} {d x y r : TDesc} {row : Int} {i : VInstr} {o : ChunkOut} {k n : Nat}

/-! ### Chunks and rows -/

/-- Row number `k` of a pass over X, in another of its descriptors (R122). -/
def TDesc.rowOf (d x : TDesc) (k : Nat) : Int := d.rowAddr (x.rowIdx k).1 (x.rowIdx k).2.1 (x.rowIdx k).2.2

/-- Positions of chunk `t`, masked ones included (R137). -/
def chunkTotal (i : VInstr) (x : TDesc) (t : Nat) : Nat := min i.lanes (x.size 0 - t % rowChunks i x * i.lanes)

theorem lanes_eq (i : VInstr) : i.lanes = 64 ∨ i.lanes = 128 := by unfold VInstr.lanes; split <;> simp

theorem TDesc.live_le (x : TDesc) (k : Nat) : x.live k ≤ x.size 0 := by unfold TDesc.live; split <;> omega

theorem chunkLive_le (i : VInstr) (x : TDesc) (t : Nat) : chunkLive i x t ≤ chunkTotal i x t := by
  have := x.live_le (t / rowChunks i x)
  unfold chunkLive chunkTotal
  omega

/-- The row of a chunk of the pass. -/
theorem chunk_row {t : Nat} (ht : t < passCycles i x) : t / rowChunks i x < x.rows := Nat.div_lt_of_lt_mul ht

/-- A chunk starts inside its row. -/
theorem chunk_start {t : Nat} (ht : t < passCycles i x) : t % rowChunks i x * i.lanes < x.size 0 := by
  have hpos : 0 < rowChunks i x := Nat.pos_of_ne_zero fun h0 => by rw [passCycles, h0, Nat.zero_mul] at ht; exact Nat.not_lt_zero _ ht
  have hmod := Nat.mod_lt t hpos
  have hdiv : rowChunks i x * i.lanes ≤ x.size 0 + i.lanes - 1 := Nat.div_mul_le_self _ _
  have hle : (t % rowChunks i x + 1) * i.lanes ≤ rowChunks i x * i.lanes := Nat.mul_le_mul_right _ hmod
  rw [Nat.succ_mul] at hle
  have hl : 0 < i.lanes := by rcases lanes_eq i with h | h <;> omega
  omega

/-- Positions of a chunk are a part of its row. -/
theorem TDesc.Fits.chunk_part (h : d.Fits x) {t : Nat} (ht : t < passCycles i x) (hn : n ≤ chunkTotal i x t) :
    d.Part (d.rowOf x (t / rowChunks i x)) (t % rowChunks i x * i.lanes) n where
  isRow := h.isRow (chunk_row ht)
  start := Nat.mod_eq_zero_of_dvd (Dvd.dvd.mul_left (by rcases lanes_eq i with h | h <;> rw [h] <;> decide) _)
  fits := by
    have := chunk_start ht
    rw [h.size_eq (by decide)]
    unfold chunkTotal at hn
    omega

/-! ### The values of a chunk -/

/-- The descriptors of a pass that breaks no check (R143). -/
structure PassDescs (i : VInstr) (x y d r : TDesc) : Prop where
  fitsX : x.Fits x
  fitsY : i.yEn = true → y.Fits x
  fitsD : i.dEn = true → d.Target x ∧ d.bcast = false
  fitsR : i.rEn = true → r.Target x ∧ r.bcast = true ∧ r.fmt = if i.bf16 then .bf16 else .fp32

/-- What a stream of a pass reads is clean: its core's memories, and the head of the finished-tile queue where it reads that (R127). -/
structure State.Readable (s : State) (c : CoreRef) (i : VInstr) (x y : TDesc) : Prop where
  clean : s.coreClean c
  head : x.space = 2 ∨ (i.yEn = true ∧ y.space = 2) → s.headPoison c = false

/-- A stream's chunk is read without effect. -/
theorem PassDescs.chunkRead (h : PassDescs i x y d r) (hs : s.Readable c i x y) {t : Nat} (ht : t < passCycles i x) :
    s.chunkRead c x (x.rowOf x (t / rowChunks i x)) (t % rowChunks i x * i.lanes) (chunkLive i x t) = s
      ∧ (i.yEn = true → s.chunkRead c y (y.rowOf x (t / rowChunks i x)) (t % rowChunks i x * i.lanes) (chunkLive i x t) = s) :=
  ⟨h.fitsX.chunkRead hs.clean (fun h2 => hs.head (.inl h2)) (h.fitsX.chunk_part ht (chunkLive_le i x t)),
    fun hy => (h.fitsY hy).chunkRead hs.clean (fun h2 => hs.head (.inr ⟨hy, h2⟩)) ((h.fitsY hy).chunk_part ht (chunkLive_le i x t))⟩

/-- The elements of Y that meet those of X; without Y they are 0 (R119). -/
def State.operandY (s : State) (c : CoreRef) (i : VInstr) (x y : TDesc) (t : Nat) : List (FVal × Bool) × ConvFlags :=
  if i.yEn then s.readElems c y (y.rowOf x (t / rowChunks i x)) (t % rowChunks i x * i.lanes) (chunkLive i x t)
  else (List.replicate (chunkLive i x t) (.fin false 0 0, false), {})

/-- The elements of X. -/
def State.operandX (s : State) (c : CoreRef) (i : VInstr) (x : TDesc) (t : Nat) : List (FVal × Bool) × ConvFlags :=
  s.readElems c x (x.rowOf x (t / rowChunks i x)) (t % rowChunks i x * i.lanes) (chunkLive i x t)

theorem chunkOut_vals (s : State) (c : CoreRef) (i : VInstr) (x y : TDesc) (t : Nat) :
    (s.chunkOut c i x y t).vals
      = ((((s.operandX c i x t).1.zip (s.operandY c i x y t).1).map fun v => lane s c i v.1.1 v.2.1)).map (·.1) := rfl

theorem chunkOut_poison (s : State) (c : CoreRef) (i : VInstr) (x y : TDesc) (t : Nat) :
    (s.chunkOut c i x y t).poison = ((s.operandX c i x t).1.zip (s.operandY c i x y t).1).map fun v => v.1.2 || v.2.2
      || (x.space == 2 && (leNat (s.rd (s.spaceKey c x + 8194) 1)).testBit 0)
      || (i.yEn && (y.space == 2 && (leNat (s.rd (s.spaceKey c y + 8194) 1)).testBit 0)) := rfl

theorem queueMark_false {d : TDesc} (h : d.space = 2 → s.headPoison c = false) :
    (d.space == 2 && (leNat (s.rd (s.spaceKey c d + 8194) 1)).testBit 0) = false := by
  by_cases h2 : d.space = 2
  · have hf := h h2
    rw [State.headPoison, ← spaceKey_queue h2] at hf
    simp [hf]
  · simp [h2]

theorem PassDescs.operandY (h : PassDescs i x y d r) (hs : s.Readable c i x y) {t : Nat} (ht : t < passCycles i x) :
    ReadsClean (s.operandY c i x y t).1 (chunkLive i x t) := by
  unfold State.operandY
  split
  · rename_i hy
    exact (h.fitsY hy).readElems hs.clean ((h.fitsY hy).chunk_part ht (chunkLive_le i x t))
  · exact ⟨by simp, fun v hv => by rw [(List.mem_replicate.1 hv).2]⟩

/-- A chunk brings a value for each unmasked position, and no poison. -/
theorem PassDescs.chunkOut (h : PassDescs i x y d r) (hs : s.Readable c i x y) {t : Nat} (ht : t < passCycles i x) :
    (s.chunkOut c i x y t).Clean (chunkTotal i x t) := by
  have hx : ReadsClean (s.operandX c i x t).1 (chunkLive i x t) := h.fitsX.readElems hs.clean (h.fitsX.chunk_part ht (chunkLive_le i x t))
  have hy := h.operandY hs ht
  refine ⟨?_, fun b hb => ?_⟩
  · have := chunkLive_le i x t
    rw [chunkOut_vals]
    simp only [List.length_map, List.length_zip, hx.length, hy.length]
    omega
  · rw [chunkOut_poison] at hb
    obtain ⟨v, hv, rfl⟩ := List.mem_map.1 hb
    obtain ⟨hvx, hvy⟩ := List.of_mem_zip hv
    have hqy : (i.yEn && (y.space == 2 && (leNat (s.rd (s.spaceKey c y + 8194) 1)).testBit 0)) = false := by
      cases hye : i.yEn
      · rfl
      · exact queueMark_false fun h2 => hs.head (.inr ⟨hye, h2⟩)
    rw [hx.clean _ hvx, hy.clean _ hvy, queueMark_false fun h2 => hs.head (.inl h2), hqy]
    rfl

/-! ### The write of a chunk -/

/-- The rounding mode of PACK (R135, R136). -/
def VInstr.packMode (i : VInstr) : RMode := if i.bf16 then .rne else (RMode.ofCode i.rmode).getD .rne

/-- The random draw of position `j` of a chunk (R87). -/
def State.packDraw (s : State) (c : CoreRef) (i : VInstr) (x : TDesc) (sr0 t j : Nat) : Nat :=
  if i.packMode = .sr then s.draw c sr0 (t / rowChunks i x * x.size 0 + t % rowChunks i x * i.lanes + j) else 0

/-- The positions of a chunk that PACK writes, without blocks: under MASKZ the masked ones too (R124). -/
def packCount (i : VInstr) (x : TDesc) (t : Nat) (o : ChunkOut) : Nat := if i.maskz then chunkTotal i x t else o.vals.length

/-- The codes of a chunk without blocks, with what their encoding reports (R135). -/
def State.packEnc (s : State) (c : CoreRef) (i : VInstr) (x d : TDesc) (sr0 t : Nat) (o : ChunkOut) : List (Nat × ConvFlags) :=
  (List.range (packCount i x t o)).map fun j =>
    if j < o.vals.length then d.fmt.encodeElem i.packMode (i.bf16 || !i.ovmode) (s.packDraw c i x sr0 t j) (o.vals.getD j (.fin false 0 0))
    else (0, {})

/-- Where a chunk without blocks is written. -/
def State.packKey (s : State) (c : CoreRef) (i : VInstr) (x d : TDesc) (t : Nat) : Nat :=
  s.spaceKey c d + (d.rowAddr (d.rowIdx (t / rowChunks i x)).1 (d.rowIdx (t / rowChunks i x)).2.1 (d.rowIdx (t / rowChunks i x)).2.2).toNat
    + t % rowChunks i x * i.lanes * d.fmt.bits / 8

/-- The bytes of a chunk without blocks: 4-bit codes in pairs (R135). -/
def State.packBytes (s : State) (c : CoreRef) (i : VInstr) (x d : TDesc) (sr0 t : Nat) (o : ChunkOut) : List (Byte × Bool) :=
  let codes := (s.packEnc c i x d sr0 t o).map (·.1)
  if d.fmt.bits = 4 then
    (List.range ((packCount i x t o + 1) / 2)).map fun j =>
      let hi : Nat := if 2 * j + 1 < packCount i x t o then codes.getD (2 * j + 1) 0
        else if t % rowChunks i x * i.lanes + 2 * j + 1 < x.size 0 then 0 else leNat (s.rd (s.packKey c i x d t + j) 1) / 16
      (BitVec.ofNat 8 (codes.getD (2 * j) 0 + 16 * hi), o.poison.getD (2 * j) false || o.poison.getD (2 * j + 1) false)
  else (List.range (packCount i x t o)).flatMap fun j =>
    (leBytes (d.fmt.bits / 8) (codes.getD j 0)).map fun b => (b, o.poison.getD j false)

/-- The write of a chunk without blocks. -/
def State.packElems (s : State) (c : CoreRef) (i : VInstr) (x d : TDesc) (sr0 t : Nat) (o : ChunkOut) : State :=
  ((s.engineWrite c (s.packKey c i x d t) (s.packBytes c i x d sr0 t o)).convFlags c
    ((s.packEnc c i x d sr0 t o).foldl (fun g q => g.or q.2) {})).poisonOut c ((s.packBytes c i x d sr0 t o).any (·.2))

/-- A block of a chunk, encoded (R83, R84). -/
def State.packBlock (s : State) (c : CoreRef) (i : VInstr) (x d : TDesc) (sr0 t : Nat) (o : ChunkOut) (j : Nat) : List Nat × Nat × ConvFlags :=
  encodeBlock d.fmt i.packMode ((List.range 32).map fun q => s.packDraw c i x sr0 t (32 * j + q))
    ((List.range 32).map fun q => o.vals.getD (32 * j + q) (.fin false 0 0))

/-- The write of block `j` of a chunk, which starts at byte `k` of its space's row (R123). -/
def State.writeBlock (s : State) (c : CoreRef) (d : TDesc) (k : Nat) (row : Int) (q : Nat) (pois : Bool) (enc : List Nat × Nat × ConvFlags) : State :=
  let s1 := (s.engineWrite c (k + q * d.fmt.blockBytes) ((leBytes d.fmt.blockBytes (packCodes d.fmt.bits enc.1)).map fun b => (b, pois))).convFlags
    c enc.2.2
  (s1.wr (s.spaceKey c d + (d.sideAddr (row - d.base + (q * d.fmt.blockBytes : Nat))).toNat) (leBytes d.fmt.sideBytes enc.2.1)).poisonOut c pois

theorem packChunk_elems (hblk : d.fmt.block = false) (s : State) (c : CoreRef) (i : VInstr) (x : TDesc) (sr0 t : Nat) (o : ChunkOut) :
    s.packChunk c i x d sr0 t o = s.packElems c i x d sr0 t o := by
  unfold State.packChunk
  simp only [hblk, Bool.false_eq_true, if_false]
  rfl

theorem packChunk_blocks (hblk : d.fmt.block = true) (s : State) (c : CoreRef) (i : VInstr) (x : TDesc) (sr0 t : Nat) (o : ChunkOut) :
    s.packChunk c i x d sr0 t o =
      let row := d.rowAddr (d.rowIdx (t / rowChunks i x)).1 (d.rowIdx (t / rowChunks i x)).2.1 (d.rowIdx (t / rowChunks i x)).2.2
      (List.range ((chunkTotal i x t + 31) / 32)).foldl (fun u j =>
        if 32 * j < o.vals.length ∨ i.maskz then
          u.writeBlock c d (s.spaceKey c d + row.toNat) row (t % rowChunks i x * i.lanes / 32 + j) (((o.poison.drop (32 * j)).take 32).any id)
            (s.packBlock c i x d sr0 t o j)
        else u) s := by
  unfold State.packChunk
  simp only [hblk, if_true]
  rfl

end Sys2Proof.Machine
end

section
/-! PROOFS. The writes of a chunk and of a row's reduction stay below the finished-tile queue and carry no poison (R133, R135, R142). -/

namespace Sys2Proof.Machine

variable {s t u : State} {c : CoreRef} {d x y r : TDesc} {i : VInstr} {o : ChunkOut} {sr0 t : Nat}

/-! ### The write of a chunk -/

theorem packBytes_noPoison (ho : ∀ b ∈ o.poison, b = false) (s : State) (c : CoreRef) (i : VInstr) (x d : TDesc) (sr0 t : Nat) :
    NoPoison (s.packBytes c i x d sr0 t o) := by
  unfold State.packBytes
  dsimp only
  intro b hb
  split at hb
  · obtain ⟨j, -, rfl⟩ := List.mem_map.1 hb
    simp only [getD_false ho, Bool.or_self]
  · obtain ⟨j, -, hb⟩ := List.mem_flatMap.1 hb
    obtain ⟨b, -, rfl⟩ := List.mem_map.1 hb
    exact getD_false ho j

theorem length_packBytes_le (s : State) (c : CoreRef) (i : VInstr) (x d : TDesc) (sr0 t : Nat) (o : ChunkOut) :
    (s.packBytes c i x d sr0 t o).length ≤ (packCount i x t o * d.fmt.bits + 7) / 8 := by
  unfold State.packBytes
  dsimp only
  split
  · rename_i h4
    rw [List.length_map, List.length_range, h4]
    omega
  · simp only [List.length_flatMap, List.length_map, length_leBytes, List.map_const', List.sum_replicate, List.length_range, smul_eq_mul]
    have : packCount i x t o * (d.fmt.bits / 8) * 8 ≤ packCount i x t o * d.fmt.bits := by
      rw [Nat.mul_assoc]
      exact Nat.mul_le_mul_left _ (Nat.div_mul_le_self _ _)
    omega

theorem packCount_le (ho : o.Clean (chunkTotal i x t)) : packCount i x t o ≤ chunkTotal i x t := by
  unfold packCount
  split
  exacts [le_rfl, ho.length]

/-- Where PACK starts in the row of the chunk. -/
theorem TDesc.Fits.packRow (h : d.Fits x) (k : Nat) : d.rowAddr (d.rowIdx k).1 (d.rowIdx k).2.1 (d.rowIdx k).2.2 = d.rowOf x k := by
  rw [h.rowIdx_eq]; rfl

/-- `PACK` of a chunk (R135, R142). -/
theorem TDesc.Target.packChunk (h : d.Target x) (hb : d.bcast = false) (hs : s.canonical = true) (ht : t < passCycles i x)
    (ho : o.Clean (chunkTotal i x t)) (sr0 : Nat) : s.ComputesBelow (s.packChunk c i x d sr0 t o) c := by
  have hrefl : s.ComputesBelow s c := .refl hs
  cases hblk : d.fmt.block
  case false =>
    obtain ⟨hrow, hstart, hfits⟩ := h.fits.chunk_part ht (packCount_le ho)
    have hlen := length_packBytes_le s c i x d sr0 t o
    have hle := TDesc.elems_le hblk hb hstart hfits
    have hbs := packBytes_noPoison ho.clean s c i x d sr0 t
    rw [packChunk_elems hblk, State.packElems, hbs.any, poisonOut_false, State.packKey, h.fits.packRow]
    exact (h.write_row hrefl hrow hbs (by omega)).convFlags _
  case true =>
    obtain ⟨hrow, hstart, hfits⟩ := h.fits.chunk_part ht (le_refl (chunkTotal i x t))
    have hsize := h.fits.size_mod hblk
    rw [packChunk_blocks hblk]
    dsimp only
    rw [h.fits.packRow]
    refine List.foldlRecOn (motive := fun u => s.ComputesBelow u c) _ _ hrefl fun u hu j hj => ?_
    have hj' := List.mem_range.1 hj
    split
    · have hq : t % rowChunks i x * i.lanes / 32 + j + 1 ≤ d.size 0 / 32 := by omega
      have hblocks := TDesc.blocks_le hblk hq
      rw [State.writeBlock, any_drop_take ho.clean, poisonOut_false]
      have hdata := h.write_row hu hrow
        (noPoison_map (bs := leBytes d.fmt.blockBytes (packCodes d.fmt.bits (s.packBlock c i x d sr0 t o j).1)) rfl)
        (o := (t % rowChunks i x * i.lanes / 32 + j) * d.fmt.blockBytes) (by simpa using hblocks)
      exact h.write_side (hdata.convFlags _) hblk hrow hq (length_leBytes _ _) u
    · exact hu

/-! ### The reduction of a row -/

/-- REDUCE and the write of R (R133, R142). -/
theorem TDesc.Target.reduceRow (h : r.Target x) (hb : r.bcast = true) (hf : r.fmt = if i.bf16 then .bf16 else .fp32) (hs : s.canonical = true)
    (hc : s.coreClean c) {k : Nat} (hk : k < x.rows) {chunks : List ChunkOut} (ho : ∀ o ∈ chunks, ∀ b ∈ o.poison, b = false) :
    s.ComputesBelow (s.reduceRow c i x r k chunks) c := by
  have hrefl : s.ComputesBelow s c := .refl hs
  have hrow := h.fits.isRow hk
  have hsize : (if i.bf16 then 2 else 4) ≤ r.rowBytes := by
    cases hbf : i.bf16 <;> simp [TDesc.rowBytes, hb, hf, hbf, Fmt.block, Fmt.bits]
  have hread := h.fits.clean_row hc hrow (o := 0) ((Nat.zero_add _).le.trans hsize)
  have hpois : (chunks.any fun o => o.poison.any id) = false :=
    List.any_eq_false.2 fun o hmem => by simpa using fun b => ho o hmem b
  unfold State.reduceRow
  split
  · exact hrefl
  · rw [h.fits.rowIdx_eq]
    simp only [Nat.add_zero] at hread
    dsimp only
    rw [hread.rangePoison, hread.operandRead, hpois, Bool.and_false, Bool.or_false, poisonOut_false, ite_self]
    exact (h.write_row hrefl hrow (noPoison_map rfl) (o := 0) (by simpa using hsize)).vxFlags _

end Sys2Proof.Machine
end

section
/-! PROOFS. The cycles of a pass over clean words (R119, R129, R137, R138). -/

namespace Sys2Proof.Machine

variable {s t u : State} {c : CoreRef} {d x y r : TDesc} {i : VInstr} {sr0 n : Nat} {outs : List ChunkOut} {q : State × List ChunkOut}

/-! ### The three parts of a cycle -/

/-- The chunk that is read in cycle `n` (R137). -/
def State.readStep (s : State) (c : CoreRef) (i : VInstr) (x y : TDesc) (n : Nat) (outs : List ChunkOut) : State × List ChunkOut :=
  if n < passCycles i x then
    let p := n % rowChunks i x * i.lanes
    let sx := s.chunkRead c x (x.rowOf x (n / rowChunks i x)) p (chunkLive i x n)
    let sy := if i.yEn then sx.chunkRead c y (y.rowOf x (n / rowChunks i x)) p (chunkLive i x n) else sx
    let o := s.chunkOut c i x y n
    ((sy.convFlags c o.conv).vxFlags c o.flags, outs ++ [o])
  else (s, outs)

/-- The chunk that is written in cycle `n`: the one read 20 cycles before (R138). -/
def State.packStep (s : State) (c : CoreRef) (i : VInstr) (x d : TDesc) (sr0 n : Nat) (outs : List ChunkOut) : State :=
  if i.dEn ∧ 20 ≤ n ∧ n - 20 < passCycles i x then
    match outs[n - 20]? with
    | some o => s.packChunk c i x d sr0 (n - 20) o
    | none => s
  else s

/-- The row that is reduced in cycle `n`: the one that ended 24 cycles before (R138). -/
def State.reduceStep (s : State) (c : CoreRef) (i : VInstr) (x r : TDesc) (n : Nat) (outs : List ChunkOut) : State :=
  if i.rEn ∧ 1 ≤ i.reduce ∧ i.reduce ≤ 3 ∧ 24 ≤ n ∧ n - 24 < passCycles i x ∧ (n - 24 + 1) % rowChunks i x = 0 then
    s.reduceRow c i x r ((n - 24) / rowChunks i x) ((outs.drop ((n - 24) / rowChunks i x * rowChunks i x)).take (rowChunks i x))
  else s

theorem passCycle_eq (s : State) (c : CoreRef) (i : VInstr) (x y d r : TDesc) (sr0 n : Nat) (outs : List ChunkOut) :
    s.passCycle c i x y d r sr0 n outs =
      ((((s.readStep c i x y n outs).1.packStep c i x d sr0 n (s.readStep c i x y n outs).2).reduceStep c i x r n (s.readStep c i x y n outs).2),
        (s.readStep c i x y n outs).2) := rfl

/-! ### What the cycles keep -/

/-- What the streams read stays clean while a pass writes below the finished-tile queue. -/
theorem State.Readable.of_computes (hs : s.canonical = true) (h : s.Readable c i x y) (hw : s.ComputesBelow t c) : t.Readable c i x y :=
  ⟨hw.clean _ _ h.clean, fun hq => (hw.headPoison_eq hs le_rfl).trans (h.head hq)⟩

/-- The chunks that a pass has read are clean. -/
def ChunksClean (i : VInstr) (x : TDesc) (outs : List ChunkOut) : Prop :=
  ∀ j (o : ChunkOut), outs[j]? = some o → o.Clean (chunkTotal i x j)

/-- A pass before its cycle `n`: the chunks read so far are clean, and the states differ by what it has computed. -/
structure State.PassAt (s : State) (c : CoreRef) (i : VInstr) (x : TDesc) (n : Nat) (q : State × List ChunkOut) : Prop where
  state : s.ComputesBelow q.1 c
  length : q.2.length = min n (passCycles i x)
  outs : ChunksClean i x q.2

/-- A read of clean words sets status bits alone, and brings a chunk. -/
theorem PassDescs.readStep (h : PassDescs i x y d r) (hs : s.canonical = true) (hr : s.Readable c i x y) (hq : s.PassAt c i x n q) :
    s.PassAt c i x (n + 1) (q.1.readStep c i x y n q.2) := by
  obtain ⟨hw, hlen, houts⟩ := hq
  have hr' := hr.of_computes hs hw
  unfold State.readStep
  split
  case isTrue hn =>
    obtain ⟨hx, hy⟩ := h.chunkRead hr' hn
    have hstate : (if i.yEn then q.1.chunkRead c y (y.rowOf x (n / rowChunks i x)) (n % rowChunks i x * i.lanes) (chunkLive i x n) else q.1) = q.1 := by
      split
      · exact hy ‹_›
      · rfl
    dsimp only
    rw [hx, hstate]
    refine ⟨(hw.convFlags _).vxFlags _, by simp [hlen]; omega, fun j o hj => ?_⟩
    rcases Nat.lt_trichotomy j q.2.length with hlt | rfl | hgt
    · exact houts j o (by rwa [List.getElem?_append_left hlt] at hj)
    · rw [List.getElem?_concat_length] at hj
      obtain rfl := Option.some.inj hj
      rw [show q.2.length = n by omega]
      exact h.chunkOut hr' hn
    · rw [List.getElem?_eq_none (by simp; omega)] at hj
      cases hj
  case isFalse hn => exact ⟨hw, by simp [hlen]; omega, houts⟩

theorem PassDescs.packStep (h : PassDescs i x y d r) (hw : s.ComputesBelow t c)
    (ho : ChunksClean i x outs) (sr0 n : Nat) : s.ComputesBelow (t.packStep c i x d sr0 n outs) c := by
  unfold State.packStep
  split
  case isTrue hn =>
    obtain ⟨hd, -, hlt⟩ := hn
    obtain ⟨hT, hb⟩ := h.fitsD hd
    split
    case h_1 o hj => exact hw.trans (hT.packChunk hb hw.canonical hlt (ho _ o hj) sr0)
    case h_2 => exact hw
  case isFalse => exact hw

theorem PassDescs.reduceStep (h : PassDescs i x y d r) (hc : s.coreClean c) (hw : s.ComputesBelow t c)
    (ho : ChunksClean i x outs) (n : Nat) : s.ComputesBelow (t.reduceStep c i x r n outs) c := by
  unfold State.reduceStep
  split
  case isTrue hn =>
    obtain ⟨hr, -, -, -, hlt, -⟩ := hn
    obtain ⟨hT, hb, hf⟩ := h.fitsR hr
    refine hw.trans (hT.reduceRow hb hf hw.canonical (hw.clean _ _ hc) (chunk_row hlt) fun o hmem => ?_)
    obtain ⟨j, hj⟩ := List.mem_iff_getElem?.1 (List.mem_of_mem_drop (List.mem_of_mem_take hmem))
    exact (ho j o hj).clean
  case isFalse => exact hw

/-- One cycle of a pass. -/
theorem PassDescs.passCycle (h : PassDescs i x y d r) (hs : s.canonical = true) (hr : s.Readable c i x y) (hq : s.PassAt c i x n q) :
    s.PassAt c i x (n + 1) (q.1.passCycle c i x y d r sr0 n q.2) := by
  obtain ⟨hw, hlen, houts⟩ := h.readStep hs hr hq
  rw [passCycle_eq]
  exact ⟨h.reduceStep hr.clean (h.packStep hw houts sr0 n) houts n, hlen, houts⟩

/-- The first `n` cycles of a pass. -/
def State.runCycles (s : State) (c : CoreRef) (i : VInstr) (x y d r : TDesc) (sr0 n : Nat) : State × List ChunkOut :=
  (List.range n).foldl (fun (p : State × List ChunkOut) t => p.1.passCycle c i x y d r sr0 t p.2) (s, [])

theorem runCycles_succ (s : State) (c : CoreRef) (i : VInstr) (x y d r : TDesc) (sr0 n : Nat) :
    s.runCycles c i x y d r sr0 (n + 1)
      = (s.runCycles c i x y d r sr0 n).1.passCycle c i x y d r sr0 n (s.runCycles c i x y d r sr0 n).2 := by
  simp only [State.runCycles, List.range_succ, List.foldl_append, List.foldl_cons, List.foldl_nil]

/-- All the cycles of a pass over clean words. -/
theorem PassDescs.runCycles (h : PassDescs i x y d r) (hs : s.canonical = true) (hr : s.Readable c i x y) (sr0 n : Nat) :
    s.PassAt c i x n (s.runCycles c i x y d r sr0 n) := by
  induction n with
  | zero => exact ⟨.refl hs, (Nat.zero_min _).symm, fun j o hj => by simp [State.runCycles] at hj⟩
  | succ n ih => exact runCycles_succ s c i x y d r sr0 n ▸ h.passCycle hs hr ih

end Sys2Proof.Machine
end

section
/-! PROOFS. The start of a pass: what it counts, claims, occupies and advances (R88, R121, R137, R139). -/

namespace Sys2Proof.Machine

variable {s t u : State} {c : CoreRef} {v n : Nat}

/-! ### Working addresses -/

/-- The working addresses of a descriptor (R121). -/
def advFs (n : Nat) : List Fld := [Reg.CORE_VX_WBASE.BASE n, Reg.CORE_VX_WBASE.SIDE n]

/-- Working addresses of two descriptors stand at different places. -/
theorem advFs_pos {m n : Nat} (hmn : m ≠ n) : ∀ f ∈ advFs m, ∀ g ∈ advFs n, f.pos ≠ g.pos := by
  simp only [advFs, Reg.CORE_VX_WBASE.BASE, Reg.CORE_VX_WBASE.SIDE, Fld.pos, List.mem_cons, List.not_mem_nil, or_false, forall_eq_or_imp, forall_eq]
  omega

/-- Fields that a descriptor takes from its core. -/
def descFs (n : Nat) : List Fld := advFs n ++ (List.range 8).map Reg.CORE_LOOPCNT.VALUE

theorem table_eq (h : t.sram = s.sram) (c : CoreRef) (base size n : Nat) : t.table c base size n = s.table c base size n := by
  simp only [State.table, State.rdNat, State.rd, h]

/-- Writes that leave a descriptor's fields leave what is read of it. -/
theorem State.Writes.tdesc_eq {es : List (Nat × Fld)} (h : s.Writes t es) (he : ∀ f ∈ descFs n, Apart (coreFld c f) es) :
    t.tdesc c n = s.tdesc c n := by
  have hk : bitsOf (s.table c Table.TENSOR 32 n) 13 11 < 8 := bitsOf_lt _ 13 11
  have hb : t.cget c (Reg.CORE_VX_WBASE.BASE n) = s.cget c (Reg.CORE_VX_WBASE.BASE n) := h.cget_eq (he _ (by simp [descFs, advFs]))
  have hside : t.cget c (Reg.CORE_VX_WBASE.SIDE n) = s.cget c (Reg.CORE_VX_WBASE.SIDE n) := h.cget_eq (he _ (by simp [descFs, advFs]))
  have hl : t.cget c (Reg.CORE_LOOPCNT.VALUE (bitsOf (s.table c Table.TENSOR 32 n) 13 11))
      = s.cget c (Reg.CORE_LOOPCNT.VALUE (bitsOf (s.table c Table.TENSOR 32 n) 13 11)) :=
    h.cget_eq (he _ (List.mem_append_right _ (List.mem_map_of_mem (List.mem_range.2 hk))))
  simp only [State.tdesc, table_eq h.sram_eq, hb, hside, hl]

/-- The increment of a descriptor stands in memory. -/
theorem State.Writes.inc_eq {es : List (Nat × Fld)} (h : s.Writes t es) (c : CoreRef) (n : Nat) : (t.tdesc c n).inc = (s.tdesc c n).inc := by
  simp only [State.tdesc, table_eq h.sram_eq]

theorem writes_advance (h : risingFrom 0 s.fld = true) (c : CoreRef) (n : Nat) : s.Writes (s.advance c n) ((advFs n).map (coreFld c)) := by
  have h1 := (State.Writes.refl h).cput c (Reg.CORE_VX_WBASE.BASE n) (((s.tdesc c n).base + (s.tdesc c n).inc) % 2 ^ 21).toNat
  unfold State.advance
  dsimp only
  split
  · exact h1.cput c (Reg.CORE_VX_WBASE.SIDE n) _
  · exact h1.mono (by simp [advFs])

/-- The working address after an advance (R121). -/
def advanced (base : Nat) (inc : Int) : Nat := (((base : Int) + inc) % 2 ^ 21).toNat

theorem cget_advance (h : risingFrom 0 s.fld = true) (c : CoreRef) (n : Nat) :
    (s.advance c n).cget c (Reg.CORE_VX_WBASE.BASE n) = advanced (s.cget c (Reg.CORE_VX_WBASE.BASE n)) (s.tdesc c n).inc := by
  have hlt : advanced (s.cget c (Reg.CORE_VX_WBASE.BASE n)) (s.tdesc c n).inc < 2 ^ 21 := by unfold advanced; omega
  have hput := State.cget_cput_of_lt h c (Reg.CORE_VX_WBASE.BASE n) hlt
  have hne : (Reg.CORE_VX_WBASE.BASE n).pos ≠ (Reg.CORE_VX_WBASE.SIDE n).pos := by
    unfold Reg.CORE_VX_WBASE.BASE Reg.CORE_VX_WBASE.SIDE Fld.pos; dsimp only; omega
  unfold State.advance
  dsimp only
  split
  · exact (State.cget_cput_other (State.cput_rising h c _ _) c hne _).trans hput
  · exact hput

/-- The descriptors that a slot advances, each once (R139). -/
def advList (v : Nat) (i : VInstr) : List Nat :=
  ((if v.testBit 16 then [i.xd] else []) ++ (if v.testBit 17 then [i.yd] else []) ++ (if v.testBit 18 then [i.dd] else [])
    ++ (if v.testBit 19 then [i.rd] else [])).eraseDups

/-- A descriptor advances under the ADV bit of a role that it has. -/
theorem mem_advList {i : VInstr} : n ∈ advList v i ↔ (v.testBit 16 = true ∧ n = i.xd) ∨ (v.testBit 17 = true ∧ n = i.yd)
    ∨ (v.testBit 18 = true ∧ n = i.dd) ∨ (v.testBit 19 = true ∧ n = i.rd) := by
  simp only [advList, List.mem_eraseDups, List.mem_append, List.mem_ite_nil_right, List.mem_singleton, or_assoc]

theorem nodup_eraseDups (l : List Nat) : l.eraseDups.Nodup := by
  induction hn : l.length using Nat.strong_induction_on generalizing l with
  | _ n ih =>
    cases l with
    | nil => simp
    | cons a l =>
      rw [List.eraseDups_cons, List.nodup_cons]
      have hlen : (l.filter fun b => !b == a).length < n := hn ▸ Nat.lt_succ_of_le (List.length_filter_le _ l)
      exact ⟨by simp [List.mem_eraseDups], ih _ hlen _ rfl⟩

theorem nodup_advList (v : Nat) (i : VInstr) : (advList v i).Nodup := nodup_eraseDups _

theorem advList_sub {i : VInstr} (h : n ∈ advList v i) : n ∈ [i.xd, i.yd, i.dd, i.rd] := by
  rcases mem_advList.1 h with ⟨-, rfl⟩ | ⟨-, rfl⟩ | ⟨-, rfl⟩ | ⟨-, rfl⟩ <;> simp

/-- The descriptors of a pass advance. -/
def State.advanceAll (s : State) (c : CoreRef) (l : List Nat) : State := l.foldl (fun s n => s.advance c n) s

theorem writes_advanceAll (h : risingFrom 0 s.fld = true) (c : CoreRef) (l : List Nat) :
    s.Writes (s.advanceAll c l) (l.flatMap fun n => (advFs n).map (coreFld c)) :=
  .foldl (fun _ _ _ ht => writes_advance ht c _) h

/-- Each of several descriptors advances once. -/
theorem cget_advanceAll (h : risingFrom 0 s.fld = true) (c : CoreRef) {l : List Nat} (hl : l.Nodup) (n : Nat) :
    (s.advanceAll c l).cget c (Reg.CORE_VX_WBASE.BASE n)
      = if n ∈ l then advanced (s.cget c (Reg.CORE_VX_WBASE.BASE n)) (s.tdesc c n).inc else s.cget c (Reg.CORE_VX_WBASE.BASE n) := by
  have hap (m : Nat) (hm : m ≠ n) : Apart (coreFld c (Reg.CORE_VX_WBASE.BASE n)) ((advFs m).map (coreFld c)) :=
    apart_coreFlds (advFs_pos hm.symm _ (by simp [advFs]))
  split
  case isTrue hn =>
    obtain ⟨t, as, bs, h1, h2, hab⟩ := State.Writes.foldl_at (f := fun s n => s.advance c n) hl (fun t m _ ht => writes_advance ht c m) h hn
    obtain ⟨ha, hb⟩ := hab (coreFld c (Reg.CORE_VX_WBASE.BASE n)) fun m _ hm => hap m hm
    rw [State.advanceAll, h2.cget_eq hb, cget_advance h1.ordered, h1.cget_eq ha, h1.inc_eq]
  case isFalse hn => exact (writes_advanceAll h c l).cget_eq (apart_flatMap fun m hm => hap m fun he => hn (he ▸ hm))

/-! ### The start of a pass -/

/-- The random numbers that a pass claims (R88). -/
def srClaims (i : VInstr) (x : TDesc) : Nat := if i.dEn = true ∧ i.rmode = 4 ∧ ¬ i.bf16 = true then x.size 0 * x.rows else 0

/-- A pass before its first cycle: counted, with its descriptors advanced, its random numbers claimed, and the engine occupied. -/
def State.vxStart (s : State) (c : CoreRef) (v : Nat) : State :=
  let i := s.vinstr c v
  let x := s.tdesc c i.xd
  let s1 := (s.cbump c Reg.CORE_VX_COUNTS.RUNS).advanceAll c (advList v i)
  let s2 := if i.dEn && i.rmode == 4 && !i.bf16 then
      s1.cput c Reg.CORE_SR_COUNT.COUNT (s.cget c Reg.CORE_SR_COUNT.COUNT + x.size 0 * x.rows) else s1
  (s2.cput c Reg.CORE_VX_STATUS.OCC_LEFT (passCycles i x)).cset c Reg.CORE_VX_STATUS.BUSY true

/-- The fields of a core that a pass writes, besides working addresses. -/
def runFs : List Fld :=
  [Reg.CORE_VX_STATUS.OCC_LEFT, Reg.CORE_VX_STATUS.BUSY, Reg.CORE_VX_COUNTS.RUNS, Reg.CORE_VX_COUNTS.POPS, Core.FTQ_HEAD,
   Reg.CORE_MX_STATUS.FTQ_COUNT, Reg.CORE_SR_COUNT.COUNT, Reg.CORE_VX_STATUS.OVERFLOW, Reg.CORE_VX_STATUS.INVALID, Reg.CORE_VX_STATUS.DIV_ZERO,
   Reg.CORE_CONV_STATUS.OVERFLOW, Reg.CORE_CONV_STATUS.NAN_ZERO, Reg.CORE_CONV_STATUS.NAN_BLOCK, Reg.CORE_CONV_STATUS.DECODE_INF]

theorem runFs_mem {i : VInstr} {f : Fld} (hf : f ∈ runFs) : coreFld c f ∈ vxFlds c i := List.mem_append_left _ (List.mem_map_of_mem hf)

/-- The descriptors of an instruction are in the table. -/
theorem vinstr_desc_lt (s : State) (c : CoreRef) (v : Nat) :
    ∀ n ∈ [(s.vinstr c v).xd, (s.vinstr c v).yd, (s.vinstr c v).dd, (s.vinstr c v).rd], n < 32 := by
  have hlt := bitsOf_lt (s.table c Table.VINSTR 16 (bitsOf v 15 10))
  simp only [List.mem_cons, List.not_mem_nil, or_false, forall_eq_or_imp, forall_eq]
  exact ⟨hlt 4 0, hlt 9 5, hlt 14 10, hlt 19 15⟩

/-- A field of the core that no pass writes. -/
theorem apart_vxFlds (s : State) (c : CoreRef) (v : Nat) {g : Fld} (h1 : ∀ f ∈ runFs, g.pos ≠ f.pos)
    (h2 : ∀ n < 32, ∀ f ∈ advFs n, g.pos ≠ f.pos) : Apart (coreFld c g) (vxFlds c (s.vinstr c v)) :=
  (apart_append ..).2 ⟨apart_coreFlds h1, apart_flatMap fun n hn => apart_coreFlds (h2 n (vinstr_desc_lt s c v n hn))⟩

/-- The static fields of a pass stand apart from the working addresses. -/
theorem runFs_advFs : ∀ n < 32, ∀ f ∈ runFs, ∀ g ∈ advFs n, f.pos ≠ g.pos := by decide

/-- A pass before its random numbers are claimed: counted, with its descriptors advanced. -/
def State.vxCounted (s : State) (c : CoreRef) (v : Nat) : State :=
  (s.cbump c Reg.CORE_VX_COUNTS.RUNS).advanceAll c (advList v (s.vinstr c v))

/-- The claim of random numbers (R88). -/
def State.claim (s : State) (c : CoreRef) (i : VInstr) (n : Nat) : State :=
  if i.dEn && i.rmode == 4 && !i.bf16 then s.cput c Reg.CORE_SR_COUNT.COUNT n else s

/-- The occupation of the engine (R137). -/
def State.occupyVx (s : State) (c : CoreRef) (n : Nat) : State :=
  (s.cput c Reg.CORE_VX_STATUS.OCC_LEFT n).cset c Reg.CORE_VX_STATUS.BUSY true

theorem vxStart_eq (s : State) (c : CoreRef) (v : Nat) :
    s.vxStart c v = ((s.vxCounted c v).claim c (s.vinstr c v) (s.cget c Reg.CORE_SR_COUNT.COUNT
      + (s.tdesc c (s.vinstr c v).xd).size 0 * (s.tdesc c (s.vinstr c v).xd).rows)).occupyVx c (passCycles (s.vinstr c v) (s.tdesc c (s.vinstr c v).xd)) :=
  rfl

theorem apart_advances (s : State) (c : CoreRef) (v : Nat) {f : Fld} (hf : f ∈ runFs) :
    Apart (coreFld c f) ((advList v (s.vinstr c v)).flatMap fun n => (advFs n).map (coreFld c)) :=
  apart_flatMap fun n hn => apart_coreFlds (runFs_advFs n (vinstr_desc_lt s c v n (advList_sub hn)) f hf)

section
variable (h : risingFrom 0 s.fld = true) (c : CoreRef)
include h

/-- The fields that the advances of a pass write. -/
theorem writes_counted (v : Nat) :
    s.Writes (s.vxCounted c v)
      (coreFld c Reg.CORE_VX_COUNTS.RUNS :: (advList v (s.vinstr c v)).flatMap fun n => (advFs n).map (coreFld c)) := by
  have h1 := (State.Writes.refl h).cbump c Reg.CORE_VX_COUNTS.RUNS
  exact h1.trans (writes_advanceAll h1.ordered c _)

theorem cget_counted_runs (v : Nat) :
    (s.vxCounted c v).cget c Reg.CORE_VX_COUNTS.RUNS = min (s.cget c Reg.CORE_VX_COUNTS.RUNS + 1) (2 ^ 32 - 1) :=
  ((writes_advanceAll (State.cput_rising h c _ _) c _).cget_eq (apart_advances s c v (by decide))).trans (State.cget_cbump_same h c _)

theorem cget_counted_base (v n : Nat) :
    (s.vxCounted c v).cget c (Reg.CORE_VX_WBASE.BASE n) = if n ∈ advList v (s.vinstr c v) then
      advanced (s.cget c (Reg.CORE_VX_WBASE.BASE n)) (s.tdesc c n).inc else s.cget c (Reg.CORE_VX_WBASE.BASE n) := by
  have h1 := (State.Writes.refl h).cbump c Reg.CORE_VX_COUNTS.RUNS
  have hne : (Reg.CORE_VX_WBASE.BASE n).pos ≠ Reg.CORE_VX_COUNTS.RUNS.pos := by
    unfold Reg.CORE_VX_WBASE.BASE Reg.CORE_VX_COUNTS.RUNS Fld.pos; dsimp only; omega
  have hbase : (s.cbump c Reg.CORE_VX_COUNTS.RUNS).cget c (Reg.CORE_VX_WBASE.BASE n) = s.cget c (Reg.CORE_VX_WBASE.BASE n) :=
    State.cget_cput_other h c hne _
  rw [State.vxCounted, cget_advanceAll h1.ordered c (nodup_advList _ _), hbase, h1.inc_eq]

theorem writes_claim (i : VInstr) (n : Nat) : s.Writes (s.claim c i n) [coreFld c Reg.CORE_SR_COUNT.COUNT] := by
  unfold State.claim
  split
  · exact (State.Writes.refl h).cput c Reg.CORE_SR_COUNT.COUNT n
  · exact (State.Writes.refl h).mono (by simp)

theorem cget_claim (i : VInstr) (x : TDesc) :
    (s.claim c i (s.cget c Reg.CORE_SR_COUNT.COUNT + x.size 0 * x.rows)).cget c Reg.CORE_SR_COUNT.COUNT
      = (s.cget c Reg.CORE_SR_COUNT.COUNT + srClaims i x) % 2 ^ 48 := by
  have hlt : s.cget c Reg.CORE_SR_COUNT.COUNT < 2 ^ 48 := s.cget_lt c Reg.CORE_SR_COUNT.COUNT
  have hiff : (i.dEn && i.rmode == 4 && !i.bf16) = true ↔ i.dEn = true ∧ i.rmode = 4 ∧ ¬ i.bf16 = true := by simp [and_assoc]
  unfold State.claim srClaims
  by_cases hc : i.dEn = true ∧ i.rmode = 4 ∧ ¬ i.bf16 = true
  · rw [if_pos hc, if_pos (hiff.2 hc)]
    exact State.cget_cput_same h c _ _
  · rw [if_neg hc, if_neg (mt hiff.1 hc)]
    exact (Nat.mod_eq_of_lt hlt).symm

theorem writes_occupy (n : Nat) : s.Writes (s.occupyVx c n) ([Reg.CORE_VX_STATUS.OCC_LEFT, Reg.CORE_VX_STATUS.BUSY].map (coreFld c)) :=
  ((State.Writes.refl h).cput c Reg.CORE_VX_STATUS.OCC_LEFT n).cset c Reg.CORE_VX_STATUS.BUSY true

theorem cget_occupy {n : Nat} (hn : n < 2 ^ 8) : (s.occupyVx c n).cget c Reg.CORE_VX_STATUS.OCC_LEFT = n :=
  (State.cget_cput_other (State.cput_rising h c _ _) c (by decide) _).trans (State.cget_cput_of_lt h c Reg.CORE_VX_STATUS.OCC_LEFT hn)

end

/-- What a pass that starts has written, and what its fields then hold. -/
structure State.Started (s t : State) (c : CoreRef) (v : Nat) (i : VInstr) (x : TDesc) : Prop where
  writes : s.Writes t (vxFlds c i)
  runs : t.cget c Reg.CORE_VX_COUNTS.RUNS = min (s.cget c Reg.CORE_VX_COUNTS.RUNS + 1) (2 ^ 32 - 1)
  occ : t.cget c Reg.CORE_VX_STATUS.OCC_LEFT = passCycles i x
  claimed : t.cget c Reg.CORE_SR_COUNT.COUNT = (s.cget c Reg.CORE_SR_COUNT.COUNT + srClaims i x) % 2 ^ 48
  base : t.cget c (Reg.CORE_VX_WBASE.BASE i.xd) = if i.xd ∈ advList v i then advanced x.base x.inc else x.base
  head : t.cget c Core.FTQ_HEAD = s.cget c Core.FTQ_HEAD

/-- A pass starts (R88, R121, R137, R139). -/
theorem vxStart_spec (h : risingFrom 0 s.fld = true) (c : CoreRef) (v : Nat) (hocc : passCycles (s.vinstr c v) (s.tdesc c (s.vinstr c v).xd) ≤ 224) :
    s.Started (s.vxStart c v) c v (s.vinstr c v) (s.tdesc c (s.vinstr c v).xd) := by
  have w1 := writes_counted h c v
  have hsr : (s.vxCounted c v).cget c Reg.CORE_SR_COUNT.COUNT = s.cget c Reg.CORE_SR_COUNT.COUNT :=
    w1.cget_eq ((apart_cons ..).2 ⟨by simp; decide, apart_advances s c v (by decide)⟩)
  have hruns := cget_counted_runs h c v
  have hbase := cget_counted_base h c v (s.vinstr c v).xd
  rw [vxStart_eq, ← hsr]
  have w2 := writes_claim w1.ordered c (s.vinstr c v)
    ((s.vxCounted c v).cget c Reg.CORE_SR_COUNT.COUNT + (s.tdesc c (s.vinstr c v).xd).size 0 * (s.tdesc c (s.vinstr c v).xd).rows)
  have w3 := writes_occupy w2.ordered c (passCycles (s.vinstr c v) (s.tdesc c (s.vinstr c v).xd))
  have hxd := (runFs_advFs _ (vinstr_desc_lt s c v (s.vinstr c v).xd (by simp)))
  have hbne (f : Fld) (hf : f ∈ runFs) : (Reg.CORE_VX_WBASE.BASE (s.vinstr c v).xd).pos ≠ f.pos := (hxd f hf _ (by simp [advFs])).symm
  refine ⟨((w1.trans w2).trans w3).mono ?_, ?_, ?_, ?_, ?_, ?_⟩
  · have hadv : ((advList v (s.vinstr c v)).flatMap fun n => (advFs n).map (coreFld c)) ⊆ vxFlds c (s.vinstr c v) := fun e he => by
      obtain ⟨n, hn, hen⟩ := List.mem_flatMap.1 he
      exact List.mem_append_right _ (List.mem_flatMap.2 ⟨n, advList_sub hn, hen⟩)
    exact List.append_subset.2 ⟨List.append_subset.2 ⟨List.cons_subset.2 ⟨runFs_mem (by decide), hadv⟩,
      List.cons_subset.2 ⟨runFs_mem (by decide), List.nil_subset _⟩⟩,
      List.cons_subset.2 ⟨runFs_mem (by decide), List.cons_subset.2 ⟨runFs_mem (by decide), List.nil_subset _⟩⟩⟩
  · rw [w3.cget_eq (apart_coreFlds (by decide)), w2.cget_eq (by simp; decide), hruns]
  · exact cget_occupy w2.ordered c (by omega)
  · rw [w3.cget_eq (apart_coreFlds (by decide)), cget_claim w1.ordered, hsr]
  · rw [w3.cget_eq (apart_coreFlds fun f hf => hbne f (by revert f; decide)), w2.cget_eq (by simpa using hbne _ (by decide)), hbase]
    rfl
  · rw [w3.cget_eq (apart_coreFlds (by decide)), w2.cget_eq (by simp; decide),
      w1.cget_eq ((apart_cons ..).2 ⟨by simp; decide, apart_advances s c v (by decide)⟩)]

end Sys2Proof.Machine
end

section
/-! PROOFS. A pass as a whole, and the cycle in which it issues (R100, R127, R137, R151). -/

namespace Sys2Proof.Machine

variable {s t u : State} {c : CoreRef} {v k n : Nat}

/-! ### The cycles, the queue's entry, and the uses of a pass -/

/-- A pass takes the oldest entry from the finished-tile queue (R127). -/
def State.popEntry (s : State) (c : CoreRef) : State :=
  ((s.cput c Core.FTQ_HEAD (s.cget c Core.FTQ_HEAD + 1)).cput c Reg.CORE_MX_STATUS.FTQ_COUNT
    (s.cget c Reg.CORE_MX_STATUS.FTQ_COUNT - 1)).cbump c Reg.CORE_VX_COUNTS.POPS

/-- All the cycles of a pass, from its start on. -/
def State.vxCycles (s : State) (c : CoreRef) (v : Nat) : State × List ChunkOut :=
  let i := s.vinstr c v
  (s.vxStart c v).runCycles c i (s.tdesc c i.xd) (s.tdesc c i.yd) (s.tdesc c i.dd) (s.tdesc c i.rd) (s.cget c Reg.CORE_SR_COUNT.COUNT)
    (passCycles i (s.tdesc c i.xd) + 25)

/-- The uses that a pass makes of its core's ports (R128, R138). -/
def State.portUses (s : State) (c : CoreRef) (v : Nat) : List (Nat × Flight) :=
  let i := s.vinstr c v
  passUses i (s.tdesc c i.xd) (s.tdesc c i.yd) (s.tdesc c i.dd) (s.tdesc c i.rd)

/-- The uses that a pass makes of its core's ports, of the queue and of a predicate (R127, R138). -/
def State.vxUses (s : State) (c : CoreRef) (v : Nat) : List (Nat × Flight) :=
  let i := s.vinstr c v
  let x := s.tdesc c i.xd
  s.portUses c v ++ (if i.pop then [(lastQueueRead i x, .ftqPlace)] else [])
    ++ if i.reduce = 4 ∨ i.reduce = 5 then [(passCycles i x + 23, .pred i.pd (predResult i.reduce (s.vxCycles c v).2))] else []

/-- A pass before its uses are noted. -/
def State.vxDone (s : State) (c : CoreRef) (v : Nat) : State :=
  if (s.vinstr c v).pop then (s.vxCycles c v).1.popEntry c else (s.vxCycles c v).1

theorem vxRun_eq (s : State) (c : CoreRef) (v : Nat) : s.vxRun c v = (s.vxDone c v).addFlights c (s.vxUses c v) := rfl

/-- The fields that a pass writes after its start. -/
def doneFs : List Fld := flagFs ++ [Core.FTQ_HEAD, Reg.CORE_MX_STATUS.FTQ_COUNT, Reg.CORE_VX_COUNTS.POPS]

theorem writes_popEntry (h : risingFrom 0 s.fld = true) (c : CoreRef) : s.Writes (s.popEntry c) (doneFs.map (coreFld c)) :=
  ((((State.Writes.refl h).cput c Core.FTQ_HEAD _).cput c Reg.CORE_MX_STATUS.FTQ_COUNT _).cbump c Reg.CORE_VX_COUNTS.POPS).mono
    (List.map_subset (l₁ := [Core.FTQ_HEAD, Reg.CORE_MX_STATUS.FTQ_COUNT, Reg.CORE_VX_COUNTS.POPS]) (coreFld c) (by decide))

/-- After its start a pass writes what its cycles do, and the queue's fields. -/
theorem vxDone_engine (h : (s.vxStart c v).Computes (s.vxCycles c v).1 c k n) : (s.vxStart c v).Engine (s.vxDone c v) (doneFs.map (coreFld c)) k n := by
  have h1 := h.mono (fs := doneFs.map (coreFld c)) (List.map_subset _ (List.subset_append_left _ _))
  unfold State.vxDone
  split
  · exact h1.trans (.of_writes h1.canonical (writes_popEntry h1.ordered c))
  · exact h1

theorem vxDone_sram (s : State) (c : CoreRef) (v : Nat) : (s.vxDone c v).sram = (s.vxCycles c v).1.sram := by
  unfold State.vxDone
  split <;> rfl

/-! ### The ports of the cycle of issue -/

/-- The scratchpad lines that a use reads. -/
def Flight.readLines : Flight → List Nat
  | .spRead ls => ls
  | _ => []

/-- The scratchpad lines that a use writes. -/
def Flight.writeLines : Flight → List Nat
  | .spWrite ls => ls
  | _ => []

theorem Flight.mem_readLines {f : Flight} {l : Nat} : l ∈ f.readLines ↔ ∃ ls, f = .spRead ls ∧ l ∈ ls := by
  cases f <;> simp [Flight.readLines]

theorem Flight.mem_writeLines {f : Flight} {l : Nat} : l ∈ f.writeLines ↔ ∃ ls, f = .spWrite ls ∧ l ∈ ls := by
  cases f <;> simp [Flight.writeLines]

/-- Lines of the uses that fall into this cycle, with the issue order and word of their operations. -/
def State.linesNow (s : State) (c : CoreRef) (f : Flight → List Nat) : List (Nat × Nat × Nat) :=
  (s.flights.filter fun u => u.owner == c && u.left == 0).flatMap fun u => (f u.what).map fun l => (l, u.order, u.word)

/-- The latest operation's word. -/
def laterWord (l : List (Nat × Nat)) : Option Nat :=
  (l.foldl (fun m p => match m with
    | some q => if q.1 < p.1 then some p else some q
    | none => some p) none).map (·.2)

/-- The ports of a cycle in which the move channels neither read nor write: what its uses read and write (R151, R154). -/
theorem portCollision_eq (hd : s.dueBeats c = []) (hr : s.spReads c = []) :
    s.portCollision c = laterWord
      ((((s.linesNow c Flight.readLines).filter fun r => (s.linesNow c Flight.readLines).any fun q => q.1 != r.1 && spBank q.1 == spBank r.1)
        ++ ((s.linesNow c Flight.writeLines).filter fun w =>
          2 ≤ ((s.linesNow c Flight.writeLines).filter fun q => spBank q.1 == spBank w.1).length)).map (fun r => (r.2.1, r.2.2)) ++ []) := by
  unfold State.portCollision
  rw [hd, hr]
  rfl

/-- Of the scratchpad lines that uses read in the cycle of issue no two share a bank (R151). -/
def BanksApart (us : List (Nat × Flight)) : Prop :=
  ∀ as bs, (0, Flight.spRead as) ∈ us → (0, Flight.spRead bs) ∈ us → ∀ a ∈ as, ∀ b ∈ bs, a ≠ b → spBank a ≠ spBank b

/-- The uses that begin in the cycle of issue collide with nothing: the lines read stand in different banks, and nothing is written (R151). -/
structure UsesFit (us : List (Nat × Flight)) : Prop where
  reads : BanksApart us
  writes : ∀ as, (0, Flight.spWrite as) ∉ us
  preds : ∀ p b, (0, Flight.pred p b) ∉ us

/-- A core whose engine is occupied by the pass that issues, and whose other uses have ended. -/
structure State.Occupied (s : State) (c : CoreRef) (occ : Nat) (us : List (Nat × Flight)) : Prop where
  busy0 : s.cflag c (Core.CH_BUSY 0) = false
  busy1 : s.cflag c (Core.CH_BUSY 1) = false
  mx : s.cget c Reg.CORE_MX_STATUS.OCC_LEFT = 0
  vx : s.cget c Reg.CORE_VX_STATUS.OCC_LEFT = occ
  beats : ∀ b ∈ s.beats, b.owner ≠ c
  flights : ∀ e ∈ s.flights, e.owner = c → (e.left, e.what) ∈ us

namespace State.Occupied
variable {occ : Nat} {us : List (Nat × Flight)}

theorem channels (h : s.Occupied c occ us) (p : Nat → Bool) :
    ((List.range 2).filter fun ch => s.cflag c (Core.CH_BUSY ch) && !s.cflag c (Core.CH_SUSP ch) && p ch) = [] := by
  rw [List.filter_eq_nil_iff]
  intro ch hch
  obtain rfl | rfl : ch = 0 ∨ ch = 1 := by have := List.mem_range.1 hch; omega
  · rw [h.busy0]; simp
  · rw [h.busy1]; simp

theorem beats_filter (h : s.Occupied c occ us) (p : Beat → Bool) : (s.beats.filter fun b => b.owner == c && p b) = [] :=
  List.filter_eq_nil_iff.2 fun b hb => by simp [h.beats b hb]

theorem cmAccesses (h : s.Occupied c occ us) : s.cmAccesses c = [] := by
  have hd : (s.beats.filter fun b => b.dueNow c && b.space == 0) = [] := by
    simpa only [Beat.dueNow, Bool.and_assoc] using h.beats_filter fun b => decide (b.left ≤ 1) && b.space == 0
  unfold State.cmAccesses
  rw [hd, h.channels]
  rfl

theorem spReads (h : s.Occupied c occ us) : s.spReads c = [] := by
  unfold State.spReads
  rw [h.channels]
  rfl

/-- The uses of the core that fall into this cycle. -/
theorem mem_now (h : s.Occupied c occ us) {e : EngineUse} (he : e ∈ s.flights.filter fun u => u.owner == c && u.left == 0) : (0, e.what) ∈ us := by
  obtain ⟨hmem, hp⟩ := List.mem_filter.1 he
  simp only [Bool.and_eq_true, beq_iff_eq] at hp
  exact hp.2 ▸ h.flights e hmem hp.1

/-- Nothing collides in the cycle of issue (R151, R154). -/
theorem portCollision (h : s.Occupied c occ us) (hu : UsesFit us) : s.portCollision c = none := by
  have hwrites : s.linesNow c Flight.writeLines = [] := by
    rw [State.linesNow, List.flatMap_eq_nil_iff]
    intro e he
    have hnone : e.what.writeLines = [] := List.eq_nil_iff_forall_not_mem.2 fun l hl => by
      obtain ⟨ls, hls, -⟩ := Flight.mem_writeLines.1 hl
      exact hu.writes ls (hls ▸ h.mem_now he)
    rw [hnone, List.map_nil]
  have hread : ∀ a ∈ s.linesNow c Flight.readLines, ∃ ls, (0, Flight.spRead ls) ∈ us ∧ a.1 ∈ ls := by
    intro a ha
    obtain ⟨e, he, ha⟩ := List.mem_flatMap.1 ha
    obtain ⟨l, hl, rfl⟩ := List.mem_map.1 ha
    obtain ⟨ls, hls, hmem⟩ := Flight.mem_readLines.1 hl
    exact ⟨ls, hls ▸ h.mem_now he, hmem⟩
  have hhits : ((s.linesNow c Flight.readLines).filter fun r => (s.linesNow c Flight.readLines).any fun q => q.1 != r.1 && spBank q.1 == spBank r.1) = [] := by
    refine List.filter_eq_nil_iff.2 fun a ha hany => ?_
    obtain ⟨b, hb, hab⟩ := List.any_eq_true.1 hany
    obtain ⟨as, has, haa⟩ := hread a ha
    obtain ⟨bs, hbs, hbb⟩ := hread b hb
    simp only [Bool.and_eq_true, bne_iff_ne, beq_iff_eq] at hab
    exact hu.reads bs as hbs has b.1 hbb a.1 haa hab.1 hab.2
  rw [portCollision_eq (h.beats_filter _) h.spReads, hhits, hwrites]
  rfl

/-- No predicate is written in the cycle of issue (R138). -/
theorem predsDue (h : s.Occupied c occ us) (hu : UsesFit us) : s.predsDue c = [] := by
  refine List.filterMap_eq_nil_iff.2 fun e he => ?_
  cases hw : e.what with
  | pred p b =>
    refine if_neg fun hp => hu.preds p b ?_
    rw [← hw, ← hp.2]
    exact h.flights e he hp.1
  | _ => rfl

/-- The uses of the core, a cycle nearer. -/
def aged (s : State) (c : CoreRef) : List EngineUse := (s.flights.filter fun u => !(u.owner == c && u.left == 0)).map fun u => u.age c

/-- The cycle of issue: the occupation counts down, and the engine's uses come a cycle nearer (R100, R137). -/
theorem tick (h : s.Occupied c occ us) (hu : UsesFit us) (hocc : occ ≠ 0) :
    s.tick c = ((s.cput c Reg.CORE_VX_STATUS.OCC_LEFT (occ - 1)).cset c Reg.CORE_VX_STATUS.BUSY (occ ≠ 1)).withFlights (aged s c) := by
  have hd : (s.beats.filter fun b => b.dueNow c) = [] := h.beats_filter fun b => decide (b.left ≤ 1)
  have hk : ((s.beats.filter fun b => !b.dueNow c).map fun b => b.age c) = s.beats := by
    have hkeep : (s.beats.filter fun b => !b.dueNow c) = s.beats :=
      List.filter_eq_self.2 fun b hb => by simp [Beat.dueNow, h.beats b hb]
    rw [hkeep]
    exact (List.map_congr_left fun b hb => if_neg (h.beats b hb)).trans (List.map_id _)
  have hf : ∀ f, { s with beats := [] }.cflag c f = s.cflag c f := fun _ => rfl
  have hage (t : State) (hp : t.predsDue c = []) : t.ageFlights c = t.withFlights (aged t c) := by
    unfold State.ageFlights
    rw [hp]
    rfl
  simp only [State.tick, h.cmAccesses, State.serveBanks, List.isEmpty_nil, if_true, hf, h.busy0, h.busy1, Bool.false_and, Bool.false_eq_true, if_false,
    hd, hk, List.foldl_nil, List.append_nil, h.mx, h.vx, hocc]
  exact hage _ (h.predsDue hu)

theorem tickChecked (h : s.Occupied c occ us) (hu : UsesFit us) : s.tickChecked c = s.tick c := by
  simp only [State.tickChecked, h.portCollision hu]

end State.Occupied

end Sys2Proof.Machine
end

section
/-! PROOFS. A word whose vector slot runs a pass (R28, R63, R119). -/

namespace Sys2Proof.Machine

variable {s t u : State} {c : CoreRef} {v a : Nat}

/-- A word whose vector slot is `v`. -/
@[simps] def vxWord (v : Nat) : Slots := ⟨0, v, 0, 0, 0, 0, 0⟩

theorem oneSlot_vxWord (hv : v < 2 ^ 64) : oneSlot 64 v = vxWord v := by
  simp (disch := decide) only [oneSlot, slotsOf, vxWord, bitsOf_shifted_same (hi := 127) (lo := 64) hv, bitsOf_shifted_above hv, bitsOf_shifted_below]

/-- A live vector slot that keeps the checks of its row passes them as a word. -/
theorem passes_vx (hl : s.slotLive c v) (h1 : vxStatic s c v = []) (h2 : vxDynamic s c v = []) (h3 : s.tileFault c v 0 = []) :
    s.Passes c (vxWord v) where
  checks := by simp [State.wordFault, vxWord, hl.1, hl.2, h1, h2, h3]
  arrival := by simp
  waits := by simp
  port := by simp

/-- A word of one live vector slot: its pass runs, the engine has its cycle, and the sequencer goes on (R45, R137). -/
theorem issueSlots_vx (hl : s.live c v = true) {u : State}
    (hu : (((s.mark c).vxIssue c v).cbump c Reg.CORE_ISSUE_COUNT.COUNT).tickChecked c = u) (hst : u.cget c Reg.CORE_SCHED_STATUS.STATE = 1) :
    s.issueSlots c (vxWord v) a = (u.sequence s c 0 a).afterIssue c false false := by
  have hg := gated_of_live hl
  have hend : (bitsOf 0 9 6 == 6) = false := rfl
  unfold State.mark at hu
  simp -implicitDefEqProofs only [State.issueSlots, show vxWord v = ⟨0, v, 0, 0, 0, 0, 0⟩ from rfl, gated_zero, hg, pausesHere_zero, takeWait_zero,
    loadCount_zero, qpIssue_zero, startMove_zero, mxIssue_zero, plPred_zero, State.writePred, hu, hst, OfNat.one_ne_ofNat, Bool.false_eq_true,
    if_false, hend]

theorem exec_run (c : CoreRef) (w : BitVec 64) (s : State) : exec (.run c w) s = .next (s.runWord c (vxWord (withField w.toNat 9 6 1))) := by
  rw [← oneSlot_vxWord (withField_lt (by decide) (by decide) (by decide) w.isLt)]
  rfl

end Sys2Proof.Machine
end

section
/-! PROOFS. The word of a pass: the pass, the cycle in which it issues, and where the core goes on (R28, R119, R137). -/

namespace Sys2Proof.Machine

variable {s t u : State} {c : CoreRef} {v k n : Nat}

/-! ### After the pass -/

/-- The fields of the cycle of issue. -/
def cycleFs : List Fld := [Reg.CORE_ISSUE_COUNT.COUNT, Reg.CORE_VX_STATUS.OCC_LEFT, Reg.CORE_VX_STATUS.BUSY]

/-- The cycle in which a pass of `occ` cycles issues: the issue is counted, and the occupation counts down. -/
def State.vxCycle (t : State) (c : CoreRef) (occ : Nat) : State :=
  ((t.cbump c Reg.CORE_ISSUE_COUNT.COUNT).cput c Reg.CORE_VX_STATUS.OCC_LEFT (occ - 1)).cset c Reg.CORE_VX_STATUS.BUSY (occ ≠ 1)

section
variable (h : risingFrom 0 t.fld = true) (c : CoreRef) {occ : Nat}
include h

theorem writes_vxCycle (occ : Nat) : t.Writes (t.vxCycle c occ) (cycleFs.map (coreFld c)) :=
  (((State.Writes.refl h).cbump c Reg.CORE_ISSUE_COUNT.COUNT).cput c Reg.CORE_VX_STATUS.OCC_LEFT (occ - 1)).cset c Reg.CORE_VX_STATUS.BUSY (occ ≠ 1)

/-- The count and the occupation after the cycle. -/
theorem cget_vxCycle (hocc : occ ≤ 224) :
    (t.vxCycle c occ).cget c Reg.CORE_ISSUE_COUNT.COUNT = min (t.cget c Reg.CORE_ISSUE_COUNT.COUNT + 1) (2 ^ 48 - 1)
      ∧ (t.vxCycle c occ).cget c Reg.CORE_VX_STATUS.OCC_LEFT = occ - 1 := by
  have w1 := (State.Writes.refl h).cbump c Reg.CORE_ISSUE_COUNT.COUNT
  have w2 := w1.cput c Reg.CORE_VX_STATUS.OCC_LEFT (occ - 1)
  refine ⟨?_, ?_⟩
  · exact (State.cget_cput_other w2.ordered c (by decide) _).trans
      ((State.cget_cput_other w1.ordered c (by decide) _).trans (State.cget_cbump_same h c _))
  · exact (State.cget_cput_other w2.ordered c (by decide) _).trans
      (State.cget_cput_of_lt w1.ordered c Reg.CORE_VX_STATUS.OCC_LEFT (show occ - 1 < 2 ^ 8 by omega))

end

/-- Where the fields of the open loops stand as before, no loop ends either. -/
theorem noLoopEnds_of_cget {a : Nat} (hl : s.openLoops c ≤ 4) (h : ∀ g ∈ loopEndFlds, t.cget c g = s.cget c g) (hn : s.noLoopEnds c a) :
    t.noLoopEnds c a := by
  have ho : t.openLoops c = s.openLoops c := h _ (by decide)
  unfold State.noLoopEnds at *
  rw [ho]
  rcases Nat.eq_zero_or_pos (s.openLoops c) with h0 | h0
  · exact .inl h0
  · rwa [h _ ((by decide : ∀ l < 4, Reg.CORE_LOOP_STATE.END l ∈ loopEndFlds) _ (by omega : s.openLoops c - 1 < 4))]

/-! ### The fields that a pass leaves -/

/-- The core's fields that no pass writes. -/
def passFree : List Fld :=
  [Reg.CORE_SCHED_STATUS.STATE, Reg.CORE_SCHED_STATUS.SLIP_CAUSE, Core.BRK_PASS, Reg.CORE_SCHED_STATUS.ADDR, Reg.CORE_ISSUE_COUNT.COUNT] ++ stopFlds
    ++ loopEndFlds ++ [Core.CH_BUSY 0, Core.CH_BUSY 1, Reg.CORE_MX_STATUS.OCC_LEFT]

theorem apart_passFree (s : State) (c : CoreRef) (v : Nat) {g : Fld} (hg : g ∈ passFree) : Apart (coreFld c g) (vxFlds c (s.vinstr c v)) :=
  apart_vxFlds s c v ((by decide : ∀ g ∈ passFree, ∀ f ∈ runFs, g.pos ≠ f.pos) g hg)
    ((by decide : ∀ g ∈ passFree, ∀ n < 32, ∀ f ∈ advFs n, g.pos ≠ f.pos) g hg)

theorem doneFlds_subset (c : CoreRef) (i : VInstr) : doneFs.map (coreFld c) ⊆ vxFlds c i :=
  fun _ he => List.mem_append_left _ (List.map_subset _ (by decide : doneFs ⊆ runFs) he)

theorem descFs_mark : ∀ n < 32, ∀ f ∈ descFs n, ∀ g ∈ [Reg.CORE_SCHED_STATUS.STATE, Reg.CORE_SCHED_STATUS.SLIP_CAUSE, Core.BRK_PASS], f.pos ≠ g.pos := by
  decide

/-- The marks of an issue leave what a pass takes from its entries. -/
theorem vinstr_mark (s : State) (c : CoreRef) (v : Nat) : (s.mark c).vinstr c v = s.vinstr c v := rfl

theorem tdesc_mark (h : risingFrom 0 s.fld = true) (c : CoreRef) {n : Nat} (hn : n < 32) : (s.mark c).tdesc c n = s.tdesc c n :=
  ((State.Issuing.mark h c).writes.mono (by simp)).tdesc_eq fun f hf => apart_mark (descFs_mark n hn f hf)

/-- The start of the pass of a word that issues. -/
theorem mark_started (h : risingFrom 0 s.fld = true) (hocc : passCycles (s.vinstr c v) (s.tdesc c (s.vinstr c v).xd) ≤ 224) :
    (s.mark c).Started ((s.mark c).vxStart c v) c v (s.vinstr c v) (s.tdesc c (s.vinstr c v).xd) := by
  have hx := tdesc_mark h c (vinstr_desc_lt s c v (s.vinstr c v).xd (by simp))
  have hs := vxStart_spec (State.Issuing.mark h c).ordered c v (by rw [vinstr_mark, hx]; exact hocc)
  rwa [vinstr_mark, hx] at hs

/-! ### The word -/

/-- A pass that can issue: it is legal for the core that stands at it, its cycles change bytes of `[k, k + n)` alone, and its uses fit. -/
structure State.CanRun (s : State) (c : CoreRef) (v k n : Nat) : Prop where
  canonical : s.canonical = true
  ready : s.coreReady c
  live : s.slotLive c v
  op : bitsOf v 9 6 = 1
  passes : s.Passes c (vxWord v)
  occ_pos : passCycles (s.vinstr c v) (s.tdesc c (s.vinstr c v).xd) ≠ 0
  occ_le : passCycles (s.vinstr c v) (s.tdesc c (s.vinstr c v).xd) ≤ 224
  computes : ((s.mark c).vxStart c v).Computes ((s.mark c).vxCycles c v).1 c k n
  fits : UsesFit ((s.mark c).vxUses c v)

namespace State.CanRun

variable (h : s.CanRun c v k n)
include h

theorem mark : s.Issuing (s.mark c) c [] := State.Issuing.mark (State.canonical_fld h.canonical) c

theorem started : (s.mark c).Started ((s.mark c).vxStart c v) c v (s.vinstr c v) (s.tdesc c (s.vinstr c v).xd) :=
  mark_started (State.canonical_fld h.canonical) h.occ_le

/-- The whole pass. -/
theorem done : (s.mark c).Engine ((s.mark c).vxDone c v) (vxFlds c (s.vinstr c v)) k n := by
  have hm : s.Engine (s.mark c) (markFlds c ++ []) k n := .of_writes h.canonical h.mark.writes
  exact (State.Engine.of_writes hm.canonical h.started.writes).trans ((vxDone_engine h.computes).mono (doneFlds_subset c _))

/-- The core once its word has issued. -/
theorem occupied :
    (((s.mark c).vxRun c v).cbump c Reg.CORE_ISSUE_COUNT.COUNT).Occupied c (passCycles (s.vinstr c v) (s.tdesc c (s.vinstr c v).xd))
      ((s.mark c).vxUses c v) := by
  have hq := h.ready.1.quiet
  have hcount := (State.Writes.refl h.done.ordered).cbump c Reg.CORE_ISSUE_COUNT.COUNT
  have hkeep {f : Fld} (hf : f ∈ passFree) (h1 : Apart (coreFld c f) (markFlds c)) (h2 : f.pos ≠ Reg.CORE_ISSUE_COUNT.COUNT.pos) :
      (((s.mark c).vxDone c v).cbump c Reg.CORE_ISSUE_COUNT.COUNT).cget c f = s.cget c f :=
    (hcount.cget_eq (by simpa using h2)).trans ((h.done.cget_eq (apart_passFree s c v hf)).trans (h.mark.cget_eq h1 (by simp)))
  have hflag {f : Fld} (hw : f.width = 1) (hv : (((s.mark c).vxDone c v).cbump c Reg.CORE_ISSUE_COUNT.COUNT).cget c f = 0) :
      (((s.mark c).vxDone c v).cbump c Reg.CORE_ISSUE_COUNT.COUNT).cflag c f = false := (State.cflag_false_iff _ c f hw).2 hv
  have hd := vxDone_engine h.computes
  have hocc : (((s.mark c).vxDone c v).cbump c Reg.CORE_ISSUE_COUNT.COUNT).cget c Reg.CORE_VX_STATUS.OCC_LEFT
      = passCycles (s.vinstr c v) (s.tdesc c (s.vinstr c v).xd) :=
    (hcount.cget_eq (by simp; decide)).trans ((hd.cget_eq (apart_coreFlds (by decide))).trans h.started.occ)
  rw [vxRun_eq]
  refine ⟨hflag rfl ((hkeep (by decide) (apart_mark (by decide)) (by decide)).trans hq.busy0),
    hflag rfl ((hkeep (by decide) (apart_mark (by decide)) (by decide)).trans hq.busy1),
    (hkeep (by decide) (apart_mark (by decide)) (by decide)).trans hq.mx, hocc, ?_, ?_⟩
  · show ∀ b ∈ ((s.mark c).vxDone c v).beats, b.owner ≠ c
    rw [h.done.beats_eq]
    exact hq.beats
  · intro e he hown
    rcases List.mem_append.1 (show e ∈ ((s.mark c).vxDone c v).flights ++ _ from he) with he | he
    · rw [h.done.flights_eq] at he
      exact (hq.flights e he hown).elim
    · obtain ⟨p, hp, rfl⟩ := List.mem_map.1 he
      exact hp

/-- The state after the cycle of issue, without the uses under way. -/
theorem cycled :
    (s.mark c).Engine (((s.mark c).vxDone c v).vxCycle c (passCycles (s.vinstr c v) (s.tdesc c (s.vinstr c v).xd)))
      (vxFlds c (s.vinstr c v) ++ [coreFld c Reg.CORE_ISSUE_COUNT.COUNT]) k n := by
  have hr {f : Fld} (hf : f ∈ runFs) := List.mem_append_left [coreFld c Reg.CORE_ISSUE_COUNT.COUNT] (runFs_mem (c := c) (i := s.vinstr c v) hf)
  refine (h.done.mono (List.subset_append_left _ _)).trans ((State.Engine.of_writes h.done.canonical (writes_vxCycle h.done.ordered c _)).mono ?_)
  exact List.cons_subset.2 ⟨List.mem_append_right _ (by simp),
    List.cons_subset.2 ⟨hr (by decide), List.cons_subset.2 ⟨hr (by decide), List.nil_subset _⟩⟩⟩

/-- A field that neither the marks, the pass nor the cycle of issue writes. -/
theorem cget_cycled {g : Fld} (hg : g ∈ passFree) (h1 : Apart (coreFld c g) (markFlds c)) (h2 : g.pos ≠ Reg.CORE_ISSUE_COUNT.COUNT.pos) :
    (((s.mark c).vxDone c v).vxCycle c (passCycles (s.vinstr c v) (s.tdesc c (s.vinstr c v).xd))).cget c g = s.cget c g :=
  (h.cycled.cget_eq (by simp [apart_passFree s c v hg, h2])).trans (h.mark.cget_eq h1 (by simp))

/-- The word: the pass runs, its uses are under way, and the core goes on with the next word. -/
theorem runWord :
    ∃ fs, s.runWord c (vxWord v) = ((((s.mark c).vxDone c v).vxCycle c (passCycles (s.vinstr c v) (s.tdesc c (s.vinstr c v).xd))).cput c
      Reg.CORE_SCHED_STATUS.ADDR (s.wordAddr c + 1)).withFlights fs := by
  obtain ⟨hr, hends⟩ := h.ready
  have hadd : s.wordAddr c + 1 ≤ 2047 := hr.addr_lt
  have hread {g : Fld} := h.cget_cycled (g := g)
  have hstate := (h.cycled.cget_eq (by simp [apart_passFree s c v (g := Reg.CORE_SCHED_STATUS.STATE) (by decide)]; decide)).trans h.mark.state
  have htick : ((((s.mark c).vxIssue c v).cbump c Reg.CORE_ISSUE_COUNT.COUNT).tickChecked c)
      = (((s.mark c).vxDone c v).vxCycle c (passCycles (s.vinstr c v) (s.tdesc c (s.vinstr c v).xd))).withFlights
          (State.Occupied.aged (((s.mark c).vxRun c v).cbump c Reg.CORE_ISSUE_COUNT.COUNT) c) := by
    rw [State.vxIssue, if_pos h.op, h.occupied.tickChecked h.fits, h.occupied.tick h.fits h.occ_pos, vxRun_eq]
    rfl
  generalize State.Occupied.aged _ c = fs at htick
  have hnl := noLoopEnds_of_cget hr.loops_le (fun g hg => hread
    (List.mem_append_left _ (List.mem_append_right _ hg)) (apart_mark ((by decide : ∀ g ∈ loopEndFlds, ∀ f ∈ [Reg.CORE_SCHED_STATUS.STATE,
      Reg.CORE_SCHED_STATUS.SLIP_CAUSE, Core.BRK_PASS], g.pos ≠ f.pos) g hg))
    ((by decide : ∀ g ∈ loopEndFlds, g.pos ≠ Reg.CORE_ISSUE_COUNT.COUNT.pos) g hg)) hends
  have hpast := hread (g := Core.PAST) (by decide) (apart_mark (by decide)) (by decide)
  have hstep := hread (g := Core.STEPPING) (by decide) (apart_mark (by decide)) (by decide)
  have hbreak := hread (g := Reg.CORE_SCHED_CTL.BREAK_EN) (by decide) (apart_mark (by decide)) (by decide)
  have hstop := hread (g := Core.STOPPING) (by decide) (apart_mark (by decide)) (by decide)
  have hrise := h.cycled.ordered
  generalize ((s.mark c).vxDone c v).vxCycle c (passCycles (s.vinstr c v) (s.tdesc c (s.vinstr c v).xd)) = e at *
  have hseq : (e.withFlights fs).sequence s c 0 (s.wordAddr c) = (e.cput c Reg.CORE_SCHED_STATUS.ADDR (s.wordAddr c + 1)).withFlights fs :=
    (if_neg (by decide)).trans ((State.nextWord_goto 5 (s := e.withFlights fs) hnl).trans (State.gotoWord_of_le _ _ hadd))
  have hkeep {g : Fld} (hg : g.pos ≠ Reg.CORE_SCHED_STATUS.ADDR.pos) :
      (e.cput c Reg.CORE_SCHED_STATUS.ADDR (s.wordAddr c + 1)).cget c g = e.cget c g := State.cget_cput_other hrise c hg _
  have hoff {g : Fld} (hg : g.pos ≠ Reg.CORE_SCHED_STATUS.ADDR.pos) (he : e.cget c g = s.cget c g) (hs : s.cflag c g = false) :
      ((e.cput c Reg.CORE_SCHED_STATUS.ADDR (s.wordAddr c + 1)).withFlights fs).cflag c g = false := by
    show (e.cput c Reg.CORE_SCHED_STATUS.ADDR (s.wordAddr c + 1)).cflag c g = false
    have := (hkeep hg).trans he
    simp_all [State.flag]
  refine ⟨fs, State.runWord_of_issueWord ?_ (ne_of_eq_of_ne ((hkeep (g := Core.STOPPING) (by decide)).trans (hstop.trans hr.stopping)) (by decide))⟩
  rw [hr.offered.issueWord_of_passes h.passes, issueSlots_vx h.live.2 htick hstate, hseq]
  exact State.afterIssue_running ((hkeep (g := Reg.CORE_SCHED_STATUS.STATE) (by decide)).trans hstate) (hoff (by decide) hpast hr.past)
    (hoff (by decide) hstep hr.stepping) (hoff (by decide) hbreak hr.breakOff)

/-- A counter of the pass that neither its cycles nor the cycle of issue write again. -/
theorem cget_started {f : Fld} (h1 : ∀ g ∈ doneFs ++ cycleFs, f.pos ≠ g.pos) :
    (((s.mark c).vxDone c v).vxCycle c (passCycles (s.vinstr c v) (s.tdesc c (s.vinstr c v).xd))).cget c f = ((s.mark c).vxStart c v).cget c f :=
  ((writes_vxCycle h.done.ordered c _).cget_eq (apart_coreFlds fun g hg => h1 g (List.mem_append_right _ hg))).trans
    ((vxDone_engine h.computes).cget_eq (apart_coreFlds fun g hg => h1 g (List.mem_append_left _ hg)))

end State.CanRun

/-- What the word of a pass leaves: the bytes that its cycles wrote, its counters, and the core at its next word. -/
structure State.Ran (s u : State) (c : CoreRef) (v k n : Nat) (i : VInstr) (x : TDesc) : Prop where
  bytes : s.sameBytesBut u k n
  sram : u.sram = ((s.mark c).vxCycles c v).1.sram
  goesOn : s.coreGoesOn u c (s.wordAddr c + 1) (vxFlds c i)
  runs : u.cget c Reg.CORE_VX_COUNTS.RUNS = min (s.cget c Reg.CORE_VX_COUNTS.RUNS + 1) (2 ^ 32 - 1)
  occ : u.cget c Reg.CORE_VX_STATUS.OCC_LEFT = passCycles i x - 1
  claimed : u.cget c Reg.CORE_SR_COUNT.COUNT = (s.cget c Reg.CORE_SR_COUNT.COUNT + srClaims i x) % 2 ^ 48
  base : u.cget c (Reg.CORE_VX_WBASE.BASE i.xd) = if i.xd ∈ advList v i then advanced x.base x.inc else x.base

/-- The fields that a pass reads back at its end stand apart from those of its cycles. -/
theorem base_cycle : ∀ n < 32, ∀ g ∈ doneFs ++ cycleFs ++ [Reg.CORE_SCHED_STATUS.ADDR], (Reg.CORE_VX_WBASE.BASE n).pos ≠ g.pos := by decide

/-- The word of a pass (R28, R88, R119, R121, R137, R139). -/
theorem State.CanRun.ran (h : s.CanRun c v k n) :
    ∃ u, s.runWord c (vxWord v) = u ∧ s.Ran u c v k n (s.vinstr c v) (s.tdesc c (s.vinstr c v).xd) := by
  obtain ⟨fs, hrun⟩ := h.runWord
  refine ⟨_, hrun, ?_⟩
  have hcycled := h.cycled
  have hrise := hcycled.ordered
  have hadd : s.wordAddr c + 1 < 2 ^ 11 := by have := h.ready.1.addr_lt; omega
  obtain ⟨hcount, hocc⟩ := cget_vxCycle h.done.ordered c h.occ_le
  have hcount0 := (h.done.cget_eq (apart_passFree s c v (g := Reg.CORE_ISSUE_COUNT.COUNT) (by decide))).trans
    (h.mark.cget_eq (apart_mark (by decide)) (by simp))
  have hxd := base_cycle _ (vinstr_desc_lt s c v (s.vinstr c v).xd (by simp))
  have hruns := h.cget_started (f := Reg.CORE_VX_COUNTS.RUNS) (by decide)
  have hsr := h.cget_started (f := Reg.CORE_SR_COUNT.COUNT) (by decide)
  have hbase := h.cget_started (f := Reg.CORE_VX_WBASE.BASE (s.vinstr c v).xd) fun g hg => hxd g (List.mem_append_left _ hg)
  have hmark (f : Fld) (hf : f ∈ [Reg.CORE_VX_COUNTS.RUNS, Reg.CORE_SR_COUNT.COUNT]) : (s.mark c).cget c f = s.cget c f :=
    h.mark.cget_eq (apart_mark ((by decide : ∀ f ∈ [Reg.CORE_VX_COUNTS.RUNS, Reg.CORE_SR_COUNT.COUNT], ∀ g ∈ [Reg.CORE_SCHED_STATUS.STATE,
      Reg.CORE_SCHED_STATUS.SLIP_CAUSE, Core.BRK_PASS], f.pos ≠ g.pos) f hf)) (by simp)
  have hall : s.Engine _ (issueFlds c ++ vxFlds c (s.vinstr c v)) k n :=
    (State.Engine.of_writes h.canonical h.mark.writes |>.mono fun f hf => by
      simp only [markFlds, issueFlds, List.append_nil, List.mem_append, List.mem_cons, List.not_mem_nil, or_false] at hf ⊢
      tauto).trans (hcycled.mono fun f hf => by
        simp only [issueFlds, List.mem_append, List.mem_cons, List.not_mem_nil, or_false] at hf ⊢
        tauto)
  have hst := h.started
  have hstate := (hcycled.cget_eq (by simp [apart_passFree s c v (g := Reg.CORE_SCHED_STATUS.STATE) (by decide)]; decide)).trans h.mark.state
  have hslip := (hcycled.cget_eq (by simp [apart_passFree s c v (g := Reg.CORE_SCHED_STATUS.SLIP_CAUSE) (by decide)]; decide)).trans h.mark.slip
  have hsram : (((s.mark c).vxDone c v).vxCycle c (passCycles (s.vinstr c v) (s.tdesc c (s.vinstr c v).xd))).sram = ((s.mark c).vxCycles c v).1.sram :=
    vxDone_sram _ _ _
  generalize ((s.mark c).vxDone c v).vxCycle c (passCycles (s.vinstr c v) (s.tdesc c (s.vinstr c v).xd)) = e at *
  have hkeep {g : Fld} (hg : g.pos ≠ Reg.CORE_SCHED_STATUS.ADDR.pos) :
      ((e.cput c Reg.CORE_SCHED_STATUS.ADDR (s.wordAddr c + 1)).withFlights fs).cget c g = e.cget c g := State.cget_cput_other hrise c hg _
  have hput := hall.trans (.cput (c := c) hall.canonical Reg.CORE_SCHED_STATUS.ADDR (s.wordAddr c + 1) (List.mem_append_left _ (by simp [issueFlds])))
  exact {
    bytes := hput.bytes
    sram := hsram
    goesOn := ⟨(hkeep (by decide)).trans hstate, (hkeep (by decide)).trans hslip, State.cget_cput_of_lt hrise c _ hadd,
      (hkeep (by decide)).trans (hcount0 ▸ hcount), hput.fields⟩
    runs := (hkeep (by decide)).trans (hruns.trans (hmark Reg.CORE_VX_COUNTS.RUNS (by simp) ▸ hst.runs))
    occ := (hkeep (by decide)).trans hocc
    claimed := (hkeep (by decide)).trans (hsr.trans (hmark Reg.CORE_SR_COUNT.COUNT (by simp) ▸ hst.claimed))
    base := (hkeep (hxd _ (by simp))).trans (hbase.trans hst.base) }

end Sys2Proof.Machine
end

section
/-! PROOFS. What the checks of a pass say of its entries (R121, R123, R125, R131, R143). -/

namespace Sys2Proof.Machine

variable {s t u : State} {c : CoreRef} {v k n : Nat}

/-- A check of a slot or of the core's state that finds nothing. -/
theorem check_nil {b : Prop} [Decidable b] {code : Nat} (h : (if b then [code] else []) = []) : ¬ b := fun hb => by simp [hb] at h

/-! ### The roles of a pass -/

theorem mem_roles (s : State) (c : CoreRef) (i : VInstr) {p : Nat × TDesc} :
    p ∈ s.roles c i ↔ p = (0, s.tdesc c i.xd) ∨ (i.yEn = true ∧ p = (1, s.tdesc c i.yd)) ∨ (i.dEn = true ∧ p = (2, s.tdesc c i.dd))
      ∨ (i.rEn = true ∧ p = (3, s.tdesc c i.rd)) := by
  simp only [State.roles, List.mem_append, List.mem_singleton, List.mem_ite_nil_right, or_assoc]

theorem roles_tdesc {i : VInstr} {p : Nat × TDesc} (h : p ∈ s.roles c i) : ∃ n, p.2 = s.tdesc c n := by
  rcases (mem_roles s c i).1 h with rfl | ⟨-, rfl⟩ | ⟨-, rfl⟩ | ⟨-, rfl⟩ <;> exact ⟨_, rfl⟩

/-- A slot that runs a pass and breaks no check of its own: its roles' fields are in order, and so is its rounding mode (R121, R141). -/
theorem vxStatic_run (hop : bitsOf v 9 6 = 1) (h : vxStatic s c v = []) :
    (∀ p ∈ s.roles c (s.vinstr c v), p.2.badField = false) ∧ (s.vinstr c v).rmode ≤ 4 := by
  have hv : v ≠ 0 := fun h0 => by rw [h0] at hop; exact absurd hop (by decide)
  rw [vxStatic, if_neg hv, if_neg (by omega), if_neg (by omega)] at h
  have hbad := check_nil h
  simp only [Bool.or_eq_true, decide_eq_true_eq, not_or, Bool.not_eq_true, List.any_eq_false] at hbad
  exact ⟨hbad.2, by omega⟩

/-- A field of a role in order (R121). -/
theorem TDesc.space_of_badField {d : TDesc} (h : d.badField = false) : d.space ≠ 3 := by
  simp only [TDesc.badField, Bool.or_eq_false_iff, beq_eq_false_iff_ne] at h
  obtain ⟨⟨⟨⟨⟨h3, -⟩, -⟩, -⟩, -⟩, -⟩ := h
  exact h3

/-- What the checks of the core's state say of a role of a pass over X (R123, R125, R143). -/
structure RoleLegal (bf16 : Bool) (x : TDesc) (p : Nat × TDesc) : Prop where
  goodBlock : p.2.badBlock = false
  size : ∀ k < 4, p.2.size k = x.size k ∧ 0 < p.2.size k
  inSpace : p.2.inSpace = true
  written : 2 ≤ p.1 → p.2.space ≠ 2
  dest : p.1 = 2 → p.2.bcast = false
  result : p.1 = 3 → p.2.bcast = true ∧ p.2.fmt = if bf16 then .bf16 else .fp32

/-- A pass that breaks no check of the core's state is of at most 224 cycles, and its roles are legal (R137, R143). -/
theorem vxDynamic_run (hop : bitsOf v 9 6 = 1) (h : vxDynamic s c v = []) :
    passCycles (s.vinstr c v) (s.tdesc c (s.vinstr c v).xd) ≤ 224
      ∧ ∀ p ∈ s.roles c (s.vinstr c v), RoleLegal (s.vinstr c v).bf16 (s.tdesc c (s.vinstr c v).xd) p := by
  rw [vxDynamic, if_neg (by omega)] at h
  simp only [List.append_eq_nil_iff] at h
  obtain ⟨⟨⟨⟨⟨-, hfmt⟩, hsize⟩, hocc⟩, hspace⟩, -⟩ := h
  have hfmt := check_nil hfmt
  have hsize := check_nil hsize
  have hspace := check_nil hspace
  simp only [Bool.or_eq_true, not_or, Bool.not_eq_true, List.any_eq_false] at hfmt hsize hspace
  refine ⟨by have := check_nil hocc; omega, fun p hp => ?_⟩
  obtain ⟨⟨hfmt, hblock⟩, -⟩ := hfmt.1.1 p hp
  obtain ⟨⟨⟨⟨⟨⟨h0, h1⟩, h2⟩, h3⟩, hx⟩, hdest⟩, hred⟩ := hsize p hp
  obtain ⟨hin, hwritten⟩ := hspace p hp
  simp only [beq_eq_false_iff_ne, bne_eq_false_iff_eq, List.mem_range] at h0 h1 h2 h3 hx
  exact {
    goodBlock := hblock
    size := fun k hk => ⟨hx k hk, Nat.pos_of_ne_zero (by obtain rfl | rfl | rfl | rfl : k = 0 ∨ k = 1 ∨ k = 2 ∨ k = 3 := by omega
                                                         exacts [h0, h1, h2, h3])⟩
    inSpace := by simpa using hin
    written := fun hw => by simpa [hw] using hwritten
    dest := fun hd => by simpa [hd] using hdest
    result := fun hr => ⟨by simpa [hr] using hred, by simpa [hr] using hfmt⟩ }

/-- The entries of a pass that breaks no check. -/
structure State.RunLegal (s : State) (c : CoreRef) (v : Nat) : Prop where
  descs : PassDescs (s.vinstr c v) (s.tdesc c (s.vinstr c v).xd) (s.tdesc c (s.vinstr c v).yd) (s.tdesc c (s.vinstr c v).dd)
    (s.tdesc c (s.vinstr c v).rd)
  cycles : passCycles (s.vinstr c v) (s.tdesc c (s.vinstr c v).xd) ≤ 224
  nonempty : passCycles (s.vinstr c v) (s.tdesc c (s.vinstr c v).xd) ≠ 0
  rmode : (s.vinstr c v).rmode ≤ 4

/-- A row has a chunk, and a pass a row. -/
theorem passCycles_pos (i : VInstr) {x : TDesc} (hx : ∀ k < 4, 0 < x.size k) : passCycles i x ≠ 0 := by
  have hrow : rowChunks i x ≠ 0 := by
    have h0 := hx 0 (by decide)
    rcases lanes_eq i with h | h <;> rw [rowChunks, h] <;> omega
  exact Nat.mul_ne_zero hrow (Nat.mul_ne_zero (Nat.mul_ne_zero (hx 1 (by decide)).ne' (hx 2 (by decide)).ne') (hx 3 (by decide)).ne')

theorem runLegal_of_checks (hop : bitsOf v 9 6 = 1) (h1 : vxStatic s c v = []) (h2 : vxDynamic s c v = []) : s.RunLegal c v := by
  obtain ⟨hfields, hmode⟩ := vxStatic_run hop h1
  obtain ⟨hcycles, hroles⟩ := vxDynamic_run hop h2
  have hfits {p : Nat × TDesc} (hp : p ∈ s.roles c (s.vinstr c v)) : p.2.Fits (s.tdesc c (s.vinstr c v).xd) := by
    have hr := hroles p hp
    have h3 := TDesc.space_of_badField (hfields p hp)
    obtain ⟨n, hn⟩ := roles_tdesc hp
    have hspace : (s.tdesc c n).space < 4 := bitsOf_lt _ 1 0
    have htbuf : (s.tdesc c n).tbuf < 4 := bitsOf_lt _ 3 2
    rw [← hn] at hspace htbuf
    exact ⟨by omega, htbuf, hr.goodBlock, hr.size, hr.inSpace⟩
  have hx := hfits ((mem_roles ..).2 (.inl rfl))
  have hmem (p) := (mem_roles s c (s.vinstr c v) (p := p)).2
  exact {
    cycles := hcycles
    nonempty := passCycles_pos _ fun k hk => (hx.size k hk).2
    rmode := hmode
    descs := {
      fitsX := hx
      fitsY := fun hy => hfits (hmem _ (.inr (.inl ⟨hy, rfl⟩)))
      fitsD := fun hd => by
        have hp := hmem _ (.inr (.inr (.inl ⟨hd, rfl⟩)))
        have hr := hroles _ hp
        exact ⟨⟨hfits hp, hr.written le_rfl⟩, hr.dest rfl⟩
      fitsR := fun hd => by
        have hp := hmem _ (.inr (.inr (.inr ⟨hd, rfl⟩)))
        have hr := hroles _ hp
        exact ⟨⟨hfits hp, hr.written (Nat.le_succ 2)⟩, hr.result rfl⟩ } }

end Sys2Proof.Machine
end

section
/-! PROOFS. The uses of a pass, and its word over clean words: the first clause of `RunOccupiesAdvancesAndWrites` (R88, R119, R121, R137, R139). -/

namespace Sys2Proof.Machine

variable {s t u : State} {c : CoreRef} {v k n : Nat} {i : VInstr} {x y d r : TDesc}

/-! ### What a pass uses in the cycle of issue -/

theorem portUse_read {b : Nat × Nat} {f : Flight} (h : d.portUse false b = some f) : (∃ n, f = .tileRead n) ∨ ∃ ls, f = .spRead ls := by
  unfold TDesc.portUse at h
  split at h
  · exact .inl ⟨_, (Option.some.inj h).symm⟩
  · exact .inr ⟨_, (Option.some.inj h).symm⟩
  · cases h

/-- A use of a port in a cycle. -/
theorem mem_inCycle {m k : Nat} {f : Flight} {o : Option Flight} : (m, f) ∈ (o.map fun f => (k, f)).toList ↔ m = k ∧ o = some f := by
  cases o <;> simp [eq_comm]

/-- In its first cycles a pass reads and does not write: D follows in cycle 20 and R in cycle 24 (R138). -/
theorem passUses_early {m : Nat} {f : Flight} (h : (m, f) ∈ passUses i x y d r) (hm : m < 20) : (∃ n, f = .tileRead n) ∨ ∃ ls, f = .spRead ls := by
  obtain ⟨t, -, h⟩ := List.mem_flatMap.1 h
  dsimp only at h
  simp only [List.mem_append, List.mem_ite_nil_left, List.mem_ite_nil_right, mem_inCycle] at h
  rcases h with (⟨-, ⟨-, hx⟩ | ⟨-, -, hy⟩⟩ | ⟨-, hd, -⟩) | ⟨-, ⟨-, hr, -⟩ | ⟨hr, -⟩⟩
  · exact portUse_read hx
  · exact portUse_read hy
  all_goals omega

/-- Where the lines that a pass reads in the cycle of issue stand in different banks, nothing of it collides in that cycle (R151). -/
theorem usesFit_vxUses (h : BanksApart (s.portUses c v)) : UsesFit (s.vxUses c v) := by
  have hmem {f : Flight} (hf : (0, f) ∈ s.vxUses c v) : f = .ftqPlace ∨ (0, f) ∈ s.portUses c v := by
    simp only [State.vxUses, List.mem_append, List.mem_ite_nil_right, List.mem_singleton, Prod.mk.injEq] at hf
    rcases hf with (hf | ⟨-, -, rfl⟩) | ⟨-, h0, -⟩
    · exact .inr hf
    · exact .inl rfl
    · omega
  have hread {f : Flight} (hf : (0, f) ∈ s.vxUses c v) : f = .ftqPlace ∨ (∃ n, f = .tileRead n) ∨ ∃ ls, f = .spRead ls :=
    (hmem hf).imp_right fun h => passUses_early h (by decide)
  refine ⟨fun as bs ha hb => h as bs ?_ ?_, fun as ha => ?_, fun p b hp => ?_⟩
  · exact (hmem ha).resolve_left (by simp)
  · exact (hmem hb).resolve_left (by simp)
  · simpa using hread ha
  · simpa using hread hp

/-! ### The cycles of the pass of a word -/

/-- The pass of a word starts with what stood before the word, but for fields. -/
theorem start_engine (hs : s.canonical = true) (hr : s.RunLegal c v) :
    s.Engine ((s.mark c).vxStart c v) (markFlds c ++ [] ++ vxFlds c (s.vinstr c v)) k n :=
  .of_writes hs ((State.Issuing.mark (State.canonical_fld hs) c).writes.trans (mark_started (State.canonical_fld hs) hr.cycles).writes)

theorem start_sram (hs : s.canonical = true) (hr : s.RunLegal c v) : ((s.mark c).vxStart c v).sram = s.sram :=
  ((State.Issuing.mark (State.canonical_fld hs) c).writes.trans (mark_started (State.canonical_fld hs) hr.cycles).writes).sram_eq

theorem start_head (hs : s.canonical = true) (hr : s.RunLegal c v) :
    ((s.mark c).vxStart c v).cget c Core.FTQ_HEAD = s.cget c Core.FTQ_HEAD :=
  (mark_started (State.canonical_fld hs) hr.cycles).head.trans
    ((State.Issuing.mark (State.canonical_fld hs) c).cget_eq (apart_mark (by decide)) (by simp))

/-- The cycles of the pass of a word, from its entries as they stood before. -/
theorem vxCycles_mark (hs : s.canonical = true) (c : CoreRef) (v : Nat) :
    (s.mark c).vxCycles c v = ((s.mark c).vxStart c v).runCycles c (s.vinstr c v) (s.tdesc c (s.vinstr c v).xd) (s.tdesc c (s.vinstr c v).yd)
      (s.tdesc c (s.vinstr c v).dd) (s.tdesc c (s.vinstr c v).rd) ((s.mark c).cget c Reg.CORE_SR_COUNT.COUNT)
      (passCycles (s.vinstr c v) (s.tdesc c (s.vinstr c v).xd) + 25) := by
  have ht := fun n hn => tdesc_mark (State.canonical_fld hs) c (vinstr_desc_lt s c v n hn)
  rw [State.vxCycles, vinstr_mark, ht _ (by simp), ht _ (by simp), ht _ (by simp), ht _ (by simp)]

/-- The pass of a word over clean words computes below the finished-tile queue. -/
theorem computes_mark (hs : s.canonical = true) (hr : s.RunLegal c v) (hc : s.coreClean c) (hh : s.headPoison c = false) :
    ((s.mark c).vxStart c v).ComputesBelow ((s.mark c).vxCycles c v).1 c := by
  have he := start_engine (k := 0) (n := 0) hs hr
  have hhead : ((s.mark c).vxStart c v).headPoison c = s.headPoison c := by
    rw [State.headPoison, start_head hs hr, State.rd, start_sram hs hr]
    rfl
  rw [vxCycles_mark hs]
  exact (hr.descs.runCycles he.canonical ⟨he.clean _ _ hc, fun _ => hhead.trans hh⟩ _ _).state

/-- The ports that the pass of a word uses. -/
theorem portUses_mark (hs : s.canonical = true) (c : CoreRef) (v : Nat) : (s.mark c).portUses c v = s.portUses c v := by
  have ht := fun n hn => tdesc_mark (State.canonical_fld hs) c (vinstr_desc_lt s c v n hn)
  rw [State.portUses, vinstr_mark, ht _ (by simp), ht _ (by simp), ht _ (by simp), ht _ (by simp), State.portUses]

/-! ### The word of a pass -/

/-- A slot that keeps its row's checks, whose cycles and first reads are known, can issue. -/
theorem canRun_of_legal (hs : s.canonical = true) (hr : s.coreReady c) (hl : s.slotLive c v) (hop : bitsOf v 9 6 = 1) (h1 : vxStatic s c v = [])
    (h2 : vxDynamic s c v = []) (h3 : s.tileFault c v 0 = []) (hb : BanksApart (s.portUses c v))
    (hcomp : ((s.mark c).vxStart c v).Computes ((s.mark c).vxCycles c v).1 c k n) : s.CanRun c v k n where
  canonical := hs
  ready := hr
  live := hl
  op := hop
  passes := passes_vx hl h1 h2 h3
  occ_pos := (runLegal_of_checks hop h1 h2).nonempty
  occ_le := (runLegal_of_checks hop h1 h2).cycles
  computes := hcomp
  fits := usesFit_vxUses (by rw [portUses_mark hs]; exact hb)

/-- The ports that a vector slot alone uses are those of its pass (R128). -/
theorem tileUses_vx (hop : bitsOf v 9 6 = 1) (hr : s.RunLegal c v) : s.tileUses c v 0 = s.portUses c v := by
  have hpop : bitsOf 0 9 6 = 0 := rfl
  simp only [State.tileUses, hop, hr.cycles, true_and, if_true, hpop, List.append_nil]
  rfl

/-- A pass over clean words is counted, occupies the engine, claims its random numbers, and advances X (R88, R119, R121, R137, R139). -/
theorem runWord_counts (hs : s.canonical = true) (hr : s.coreReady c) (hl : s.slotLive c v) (hop : bitsOf v 9 6 = 1) (h1 : vxStatic s c v = [])
    (h2 : vxDynamic s c v = []) (h3 : s.tileFault c v 0 = []) (hc : s.coreClean c) (hh : s.headPoison c = false)
    (hb : BanksApart (s.tileUses c v 0)) :
    ∃ u, s.runWord c (vxWord v) = u ∧ s.Ran u c v (coreKey c 0 0) bufBytes (s.vinstr c v) (s.tdesc c (s.vinstr c v).xd) := by
  have hlegal := runLegal_of_checks hop h1 h2
  rw [tileUses_vx hop hlegal] at hb
  exact (canRun_of_legal hs hr hl hop h1 h2 h3 hb (computes_mark hs hlegal hc hh)).ran

end Sys2Proof.Machine
end

section
/-! PROOFS. Numbers of four bytes in a memory, and the codes of FP32 (R3, R69, R76). -/

namespace Sys2Proof.Machine

variable {s t : State} {c : CoreRef} {k n : Nat}

/-! ### Little-endian numbers -/

theorem leNat_leBytes (n v : Nat) : leNat (leBytes n v) = v % 256 ^ n := by
  induction n generalizing v with
  | zero => simp [leBytes, leNat, Nat.mod_one]
  | succ n ih =>
    rw [leBytes, leNat, ih, BitVec.toNat_ofNat, show (2 : Nat) ^ 8 = 256 from rfl, Nat.pow_succ', Nat.mod_mul]

theorem leNat_drop (l : List Byte) (n : Nat) : leNat (l.drop n) = leNat l / 256 ^ n := by
  induction n generalizing l with
  | zero => simp
  | succ n ih =>
    cases l with
    | nil => simp [leNat]
    | cons b l =>
      have hb := b.isLt
      rw [List.drop_succ_cons, ih, Nat.pow_succ', ← Nat.div_div_eq_div_mul, leNat]
      congr 1
      omega

theorem leNat_take (l : List Byte) (n : Nat) : leNat (l.take n) = leNat l % 256 ^ n := by
  induction n generalizing l with
  | zero => simp [leNat, Nat.mod_one]
  | succ n ih =>
    cases l with
    | nil => simp [leNat]
    | cons b l =>
      have hb := b.isLt
      have hmod : (b.toNat + 256 * leNat l) % 256 = b.toNat := by omega
      have hdiv : (b.toNat + 256 * leNat l) / 256 = leNat l := by omega
      rw [List.take_succ_cons, leNat, leNat, ih, Nat.pow_succ', Nat.mod_mul, hmod, hdiv]

/-! ### Parts of a range -/

/-- A part of what a range holds. -/
theorem rd_drop_take (hs : s.canonical = true) {a m : Nat} (h : a + m ≤ n) : ((s.rd k n).drop a).take m = s.rd (k + a) m := by
  rw [rd_eq hs, rd_eq hs]
  refine List.ext_getElem (by simp; omega) fun i hi hi' => ?_
  simp [Nat.add_assoc]

/-- The 32-bit codes of a range (R76). -/
theorem unpackCodes_rdNat (hs : s.canonical = true) {e : Nat} (h : e < n) : (unpackCodes 32 n (s.rdNat k (4 * n))).getD e 0 = s.rdNat (k + 4 * e) 4 := by
  have hpart : s.rdNat (k + 4 * e) 4 = s.rdNat k (4 * n) / 256 ^ (4 * e) % 256 ^ 4 := by
    rw [State.rdNat, ← rd_drop_take hs (show 4 * e + 4 ≤ 4 * n by omega), leNat_take, leNat_drop, State.rdNat]
  rw [hpart, unpackCodes, List.getD_eq_getElem _ _ (by simpa using h), List.getElem_map, List.getElem_range,
    show (2 : Nat) ^ (32 * e) = 256 ^ (4 * e) by rw [show (256 : Nat) = 2 ^ 8 from rfl, ← Nat.pow_mul]; congr 1; omega,
    show (2 : Nat) ^ 32 = 256 ^ 4 from rfl]

/-- One of several runs of bytes of equal length. -/
theorem flatMap_drop_take {f : Nat → List Byte} {m e : Nat} (hf : ∀ j, (f j).length = m) (h : e < n) :
    (((List.range n).flatMap f).drop (m * e)).take m = f e := by
  have hL (i : Nat) : ((((List.range n).map f).map List.length).take i).sum = m * min i n := by
    have hc : ((List.range n).map f).map List.length = List.replicate n m := by
      rw [List.map_map, List.eq_replicate_iff]
      exact ⟨by simp, fun b hb => by obtain ⟨j, -, rfl⟩ := List.mem_map.1 hb; exact hf j⟩
    rw [hc, List.take_replicate, List.sum_replicate, smul_eq_mul, Nat.mul_comm]
  have hpart := List.drop_take_succ_flatten_eq_getElem ((List.range n).map f) e (by simpa using h)
  rw [hL, hL, Nat.min_eq_left h.le, Nat.min_eq_left h, List.drop_take, ← Nat.mul_sub, show e.succ - e = 1 by omega, Nat.mul_one] at hpart
  rw [List.flatMap_def, hpart, List.getElem_map, List.getElem_range]

/-! ### Codes of FP32 -/

/-- An FP32 code is of 32 bits (R69). -/
theorem encodeElem_fp32_lt (rm : RMode) (sat : Bool) (u : Nat) (v : FVal) : (Fmt.fp32.encodeElem rm sat u v).1 < 2 ^ 32 := by
  show (ffFP32.encode rm sat u v).1 < 2 ^ 32
  have hsgn : 2 ^ (ffFP32.exp + ffFP32.man) = 2 ^ 31 := rfl
  have hmax : ffFP32.maxCode + 1 < 2 ^ 31 := by decide
  have hnan : ffFP32.nan = some 0x7FC00000 := rfl
  have hinf : ffFP32.hasInf = true := rfl
  unfold FloatFmt.encode
  simp only [hsgn, hnan, hinf, if_true]
  cases v with
  | nan => exact (by decide : 0x7FC00000 < 2 ^ 32)
  | inf neg =>
    dsimp only
    split_ifs <;> omega
  | fin neg m e =>
    dsimp only
    split_ifs <;> (dsimp only; omega)

end Sys2Proof.Machine
end

section
/-! PROOFS. A pass of one FP32 row between tile buffers (R119, R130, R131, R132, R135). -/

namespace Sys2Proof.Machine

variable {s t u : State} {c : CoreRef} {v k n e : Nat} {i : VInstr} {x y d r : TDesc}

/-- A pass of one unmasked row of at most 64 FP32 positions from one tile buffer to another, without Y, R and stochastic rounding. -/
structure RowPass (i : VInstr) (x y d r : TDesc) : Prop where
  descs : PassDescs i x y d r
  spaceX : x.space = 0
  spaceD : d.space = 0
  fmtX : x.fmt = .fp32
  fmtD : d.fmt = .fp32
  dEn : i.dEn = true
  yEn : i.yEn = false
  rEn : i.rEn = false
  lanes : i.bf16 = false
  mode : i.packMode ≠ .sr
  notBcast : x.bcast = false
  size : x.size 0 ≤ 64
  rows : x.rows = 1
  unmasked : x.size 0 ≤ x.valid 0
  rowLive : 0 < x.valid 1 ∧ 0 < x.valid 2 ∧ 0 < x.valid 3

/-- The first row starts at the working address (R122). -/
theorem TDesc.rowOf_zero (d x : TDesc) : d.rowOf x 0 = d.base := by simp [TDesc.rowOf, TDesc.rowIdx, TDesc.rowAddr]

namespace RowPass

variable (h : RowPass i x y d r)
include h

theorem size_pos : 0 < x.size 0 := (h.descs.fitsX.size 0 (by decide)).2

theorem lanes_eq : i.lanes = 64 := by simp [VInstr.lanes, h.lanes]

theorem rowChunks_eq : rowChunks i x = 1 := by
  have h0 := h.size_pos
  have h1 := h.size
  rw [rowChunks, h.lanes_eq]
  omega

theorem passCycles_eq : passCycles i x = 1 := by rw [passCycles, h.rowChunks_eq, h.rows]

theorem chunkTotal_eq : chunkTotal i x 0 = x.size 0 := by
  have h1 := h.size
  rw [chunkTotal, h.lanes_eq, Nat.zero_mod]
  omega

/-- Every position of the row is unmasked (R124). -/
theorem live_eq : x.live 0 = x.size 0 := by
  obtain ⟨h1, h2, h3⟩ := h.rowLive
  have hlive : x.rowLive 0 = true := by simp [TDesc.rowLive, TDesc.rowIdx, h1, h2, h3]
  rw [TDesc.live, hlive, if_pos rfl, Nat.min_eq_right h.unmasked]

theorem chunkLive_eq : chunkLive i x 0 = x.size 0 := by
  have h1 := h.size
  rw [chunkLive, Nat.zero_div, h.live_eq, h.lanes_eq, Nat.zero_mod]
  omega

/-- The pass reads X's tile buffer in the cycle of issue, and writes D's 20 cycles later (R128, R138). -/
theorem passUses_eq : passUses i x y d r = [(0, .tileRead x.tbuf), (20, .tileWrite d.tbuf)] := by
  have h0 := h.size_pos
  have hm : (if i.maskz = true then min i.lanes (x.size 0 - 0 % rowChunks i x * i.lanes) else chunkLive i x 0) = x.size 0 := by
    rw [h.chunkLive_eq, ← chunkTotal, h.chunkTotal_eq, ite_self]
  rw [passUses, h.passCycles_eq]
  simp only [List.range_one, List.flatMap_cons, List.flatMap_nil, List.append_nil]
  rw [hm, h.chunkLive_eq]
  simp [h0.ne', h.yEn, h.dEn, h.rEn, TDesc.portUse, h.spaceX, h.spaceD]

end RowPass

/-! ### The cycles of a pass of one chunk -/

/-- A cycle in which a pass of one chunk neither reads nor writes. -/
theorem passCycle_idle (hone : passCycles i x = 1) (hr : i.rEn = false) (h0 : n ≠ 0) (h20 : n ≠ 20) (s : State) (c : CoreRef) (y d r : TDesc) (sr0 : Nat)
    (outs : List ChunkOut) : s.passCycle c i x y d r sr0 n outs = (s, outs) := by
  have hread : s.readStep c i x y n outs = (s, outs) := if_neg (by omega)
  have hpack : s.packStep c i x d sr0 n outs = s := if_neg (by omega)
  have hreduce : s.reduceStep c i x r n outs = s := if_neg (by simp [hr])
  rw [passCycle_eq, hread]
  simp only [hpack, hreduce]

/-- Idle cycles in a row. -/
theorem runCycles_idle (hone : passCycles i x = 1) (hr : i.rEn = false) (s : State) (c : CoreRef) (y d r : TDesc) (sr0 : Nat) {a m : Nat}
    (h : ∀ n, a ≤ n → n < a + m → n ≠ 0 ∧ n ≠ 20) : s.runCycles c i x y d r sr0 (a + m) = s.runCycles c i x y d r sr0 a := by
  induction m with
  | zero => rfl
  | succ m ih =>
    obtain ⟨h0, h20⟩ := h (a + m) (by omega) (by omega)
    rw [← Nat.add_assoc, runCycles_succ, passCycle_idle hone hr h0 h20, ih fun n hn hn' => h n hn (by omega)]

/-- A pass of one chunk reads it in cycle 0 and writes it in cycle 20 (R138). -/
theorem runCycles_one (hone : passCycles i x = 1) (hr : i.rEn = false) (s : State) (c : CoreRef) (y d r : TDesc) (sr0 : Nat) :
    s.runCycles c i x y d r sr0 26 = ((s.readStep c i x y 0 []).1.packStep c i x d sr0 20 (s.readStep c i x y 0 []).2, (s.readStep c i x y 0 []).2) := by
  have hreduce (u : State) (m : Nat) (outs : List ChunkOut) : u.reduceStep c i x r m outs = u := if_neg (by simp [hr])
  have h1 : s.runCycles c i x y d r sr0 1 = s.readStep c i x y 0 [] := by
    have hpack (u : State) (outs : List ChunkOut) : u.packStep c i x d sr0 0 outs = u := if_neg (by omega)
    rw [runCycles_succ, passCycle_eq, hpack, hreduce]
    rfl
  have h20 : s.runCycles c i x y d r sr0 (1 + 19) = s.readStep c i x y 0 [] :=
    (runCycles_idle hone hr s c y d r sr0 fun n _ _ => by omega).trans h1
  have hread (u : State) (outs : List ChunkOut) : u.readStep c i x y 20 outs = (u, outs) := if_neg (by omega)
  have h21 : s.runCycles c i x y d r sr0 (21 + 5) = s.runCycles c i x y d r sr0 21 :=
    runCycles_idle hone hr s c y d r sr0 fun n _ _ => by omega
  rw [h21, runCycles_succ, h20, passCycle_eq, hread, hreduce]

end Sys2Proof.Machine
end

section
/-! PROOFS. The values that a pass of one FP32 row reads and writes (R119, R130, R131, R132, R135). -/

namespace Sys2Proof.Machine

variable {s t u : State} {c : CoreRef} {v k n e : Nat} {i : VInstr} {x y d r : TDesc} {sr0 : Nat} {o : ChunkOut}

theorem leNat_lt (l : List Byte) : leNat l < 256 ^ l.length := by
  induction l with
  | nil => simp [leNat]
  | cons b l ih =>
    have hb := b.isLt
    rw [leNat, List.length_cons, Nat.pow_succ']
    omega

/-- Four bytes are an FP32 code (R69). -/
theorem decodeElem_fp32 (hs : s.canonical = true) (k : Nat) : Fmt.fp32.decodeElem 0 (s.rdNat k 4) 0 = ofFP32 (s.rdNat k 4) := by
  have hlt : s.rdNat k 4 < 256 ^ 4 := by
    have := leNat_lt (s.rd k 4)
    rwa [rd_eq hs, List.length_map, List.length_range, ← rd_eq hs] at this
  rw [ofFP32, Nat.mod_eq_of_lt (show s.rdNat k 4 < 2 ^ 32 from hlt)]
  rfl

namespace RowPass

variable (h : RowPass i x y d r)
include h

/-! ### The chunk that is read -/

/-- The elements of X (R130). -/
theorem operandX_eq (hs : s.canonical = true) (c : CoreRef) :
    ((s.operandX c i x 0).1.map (·.1)) = (List.range (x.size 0)).map fun e => ofFP32 (s.rdNat (s.spaceKey c x + x.base + 4 * e) 4) := by
  have h0 := h.size_pos
  have hblk : x.fmt.block = false := by rw [h.fmtX]; rfl
  have hbits : x.fmt.bits = 32 := by rw [h.fmtX]; rfl
  have hlen : (x.size 0 * 32 + 7) / 8 = 4 * x.size 0 := by omega
  rw [State.operandX, Nat.zero_div, Nat.zero_mod, TDesc.rowOf_zero, h.chunkLive_eq, State.readElems]
  simp only [h0.ne', hblk, h.notBcast, hbits, hlen, Bool.false_eq_true, if_false, Nat.zero_mul, Nat.zero_div, Nat.add_zero, Int.toNat_natCast,
    List.map_map]
  refine List.map_congr_left fun e he => ?_
  show x.fmt.decodeElem 0 _ 0 = _
  rw [unpackCodes_rdNat hs (List.mem_range.1 he), h.fmtX, decodeElem_fp32 hs]

/-- The values of the chunk, taken through A1, A2 and FUNC (R131, R132). -/
theorem chunkOut_vals_eq (hs : s.canonical = true) (c : CoreRef) :
    (s.chunkOut c i x y 0).vals
      = (List.range (x.size 0)).map fun e => (lane s c i (ofFP32 (s.rdNat (s.spaceKey c x + x.base + 4 * e) 4)) (.fin false 0 0)).1 := by
  have hX := h.operandX_eq hs c
  have hlen : (s.operandX c i x 0).1.length = x.size 0 := by simpa using congrArg List.length hX
  have hY : (s.operandY c i x y 0).1 = List.replicate (x.size 0) (.fin false 0 0, false) := by
    rw [State.operandY, h.yEn, h.chunkLive_eq]
    rfl
  rw [chunkOut_vals, hY]
  refine List.ext_getElem (by simp [hlen]) fun e h1 h2 => ?_
  have he : e < x.size 0 := by simpa using h2
  have hxe : (s.operandX c i x 0).1[e].1 = ofFP32 (s.rdNat (s.spaceKey c x + x.base + 4 * e) 4) := by
    have := congrArg (fun l => l[e]?) hX
    simpa [hlen, he] using this
  simp [hxe]

/-- The read of the chunk sets status bits alone. -/
theorem readStep_eq (hr : s.Readable c i x y) :
    s.readStep c i x y 0 []
      = ((s.convFlags c (s.chunkOut c i x y 0).conv).vxFlags c (s.chunkOut c i x y 0).flags, [s.chunkOut c i x y 0]) := by
  have hpos : 0 < passCycles i x := by rw [h.passCycles_eq]; decide
  have hx := (h.descs.chunkRead hr hpos).1
  rw [State.readStep, if_pos hpos]
  dsimp only
  rw [hx, h.yEn]
  rfl

/-! ### The chunk that is written -/

/-- All positions of the row are written. -/
theorem packCount_eq (ho : o.vals.length = x.size 0) : packCount i x 0 o = x.size 0 := by
  rw [packCount, h.chunkTotal_eq, ho, ite_self]

/-- The code of a position (R135). -/
theorem packEnc_eq (ho : o.vals.length = x.size 0) (s : State) (c : CoreRef) (sr0 : Nat) (he : e < x.size 0) :
    ((s.packEnc c i x d sr0 0 o).map (·.1)).getD e 0
      = (Fmt.fp32.encodeElem ((RMode.ofCode i.rmode).getD .rne) (!i.ovmode) 0 (o.vals.getD e (.fin false 0 0))).1 := by
  have hmode : i.packMode = (RMode.ofCode i.rmode).getD .rne := by simp [VInstr.packMode, h.lanes]
  have hdraw : s.packDraw c i x sr0 0 e = 0 := if_neg h.mode
  rw [State.packEnc, h.packCount_eq ho, List.map_map, List.getD_eq_getElem _ _ (by simpa using he), List.getElem_map, List.getElem_range,
    Function.comp_apply, if_pos (ho ▸ he), h.fmtD, hdraw, hmode, h.lanes, Bool.false_or]

/-- The bytes of the row's codes. -/
theorem packBytes_eq (ho : o.vals.length = x.size 0) (s : State) (c : CoreRef) (sr0 : Nat) :
    (s.packBytes c i x d sr0 0 o).map (·.1)
      = (List.range (x.size 0)).flatMap fun j => leBytes 4 (((s.packEnc c i x d sr0 0 o).map (·.1)).getD j 0) := by
  have hbits : d.fmt.bits = 32 := by rw [h.fmtD]; rfl
  rw [State.packBytes]
  dsimp only
  rw [hbits, if_neg (by decide), h.packCount_eq ho, List.map_flatMap]
  refine congrArg (List.flatMap · _) (funext fun j => ?_)
  rw [List.map_map]
  exact List.map_id _

theorem length_packBytes (ho : o.vals.length = x.size 0) (s : State) (c : CoreRef) (sr0 : Nat) :
    (s.packBytes c i x d sr0 0 o).length = 4 * x.size 0 := by
  have := congrArg List.length (h.packBytes_eq ho s c sr0)
  simpa [List.length_flatMap, Nat.mul_comm] using this

/-- Where the row is written. -/
theorem packKey_eq (s : State) (c : CoreRef) : s.packKey c i x d 0 = s.spaceKey c d + d.base := by
  rw [State.packKey, Nat.zero_div, (h.descs.fitsD h.dEn).1.fits.packRow, TDesc.rowOf_zero]
  simp

/-- The row reads back as the codes of its values. -/
theorem rdNat_packed (ho : o.vals.length = x.size 0) (hs : s.canonical = true) (c : CoreRef) (sr0 : Nat) (he : e < x.size 0) :
    (s.wrP k (s.packBytes c i x d sr0 0 o)).rdNat (k + 4 * e) 4
      = (Fmt.fp32.encodeElem ((RMode.ofCode i.rmode).getD .rne) (!i.ovmode) 0 (o.vals.getD e (.fin false 0 0))).1 := by
  have hread := rd_wrP hs k (s.packBytes c i x d sr0 0 o)
  rw [h.length_packBytes ho] at hread
  rw [State.rdNat, ← rd_drop_take (State.wrP_canonical k _ hs) (show 4 * e + 4 ≤ 4 * x.size 0 by omega), hread, h.packBytes_eq ho,
    flatMap_drop_take (fun _ => length_leBytes 4 _) he, leNat_leBytes, h.packEnc_eq ho s c sr0 he]
  exact Nat.mod_eq_of_lt (encodeElem_fp32_lt ..)

end RowPass

end Sys2Proof.Machine
end

section
/-! PROOFS. A pass runs over one FP32 row: the second clause of `RunOccupiesAdvancesAndWrites` (R119, R131, R132, R135). -/

namespace Sys2Proof.Machine

variable {s t u : State} {c : CoreRef} {v k n e : Nat} {i : VInstr} {x y d r : TDesc} {sr0 : Nat} {o : ChunkOut}

/-- States with the same bytes read alike. -/
theorem rdNat_congr (h : t.sram = s.sram) (k n : Nat) : t.rdNat k n = s.rdNat k n := by rw [State.rdNat, State.rd, h]; rfl

/-- The value that a pass of one FP32 row writes at a position: X's, taken through A1, A2 and FUNC, and encoded (R131, R132, R135). -/
def rowValue (s : State) (c : CoreRef) (i : VInstr) (kx e : Nat) : Nat :=
  (Fmt.fp32.encodeElem ((RMode.ofCode i.rmode).getD .rne) (!i.ovmode) 0 (lane s c i (ofFP32 (s.rdNat (kx + 4 * e) 4)) (.fin false 0 0)).1).1

/-- What a pass over one row does: it writes the row of D alone, a value for each position. -/
structure State.WritesRow (s t : State) (c : CoreRef) (i : VInstr) (kx kd n : Nat) : Prop where
  computes : s.Computes t c kd (4 * n)
  values : ∀ e < n, t.rdNat (kd + 4 * e) 4 = rowValue s c i kx e

/-- The cycles of a pass over one row. -/
theorem RowPass.runCycles (h : RowPass i x y d r) (hs : s.canonical = true) (hr : s.Readable c i x y) (sr0 : Nat) :
    s.WritesRow (s.runCycles c i x y d r sr0 26).1 c i (s.spaceKey c x + x.base) (s.spaceKey c d + d.base) (x.size 0) := by
  have hcycles := h.passCycles_eq
  have ho := h.descs.chunkOut hr (t := 0) (by omega)
  have hvals := h.chunkOut_vals_eq hs c
  have hlen : (s.chunkOut c i x y 0).vals.length = x.size 0 := by simpa using congrArg List.length hvals
  rw [runCycles_one hcycles h.rEn, h.readStep_eq hr]
  generalize s.chunkOut c i x y 0 = o at *
  have ht : s.Computes ((s.convFlags c o.conv).vxFlags c o.flags) c (s.spaceKey c d + d.base) (4 * x.size 0) :=
    (State.Computes.convFlags (.refl hs) _).vxFlags _
  generalize (s.convFlags c o.conv).vxFlags c o.flags = t at ht
  have hbs := packBytes_noPoison ho.clean t c i x d sr0 0
  have hpack : t.packStep c i x d sr0 20 [o] = (t.wrP (s.spaceKey c d + d.base) (t.packBytes c i x d sr0 0 o)).convFlags c
      ((t.packEnc c i x d sr0 0 o).foldl (fun g q => g.or q.2) {}) := by
    rw [State.packStep, if_pos ⟨h.dEn, le_rfl, by omega⟩]
    show t.packChunk c i x d sr0 0 o = _
    rw [packChunk_elems (by rw [h.fmtD]; rfl), State.packElems, hbs.any, poisonOut_false, h.packKey_eq, engineWrite_noPoison hbs, ht.spaceKey_eq]
  have hw := ht.write hbs (a := s.spaceKey c d + d.base) le_rfl (by rw [h.length_packBytes hlen])
  rw [engineWrite_noPoison hbs] at hw
  rw [hpack]
  refine ⟨hw.convFlags _, fun e he => ?_⟩
  rw [rdNat_congr (writes_convFlags hw.ordered c _).sram_eq, h.rdNat_packed hlen ht.canonical c sr0 he, rowValue, hvals,
    List.getD_eq_getElem _ _ (by simpa using he), List.getElem_map, List.getElem_range]

/-! ### The lane's constants -/

/-- A lane reads the core's constants alone (R131). -/
theorem lane_congr (h : ∀ k < 16, t.cget c (Reg.CORE_VX_CK.VALUE k) = s.cget c (Reg.CORE_VX_CK.VALUE k)) (v : Nat) (x y : FVal) :
    lane t c (s.vinstr c v) x y = lane s c (s.vinstr c v) x y := by
  have hsrc (bf : Bool) (sel : Nat) {k : Nat} (hk : k < 16) : stageSrc t c bf sel k = stageSrc s c bf sel k := by
    unfold stageSrc
    rw [h k hk]
  have hk (w : Nat) : (aStage w).bk < 16 ∧ (aStage w).ck < 16 := ⟨bitsOf_lt _ 9 6, bitsOf_lt _ 15 12⟩
  unfold lane
  simp only [hsrc _ _ (hk _).1, hsrc _ _ (hk _).2, State.vinstr, vInstr]

/-- Neither the marks of an issue nor a pass write a constant. -/
theorem cget_start_const (hs : s.canonical = true) (hr : s.RunLegal c v) {k : Nat} (hk : k < 16) :
    ((s.mark c).vxStart c v).cget c (Reg.CORE_VX_CK.VALUE k) = s.cget c (Reg.CORE_VX_CK.VALUE k) := by
  have hmark : Apart (coreFld c (Reg.CORE_VX_CK.VALUE k)) (markFlds c) := apart_mark ((by decide : ∀ k < 16,
    ∀ g ∈ [Reg.CORE_SCHED_STATUS.STATE, Reg.CORE_SCHED_STATUS.SLIP_CAUSE, Core.BRK_PASS], (Reg.CORE_VX_CK.VALUE k).pos ≠ g.pos) k hk)
  have hpass : Apart (coreFld c (Reg.CORE_VX_CK.VALUE k)) (vxFlds c (s.vinstr c v)) :=
    apart_vxFlds s c v ((by decide : ∀ k < 16, ∀ f ∈ runFs, (Reg.CORE_VX_CK.VALUE k).pos ≠ f.pos) k hk)
      ((by decide : ∀ k < 16, ∀ n < 32, ∀ f ∈ advFs n, (Reg.CORE_VX_CK.VALUE k).pos ≠ f.pos) k hk)
  exact (start_engine (k := 0) (n := 0) hs hr).cget_eq (by simp [hmark, hpass])

/-! ### The word of a pass over one row -/

/-- A byte of a tile buffer. -/
theorem spaceKey_tile {d : TDesc} (h : d.space = 0) (s : State) (c : CoreRef) (a : Nat) :
    s.spaceKey c d + a = coreKey c Mem.TILE (d.tbuf * 16384 + a) := by
  rw [State.spaceKey, if_pos h]
  unfold coreKey sramKey
  omega

/-- A word whose one pass reads a tile buffer once and writes one once keeps the ports of the tile buffers (R128). -/
theorem tileFault_row (hq : s.Quiet c) {a b : Nat} (h : s.tileUses c v 0 = [(0, .tileRead a), (20, .tileWrite b)]) : s.tileFault c v 0 = [] := by
  have hf : (s.flights.filter fun u => u.owner == c) = [] := List.filter_eq_nil_iff.2 fun u hu => by simp [hq.flights u hu]
  rw [State.tileFault, h, hf]
  simp

/-- The word of a pass over one row writes a value for each position of D's row, and no other byte (R119, R131, R132, R135). -/
theorem runWord_row (hs : s.canonical = true) (hr : s.coreReady c) (hl : s.slotLive c v) (hop : bitsOf v 9 6 = 1) (h1 : vxStatic s c v = [])
    (h2 : vxDynamic s c v = []) (hc : s.coreClean c)
    (h : RowPass (s.vinstr c v) (s.tdesc c (s.vinstr c v).xd) (s.tdesc c (s.vinstr c v).yd) (s.tdesc c (s.vinstr c v).dd)
      (s.tdesc c (s.vinstr c v).rd)) :
    let x := s.tdesc c (s.vinstr c v).xd
    let d := s.tdesc c (s.vinstr c v).dd
    let kd := coreKey c Mem.TILE (d.tbuf * 16384 + d.base)
    ∃ u, s.runWord c (vxWord v) = u ∧ s.Ran u c v kd (4 * x.size 0) (s.vinstr c v) x
      ∧ ∀ e < x.size 0, u.rdNat (kd + 4 * e) 4 = rowValue s c (s.vinstr c v) (coreKey c Mem.TILE (x.tbuf * 16384 + x.base)) e := by
  have hlegal := runLegal_of_checks hop h1 h2
  have he := start_engine (k := 0) (n := 0) hs hlegal
  have hports : s.portUses c v = _ := h.passUses_eq
  have hread : ((s.mark c).vxStart c v).Readable c (s.vinstr c v) (s.tdesc c (s.vinstr c v).xd) (s.tdesc c (s.vinstr c v).yd) :=
    ⟨he.clean _ _ hc, fun hq => by simp [h.spaceX, h.yEn] at hq⟩
  have hrow := h.runCycles he.canonical hread ((s.mark c).cget c Reg.CORE_SR_COUNT.COUNT)
  have hcycles := vxCycles_mark hs c v
  rw [h.passCycles_eq] at hcycles
  rw [← hcycles, spaceKey_tile h.spaceX, spaceKey_tile h.spaceD] at hrow
  have hfault := tileFault_row hr.1.quiet ((tileUses_vx hop hlegal).trans hports)
  have hbanks : BanksApart (s.portUses c v) := by rw [hports]; simp [BanksApart]
  obtain ⟨u, hrun, hran⟩ := (canRun_of_legal hs hr hl hop h1 h2 hfault hbanks hrow.computes).ran
  refine ⟨u, hrun, hran, fun e he' => ?_⟩
  rw [rdNat_congr hran.sram, hrow.values e he', rowValue, rdNat_congr (start_sram hs hlegal),
    lane_congr (fun k hk => cget_start_const hs hlegal hk), rowValue]

/-- The rounding modes of a pass without stochastic rounding (R86, R135). -/
theorem packMode_ne_sr (hle : i.rmode ≤ 4) (hne : i.rmode ≠ 4) : i.packMode ≠ .sr := by
  unfold VInstr.packMode
  split
  · decide
  · exact (by decide : ∀ m < 4, (RMode.ofCode m).getD .rne ≠ .sr) _ (by omega)

end Sys2Proof.Machine
end

section
/-! PROOFS. `RUN` runs one pass (O22). -/

namespace Sys2Proof.Machine

variable {s : State} {c : CoreRef} {v : Nat}

/-- The vector slot of `RUN` (R119). -/
def runSlot (w : BitVec 64) : Nat := withField w.toNat 9 6 1

theorem runSlot_op (w : BitVec 64) : bitsOf (runSlot w) 9 6 = 1 := bitsOf_withField_same (by decide) (by decide)

theorem runSlot_live {w : BitVec 64} (h : s.slotLive c w.toNat) : s.slotLive c (runSlot w) := slotLive_withField h (by decide) (by decide) (by decide)

/-- X advances under the ADV bit of each role that names it (R121, R139). -/
theorem ite_mem_advList (i : VInstr) (v a b : Nat) :
    (if i.xd ∈ advList v i then a else b)
      = if v.testBit 16 ∨ (v.testBit 17 ∧ i.yd = i.xd) ∨ (v.testBit 18 ∧ i.dd = i.xd) ∨ (v.testBit 19 ∧ i.rd = i.xd) then a else b := by
  simp only [mem_advList, and_true, eq_comm (a := i.xd)]

/-- Settles O22: the word's checks make every stream of the pass stay in its own clean buffer, so its cycles set status bits and write D and R
alone; the cycle of issue then collides with nothing, and the core goes on. For one row the only cycles that act are that of the read and that
of the write 20 cycles later. -/
theorem runOccupiesAdvancesAndWrites : Obligations.RunOccupiesAdvancesAndWrites := by
  unfold Obligations.RunOccupiesAdvancesAndWrites
  constructor
  · intro s c w hs hr hl v i x reads h1 h2 h3 hc hh hbank
    have hbanks : BanksApart (s.tileUses c v 0) := fun _ _ has hbs a ha b hb => hbank a
      (List.mem_flatten.2 ⟨_, List.mem_filterMap.2 ⟨_, has, rfl⟩, ha⟩) b (List.mem_flatten.2 ⟨_, List.mem_filterMap.2 ⟨_, hbs, rfl⟩, hb⟩)
    obtain ⟨u, hrun, hran⟩ := runWord_counts hs hr (runSlot_live hl) (runSlot_op w) h1 h2 h3 hc hh hbanks
    exact ⟨u, (exec_run c w s).trans (congrArg _ hrun), hran.runs, hran.occ, hran.claimed, hran.base.trans (ite_mem_advList ..), hran.goesOn⟩
  · intro s c w hs hr hl v i x d kx kd h1 h2 hc hsx hsd hfx hfd hd hy hrn hbf hmode hb hsize hrows hvalid hv1 hv2 hv3
    have hlegal := runLegal_of_checks (runSlot_op w) h1 h2
    have hrow : RowPass (s.vinstr c v) (s.tdesc c (s.vinstr c v).xd) (s.tdesc c (s.vinstr c v).yd) (s.tdesc c (s.vinstr c v).dd)
        (s.tdesc c (s.vinstr c v).rd) :=
      { descs := hlegal.descs, spaceX := hsx, spaceD := hsd, fmtX := hfx, fmtD := hfd, dEn := hd, yEn := hy, rEn := hrn, lanes := hbf
        mode := packMode_ne_sr hlegal.rmode hmode, notBcast := hb, size := hsize, rows := hrows, unmasked := hvalid, rowLive := ⟨hv1, hv2, hv3⟩ }
    obtain ⟨u, hrun, hran, hvals⟩ := runWord_row hs hr (runSlot_live hl) (runSlot_op w) h1 h2 hc hrow
    exact ⟨u, (exec_run c w s).trans (congrArg _ hrun), hvals, hran.bytes, hran.goesOn⟩

end Sys2Proof.Machine
end
section
/-! PROOFS. A word whose matrix slot is an operation of the engine, and the cycle in which it issues (R28, R63, R98, R100, R117). -/

namespace Sys2Proof.Machine

variable {s t u : State} {c : CoreRef} {v a : Nat}

/-! ### The word -/

/-- A word whose matrix slot is `v`. -/
@[simps] def mxWord (v : Nat) : Slots := ⟨v, 0, 0, 0, 0, 0, 0⟩

theorem oneSlot_mxWord (hv : v < 2 ^ 64) : oneSlot 0 v = mxWord v := by
  simp (disch := decide) only [oneSlot, slotsOf, mxWord, bitsOf_shifted_same (hi := 63) (lo := 0) hv, bitsOf_shifted_above hv]

/-- A live matrix slot that keeps the checks of its row passes them as a word. -/
theorem passes_mx (hl : s.slotLive c v) (h1 : mxStatic v = []) (h2 : mxDynamic s c v = []) : s.Passes c (mxWord v) where
  checks := by simp [State.wordFault, mxWord, hl.1, hl.2, h1, h2]
  arrival := by simp
  waits := by simp
  port := by simp

/-- A word of one live matrix slot: the operation issues, the engine has its cycle, and the sequencer goes on (R45, R100). -/
theorem issueSlots_mx (hl : s.live c v = true) {u : State}
    (hu : (((s.mark c).mxIssue c v a).cbump c Reg.CORE_ISSUE_COUNT.COUNT).tickChecked c = u) (hst : u.cget c Reg.CORE_SCHED_STATUS.STATE = 1) :
    s.issueSlots c (mxWord v) a = (u.sequence s c 0 a).afterIssue c false false := by
  have hg := gated_of_live hl
  have hend : (bitsOf 0 9 6 == 6) = false := rfl
  unfold State.mark at hu
  simp -implicitDefEqProofs only [State.issueSlots, show mxWord v = ⟨v, 0, 0, 0, 0, 0, 0⟩ from rfl, gated_zero, hg, pausesHere_zero, takeWait_zero,
    loadCount_zero, qpIssue_zero, startMove_zero, vxIssue_zero, plPred_zero, State.writePred, hu, hst, OfNat.one_ne_ofNat, Bool.false_eq_true,
    if_false, hend]

/-- A word of the matrix engine is the issue of its slot with its operation. -/
theorem runMx_eq (s : State) (c : CoreRef) (w : BitVec 64) {op : Nat} (hop : op < 16) :
    s.runMx c w.toNat op = s.runWord c (mxWord (withField w.toNat 9 6 op)) := by
  rw [← oneSlot_mxWord (withField_lt (by decide) hop (by decide) w.isLt)]
  rfl

/-- After an issue whose cycle leaves `e`, with `fs` under way, a core that is ready goes on with the next word (R28). -/
theorem State.coreReady.runWord_next (hr : s.coreReady c) {w : Slots} (hp : s.Passes c w) {e : State} {fs : List EngineUse}
    (hslots : s.issueSlots c w (s.wordAddr c) = ((e.withFlights fs).sequence s c 0 (s.wordAddr c)).afterIssue c false false)
    (hrise : risingFrom 0 e.fld = true) (hstate : e.cget c Reg.CORE_SCHED_STATUS.STATE = 1)
    (hkept : ∀ g ∈ stopFlds ++ loopEndFlds, e.cget c g = s.cget c g) :
    s.runWord c w = (e.cput c Reg.CORE_SCHED_STATUS.ADDR (s.wordAddr c + 1)).withFlights fs := by
  obtain ⟨hruns, hends⟩ := hr
  have hnl : (e.withFlights fs).noLoopEnds c (s.wordAddr c) :=
    noLoopEnds_of_cget (t := e) hruns.loops_le (fun g hg => hkept g (List.mem_append_right _ hg)) hends
  have hseq : (e.withFlights fs).sequence s c 0 (s.wordAddr c) = (e.cput c Reg.CORE_SCHED_STATUS.ADDR (s.wordAddr c + 1)).withFlights fs :=
    (if_neg (by decide)).trans ((State.nextWord_goto 5 hnl).trans (State.gotoWord_of_le _ _ hruns.addr_lt))
  have hput {g : Fld} (hg : g.pos ≠ Reg.CORE_SCHED_STATUS.ADDR.pos) :
      (e.cput c Reg.CORE_SCHED_STATUS.ADDR (s.wordAddr c + 1)).cget c g = e.cget c g := State.cget_cput_other hrise c hg _
  have hoff {g : Fld} (hg : g ∈ stopFlds) (hs : s.cflag c g = false) :
      ((e.cput c Reg.CORE_SCHED_STATUS.ADDR (s.wordAddr c + 1)).withFlights fs).cflag c g = false := by
    have hpos : g.pos ≠ Reg.CORE_SCHED_STATUS.ADDR.pos := (by decide : ∀ g ∈ stopFlds, g.pos ≠ Reg.CORE_SCHED_STATUS.ADDR.pos) g hg
    have := (hput hpos).trans (hkept g (List.mem_append_left _ hg))
    show (e.cput c Reg.CORE_SCHED_STATUS.ADDR (s.wordAddr c + 1)).cflag c g = false
    simp_all [State.flag]
  have hstop := (hput (g := Core.STOPPING) (by decide)).trans (hkept _ (by decide))
  refine State.runWord_of_issueWord ?_ (ne_of_eq_of_ne (hstop.trans hruns.stopping) (by decide))
  rw [hruns.offered.issueWord_of_passes hp, hslots, hseq]
  exact State.afterIssue_running ((hput (g := Reg.CORE_SCHED_STATUS.STATE) (by decide)).trans hstate) (hoff (by decide) hruns.past)
    (hoff (by decide) hruns.stepping) (hoff (by decide) hruns.breakOff)

/-! ### The cycle of issue -/

/-- A core whose matrix engine is occupied by the operation that issues, of which no use falls into this cycle. -/
structure State.MxBusy (s : State) (c : CoreRef) (occ : Nat) : Prop where
  busy0 : s.cflag c (Core.CH_BUSY 0) = false
  busy1 : s.cflag c (Core.CH_BUSY 1) = false
  mx : s.cget c Reg.CORE_MX_STATUS.OCC_LEFT = occ
  vx : s.cget c Reg.CORE_VX_STATUS.OCC_LEFT = 0
  beats : ∀ b ∈ s.beats, b.owner ≠ c
  later : ∀ e ∈ s.flights, e.owner = c → e.left ≠ 0

namespace State.MxBusy
variable {occ : Nat}

theorem channels (h : s.MxBusy c occ) (p : Nat → Bool) :
    ((List.range 2).filter fun ch => s.cflag c (Core.CH_BUSY ch) && !s.cflag c (Core.CH_SUSP ch) && p ch) = [] := by
  rw [show List.range 2 = [0, 1] from rfl]
  simp only [List.filter, h.busy0, h.busy1, Bool.false_and]

theorem beats_filter (h : s.MxBusy c occ) (p : Beat → Bool) : (s.beats.filter fun b => b.owner == c && p b) = [] :=
  List.filter_eq_nil_iff.2 fun b hb => by simp [h.beats b hb]

theorem dueBeats (h : s.MxBusy c occ) : s.dueBeats c = [] := h.beats_filter fun b => decide (b.left ≤ 1)

theorem cmAccesses (h : s.MxBusy c occ) : s.cmAccesses c = [] := by
  have hd : (s.beats.filter fun b => b.dueNow c && b.space == 0) = [] := by
    simpa only [Beat.dueNow, Bool.and_assoc] using h.beats_filter fun b => decide (b.left ≤ 1) && b.space == 0
  simp only [State.cmAccesses, hd, h.channels, List.map_nil, List.append_nil]

theorem spReads (h : s.MxBusy c occ) : s.spReads c = [] := by
  simp only [State.spReads, h.channels, List.flatMap_nil]

/-- No use of the core falls into this cycle. -/
theorem usesNow (h : s.MxBusy c occ) : (s.flights.filter fun u => u.owner == c && u.left == 0) = [] :=
  List.filter_eq_nil_iff.2 fun e he => by
    have := h.later e he
    simpa using this

theorem portCollision (h : s.MxBusy c occ) : s.portCollision c = none := by
  have hnow (f : Flight → List Nat) : s.linesNow c f = [] := by rw [State.linesNow, h.usesNow, List.flatMap_nil]
  simp only [portCollision_eq h.dueBeats h.spReads, hnow, List.filter_nil, List.append_nil, List.map_nil]
  rfl

theorem predsDue (h : s.MxBusy c occ) : s.predsDue c = [] := by
  refine List.filterMap_eq_nil_iff.2 fun e he => ?_
  cases e.what with
  | pred p b => exact if_neg fun hp => h.later e he hp.1 hp.2
  | _ => rfl

/-- The cycle of issue: the occupation counts down, and the engine's uses come a cycle nearer (R100). -/
theorem tickChecked (h : s.MxBusy c occ) (hocc : occ ≠ 0) :
    s.tickChecked c
      = ((s.cput c Reg.CORE_MX_STATUS.OCC_LEFT (occ - 1)).cset c Reg.CORE_MX_STATUS.BUSY (occ ≠ 1)).withFlights (State.Occupied.aged s c) := by
  have hd : (s.beats.filter fun b => b.dueNow c) = [] := h.dueBeats
  have hk : ((s.beats.filter fun b => !b.dueNow c).map fun b => b.age c) = s.beats := by
    rw [List.filter_eq_self.2 fun b hb => by simp [Beat.dueNow, h.beats b hb]]
    exact (List.map_congr_left fun b hb => if_neg (h.beats b hb)).trans (List.map_id _)
  have hf : ∀ f, { s with beats := [] }.cflag c f = s.cflag c f := fun _ => rfl
  have hage (t : State) (hp : t.predsDue c = []) : t.ageFlights c = t.withFlights (State.Occupied.aged t c) := by
    unfold State.ageFlights
    rw [hp]
    rfl
  simp only [State.tickChecked, h.portCollision, State.tick, h.cmAccesses, State.serveBanks, List.isEmpty_nil, if_true, hf, h.busy0, h.busy1,
    Bool.false_and, Bool.false_eq_true, if_false, hd, hk, List.foldl_nil, List.append_nil, h.mx, h.vx, hocc]
  exact hage _ h.predsDue

end State.MxBusy

end Sys2Proof.Machine
end

section
/-! PROOFS. The word of an operation of the matrix engine: what it wrote, and where the core goes on (R28, R100). -/

namespace Sys2Proof.Machine

variable {s t u d : State} {c : CoreRef} {v k n occ : Nat}

/-! ### The fields of an operation -/

/-- The fields of a core that an operation of the matrix engine writes on its slot (R98, R100, R118). -/
def mxFs (slot : Nat) : List Fld :=
  [Reg.CORE_MX_STATUS.OCC_LEFT, Reg.CORE_MX_STATUS.BUSY, Core.MX_DRAIN, Reg.CORE_MX_SLOT_POISON.POISON slot,
   Reg.CORE_MX_SLOT_SHAPE.SHAPE slot, Reg.CORE_MX_STATUS.OVERFLOW, Reg.CORE_MX_STATUS.INVALID, Reg.CORE_MX_STATUS.NAN_INPUT]

/-- The counters of the operations, and the finished-tile queue's. -/
def mxCounts : List Fld :=
  [Reg.CORE_MX_GROUPS.COUNT, Reg.CORE_MX_STATUS.FTQ_COUNT, Reg.CORE_MX_EMITS.EMITS, Reg.CORE_MX_EMITS.SPILLS]

/-- Fields of the core that no operation of the matrix engine writes. -/
def mxFree : List Fld :=
  [Reg.CORE_SCHED_STATUS.STATE, Reg.CORE_SCHED_STATUS.SLIP_CAUSE, Core.BRK_PASS, Reg.CORE_SCHED_STATUS.ADDR, Reg.CORE_ISSUE_COUNT.COUNT]
    ++ stopFlds ++ loopEndFlds ++ [Core.CH_BUSY 0, Core.CH_BUSY 1, Reg.CORE_VX_STATUS.OCC_LEFT]

theorem mxFree_apart : ∀ slot < 64, ∀ g ∈ mxFree, ∀ f ∈ mxCounts ++ mxFs slot, g.pos ≠ f.pos := by decide

/-- The fields that the marks of an issue write. -/
def markFs : List Fld := [Reg.CORE_SCHED_STATUS.STATE, Reg.CORE_SCHED_STATUS.SLIP_CAUSE, Core.BRK_PASS]

/-- The fields of the cycle of issue. -/
def mxCycleFs : List Fld := [Reg.CORE_ISSUE_COUNT.COUNT, Reg.CORE_MX_STATUS.OCC_LEFT, Reg.CORE_MX_STATUS.BUSY]

/-- The cycle in which an operation of `occ` cycles issues: the issue is counted, and the occupation counts down. -/
def State.mxCycle (t : State) (c : CoreRef) (occ : Nat) : State :=
  ((t.cbump c Reg.CORE_ISSUE_COUNT.COUNT).cput c Reg.CORE_MX_STATUS.OCC_LEFT (occ - 1)).cset c Reg.CORE_MX_STATUS.BUSY (occ ≠ 1)

section
variable (h : risingFrom 0 t.fld = true) (c : CoreRef)
include h

theorem writes_mxCycle (occ : Nat) : t.Writes (t.mxCycle c occ) (mxCycleFs.map (coreFld c)) :=
  (((State.Writes.refl h).cbump c Reg.CORE_ISSUE_COUNT.COUNT).cput c Reg.CORE_MX_STATUS.OCC_LEFT (occ - 1)).cset c Reg.CORE_MX_STATUS.BUSY (occ ≠ 1)

theorem cget_mxCycle_count :
    (t.mxCycle c occ).cget c Reg.CORE_ISSUE_COUNT.COUNT = min (t.cget c Reg.CORE_ISSUE_COUNT.COUNT + 1) (2 ^ 48 - 1) := by
  have h1 := State.cput_rising h c Reg.CORE_ISSUE_COUNT.COUNT (min (t.cget c Reg.CORE_ISSUE_COUNT.COUNT + 1) (2 ^ 48 - 1))
  exact (State.cget_cput_other (State.cput_rising h1 c _ _) c (by decide) _).trans
    ((State.cget_cput_other h1 c (by decide) _).trans (State.cget_cbump_same h c _))

theorem cget_mxCycle_occ (hocc : occ ≤ 2 ^ 8) : (t.mxCycle c occ).cget c Reg.CORE_MX_STATUS.OCC_LEFT = occ - 1 := by
  have h1 : risingFrom 0 (t.cbump c Reg.CORE_ISSUE_COUNT.COUNT).fld = true := State.cput_rising h c _ _
  have hw : occ - 1 < 2 ^ Reg.CORE_MX_STATUS.OCC_LEFT.width := show occ - 1 < 2 ^ 8 by omega
  exact (State.cget_cput_other (State.cput_rising h1 c _ _) c (by decide) _).trans (State.cget_cput_of_lt h1 c _ hw)

end

/-! ### The operation and its word -/

/-- An operation of the matrix engine that the word's matrix slot `v` issues: it leaves `d`, with uses `us` still to come; it writes fields of
its `slot` and counters, and bytes of `[k, k + n)`; and it occupies the engine for `occ` cycles. -/
structure State.MxOp (s d : State) (c : CoreRef) (v slot : Nat) (fs : List Fld) (k n occ : Nat) (us : List (Nat × Flight)) : Prop where
  issue : (s.mark c).mxIssue c v (s.wordAddr c) = d.addFlights c us
  engine : (s.mark c).Engine d (fs.map (coreFld c)) k n
  slot_lt : slot < 64
  listed : fs ⊆ mxCounts ++ mxFs slot
  occupies : Reg.CORE_MX_STATUS.OCC_LEFT ∈ fs ∧ Reg.CORE_MX_STATUS.BUSY ∈ fs
  occ_eq : d.cget c Reg.CORE_MX_STATUS.OCC_LEFT = occ
  occ_pos : occ ≠ 0
  later : ∀ p ∈ us, p.1 ≠ 0

/-- What the word of an operation that leaves `d` makes of the panel. -/
structure State.MxRan (s u d : State) (c : CoreRef) (fs : List Fld) (k n occ : Nat) : Prop where
  sram : u.sram = d.sram
  bytes : s.sameBytesBut u k n
  goesOn : s.coreGoesOn u c (s.wordAddr c + 1) (fs.map (coreFld c))
  occ : u.cget c Reg.CORE_MX_STATUS.OCC_LEFT = occ - 1
  kept : ∀ f : Fld, (∀ g ∈ Reg.CORE_SCHED_STATUS.ADDR :: mxCycleFs, f.pos ≠ g.pos) → u.cget c f = d.cget c f
  canonical : u.canonical = true

namespace State.MxOp
variable {slot : Nat} {fs : List Fld} {us : List (Nat × Flight)}

/-- A field that the operation does not write reads as the marks of the issue left it. -/
theorem cget_free (h : s.MxOp d c v slot fs k n occ us) {g : Fld} (hg : g ∈ mxFree) : d.cget c g = (s.mark c).cget c g :=
  h.engine.cget_eq (apart_coreFlds fun f hf => mxFree_apart slot h.slot_lt g hg f (h.listed hf))

/-- A field that neither the marks nor the operation write. -/
theorem cget_unmarked (h : s.MxOp d c v slot fs k n occ us) (hs : s.canonical = true) {g : Fld} (hg : g ∈ mxFree)
    (h1 : ∀ f ∈ markFs, g.pos ≠ f.pos) : d.cget c g = s.cget c g :=
  (h.cget_free hg).trans ((Issuing.mark (State.canonical_fld hs) c).cget_eq (apart_mark h1) (by simp))

/-- A field that the cycle of issue does not write either. -/
theorem cget_cycle (h : s.MxOp d c v slot fs k n occ us) (hs : s.canonical = true) {g : Fld} (hg : g ∈ mxFree)
    (h1 : ∀ f ∈ markFs ++ mxCycleFs, g.pos ≠ f.pos) : (d.mxCycle c occ).cget c g = s.cget c g :=
  ((writes_mxCycle h.engine.ordered c occ).cget_eq (apart_coreFlds fun f hf => h1 f (List.mem_append_right _ hf))).trans
    (h.cget_unmarked hs hg fun f hf => h1 f (List.mem_append_left _ hf))

/-- The core once the operation has issued. -/
theorem busy (h : s.MxOp d c v slot fs k n occ us) (hs : s.canonical = true) (hq : s.Quiet c) :
    ((d.addFlights c us).cbump c Reg.CORE_ISSUE_COUNT.COUNT).MxBusy c occ := by
  have hcount {g : Fld} (hg : g.pos ≠ Reg.CORE_ISSUE_COUNT.COUNT.pos) :
      ((d.addFlights c us).cbump c Reg.CORE_ISSUE_COUNT.COUNT).cget c g = d.cget c g := State.cget_cput_other h.engine.ordered c hg _
  refine ⟨(State.cflag_false_iff _ c _ rfl).2 ((hcount (by decide)).trans ((h.cget_unmarked hs (by decide) (by decide)).trans hq.busy0)),
    (State.cflag_false_iff _ c _ rfl).2 ((hcount (by decide)).trans ((h.cget_unmarked hs (by decide) (by decide)).trans hq.busy1)),
    (hcount (by decide)).trans h.occ_eq, (hcount (by decide)).trans ((h.cget_unmarked hs (by decide) (by decide)).trans hq.vx), ?_, ?_⟩
  · show ∀ b ∈ d.beats, b.owner ≠ c
    rw [h.engine.beats_eq]
    exact hq.beats
  · intro e he hown
    rcases List.mem_append.1 (show e ∈ d.flights ++ _ from he) with he | he
    · rw [h.engine.flights_eq] at he
      exact (hq.flights e he hown).elim
    · obtain ⟨p, hp, rfl⟩ := List.mem_map.1 he
      exact h.later p hp

/-- The word: the operation runs, its uses are under way, and the core goes on with the next word. -/
theorem runWord (h : s.MxOp d c v slot fs k n occ us) (hs : s.canonical = true) (hr : s.coreReady c) (hp : s.Passes c (mxWord v))
    (hl : s.live c v = true) :
    ∃ es, s.runWord c (mxWord v) = ((d.mxCycle c occ).cput c Reg.CORE_SCHED_STATUS.ADDR (s.wordAddr c + 1)).withFlights es := by
  have hcycle := writes_mxCycle h.engine.ordered c occ
  have htick : (((s.mark c).mxIssue c v (s.wordAddr c)).cbump c Reg.CORE_ISSUE_COUNT.COUNT).tickChecked c
      = (d.mxCycle c occ).withFlights (State.Occupied.aged ((d.addFlights c us).cbump c Reg.CORE_ISSUE_COUNT.COUNT) c) := by
    rw [h.issue]
    exact (h.busy hs hr.1.quiet).tickChecked h.occ_pos
  have hstate : (d.mxCycle c occ).cget c Reg.CORE_SCHED_STATUS.STATE = 1 :=
    (hcycle.cget_eq (apart_coreFlds (by decide))).trans ((h.cget_free (by decide)).trans (Issuing.mark (State.canonical_fld hs) c).state)
  exact ⟨_, hr.runWord_next hp (issueSlots_mx hl htick hstate) hcycle.ordered hstate fun g hg =>
    h.cget_cycle hs ((by decide : ∀ g ∈ stopFlds ++ loopEndFlds, g ∈ mxFree) g hg)
      ((by decide : ∀ g ∈ stopFlds ++ loopEndFlds, ∀ f ∈ markFs ++ mxCycleFs, g.pos ≠ f.pos) g hg)⟩

/-- What the word leaves (R28, R100). -/
theorem ran (h : s.MxOp d c v slot fs k n occ us) (hs : s.canonical = true) (hr : s.coreReady c) (hp : s.Passes c (mxWord v))
    (hl : s.live c v = true) : ∃ u, s.runWord c (mxWord v) = u ∧ s.MxRan u d c fs k n occ := by
  obtain ⟨es, hrun⟩ := h.runWord hs hr hp hl
  refine ⟨_, hrun, ?_⟩
  have hm := Issuing.mark (State.canonical_fld hs) c
  have hcycle := writes_mxCycle h.engine.ordered c occ
  have hle : occ ≤ 2 ^ 8 := by
    have hlt : d.cget c Reg.CORE_MX_STATUS.OCC_LEFT < 2 ^ 8 := d.cget_lt c Reg.CORE_MX_STATUS.OCC_LEFT
    rw [h.occ_eq] at hlt
    exact hlt.le
  have haddr : s.wordAddr c + 1 < 2 ^ 11 := by have := hr.1.addr_lt; omega
  have hkeep {f : Fld} (hf : f.pos ≠ Reg.CORE_SCHED_STATUS.ADDR.pos) :
      (((d.mxCycle c occ).cput c Reg.CORE_SCHED_STATUS.ADDR (s.wordAddr c + 1)).withFlights es).cget c f = (d.mxCycle c occ).cget c f :=
    State.cget_cput_other hcycle.ordered c hf _
  have hcount : d.cget c Reg.CORE_ISSUE_COUNT.COUNT = s.cget c Reg.CORE_ISSUE_COUNT.COUNT := h.cget_unmarked hs (by decide) (by decide)
  have hmark : s.Engine (s.mark c) (issueFlds c ++ fs.map (coreFld c)) k n :=
    (State.Engine.of_writes hs hm.writes).mono fun e he => by
      simp only [markFlds, issueFlds, List.append_nil, List.mem_append, List.mem_cons, List.not_mem_nil, or_false] at he ⊢
      tauto
  have hop := hmark.trans (h.engine.mono (List.subset_append_right _ _))
  have hocc := List.mem_map_of_mem (f := coreFld c) h.occupies.1
  have hbusy := List.mem_map_of_mem (f := coreFld c) h.occupies.2
  have hcyc := hop.trans ((State.Engine.of_writes hop.canonical hcycle).mono (List.cons_subset.2 ⟨List.mem_append_left _ (by simp [issueFlds]),
    List.cons_subset.2 ⟨List.mem_append_right _ hocc, List.cons_subset.2 ⟨List.mem_append_right _ hbusy, List.nil_subset _⟩⟩⟩))
  have hput := hcyc.trans (.cput (c := c) hcyc.canonical Reg.CORE_SCHED_STATUS.ADDR (s.wordAddr c + 1) (List.mem_append_left _ (by simp [issueFlds])))
  exact {
    sram := rfl
    bytes := hput.bytes
    goesOn := ⟨(hkeep (by decide)).trans ((hcycle.cget_eq (apart_coreFlds (by decide))).trans ((h.cget_free (by decide)).trans hm.state)),
      (hkeep (by decide)).trans ((hcycle.cget_eq (apart_coreFlds (by decide))).trans ((h.cget_free (by decide)).trans hm.slip)),
      State.cget_cput_of_lt hcycle.ordered c _ haddr,
      (hkeep (by decide)).trans ((cget_mxCycle_count h.engine.ordered c).trans (by rw [hcount])), hput.fields⟩
    occ := (hkeep (by decide)).trans (cget_mxCycle_occ h.engine.ordered c hle)
    kept := fun f hf => (hkeep (hf _ List.mem_cons_self)).trans
      (hcycle.cget_eq (apart_coreFlds fun g hg => hf g (List.mem_cons_of_mem _ hg)))
    canonical := hput.canonical }

end State.MxOp

end Sys2Proof.Machine
end

section
/-! PROOFS. Codes packed in a range, ranges set to zero, and where the matrix engine's memories stand (R98, R110, R113, R116, R168). -/

namespace Sys2Proof.Machine

variable {s t u : State} {c : CoreRef} {k n lo hi : Nat}

/-! ### Codes of whole bytes -/

theorem leNat_append (a b : List Byte) : leNat (a ++ b) = leNat a + 256 ^ a.length * leNat b := by
  induction a with
  | nil => simp [leNat]
  | cons x a ih => rw [List.cons_append, leNat, leNat, ih, List.length_cons, Nat.pow_succ']; ring

theorem unpackCodes_succ (b n v : Nat) : unpackCodes b (n + 1) v = v % 2 ^ b :: unpackCodes b n (v / 2 ^ b) := by
  unfold unpackCodes
  rw [List.range_succ_eq_map, List.map_cons, List.map_map, Nat.mul_zero, Nat.pow_zero, Nat.div_one]
  refine congrArg _ (List.map_congr_left fun i _ => ?_)
  rw [Function.comp_apply, Nat.div_div_eq_div_mul, ← pow_add, Nat.mul_succ, Nat.add_comm]

/-- Numbers of `m` bytes each, in a row, are read back one by one (R76). -/
theorem unpackCodes_leBytes {m : Nat} {xs : List Nat} (h : ∀ x ∈ xs, x < 2 ^ (8 * m)) :
    unpackCodes (8 * m) xs.length (leNat (xs.flatMap (leBytes m))) = xs := by
  induction xs with
  | nil => rfl
  | cons x xs ih =>
    have hx : x < 2 ^ (8 * m) := h x List.mem_cons_self
    have hp : 256 ^ m = 2 ^ (8 * m) := by rw [show 256 = 2 ^ 8 from rfl, ← Nat.pow_mul]
    rw [List.flatMap_cons, leNat_append, leNat_leBytes, length_leBytes, hp, Nat.mod_eq_of_lt hx, List.length_cons, unpackCodes_succ,
      Nat.add_mul_mod_self_left, Nat.mod_eq_of_lt hx, Nat.add_mul_div_left _ _ (by positivity), Nat.div_eq_of_lt hx, Nat.zero_add,
      ih fun y hy => h y (List.mem_cons_of_mem _ hy)]

theorem length_unpackCodes (b n v : Nat) : (unpackCodes b n v).length = n := by simp [unpackCodes]

theorem unpackCodes_lt {b n v x : Nat} (h : x ∈ unpackCodes b n v) : x < 2 ^ b := by
  obtain ⟨i, -, rfl⟩ := List.mem_map.1 h
  exact Nat.mod_lt _ (by positivity)

theorem length_flatMap_leBytes (m : Nat) (xs : List Nat) : (xs.flatMap (leBytes m)).length = m * xs.length := by
  simp [List.length_flatMap, Nat.mul_comm]

/-- A code of a format with infinities and a NaN of its width (R70, R72). -/
theorem FloatFmt.encode_lt {f : FloatFmt} {nan : Nat} (hi : f.hasInf = true) (hn : f.nan = some nan) (hnan : nan < 2 ^ (f.exp + f.man + 1))
    (hmax : f.maxCode + 1 < 2 ^ (f.exp + f.man)) (rm : RMode) (sat : Bool) (u : Nat) (v : FVal) :
    (f.encode rm sat u v).1 < 2 ^ (f.exp + f.man + 1) := by
  have hw : 2 ^ (f.exp + f.man + 1) = 2 ^ (f.exp + f.man) + 2 ^ (f.exp + f.man) := by rw [Nat.pow_succ]; omega
  rw [hw] at hnan ⊢
  unfold FloatFmt.encode
  simp only [hi, hn, if_true]
  generalize 2 ^ (f.exp + f.man) = b at *
  cases v with
  | nan => exact hnan
  | inf neg =>
    dsimp only
    split_ifs <;> omega
  | fin neg m e =>
    dsimp only
    split_ifs <;> (dsimp only; omega)

theorem toFP32_lt (v : FVal) : toFP32 v < 2 ^ 32 := FloatFmt.encode_lt (f := ffFP32) rfl rfl (by decide) (by decide) _ _ _ v
theorem toFP64_lt (v : FVal) : toFP64 v < 2 ^ 64 := FloatFmt.encode_lt (f := ffFP64) rfl rfl (by decide) (by decide) _ _ _ v

/-! ### Reads of a range -/

/-- A range that an engine does not write reads as before. -/
theorem State.Engine.rd_other {es : List (Nat × Fld)} (h : s.Engine t es k n) (hs : s.canonical = true) {a m : Nat} (hd : a + m ≤ k ∨ k + n ≤ a) :
    t.rd a m = s.rd a m := by
  rw [rd_eq hs, rd_eq h.canonical]
  refine List.map_congr_left fun i hi => h.bytes.1 _ ?_
  have := List.mem_range.1 hi
  omega

theorem State.Engine.rdNat_other {es : List (Nat × Fld)} (h : s.Engine t es k n) (hs : s.canonical = true) {a m : Nat} (hd : a + m ≤ k ∨ k + n ≤ a) :
    t.rdNat a m = s.rdNat a m := congrArg leNat (h.rd_other hs hd)

/-- Bytes written without poison read back. -/
theorem rd_wr (hs : s.canonical = true) (k : Nat) (bs : List Byte) : (s.wr k bs).rd k bs.length = bs := by
  have h := rd_wrP hs k (bs.map fun b => (b, false))
  rwa [List.length_map, List.map_map, show (fun b : Byte × Bool => b.1) ∘ (fun b : Byte => (b, false)) = id from rfl, List.map_id] at h

/-- The numbers written to a range read back (R76). -/
theorem unpackCodes_rdNat_wr {m : Nat} {xs : List Nat} (hs : s.canonical = true) (k : Nat) (h : ∀ x ∈ xs, x < 2 ^ (8 * m)) :
    unpackCodes (8 * m) xs.length ((s.wr k (xs.flatMap (leBytes m))).rdNat k (m * xs.length)) = xs := by
  have hrd := rd_wr hs k (xs.flatMap (leBytes m))
  rw [length_flatMap_leBytes] at hrd
  rw [State.rdNat, hrd, unpackCodes_leBytes h]

/-! ### Ranges set to zero -/

/-- A key that is cleared is listed no more. -/
theorem mapGet_clear_in {β : Type} (d : β) {key : Nat} (m : SMap β) (h1 : lo ≤ key) (h2 : key < hi) : mapGet d (mapClear lo hi m) key = d :=
  mapGet_filter_out d (fun a => decide (a < lo) || decide (hi ≤ a)) (by simp; omega) m

theorem rd_clearSram (hs : s.canonical = true) (k n : Nat) : (s.clearSram k (k + n)).rd k n = List.replicate n 0 := by
  rw [rd_eq (State.clearSram_canonical _ _ hs), List.eq_replicate_iff]
  refine ⟨by simp, fun b hb => ?_⟩
  obtain ⟨i, hi, rfl⟩ := List.mem_map.1 hb
  have := List.mem_range.1 hi
  exact mapGet_clear_in 0 _ (by omega) (by omega)

theorem leNat_replicate_zero (n : Nat) : leNat (List.replicate n 0) = 0 := by
  induction n with
  | zero => rfl
  | succ n ih => rw [List.replicate_succ, leNat, ih]; rfl

theorem unpackCodes_zero (b n : Nat) : unpackCodes b n 0 = List.replicate n 0 := by simp [unpackCodes]

/-- Marks that are listed nowhere in a range are listed nowhere in it after others are cleared. -/
theorem wordsIn_clear (lo hi : Nat) {m : SMap Nat} (h : wordsIn m k n = []) : wordsIn (mapClear lo hi m) k n = [] := by
  rw [wordsIn_eq_nil, mapRange_eq_nil] at h ⊢
  exact h.imp id fun h e he => h e (List.mem_filter.1 he).1

theorem State.cleanRange.clearSram (h : s.cleanRange k n) (lo hi : Nat) : (s.clearSram lo hi).cleanRange k n :=
  ⟨wordsIn_clear (lo / 8) (hi / 8) h.1, wordsIn_clear (lo / 8) (hi / 8) h.2⟩

/-- Whole words that are set to zero are clean (R168). -/
theorem cleanRange_clearSram (s : State) (hk : k % 8 = 0) (hn : n % 8 = 0) : (s.clearSram k (k + n)).cleanRange k n := by
  have hword (m : SMap Nat) : wordsIn (mapClear (k / 8) ((k + n) / 8) m) k n = [] := by
    rw [wordsIn_eq_nil, mapRange_eq_nil]
    rcases Nat.eq_zero_or_pos n with h0 | h0
    · exact .inl h0
    · refine .inr fun e he hlo => ?_
      have hout := (List.mem_filter.1 he).2
      simp only [Bool.or_eq_true, decide_eq_true_eq] at hout
      omega
  exact ⟨hword _, hword _⟩

namespace State.Engine
variable {es : List (Nat × Fld)}

/-- A range set to zero. -/
theorem clearSram (hs : s.canonical = true) (hlo : k ≤ lo) (hhi : hi ≤ k + n) : s.Engine (s.clearSram lo hi) es k n where
  frame := rfl
  fields := fun _ _ _ => rfl
  bytes := ⟨fun a ha => mapGet_clear_other 0 (by omega) (wf_iff.1 (State.canonical_maps hs).2.2.1).1, rfl, rfl, rfl⟩
  canonical := State.clearSram_canonical lo hi hs
  clean := fun _ _ h => h.clearSram lo hi

/-- A larger range. -/
theorem widen (h : s.Engine t es k n) {k' n' : Nat} (hk : k' ≤ k) (hn : k + n ≤ k' + n') : s.Engine t es k' n' :=
  { h with bytes := let ⟨hb, hr⟩ := h.bytes; ⟨fun a ha => hb a (by omega), hr⟩ }

/-! Further writes. -/

theorem thenCput (h : s.Engine t es k n) {f : Fld} (v : Nat) (hf : coreFld c f ∈ es) : s.Engine (t.cput c f v) es k n :=
  h.trans (.cput h.canonical f v hf)

theorem thenCset (h : s.Engine t es k n) {f : Fld} (b : Bool) (hf : coreFld c f ∈ es) : s.Engine (t.cset c f b) es k n := h.thenCput _ hf

theorem thenSetIf (h : s.Engine t es k n) {f : Fld} (b : Bool) (hf : coreFld c f ∈ es) : s.Engine (t.setIf c b f) es k n := by
  unfold State.setIf
  split
  · exact h.thenCset true hf
  · exact h

end State.Engine

/-! ### The memories of the matrix engine -/

theorem slotKey_eq (c : CoreRef) (slot : Nat) : slotKey c slot = coreKey c 0 0 + (2 ^ 27 + slot * 8192) := by
  unfold slotKey coreKey sramKey Mem.ACC; omega

theorem wideKey_eq (c : CoreRef) (w : Nat) : wideKey c w = coreKey c 0 0 + w * 16384 := by
  unfold wideKey coreKey sramKey Mem.SP; omega

theorem ftqKey_eq (c : CoreRef) (i : Nat) : ftqKey c i = coreKey c 0 0 + (5 * 2 ^ 25 + i * 8200) := by
  unfold ftqKey coreKey sramKey Mem.FTQ; omega

theorem coreKey_mod (c : CoreRef) : coreKey c 0 0 % 8 = 0 := by unfold coreKey sramKey; omega

/-- A slot that is cleared holds +0 (R98). -/
theorem slotBits_zeroAcc (hs : s.canonical = true) (c : CoreRef) (slot : Nat) : (s.zeroAcc c slot).slotBits c slot = List.replicate 2048 0 := by
  rw [State.slotBits, State.rdNat, State.zeroAcc, rd_clearSram hs, leNat_replicate_zero, unpackCodes_zero]

theorem length_slotBits (s : State) (c : CoreRef) (slot : Nat) : (s.slotBits c slot).length = 2048 := length_unpackCodes ..
theorem length_wideBits (s : State) (c : CoreRef) (w : Nat) : (s.wideBits c w).length = 2048 := length_unpackCodes ..

/-- What an engine writes outside a slot leaves its accumulators. -/
theorem State.Engine.slotBits_other {es : List (Nat × Fld)} (h : s.Engine t es k n) (hs : s.canonical = true) {slot : Nat}
    (hd : slotKey c slot + 8192 ≤ k ∨ k + n ≤ slotKey c slot) : t.slotBits c slot = s.slotBits c slot :=
  congrArg (unpackCodes 32 2048) (h.rdNat_other hs hd)

/-- What an engine writes outside a wide buffer leaves its values. -/
theorem State.Engine.wideBits_other {es : List (Nat × Fld)} (h : s.Engine t es k n) (hs : s.canonical = true) {w : Nat}
    (hd : wideKey c w + 16384 ≤ k ∨ k + n ≤ wideKey c w) : t.wideBits c w = s.wideBits c w :=
  congrArg (unpackCodes 64 2048) (h.rdNat_other hs hd)

/-- A slot's accumulators are read from the bytes alone. -/
theorem slotBits_congr (h : t.sram = s.sram) (c : CoreRef) (slot : Nat) : t.slotBits c slot = s.slotBits c slot :=
  congrArg (unpackCodes 32 2048) (rdNat_congr h _ _)

/-- A wide buffer's values are read from the bytes alone. -/
theorem wideBits_congr (h : t.sram = s.sram) (c : CoreRef) (w : Nat) : t.wideBits c w = s.wideBits c w :=
  congrArg (unpackCodes 64 2048) (rdNat_congr h _ _)

/-! ### Reads of clean ranges -/

theorem State.cleanRange.firstBad (h : s.cleanRange k n) : s.firstBad k n = none := by
  have hu : wordsIn s.sramUpset k n = [] := h.1
  rw [State.firstBad, hu, List.find?_nil]

/-- A copy of clean words changes nothing (R60). -/
theorem State.cleanRange.pathRead (h : s.cleanRange k n) (c : CoreRef) : s.pathRead c k n = s := by
  have hu : wordsIn s.sramUpset k n = [] := h.1
  rw [State.pathRead, h.firstBad]
  simp only [State.checkRange, hu, List.foldl_nil]

/-- A clean slot is read without effect (R111). -/
theorem State.cleanRange.readSlot {slot : Nat} (h : s.cleanRange (slotKey c slot) 8192) : s.readSlot c slot = s := by
  rw [State.readSlot, h.firstBad, h.pathRead]
  rfl

end Sys2Proof.Machine
end

section
/-! PROOFS. `ZERO` and `MAC` (R98, R100, R104–R109). -/

namespace Sys2Proof.Machine

variable {s t u : State} {c : CoreRef} {v k n op slot : Nat} {m : MxSlot} {a b : Fmt} {fs : List Fld}

/-! ### The slot's fields and its checks -/

/-- The operation of a row replaces the slot's own. -/
theorem mxSlot_withField (v : Nat) (h : op < 16) : mxSlot (withField v 9 6 op) = { mxSlot v with op := op } := by
  simp (disch := omega) only [mxSlot, bitsOf_withField_same, bitsOf_withField_other, testBit_withField_other]

theorem mxSlot_slot_lt (v : Nat) : (mxSlot v).slot < 64 := bitsOf_lt v 17 12
theorem mxSlot_shape_lt (v : Nat) : (mxSlot v).shape < 4 := bitsOf_lt v 11 10
theorem mxSlot_wide_lt (v : Nat) : (mxSlot v).wide < 128 := bitsOf_lt v 26 20
theorem mxSlot_tag_lt (v : Nat) : (mxSlot v).tag < 64 := bitsOf_lt v 32 27
theorem mxSlot_aaddr_lt (v : Nat) : (mxSlot v).aaddr < 1024 := bitsOf_lt v 38 29
theorem mxSlot_baddr_lt (v : Nat) : (mxSlot v).baddr < 2048 := bitsOf_lt v 49 39

@[simp] theorem addFlights_nil (s : State) (c : CoreRef) : s.addFlights c [] = s := by simp [State.addFlights, State.usesAt]

/-- The operations by their codes (R98). -/
theorem mxIssue_mac (h : (mxSlot v).op = 1) (s : State) (c : CoreRef) (a : Nat) : s.mxIssue c v a = s.mxMac c (mxSlot v) a := by
  simp only [State.mxIssue, h]
theorem mxIssue_emit (h : (mxSlot v).op = 2) (s : State) (c : CoreRef) (a : Nat) : s.mxIssue c v a = s.mxEmit c (mxSlot v) := by
  simp only [State.mxIssue, h]
theorem mxIssue_spill (h : (mxSlot v).op = 3) (s : State) (c : CoreRef) (a : Nat) : s.mxIssue c v a = s.mxSpill c (mxSlot v) := by
  simp only [State.mxIssue, h]
theorem mxIssue_zero_op (h : (mxSlot v).op = 4) (s : State) (c : CoreRef) (a : Nat) : s.mxIssue c v a = s.mxZero c (mxSlot v) := by
  simp only [State.mxIssue, h]

/-! ### Occupation and status bits -/

/-- An operation occupies the engine, and drains the operand-buffer halves that it reads (R100, R102). -/
def State.mxOccupied (s : State) (c : CoreRef) (occ drain : Nat) : State := (s.occupyMx c occ).cput c Core.MX_DRAIN drain

theorem writes_mxOccupied (h : risingFrom 0 s.fld = true) (c : CoreRef) (occ drain : Nat) :
    s.Writes (s.mxOccupied c occ drain) ([Reg.CORE_MX_STATUS.OCC_LEFT, Reg.CORE_MX_STATUS.BUSY, Core.MX_DRAIN].map (coreFld c)) :=
  (((State.Writes.refl h).cput c Reg.CORE_MX_STATUS.OCC_LEFT occ).cset c Reg.CORE_MX_STATUS.BUSY (occ ≠ 0)).cput c Core.MX_DRAIN drain

theorem cget_mxOccupied (h : risingFrom 0 s.fld = true) (c : CoreRef) {occ : Nat} (hocc : occ < 2 ^ 8) (drain : Nat) :
    (s.mxOccupied c occ drain).cget c Reg.CORE_MX_STATUS.OCC_LEFT = occ := by
  have h1 := State.cput_rising h c Reg.CORE_MX_STATUS.OCC_LEFT occ
  exact (State.cget_cput_other (State.cput_rising h1 c _ _) c (by decide) _).trans
    ((State.cget_cput_other h1 c (by decide) _).trans (State.cget_cput_of_lt h c Reg.CORE_MX_STATUS.OCC_LEFT hocc))

/-- The status bits that an operation may set (R118). -/
def mxFlagFs : List Fld := [Reg.CORE_MX_STATUS.OVERFLOW, Reg.CORE_MX_STATUS.INVALID, Reg.CORE_MX_STATUS.NAN_INPUT]

theorem mxFlags_eq (s : State) (c : CoreRef) (f : MxFlags) :
    s.mxFlags c f = ((s.setIf c f.overflow Reg.CORE_MX_STATUS.OVERFLOW).setIf c f.invalid Reg.CORE_MX_STATUS.INVALID).setIf c f.nanInput
      Reg.CORE_MX_STATUS.NAN_INPUT := rfl

theorem mxFlags_sram (s : State) (c : CoreRef) (f : MxFlags) : (s.mxFlags c f).sram = s.sram := by
  rw [mxFlags_eq]
  unfold State.setIf
  split_ifs <;> rfl

namespace State.Engine

theorem thenOccupied {es : List (Nat × Fld)} (h : s.Engine t es k n) (occ drain : Nat)
    (hes : ([Reg.CORE_MX_STATUS.OCC_LEFT, Reg.CORE_MX_STATUS.BUSY, Core.MX_DRAIN].map (coreFld c)) ⊆ es) :
    s.Engine (t.mxOccupied c occ drain) es k n :=
  h.trans ((State.Engine.of_writes h.canonical (writes_mxOccupied h.ordered c occ drain)).mono hes)

theorem thenMxFlags {es : List (Nat × Fld)} (h : s.Engine t es k n) (f : MxFlags) (hes : mxFlagFs.map (coreFld c) ⊆ es) :
    s.Engine (t.mxFlags c f) es k n := by
  rw [mxFlags_eq]
  exact ((h.thenSetIf f.overflow (hes (List.mem_map_of_mem (by decide)))).thenSetIf f.invalid (hes (List.mem_map_of_mem (by decide)))).thenSetIf
    f.nanInput (hes (List.mem_map_of_mem (by decide)))

theorem thenZeroAcc {es : List (Nat × Fld)} (h : s.Engine t es k n) (hlo : k ≤ slotKey c slot) (hhi : slotKey c slot + 8192 ≤ k + n) :
    s.Engine (t.zeroAcc c slot) es k n := h.trans (.clearSram h.canonical hlo hhi)

theorem thenWr {es : List (Nat × Fld)} (h : s.Engine t es k n) {a : Nat} {bs : List Byte} (hlo : k ≤ a) (hhi : a + bs.length ≤ k + n) :
    s.Engine (t.wr a bs) es k n := h.trans (.wrP h.canonical (noPoison_map rfl) hlo (by rwa [List.length_map]))

end State.Engine

theorem mem_mxFs (c : CoreRef) {f : Fld} (hf : f ∈ mxFs slot) : coreFld c f ∈ (mxFs slot).map (coreFld c) := List.mem_map_of_mem hf

/-- A field of a slot stands apart from those of occupation and of the cycle of issue. -/
theorem slotFs_pos : ∀ slot < 64, ∀ f ∈ [Reg.CORE_MX_SLOT_POISON.POISON slot, Reg.CORE_MX_SLOT_SHAPE.SHAPE slot],
    ∀ g ∈ Core.MX_DRAIN :: Reg.CORE_SCHED_STATUS.ADDR :: mxCycleFs, f.pos ≠ g.pos := by decide

theorem poison_pos_ne_shape : ∀ slot < 64, (Reg.CORE_MX_SLOT_POISON.POISON slot).pos ≠ (Reg.CORE_MX_SLOT_SHAPE.SHAPE slot).pos := by decide

/-! ### A slot set to +0 -/

theorem initSlot_engine (hs : s.canonical = true) (c : CoreRef) (slot shape : Nat) :
    s.Engine (s.initSlot c slot shape) ((mxFs slot).map (coreFld c)) (slotKey c slot) 8192 :=
  (((State.Engine.refl hs).thenZeroAcc le_rfl le_rfl).thenCset false (mem_mxFs c (by simp [mxFs]))).thenCput shape (mem_mxFs c (by simp [mxFs]))

theorem initSlot_slotBits (hs : s.canonical = true) (c : CoreRef) (slot shape : Nat) :
    (s.initSlot c slot shape).slotBits c slot = List.replicate 2048 0 := slotBits_zeroAcc hs c slot

theorem initSlot_clean (s : State) (c : CoreRef) (slot shape : Nat) : (s.initSlot c slot shape).cleanRange (slotKey c slot) 8192 :=
  cleanRange_clearSram s (by have := coreKey_mod c; rw [slotKey_eq]; omega) (by decide)

/-- SHAPE and POISON of a slot set to +0 (R98). -/
theorem initSlot_fields (h : risingFrom 0 s.fld = true) (c : CoreRef) {slot shape : Nat} (hslot : slot < 64) (hshape : shape < 4) :
    (s.initSlot c slot shape).cget c (Reg.CORE_MX_SLOT_SHAPE.SHAPE slot) = shape
      ∧ (s.initSlot c slot shape).cget c (Reg.CORE_MX_SLOT_POISON.POISON slot) = 0 := by
  have h0 : risingFrom 0 (s.zeroAcc c slot).fld = true := h
  have h1 := State.cput_rising h0 c (Reg.CORE_MX_SLOT_POISON.POISON slot) 0
  exact ⟨State.cget_cput_of_lt h1 c (Reg.CORE_MX_SLOT_SHAPE.SHAPE slot) hshape,
    (State.cget_cput_other h1 c (poison_pos_ne_shape slot hslot) _).trans
      (State.cget_cput_of_lt h0 c (Reg.CORE_MX_SLOT_POISON.POISON slot) (show 0 < 2 ^ 1 by decide))⟩

/-! ### `ZERO` -/

theorem occupied_mem (c : CoreRef) (slot : Nat) :
    ([Reg.CORE_MX_STATUS.OCC_LEFT, Reg.CORE_MX_STATUS.BUSY, Core.MX_DRAIN].map (coreFld c)) ⊆ (mxFs slot).map (coreFld c) :=
  List.map_subset _ (by simp [mxFs])

theorem flags_mem (c : CoreRef) (slot : Nat) : mxFlagFs.map (coreFld c) ⊆ (mxFs slot).map (coreFld c) := List.map_subset _ (by simp [mxFs, mxFlagFs])

/-- `ZERO` as an operation of one cycle (R98). -/
theorem mxZero_op (hs : s.canonical = true) (c : CoreRef) (hop : (mxSlot v).op = 4) :
    s.MxOp ((s.mark c).mxZero c (mxSlot v)) c v (mxSlot v).slot (mxFs (mxSlot v).slot) (slotKey c (mxSlot v).slot) 8192 1 [] := by
  have hm := State.Engine.of_writes (k := 0) (n := 0) hs (State.Issuing.mark (State.canonical_fld hs) c).writes
  have hi := initSlot_engine hm.canonical c (mxSlot v).slot (mxSlot v).shape
  exact {
    issue := by rw [mxIssue_zero_op hop, addFlights_nil]
    engine := hi.thenOccupied 1 0 (occupied_mem c _)
    slot_lt := mxSlot_slot_lt v
    listed := List.subset_append_right _ _
    occupies := by simp [mxFs]
    occ_eq := cget_mxOccupied hi.ordered c (by decide) 0
    occ_pos := by decide
    later := by simp }

/-! ### One group of a `MAC` -/

/-- The rows of A that the first group reads (R95, R104). -/
def State.macRows (s : State) (c : CoreRef) (m : MxSlot) (a : Fmt) : List OpLine :=
  opLines a (shapeM m.shape) (s.rd (coreKey c Mem.OPA (m.aaddr * 64)) (shapeM m.shape * (groupBytes a + a.sideBytes)))

/-- The columns of B that the first group reads (R95, R104). -/
def State.macCols (s : State) (c : CoreRef) (m : MxSlot) (b : Fmt) : List OpLine :=
  opLines b (shapeN m.shape) (s.rd (coreKey c Mem.OPB (m.baddr * 64)) (shapeN m.shape * (groupBytes b + b.sideBytes)))

/-- The terms of a group for each accumulator, row by row (R106–R109). -/
def macTerms (wide16 : Bool) (rows cols : List OpLine) : List (List (FVal × MxFlags)) := rows.flatMap fun r => cols.map fun k => groupTerms wide16 r k

/-- The accumulators with a group's terms added. -/
def macSums (old : List Nat) (terms : List (List (FVal × MxFlags))) : List (FVal × MxFlags) := (old.zip terms).map fun p => accumulate (ofFP32 p.1) p.2

/-- A group's operands are in order: no line is malformed, and no word of them is marked. -/
structure State.MacReads (s : State) (c : CoreRef) (m : MxSlot) (a b : Fmt) : Prop where
  cleanA : s.cleanRange (coreKey c Mem.OPA (m.aaddr * 64)) (shapeM m.shape * (groupBytes a + a.sideBytes))
  cleanB : s.cleanRange (coreKey c Mem.OPB (m.baddr * 64)) (shapeN m.shape * (groupBytes b + b.sideBytes))
  wellFormed : ∀ l ∈ s.macRows c m a ++ s.macCols c m b, l.malformed = false

theorem shapeM_le (sh : Nat) : shapeM sh ≤ 32 := by unfold shapeM; split_ifs <;> omega
theorem shapeN_le (sh : Nat) : shapeN sh ≤ 256 := by unfold shapeN; split_ifs <;> omega
/-- Every shape has 2,048 elements (R91). -/
theorem shape_elements (sh : Nat) : shapeM sh * shapeN sh = 2048 := by unfold shapeM shapeN; split_ifs <;> rfl
theorem lineBytes_le (f : Fmt) : groupBytes f + f.sideBytes ≤ 256 := by cases f <;> decide

theorem length_macTerms (s : State) (c : CoreRef) (m : MxSlot) (a b : Fmt) (wide16 : Bool) :
    (macTerms wide16 (s.macRows c m a) (s.macCols c m b)).length = 2048 := by
  simp [macTerms, State.macRows, State.macCols, opLines, List.length_flatMap, Function.comp_def, shape_elements]

/-- A group's sums in the slot, the status bits that they set, and the count of groups. -/
def State.macWrite (s : State) (c : CoreRef) (slot : Nat) (res : List (FVal × MxFlags)) : State :=
  ((s.putSlot c slot (res.map fun r => toFP32 r.1)).mxFlags c (res.foldl (fun f r => f.or r.2) {})).cbump c Reg.CORE_MX_GROUPS.COUNT

/-- A group whose operands are in order writes the sums to the slot, and is counted (R104–R109). -/
theorem macGroup_eq (h : s.MacReads c m a b) (hslot : s.cleanRange (slotKey c m.slot) 8192) (addr : Nat) :
    s.macGroup c m a b addr 0
      = (s.macWrite c m.slot (macSums (s.slotBits c m.slot) (macTerms (a.bits = 16) (s.macRows c m a) (s.macCols c m b))), true) := by
  have hrows : (s.macRows c m a).any (·.malformed) = false := List.any_eq_false.2 fun l hl => by simp [h.wellFormed l (List.mem_append_left _ hl)]
  have hcols : (s.macCols c m b).any (·.malformed) = false := List.any_eq_false.2 fun l hl => by simp [h.wellFormed l (List.mem_append_right _ hl)]
  unfold State.macRows at hrows
  unfold State.macCols at hcols
  simp only [State.macGroup, Nat.zero_mul, Nat.add_zero, hrows, hcols, h.cleanA.rangePoison, h.cleanB.rangePoison, h.cleanA.operandRead,
    h.cleanB.operandRead, hslot.readSlot, Bool.or_false, Bool.false_eq_true, or_self, if_false]
  rfl

section
variable {res : List (FVal × MxFlags)} (hs : s.canonical = true) (hlen : res.length = 2048)
include hs hlen

theorem putSlot_engine : s.Engine (s.putSlot c slot (res.map fun r => toFP32 r.1)) [] (slotKey c slot) 8192 :=
  (State.Engine.refl hs).thenWr le_rfl (by rw [bytes32, length_flatMap_leBytes, List.length_map, hlen])

theorem macWrite_engine : s.Engine (s.macWrite c slot res) ((Reg.CORE_MX_GROUPS.COUNT :: mxFlagFs).map (coreFld c)) (slotKey c slot) 8192 :=
  (((putSlot_engine hs hlen).mono (List.nil_subset _)).thenMxFlags (c := c) _ (List.subset_cons_self _ _)).thenCput (c := c) _ List.mem_cons_self

/-- The sums, rounded to FP32, are the slot's accumulators. -/
theorem macWrite_slotBits : (s.macWrite c slot res).slotBits c slot = res.map fun r => toFP32 r.1 := by
  have hlt : ∀ x ∈ res.map fun r => toFP32 r.1, x < 2 ^ (8 * 4) := fun x hx => by
    obtain ⟨r, -, rfl⟩ := List.mem_map.1 hx
    exact toFP32_lt _
  have hput := unpackCodes_rdNat_wr hs (slotKey c slot) hlt
  rw [List.length_map, hlen] at hput
  exact (slotBits_congr (mxFlags_sram _ c _) c slot).trans hput

theorem macWrite_count :
    (s.macWrite c slot res).cget c Reg.CORE_MX_GROUPS.COUNT = min (s.cget c Reg.CORE_MX_GROUPS.COUNT + 1) (2 ^ 48 - 1) := by
  have hflags := (putSlot_engine (c := c) (slot := slot) hs hlen).mono (List.nil_subset (mxFlagFs.map (coreFld c)))
    |>.thenMxFlags (c := c) (res.foldl (fun f r => f.or r.2) {}) (List.Subset.refl _)
  rw [← hflags.cget_eq (f := Reg.CORE_MX_GROUPS.COUNT) (apart_coreFlds (by decide))]
  exact State.cget_cbump_same hflags.ordered c Reg.CORE_MX_GROUPS.COUNT

end

/-! ### `MAC` -/

/-- A `MAC` before its groups: with INIT its slot is set to +0, and the engine is occupied (R98, R100, R102). -/
def State.macStart (s : State) (c : CoreRef) (m : MxSlot) (occ drain : Nat) : State :=
  (if m.init then s.initSlot c m.slot m.shape else s).mxOccupied c occ drain

theorem macStart_engine (hs : s.canonical = true) (c : CoreRef) (m : MxSlot) (occ drain : Nat) :
    s.Engine (s.macStart c m occ drain) ((mxFs m.slot).map (coreFld c)) (slotKey c m.slot) 8192 := by
  unfold State.macStart
  split
  · exact (initSlot_engine hs c m.slot m.shape).thenOccupied occ drain (occupied_mem c _)
  · exact (State.Engine.refl hs).thenOccupied occ drain (occupied_mem c _)

/-- What a `MAC` adds to: +0 with INIT, and the slot's accumulators otherwise (R98). -/
theorem macStart_slotBits (hs : s.canonical = true) (c : CoreRef) (m : MxSlot) (occ drain : Nat) :
    (s.macStart c m occ drain).slotBits c m.slot = if m.init then List.replicate 2048 0 else s.slotBits c m.slot := by
  unfold State.macStart
  split
  · exact initSlot_slotBits hs c m.slot m.shape
  · rfl

theorem macStart_clean (h : m.init = false → s.cleanRange (slotKey c m.slot) 8192) (occ drain : Nat) :
    (s.macStart c m occ drain).cleanRange (slotKey c m.slot) 8192 := by
  unfold State.macStart
  split
  · exact initSlot_clean s c m.slot m.shape
  case isFalse hi => exact h (Bool.eq_false_iff.2 hi)

theorem cget_macStart_occ (hs : s.canonical = true) (c : CoreRef) (m : MxSlot) {occ : Nat} (hocc : occ < 2 ^ 8) (drain : Nat) :
    (s.macStart c m occ drain).cget c Reg.CORE_MX_STATUS.OCC_LEFT = occ := by
  unfold State.macStart
  split
  · exact cget_mxOccupied (initSlot_engine hs c m.slot m.shape).ordered c hocc drain
  · exact cget_mxOccupied (State.canonical_fld hs) c hocc drain

/-- The operands lie outside the slot, so a `MAC` reads them as they were. -/
theorem State.Engine.macReads {es : List (Nat × Fld)} (h : s.Engine t es (slotKey c m.slot) 8192) (hs : s.canonical = true) (ha : m.aaddr < 1024)
    (hb : m.baddr < 2048) (hr : s.MacReads c m a b) : t.MacReads c m a b ∧ t.macRows c m a = s.macRows c m a ∧ t.macCols c m b = s.macCols c m b := by
  have hna : shapeM m.shape * (groupBytes a + a.sideBytes) ≤ 32 * 256 := Nat.mul_le_mul (shapeM_le _) (lineBytes_le a)
  have hnb : shapeN m.shape * (groupBytes b + b.sideBytes) ≤ 256 * 256 := Nat.mul_le_mul (shapeN_le _) (lineBytes_le b)
  have hka : coreKey c Mem.OPA (m.aaddr * 64) = coreKey c 0 0 + (2 ^ 25 + m.aaddr * 64) := by unfold coreKey sramKey Mem.OPA; omega
  have hkb : coreKey c Mem.OPB (m.baddr * 64) = coreKey c 0 0 + (2 ^ 26 + m.baddr * 64) := by unfold coreKey sramKey Mem.OPB; omega
  have hslot := slotKey_eq c m.slot
  have hrows : t.macRows c m a = s.macRows c m a := by unfold State.macRows; rw [h.rd_other hs (by omega)]
  have hcols : t.macCols c m b = s.macCols c m b := by unfold State.macCols; rw [h.rd_other hs (by omega)]
  exact ⟨⟨h.clean _ _ hr.cleanA, h.clean _ _ hr.cleanB, by rw [hrows, hcols]; exact hr.wellFormed⟩, hrows, hcols⟩

/-- What a `MAC` of one group leaves (R98–R109). -/
structure State.MacDone (s d : State) (c : CoreRef) (m : MxSlot) (a b : Fmt) (cyc : Nat) : Prop where
  engine : s.Engine d ((Reg.CORE_MX_GROUPS.COUNT :: mxFs m.slot).map (coreFld c)) (slotKey c m.slot) 8192
  sums : d.slotBits c m.slot = (macSums (if m.init then List.replicate 2048 0 else s.slotBits c m.slot)
    (macTerms (a.bits = 16) (s.macRows c m a) (s.macCols c m b))).map fun r => toFP32 r.1
  occ : d.cget c Reg.CORE_MX_STATUS.OCC_LEFT = cyc
  count : d.cget c Reg.CORE_MX_GROUPS.COUNT = min (s.cget c Reg.CORE_MX_GROUPS.COUNT + 1) (2 ^ 48 - 1)

/-- The count of groups stands apart from the fields of a slot. -/
theorem groups_pos : ∀ slot < 64, ∀ f ∈ mxFs slot, Reg.CORE_MX_GROUPS.COUNT.pos ≠ f.pos := by decide

theorem mxMac_done (hs : s.canonical = true) (ha : Fmt.ofCode m.afmt = some a) (hb : Fmt.ofCode m.bfmt = some b) {cyc : Nat}
    (hcyc : pairCycles a b = some cyc) (hlt : cyc < 2 ^ 8) (hkg : m.kg = 0) (hm : m.slot < 64 ∧ m.aaddr < 1024 ∧ m.baddr < 2048)
    (hr : s.MacReads c m a b) (hclean : m.init = false → s.cleanRange (slotKey c m.slot) 8192) (addr : Nat) :
    s.MacDone (s.mxMac c m addr) c m a b cyc := by
  obtain ⟨hslot, haddr, hbaddr⟩ := hm
  have hstart := macStart_engine hs c m cyc ((macHalves m a b).getD 0)
  obtain ⟨hreads, hrows, hcols⟩ := hstart.macReads hs haddr hbaddr hr
  have hgroup := macGroup_eq hreads (macStart_clean hclean cyc ((macHalves m a b).getD 0)) addr
  have hold := macStart_slotBits hs c m cyc ((macHalves m a b).getD 0)
  have hocc := cget_macStart_occ hs c m hlt ((macHalves m a b).getD 0)
  rw [hold, hrows, hcols] at hgroup
  have hmac : s.mxMac c m addr = ((s.macStart c m cyc ((macHalves m a b).getD 0)).macGroup c m a b addr 0).1 := by
    have hstarted : s.mxMac c m addr = (s.macStart c m ((m.kg + 1) * (pairCycles a b).getD 0) ((macHalves m a b).getD 0)).macGroups c m a b addr
        (List.range (m.kg + 1)) := by
      unfold State.mxMac
      rw [ha, hb]
      rfl
    rw [hstarted, hkg, hcyc, Nat.zero_add, Nat.one_mul, Option.getD_some, List.range_one, State.macGroups, hgroup]
    rfl
  rw [hmac, hgroup]
  have hlen : (macSums (if m.init then List.replicate 2048 0 else s.slotBits c m.slot)
      (macTerms (a.bits = 16) (s.macRows c m a) (s.macCols c m b))).length = 2048 := by
    rw [macSums, List.length_map, List.length_zip, length_macTerms]
    split <;> simp only [List.length_replicate, length_slotBits, Nat.min_self]
  have hwrite := macWrite_engine (c := c) (slot := m.slot) hstart.canonical hlen
  exact {
    engine := (hstart.mono (List.subset_cons_self _ _)).trans (hwrite.mono (List.cons_subset_cons _ (flags_mem c _)))
    sums := macWrite_slotBits hstart.canonical hlen
    occ := (hwrite.cget_eq (apart_coreFlds (by decide))).trans hocc
    count := by rw [macWrite_count hstart.canonical hlen, hstart.cget_eq (apart_coreFlds (groups_pos m.slot hslot))] }

end Sys2Proof.Machine
end

section
/-! PROOFS. `EMIT` and `SPILL` (R103, R113, R114, R116). -/

namespace Sys2Proof.Machine

variable {s t u : State} {c : CoreRef} {v k n slot : Nat} {m : MxSlot}

/-! ### What both read -/

/-- An operation reads its slot, and the wide buffer if it adds to it, without poison. -/
structure State.SlotReads (s : State) (c : CoreRef) (m : MxSlot) (wide : Bool) : Prop where
  slot : s.cleanRange (slotKey c m.slot) 8192
  unpoisoned : s.cget c (Reg.CORE_MX_SLOT_POISON.POISON m.slot) = 0
  wide : wide = true → s.cleanRange (wideKey c m.wide) 16384

theorem State.SlotReads.cflag {wide : Bool} (h : s.SlotReads c m wide) : s.cflag c (Reg.CORE_MX_SLOT_POISON.POISON m.slot) = false :=
  (State.cflag_false_iff s c (Reg.CORE_MX_SLOT_POISON.POISON m.slot) rfl).2 h.unpoisoned

/-- The slot is set to +0 with POISON 0 (R103, R113). -/
def State.clearSlot (s : State) (c : CoreRef) (slot : Nat) : State := (s.zeroAcc c slot).cset c (Reg.CORE_MX_SLOT_POISON.POISON slot) false

theorem clearSlot_engine (hs : s.canonical = true) (c : CoreRef) (slot : Nat) :
    s.Engine (s.clearSlot c slot) ((mxFs slot).map (coreFld c)) (slotKey c slot) 8192 :=
  ((State.Engine.refl hs).thenZeroAcc le_rfl le_rfl).thenCset false (mem_mxFs c (by simp [mxFs]))

/-- The fields that count operations and entries stand apart from those of a slot. -/
theorem counts_pos : ∀ slot < 64, ∀ g ∈ mxCounts, ∀ f ∈ mxFs slot, g.pos ≠ f.pos := by decide

/-! ### `EMIT` -/

/-- The entry that an `EMIT` fills (R116). -/
def State.ftqTail (s : State) (c : CoreRef) : Nat := (s.cget c Core.FTQ_HEAD + s.cget c Reg.CORE_MX_STATUS.FTQ_COUNT) % 8

/-- The values that an `EMIT` takes, with the status bits that they set: the slot's, or under MERGE their sums with the wide buffer's, rounded
once (R114). -/
def State.emitVals (s : State) (c : CoreRef) (m : MxSlot) : List (Nat × MxFlags) :=
  if m.merge then
    ((s.slotBits c m.slot).zip (s.wideBits c m.wide)).map fun p =>
      let r := round32 ((ofFP32 p.1).isNan || (ofFP64 p.2).isNan) ((ofFP64 p.2).add (ofFP32 p.1))
      (toFP32 r.1, r.2)
  else (s.slotBits c m.slot).map fun b => (b, {})

/-- What follows the values of an entry without poison (R116). -/
def State.emitTrailer (s : State) (c : CoreRef) (m : MxSlot) : List Byte :=
  [BitVec.ofNat 8 (s.slotShape c m.slot), BitVec.ofNat 8 m.tag, BitVec.ofNat 8 (if m.merge then 2 else 0), BitVec.ofNat 8 m.slot, 0, 0, 0, 0]

/-- The bytes of the entry. -/
def State.emitEntry (s : State) (c : CoreRef) (m : MxSlot) : List Byte := bytes32 ((s.emitVals c m).map (·.1)) ++ s.emitTrailer c m

/-- An `EMIT` sets its status bits, and is counted with its entry (R118). -/
def State.emitCount (s : State) (c : CoreRef) (f : MxFlags) : State :=
  ((s.mxFlags c f).cput c Reg.CORE_MX_STATUS.FTQ_COUNT ((s.mxFlags c f).cget c Reg.CORE_MX_STATUS.FTQ_COUNT + 1)).cbump c Reg.CORE_MX_EMITS.EMITS

/-- An `EMIT` before it occupies the engine. -/
def State.emitted (s : State) (c : CoreRef) (m : MxSlot) : State :=
  let t := (s.wr (ftqKey c (s.ftqTail c)) (s.emitEntry c m)).emitCount c ((s.emitVals c m).foldl (fun f r => f.or r.2) {})
  if m.init then t.clearSlot c m.slot else t

/-- The uses that an `EMIT` makes after its cycle of issue (R113, R116). -/
def emitUses (m : MxSlot) : List (Nat × Flight) :=
  (32, .ftqEntry) :: if m.merge then (List.range 16).map fun j => (14 + j, .spRead (wideLines m.wide j)) else []

/-- `EMIT` of values without poison. -/
theorem mxEmit_eq (h : s.SlotReads c m m.merge) : s.mxEmit c m = ((s.emitted c m).mxOccupied c 16 0).addFlights c (emitUses m) := by
  have hwide : (m.merge && s.rangePoison (wideKey c m.wide) 16384) = false := by
    cases hm : m.merge with
    | false => rfl
    | true => rw [(h.wide hm).rangePoison]; rfl
  have hread : (if m.merge then s.operandRead c (wideKey c m.wide) 16384 else s) = s := by
    split
    case isTrue hm => exact (h.wide hm).operandRead c
    case isFalse => rfl
  simp only [State.mxEmit, h.slot.readSlot, hwide, hread, h.cflag, Bool.or_false, Bool.false_eq_true, if_false, Nat.zero_add]
  rfl

theorem length_emitVals (s : State) (c : CoreRef) (m : MxSlot) : (s.emitVals c m).length = 2048 := by
  unfold State.emitVals
  split
  · rw [List.length_map, List.length_zip, length_slotBits, length_wideBits, Nat.min_self]
  · rw [List.length_map, length_slotBits]

theorem emitVals_lt (s : State) (c : CoreRef) (m : MxSlot) : ∀ x ∈ (s.emitVals c m).map (·.1), x < 2 ^ (8 * 4) := by
  intro x hx
  obtain ⟨r, hr, rfl⟩ := List.mem_map.1 hx
  unfold State.emitVals at hr
  split at hr
  · obtain ⟨p, -, rfl⟩ := List.mem_map.1 hr
    exact toFP32_lt _
  · obtain ⟨b, hb, rfl⟩ := List.mem_map.1 hr
    exact unpackCodes_lt hb

theorem length_emitEntry (s : State) (c : CoreRef) (m : MxSlot) : (s.emitEntry c m).length = 8200 := by
  rw [State.emitEntry, List.length_append, bytes32, length_flatMap_leBytes, List.length_map, length_emitVals]
  rfl

theorem emitCount_engine (hs : s.canonical = true) (c : CoreRef) (f : MxFlags) :
    s.Engine (s.emitCount c f) ((Reg.CORE_MX_STATUS.FTQ_COUNT :: Reg.CORE_MX_EMITS.EMITS :: mxFlagFs).map (coreFld c)) k 0 :=
  (((State.Engine.refl hs).thenMxFlags (c := c) f (by simp)).thenCput (c := c) _ (by simp)).thenCput (c := c) _ (by simp)

theorem emitCount_ftq (hs : s.canonical = true) (c : CoreRef) (f : MxFlags) (h : s.cget c Reg.CORE_MX_STATUS.FTQ_COUNT < 8) :
    (s.emitCount c f).cget c Reg.CORE_MX_STATUS.FTQ_COUNT = s.cget c Reg.CORE_MX_STATUS.FTQ_COUNT + 1 := by
  have hflags := (State.Engine.refl (k := 0) (n := 0) hs).thenMxFlags (c := c) f (List.Subset.refl _)
  have hput := State.cput_rising hflags.ordered c Reg.CORE_MX_STATUS.FTQ_COUNT ((s.mxFlags c f).cget c Reg.CORE_MX_STATUS.FTQ_COUNT + 1)
  have hsame : (s.mxFlags c f).cget c Reg.CORE_MX_STATUS.FTQ_COUNT = s.cget c Reg.CORE_MX_STATUS.FTQ_COUNT :=
    hflags.cget_eq (apart_coreFlds (by decide))
  refine (State.cget_cput_other hput c (by decide) _).trans (Eq.trans (State.cget_cput_of_lt hflags.ordered c _ ?_) (by rw [hsame]))
  rw [hsame]
  exact show _ < 2 ^ 4 by omega

/-- What an `EMIT` leaves (R103, R114, R116). -/
structure State.EmitDone (s d : State) (c : CoreRef) (m : MxSlot) : Prop where
  engine : s.Engine d ((Reg.CORE_MX_STATUS.FTQ_COUNT :: Reg.CORE_MX_EMITS.EMITS :: mxFs m.slot).map (coreFld c)) (coreKey c 0 0) (2 ^ 29)
  entry : d.rd (ftqKey c (s.ftqTail c)) 8200 = s.emitEntry c m
  bits : d.slotBits c m.slot = if m.init then List.replicate 2048 0 else s.slotBits c m.slot
  count : d.cget c Reg.CORE_MX_STATUS.FTQ_COUNT = s.cget c Reg.CORE_MX_STATUS.FTQ_COUNT + 1

theorem emitted_done (hs : s.canonical = true) (c : CoreRef) (m : MxSlot) (hslot : m.slot < 64)
    (hftq : s.cget c Reg.CORE_MX_STATUS.FTQ_COUNT < 8) : s.EmitDone (s.emitted c m) c m := by
  have htail : s.ftqTail c < 8 := Nat.mod_lt _ (by decide)
  have hslotKey := slotKey_eq c m.slot
  have hftqKey := ftqKey_eq c (s.ftqTail c)
  have hw : s.Engine (s.wr (ftqKey c (s.ftqTail c)) (s.emitEntry c m)) [] (ftqKey c (s.ftqTail c)) 8200 :=
    (State.Engine.refl hs).thenWr le_rfl (by rw [length_emitEntry])
  have hentry := rd_wr hs (ftqKey c (s.ftqTail c)) (s.emitEntry c m)
  rw [length_emitEntry] at hentry
  have hwcount : (s.wr (ftqKey c (s.ftqTail c)) (s.emitEntry c m)).cget c Reg.CORE_MX_STATUS.FTQ_COUNT = s.cget c Reg.CORE_MX_STATUS.FTQ_COUNT :=
    hw.cget_eq (by simp)
  have hcount := emitCount_engine (k := coreKey c 0 0) hw.canonical c ((s.emitVals c m).foldl (fun f r => f.or r.2) {})
  have hftq' := emitCount_ftq hw.canonical c ((s.emitVals c m).foldl (fun f r => f.or r.2) {}) (by rw [hwcount]; exact hftq)
  have hE := (hw.widen (k' := coreKey c 0 0) (n' := 2 ^ 29) (by omega) (by omega)).mono (List.nil_subset _) |>.trans (hcount.widen le_rfl (by omega))
  have hsame := hw.slotBits_other (slot := m.slot) (c := c) hs (by omega)
  have hentry' := (hcount.rd_other hw.canonical (.inr (by omega))).trans hentry
  have hbits := (hcount.slotBits_other (slot := m.slot) (c := c) hw.canonical (.inr (by omega))).trans hsame
  unfold State.emitted
  dsimp only
  generalize (s.wr (ftqKey c (s.ftqTail c)) (s.emitEntry c m)).emitCount c ((s.emitVals c m).foldl (fun f r => f.or r.2) {}) = t at *
  have hmem := List.map_subset (coreFld c) (List.cons_subset_cons Reg.CORE_MX_STATUS.FTQ_COUNT (List.cons_subset_cons Reg.CORE_MX_EMITS.EMITS
    (show mxFlagFs ⊆ mxFs m.slot by simp [mxFs, mxFlagFs])))
  split
  case isTrue hinit =>
    have hclear := clearSlot_engine hE.canonical c m.slot
    have hzero : (t.clearSlot c m.slot).slotBits c m.slot = List.replicate 2048 0 := slotBits_zeroAcc hE.canonical c m.slot
    exact {
      engine := (hE.mono hmem).trans ((hclear.widen (by omega) (by omega)).mono (by simp))
      entry := (hclear.rd_other hE.canonical (by omega)).trans hentry'
      bits := hzero.trans (if_pos hinit).symm
      count := (hclear.cget_eq (apart_coreFlds (counts_pos m.slot hslot _ (by decide)))).trans (hftq'.trans (by rw [hwcount])) }
  case isFalse hinit =>
    exact { engine := hE.mono hmem, entry := hentry', bits := hbits.trans (if_neg hinit).symm, count := hftq'.trans (by rw [hwcount]) }

/-- A byte of an entry's trailer. -/
theorem emitEntry_byte (s : State) (c : CoreRef) (m : MxSlot) {i : Nat} (hi : i < 8) :
    ((s.emitEntry c m).drop (8192 + i)).take 1 = [(s.emitTrailer c m).getD i 0] := by
  have hlen : (bytes32 ((s.emitVals c m).map (·.1))).length = 8192 := by rw [bytes32, length_flatMap_leBytes, List.length_map, length_emitVals]
  have hi' : i < (s.emitTrailer c m).length := hi
  rw [State.emitEntry, ← hlen, List.drop_length_add_append, List.drop_eq_getElem_cons hi', List.getD_eq_getElem _ _ hi']
  rfl

/-- The values of an entry. -/
theorem emitEntry_vals (s : State) (c : CoreRef) (m : MxSlot) :
    unpackCodes 32 2048 (leNat ((s.emitEntry c m).take 8192)) = (s.emitVals c m).map (·.1) := by
  have hlen : (bytes32 ((s.emitVals c m).map (·.1))).length = 8192 := by rw [bytes32, length_flatMap_leBytes, List.length_map, length_emitVals]
  have h := unpackCodes_leBytes (emitVals_lt s c m)
  rw [List.length_map, length_emitVals] at h
  rw [State.emitEntry, ← hlen, List.take_left']
  · exact h
  · rfl

/-! ### `SPILL` -/

/-- The value that a `SPILL` writes for an accumulator, with the status bits that it sets and its poison (R113). -/
def State.spillAt (s : State) (c : CoreRef) (m : MxSlot) (i : Nat) : Nat × MxFlags × Bool :=
  let a := ofFP32 ((s.slotBits c m.slot).getD i 0)
  if m.init then (toFP64 a, {}, false)
  else
    let w := ofFP64 ((s.wideBits c m.wide).getD i 0)
    let v := w.add a
    (toFP64 v, { overflow := (ffFP64.encode .rne false 0 v).2.overflow, invalid := v.isNan && !(a.isNan || w.isNan) },
      false || s.wordPoison ((wideKey c m.wide + 8 * i) / 8))

/-- The values that a `SPILL` writes. -/
def State.spillVals (s : State) (c : CoreRef) (m : MxSlot) : List Nat := (List.range 2048).map fun i => (s.spillAt c m i).1

/-- A `SPILL` before it occupies the engine. -/
def State.spilled (s : State) (c : CoreRef) (m : MxSlot) : State :=
  (((s.wr (wideKey c m.wide) ((s.spillVals c m).flatMap (leBytes 8))).mxFlags c
    (((List.range 2048).map (s.spillAt c m)).foldl (fun f r => f.or r.2.1) {})).clearSlot c m.slot).cbump c Reg.CORE_MX_EMITS.SPILLS

/-- The uses that a `SPILL` makes after its cycle of issue (R113). -/
def spillUses (m : MxSlot) : List (Nat × Flight) :=
  (List.range 16).flatMap fun j => [(14 + j, .spRead (wideLines m.wide j)), (16 + j, .spWrite (wideLines m.wide j))]

theorem spillAt_unpoisoned (h : s.SlotReads c m (!m.init)) {i : Nat} (hi : i < 2048) : (s.spillAt c m i).2.2 = false := by
  unfold State.spillAt
  dsimp only
  split
  · rfl
  case isFalse hinit => exact (h.wide (by simpa using hinit)).wordPoison (by decide) (by omega) (by omega)

/-- `SPILL` of values without poison. -/
theorem mxSpill_eq (h : s.SlotReads c m (!m.init)) : s.mxSpill c m = ((s.spilled c m).mxOccupied c 16 0).addFlights c (spillUses m) := by
  have hread : (if m.init then s else s.operandRead c (wideKey c m.wide) 16384) = s := by
    split
    · rfl
    case isFalse hinit => exact (h.wide (by simpa using hinit)).operandRead c
  have hbytes : (((List.range 2048).map (s.spillAt c m)).flatMap fun r => (leBytes 8 r.1).map fun b => (b, r.2.2))
      = ((s.spillVals c m).flatMap (leBytes 8)).map fun b => (b, false) := by
    rw [State.spillVals, List.flatMap_map, List.flatMap_map, List.map_flatMap]
    exact List.flatMap_congr fun i hi => by rw [spillAt_unpoisoned h (List.mem_range.1 hi)]
  have hwrite : s.engineWrite c (wideKey c m.wide) (((List.range 2048).map (s.spillAt c m)).flatMap fun r => (leBytes 8 r.1).map fun b => (b, r.2.2))
      = s.wr (wideKey c m.wide) ((s.spillVals c m).flatMap (leBytes 8)) := by
    rw [hbytes]
    exact engineWrite_noPoison (noPoison_map rfl) s c _
  unfold State.spillAt at hwrite
  simp only [State.mxSpill, h.slot.readSlot, hread, h.cflag, hwrite]
  rfl

theorem spillAt_val (s : State) (c : CoreRef) (m : MxSlot) (i : Nat) :
    (s.spillAt c m i).1 = if m.init then toFP64 (ofFP32 ((s.slotBits c m.slot).getD i 0))
      else toFP64 ((ofFP64 ((s.wideBits c m.wide).getD i 0)).add (ofFP32 ((s.slotBits c m.slot).getD i 0))) := by
  unfold State.spillAt
  by_cases hinit : m.init = true
  · rw [if_pos hinit, if_pos hinit]
  · rw [if_neg hinit, if_neg hinit]

/-- The values of a `SPILL`, as sums of the slot's with the wide buffer's (R113). -/
theorem spillVals_eq (s : State) (c : CoreRef) (m : MxSlot) :
    s.spillVals c m = ((s.slotBits c m.slot).zip (s.wideBits c m.wide)).map fun p =>
      if m.init then toFP64 (ofFP32 p.1) else toFP64 ((ofFP64 p.2).add (ofFP32 p.1)) := by
  have h1 := length_slotBits s c m.slot
  have h2 := length_wideBits s c m.wide
  refine List.ext_getElem (by simp [State.spillVals, h1, h2]) fun i hi hi' => ?_
  have hlt : i < 2048 := by simpa [State.spillVals] using hi
  simp only [State.spillVals, List.getElem_map, List.getElem_range, List.getElem_zip, spillAt_val, List.getD_eq_getElem _ _ (h1.symm ▸ hlt),
    List.getD_eq_getElem _ _ (h2.symm ▸ hlt)]

theorem length_spillVals (s : State) (c : CoreRef) (m : MxSlot) : (s.spillVals c m).length = 2048 := by simp [State.spillVals]

theorem spillVals_lt (s : State) (c : CoreRef) (m : MxSlot) : ∀ x ∈ s.spillVals c m, x < 2 ^ (8 * 8) := by
  intro x hx
  rw [spillVals_eq] at hx
  obtain ⟨p, -, rfl⟩ := List.mem_map.1 hx
  split <;> exact toFP64_lt _

/-- What a `SPILL` leaves (R113). -/
structure State.SpillDone (s d : State) (c : CoreRef) (m : MxSlot) : Prop where
  engine : s.Engine d ((Reg.CORE_MX_EMITS.SPILLS :: mxFs m.slot).map (coreFld c)) (coreKey c 0 0) (2 ^ 29)
  wide : d.wideBits c m.wide = s.spillVals c m
  bits : d.slotBits c m.slot = List.replicate 2048 0
  count : d.cget c Reg.CORE_MX_EMITS.SPILLS = min (s.cget c Reg.CORE_MX_EMITS.SPILLS + 1) (2 ^ 32 - 1)

theorem spilled_done (hs : s.canonical = true) (c : CoreRef) (m : MxSlot) (hslot : m.slot < 64) (hwide : m.wide < 128) :
    s.SpillDone (s.spilled c m) c m := by
  have hslotKey := slotKey_eq c m.slot
  have hwideKey := wideKey_eq c m.wide
  have hw : s.Engine (s.wr (wideKey c m.wide) ((s.spillVals c m).flatMap (leBytes 8))) ((mxFs m.slot).map (coreFld c)) (wideKey c m.wide) 16384 :=
    (State.Engine.refl hs).thenWr le_rfl (by rw [length_flatMap_leBytes, length_spillVals])
  have hvals := unpackCodes_rdNat_wr hs (wideKey c m.wide) (spillVals_lt s c m)
  rw [length_spillVals] at hvals
  have hflags := hw.thenMxFlags (((List.range 2048).map (s.spillAt c m)).foldl (fun f r => f.or r.2.1) {}) (flags_mem c m.slot)
  have hfwide : (State.mxFlags _ c _).wideBits c m.wide = s.spillVals c m :=
    (wideBits_congr (mxFlags_sram _ c (((List.range 2048).map (s.spillAt c m)).foldl (fun f r => f.or r.2.1) {})) c m.wide).trans hvals
  unfold State.spilled
  generalize (s.wr (wideKey c m.wide) ((s.spillVals c m).flatMap (leBytes 8))).mxFlags c
    (((List.range 2048).map (s.spillAt c m)).foldl (fun f r => f.or r.2.1) {}) = t at *
  have hclear := clearSlot_engine hflags.canonical c m.slot
  have hbits : (t.clearSlot c m.slot).slotBits c m.slot = List.replicate 2048 0 := slotBits_zeroAcc hflags.canonical c m.slot
  have hcwide := (hclear.wideBits_other hflags.canonical (w := m.wide) (by omega)).trans hfwide
  have hall := (hflags.widen (k' := coreKey c 0 0) (n' := 2 ^ 29) (by omega) (by omega)).trans (hclear.widen (by omega) (by omega))
  have hcount := hall.cget_eq (f := Reg.CORE_MX_EMITS.SPILLS) (apart_coreFlds (counts_pos m.slot hslot _ (by decide)))
  exact {
    engine := (hall.mono (by simp)).thenCput (c := c) _ (by simp)
    wide := hcwide
    bits := hbits
    count := by rw [← hcount]; exact State.cget_cbump_same hall.ordered c Reg.CORE_MX_EMITS.SPILLS }

end Sys2Proof.Machine
end

section
/-! PROOFS. The operations of the matrix engine (O21). -/

namespace Sys2Proof.Machine

variable {s u d : State} {c : CoreRef} {v op slot k n occ : Nat} {w : BitVec 64} {a b : Fmt} {fs : List Fld} {us : List (Nat × Flight)}

/-! ### The word of an operation -/

/-- A legal matrix slot's word runs its operation (R117). -/
theorem State.MxOp.runMx (hs : s.canonical = true) (hr : s.coreReady c)
    (hlegal : s.mxLegal c w op) (hop : op < 16) (h : s.MxOp d c (withField w.toNat 9 6 op) slot fs k n occ us) :
    ∃ u, s.runMx c w.toNat op = u ∧ s.MxRan u d c fs k n occ := by
  obtain ⟨hl, hst, hdy⟩ := hlegal
  have hlive := slotLive_withField hl (hi := 9) (lo := 6) (x := op) (by decide) (by decide) hop
  obtain ⟨u, hrun, hran⟩ := h.ran hs hr (passes_mx hlive hst hdy) hlive.2
  exact ⟨u, (runMx_eq s c w hop).trans hrun, hran⟩

/-- An `EMIT` that passes its checks finds room in the queue (R116, R117). -/
theorem ftqCount_lt (hop : (mxSlot v).op = 2) (h : mxDynamic s c v = []) : s.cget c Reg.CORE_MX_STATUS.FTQ_COUNT < 8 := by
  unfold mxDynamic at h
  dsimp only at h
  rw [hop, if_neg (by decide), List.append_eq_nil_iff, List.append_eq_nil_iff] at h
  have hroom := check_nil h.1.2
  omega

/-! ### The marks of the issue -/

/-- The marks of an issue leave the bookkeeping of the slots, and the queue's. -/
theorem slotFs_mark : ∀ slot < 64, ∀ f ∈ [Reg.CORE_MX_SLOT_POISON.POISON slot, Reg.CORE_MX_SLOT_SHAPE.SHAPE slot, Core.FTQ_HEAD] ++ mxCounts,
    ∀ g ∈ markFs, f.pos ≠ g.pos := by decide

theorem cget_mark (hs : s.canonical = true) (c : CoreRef) {slot : Nat} (hslot : slot < 64) {f : Fld}
    (hf : f ∈ [Reg.CORE_MX_SLOT_POISON.POISON slot, Reg.CORE_MX_SLOT_SHAPE.SHAPE slot, Core.FTQ_HEAD] ++ mxCounts) : (s.mark c).cget c f = s.cget c f :=
  (State.Issuing.mark (State.canonical_fld hs) c).cget_eq (apart_mark (slotFs_mark slot hslot f hf)) (by simp)

theorem mark_canonical (hs : s.canonical = true) (c : CoreRef) : (s.mark c).canonical = true :=
  (State.Engine.of_writes (k := 0) (n := 0) hs (State.Issuing.mark (State.canonical_fld hs) c).writes).canonical

/-! ### Counters and entries in the word's end state -/

theorem counts_cycle : ∀ f ∈ mxCounts, ∀ g ∈ Reg.CORE_SCHED_STATUS.ADDR :: mxCycleFs, f.pos ≠ g.pos := by decide
theorem counts_occupied : ∀ f ∈ mxCounts, ∀ g ∈ [Reg.CORE_MX_STATUS.OCC_LEFT, Reg.CORE_MX_STATUS.BUSY, Core.MX_DRAIN], f.pos ≠ g.pos := by decide

/-! ### The operations -/

/-- `ZERO` (R98). -/
theorem zeroSlot_runs (hs : s.canonical = true) (hr : s.coreReady c) (hlegal : s.mxLegal c w 4) :
    ∃ u, s.runMx c w.toNat 4 = u ∧ (∀ x ∈ u.slotBits c (mxSlot w.toNat).slot, x = 0) ∧ s.sameBytesBut u (slotKey c (mxSlot w.toNat).slot) 8192
      ∧ u.cget c (Reg.CORE_MX_SLOT_SHAPE.SHAPE (mxSlot w.toNat).slot) = (mxSlot w.toNat).shape
      ∧ u.cget c (Reg.CORE_MX_SLOT_POISON.POISON (mxSlot w.toNat).slot) = 0 ∧ u.cget c Reg.CORE_MX_STATUS.OCC_LEFT = 0
      ∧ s.coreGoesOn u c (s.wordAddr c + 1) (mxFlds c (mxSlot w.toNat).slot) := by
  have hslot := mxSlot_slot_lt w.toNat
  have hop : (mxSlot (withField w.toNat 9 6 4)).op = 4 := by rw [mxSlot_withField _ (by decide)]
  have h := mxZero_op hs c hop
  rw [mxSlot_withField _ (by decide)] at h
  obtain ⟨u, hrun, hran⟩ := h.runMx hs hr hlegal (by decide)
  have hm := mark_canonical hs c
  have hi := initSlot_engine hm c (mxSlot w.toNat).slot (mxSlot w.toNat).shape
  have hocc := writes_mxOccupied hi.ordered c 1 0
  obtain ⟨hshape, hpoison⟩ := initSlot_fields (State.canonical_fld hm) c hslot (mxSlot_shape_lt w.toNat)
  have hbits : u.slotBits c (mxSlot w.toNat).slot = List.replicate 2048 0 :=
    (slotBits_congr hran.sram c _).trans (initSlot_slotBits hm c _ (mxSlot w.toNat).shape)
  have hfield (f : Fld) (hf : f ∈ [Reg.CORE_MX_SLOT_POISON.POISON (mxSlot w.toNat).slot, Reg.CORE_MX_SLOT_SHAPE.SHAPE (mxSlot w.toNat).slot]) :
      u.cget c f = ((s.mark c).initSlot c (mxSlot w.toNat).slot (mxSlot w.toNat).shape).cget c f :=
    (hran.kept f fun g hg => slotFs_pos _ hslot f hf g (List.mem_cons_of_mem _ hg)).trans (hocc.cget_eq (apart_coreFlds fun g hg =>
      slotFs_pos _ hslot f hf g ((by decide : [Reg.CORE_MX_STATUS.OCC_LEFT, Reg.CORE_MX_STATUS.BUSY, Core.MX_DRAIN]
        ⊆ Core.MX_DRAIN :: Reg.CORE_SCHED_STATUS.ADDR :: mxCycleFs) hg)))
  exact ⟨u, hrun, fun x hx => List.eq_of_mem_replicate (hbits ▸ hx), hran.bytes, (hfield _ (by simp)).trans hshape, (hfield _ (by simp)).trans hpoison,
    hran.occ, hran.goesOn⟩

/-- The permitted pairs occupy the engine for 16, 32 or 64 cycles (R93). -/
theorem pairCycles_bounds {cyc : Nat} (h : pairCycles a b = some cyc) : cyc ≠ 0 ∧ cyc ≤ 64 := by
  unfold pairCycles at h
  split_ifs at h <;> cases h <;> omega

/-- `MAC` of one group (R98, R100, R104–R109). -/
theorem mac_runs (hs : s.canonical = true) (hr : s.coreReady c) (hlegal : s.mxLegal c w 1) {cyc : Nat}
    (ha : Fmt.ofCode (mxSlot w.toNat).afmt = some a) (hb : Fmt.ofCode (mxSlot w.toNat).bfmt = some b) (hcyc : pairCycles a b = some cyc)
    (hkg : (mxSlot w.toNat).kg = 0) (hreads : s.MacReads c (mxSlot w.toNat) a b)
    (hclean : (mxSlot w.toNat).init = false → s.cleanRange (slotKey c (mxSlot w.toNat).slot) 8192) :
    ∃ u, s.runMx c w.toNat 1 = u
      ∧ u.slotBits c (mxSlot w.toNat).slot = (macSums (if (mxSlot w.toNat).init then List.replicate 2048 0 else s.slotBits c (mxSlot w.toNat).slot)
          (macTerms (a.bits = 16) (s.macRows c (mxSlot w.toNat) a) (s.macCols c (mxSlot w.toNat) b))).map (fun r => toFP32 r.1)
      ∧ s.sameBytesBut u (slotKey c (mxSlot w.toNat).slot) 8192 ∧ u.cget c Reg.CORE_MX_STATUS.OCC_LEFT = cyc - 1
      ∧ u.cget c Reg.CORE_MX_GROUPS.COUNT = min (s.cget c Reg.CORE_MX_GROUPS.COUNT + 1) (2 ^ 48 - 1)
      ∧ s.coreGoesOn u c (s.wordAddr c + 1) (coreFld c Reg.CORE_MX_GROUPS.COUNT :: mxFlds c (mxSlot w.toNat).slot) := by
  have hslot := mxSlot_slot_lt w.toNat
  obtain ⟨hpos, hle⟩ := pairCycles_bounds hcyc
  have hreads' : (s.mark c).MacReads c { mxSlot w.toNat with op := 1 } a b := ⟨hreads.cleanA, hreads.cleanB, hreads.wellFormed⟩
  have hd := mxMac_done (m := { mxSlot w.toNat with op := 1 }) (mark_canonical hs c) ha hb hcyc (by omega) hkg
    ⟨hslot, mxSlot_aaddr_lt _, mxSlot_baddr_lt _⟩ hreads' hclean (s.wordAddr c)
  have h : s.MxOp ((s.mark c).mxMac c { mxSlot w.toNat with op := 1 } (s.wordAddr c)) c (withField w.toNat 9 6 1) (mxSlot w.toNat).slot
      (Reg.CORE_MX_GROUPS.COUNT :: mxFs (mxSlot w.toNat).slot) (slotKey c (mxSlot w.toNat).slot) 8192 cyc [] :=
    { issue := by rw [mxIssue_mac (by rw [mxSlot_withField _ (by decide)]), mxSlot_withField _ (by decide), addFlights_nil]
      engine := hd.engine
      slot_lt := hslot
      listed := List.cons_subset.2 ⟨by simp [mxCounts], List.subset_append_right _ _⟩
      occupies := by simp [mxFs]
      occ_eq := hd.occ
      occ_pos := hpos
      later := by simp }
  obtain ⟨u, hrun, hran⟩ := h.runMx hs hr hlegal (by decide)
  have hcount := (hran.kept Reg.CORE_MX_GROUPS.COUNT (by decide)).trans hd.count
  rw [cget_mark hs c hslot (by simp [mxCounts])] at hcount
  exact ⟨u, hrun, (slotBits_congr hran.sram c _).trans hd.sums, hran.bytes, hran.occ, hcount, hran.goesOn⟩

/-- The slot as the issue's marks leave it. -/
theorem State.SlotReads.mark (hs : s.canonical = true) {m : MxSlot} (hslot : m.slot < 64) {wide : Bool} (h : s.SlotReads c m wide) :
    (s.mark c).SlotReads c m wide :=
  ⟨h.slot, (cget_mark hs c hslot (by simp)).trans h.unpoisoned, h.wide⟩

/-- What is read does not turn on the operation. -/
theorem State.SlotReads.withOp {m : MxSlot} {wide : Bool} (h : s.SlotReads c m wide) (op : Nat) : s.SlotReads c { m with op := op } wide :=
  ⟨h.slot, h.unpoisoned, h.wide⟩

/-- An entry is filled from what the issue's marks leave. -/
theorem emitEntry_mark (hs : s.canonical = true) (m : MxSlot) (hslot : m.slot < 64) (op : Nat) :
    (s.mark c).ftqTail c = s.ftqTail c ∧ (s.mark c).emitEntry c { m with op := op } = s.emitEntry c m := by
  have hshape : (s.mark c).slotShape c m.slot = s.slotShape c m.slot := cget_mark hs c hslot (by simp)
  refine ⟨?_, ?_⟩
  · unfold State.ftqTail
    rw [cget_mark hs c hslot (by simp), cget_mark hs c hslot (by simp [mxCounts])]
  · have hvals : (s.mark c).emitVals c { m with op := op } = s.emitVals c m := rfl
    unfold State.emitEntry State.emitTrailer
    rw [hvals, hshape]

/-- A `SPILL` writes from what the issue's marks leave. -/
theorem spillVals_mark (m : MxSlot) (op : Nat) : (s.mark c).spillVals c { m with op := op } = s.spillVals c m := by
  rw [spillVals_eq, spillVals_eq]
  rfl

theorem emitUses_later (m : MxSlot) : ∀ p ∈ emitUses m, p.1 ≠ 0 := by
  intro p hp
  unfold emitUses at hp
  split at hp
  · rcases List.mem_cons.1 hp with rfl | hp
    · decide
    · obtain ⟨j, -, rfl⟩ := List.mem_map.1 hp
      exact show 14 + j ≠ 0 by omega
  · rw [List.mem_singleton.1 hp]
    decide

theorem spillUses_later (m : MxSlot) : ∀ p ∈ spillUses m, p.1 ≠ 0 := by
  intro p hp
  obtain ⟨j, -, hp⟩ := List.mem_flatMap.1 hp
  rcases List.mem_cons.1 hp with rfl | hp
  · exact show 14 + j ≠ 0 by omega
  · rw [List.mem_singleton.1 hp]
    exact show 16 + j ≠ 0 by omega

/-- An operation of 16 cycles on a slot that has written `d`, once it occupies the engine. -/
theorem occupied_op (hd : (s.mark c).Engine d ((fs ++ mxFs slot).map (coreFld c)) k n) (hfs : fs ⊆ mxCounts) (hslot : slot < 64)
    (hissue : (s.mark c).mxIssue c v (s.wordAddr c) = (d.mxOccupied c 16 0).addFlights c us) (hus : ∀ p ∈ us, p.1 ≠ 0) :
    s.MxOp (d.mxOccupied c 16 0) c v slot (fs ++ mxFs slot) k n 16 us where
  issue := hissue
  engine := hd.thenOccupied 16 0 (List.map_subset _ (by simp [mxFs]))
  slot_lt := hslot
  listed := List.append_subset.2 ⟨List.Subset.trans hfs (List.subset_append_left _ _), List.subset_append_right _ _⟩
  occupies := by simp [mxFs]
  occ_eq := cget_mxOccupied hd.ordered c (by decide) 0
  occ_pos := by decide
  later := hus

/-- The memories after the word of an operation that left `d`. -/
theorem State.MxRan.sram_occupied (h : s.MxRan u (d.mxOccupied c 16 0) c fs k n occ) : u.sram = d.sram := h.sram

/-- A counter of the operations after the word of an operation that left `d`. -/
theorem State.MxRan.cget_count (h : s.MxRan u (d.mxOccupied c 16 0) c fs k n occ) (hd : risingFrom 0 d.fld = true) {f : Fld} (hf : f ∈ mxCounts) :
    u.cget c f = d.cget c f :=
  (h.kept f (counts_cycle f hf)).trans ((writes_mxOccupied hd c 16 0).cget_eq (apart_coreFlds (counts_occupied f hf)))

/-- `EMIT` (R103, R114, R116): the entry at the queue's tail is filled. -/
theorem emit_runs (hs : s.canonical = true) (hr : s.coreReady c) (hlegal : s.mxLegal c w 2)
    (hreads : s.SlotReads c (mxSlot w.toNat) (mxSlot w.toNat).merge) :
    ∃ u, s.runMx c w.toNat 2 = u ∧ u.canonical = true ∧ u.rd (ftqKey c (s.ftqTail c)) 8200 = s.emitEntry c (mxSlot w.toNat)
      ∧ u.slotBits c (mxSlot w.toNat).slot = (if (mxSlot w.toNat).init then List.replicate 2048 0 else s.slotBits c (mxSlot w.toNat).slot)
      ∧ u.cget c Reg.CORE_MX_STATUS.FTQ_COUNT = s.cget c Reg.CORE_MX_STATUS.FTQ_COUNT + 1
      ∧ u.cget c Reg.CORE_MX_STATUS.OCC_LEFT = 15
      ∧ s.coreGoesOn u c (s.wordAddr c + 1)
          (coreFld c Reg.CORE_MX_STATUS.FTQ_COUNT :: coreFld c Reg.CORE_MX_EMITS.EMITS :: mxFlds c (mxSlot w.toNat).slot) := by
  have hslot := mxSlot_slot_lt w.toNat
  have hmark : (s.mark c).SlotReads c { mxSlot w.toNat with op := 2 } (mxSlot w.toNat).merge := (hreads.mark hs hslot).withOp 2
  obtain ⟨htail, hentry⟩ := emitEntry_mark (c := c) hs (mxSlot w.toNat) hslot 2
  have hftq : s.cget c Reg.CORE_MX_STATUS.FTQ_COUNT < 8 := ftqCount_lt (by rw [mxSlot_withField _ (by decide)]) hlegal.2.2
  have hcount := cget_mark hs c hslot (f := Reg.CORE_MX_STATUS.FTQ_COUNT) (by simp [mxCounts])
  have hd := emitted_done (mark_canonical hs c) c { mxSlot w.toNat with op := 2 } hslot (hcount ▸ hftq)
  have h := occupied_op (v := withField w.toNat 9 6 2) (fs := [Reg.CORE_MX_STATUS.FTQ_COUNT, Reg.CORE_MX_EMITS.EMITS]) hd.engine (by decide) hslot
    (by rw [mxIssue_emit (by rw [mxSlot_withField _ (by decide)]), mxSlot_withField _ (by decide), mxEmit_eq hmark]) (emitUses_later _)
  obtain ⟨u, hrun, hran⟩ := h.runMx hs hr hlegal (by decide)
  have hcounted := (hran.cget_count hd.engine.ordered (by simp [mxCounts])).trans hd.count
  have hrd : u.rd (ftqKey c (s.ftqTail c)) 8200 = ((s.mark c).emitted c { mxSlot w.toNat with op := 2 }).rd (ftqKey c (s.ftqTail c)) 8200 := by
    unfold State.rd
    rw [hran.sram_occupied]
  exact ⟨u, hrun, hran.canonical, hrd.trans ((htail ▸ hd.entry).trans hentry), (slotBits_congr hran.sram_occupied c _).trans hd.bits,
    hcounted.trans (by rw [hcount]), hran.occ, hran.goesOn⟩

/-- `SPILL` (R113). -/
theorem spill_runs (hs : s.canonical = true) (hr : s.coreReady c) (hlegal : s.mxLegal c w 3)
    (hreads : s.SlotReads c (mxSlot w.toNat) (!(mxSlot w.toNat).init)) :
    ∃ u, s.runMx c w.toNat 3 = u ∧ u.wideBits c (mxSlot w.toNat).wide = s.spillVals c (mxSlot w.toNat)
      ∧ u.slotBits c (mxSlot w.toNat).slot = List.replicate 2048 0 ∧ u.cget c Reg.CORE_MX_STATUS.OCC_LEFT = 15
      ∧ u.cget c Reg.CORE_MX_EMITS.SPILLS = min (s.cget c Reg.CORE_MX_EMITS.SPILLS + 1) (2 ^ 32 - 1)
      ∧ s.coreGoesOn u c (s.wordAddr c + 1) (coreFld c Reg.CORE_MX_EMITS.SPILLS :: mxFlds c (mxSlot w.toNat).slot) := by
  have hslot := mxSlot_slot_lt w.toNat
  have hmark : (s.mark c).SlotReads c { mxSlot w.toNat with op := 3 } (!(mxSlot w.toNat).init) := (hreads.mark hs hslot).withOp 3
  have hcount := cget_mark hs c hslot (f := Reg.CORE_MX_EMITS.SPILLS) (by simp [mxCounts])
  have hd := spilled_done (mark_canonical hs c) c { mxSlot w.toNat with op := 3 } hslot (mxSlot_wide_lt _)
  have h := occupied_op (v := withField w.toNat 9 6 3) (fs := [Reg.CORE_MX_EMITS.SPILLS]) hd.engine (by decide) hslot
    (by rw [mxIssue_spill (by rw [mxSlot_withField _ (by decide)]), mxSlot_withField _ (by decide), mxSpill_eq hmark]) (spillUses_later _)
  obtain ⟨u, hrun, hran⟩ := h.runMx hs hr hlegal (by decide)
  have hcounted := (hran.cget_count hd.engine.ordered (by simp [mxCounts])).trans hd.count
  have hwide : u.wideBits c (mxSlot w.toNat).wide = ((s.mark c).spilled c { mxSlot w.toNat with op := 3 }).wideBits c (mxSlot w.toNat).wide :=
    wideBits_congr hran.sram_occupied c _
  exact ⟨u, hrun, (hwide.trans hd.wide).trans (spillVals_mark _ 3), (slotBits_congr hran.sram_occupied c _).trans hd.bits,
    hran.occ, hcounted.trans (by rw [hcount]), hran.goesOn⟩

/-! ### What an entry reads -/

/-- A byte of an entry's trailer, read from the queue. -/
theorem leNat_trailer {u : State} (hu : u.canonical = true) {key : Nat} {m : MxSlot} (h : u.rd key 8200 = s.emitEntry c m) {i : Nat} (hi : i < 8) :
    leNat (u.rd (key + (8192 + i)) 1) = ((s.emitTrailer c m).getD i 0).toNat := by
  rw [← rd_drop_take hu (k := key) (show 8192 + i + 1 ≤ 8200 by omega), h, emitEntry_byte s c m hi]
  simp [leNat]

/-- The values of an entry, read from the queue. -/
theorem unpackCodes_entry {u : State} (hu : u.canonical = true) {key : Nat} {m : MxSlot} (h : u.rd key 8200 = s.emitEntry c m) :
    unpackCodes 32 2048 (u.rdNat key 8192) = (s.emitVals c m).map (·.1) := by
  have htake := rd_drop_take hu (k := key) (show 0 + 8192 ≤ 8200 by omega)
  rw [List.drop_zero, Nat.add_zero, h] at htake
  rw [State.rdNat, ← htake, emitEntry_vals]

/-- The value that is rounded does not turn on the status bits of its operands. -/
theorem emitVals_fst (s : State) (c : CoreRef) (m : MxSlot) :
    (s.emitVals c m).map (·.1) = if m.merge then ((s.slotBits c m.slot).zip (s.wideBits c m.wide)).map fun p =>
        toFP32 (round32 false ((ofFP64 p.2).add (ofFP32 p.1))).1
      else s.slotBits c m.slot := by
  unfold State.emitVals
  split
  · rw [List.map_map]
    rfl
  · rw [List.map_map]
    exact List.map_id _

theorem slotShape_lt (s : State) (c : CoreRef) (slot : Nat) : s.slotShape c slot < 4 := s.cget_lt c (Reg.CORE_MX_SLOT_SHAPE.SHAPE slot)

/-- The values of a `MAC` are the sums of its accumulators. -/
theorem macSums_fst (old : List Nat) (terms : List (List (FVal × MxFlags))) :
    (macSums old terms).map (fun r => toFP32 r.1) = (old.zip terms).map fun p => toFP32 (accumulate (ofFP32 p.1) p.2).1 := List.map_map

/-! ### O21 -/

/-- Settles O21: each operation is the word of its matrix slot alone, which leaves what the operation wrote and goes on with the next word. -/
theorem matrixOperationsWriteTheSlot : Obligations.MatrixOperationsWriteTheSlot := by
  unfold Obligations.MatrixOperationsWriteTheSlot
  refine ⟨fun s c w hs hr => ⟨fun hlegal => ?_, fun a b cyc ha hb hcyc hkg hlegal hA hB hslot hwell => ?_⟩,
    fun s c w hs hr hslot hpoison => ⟨fun hlegal hwide => ?_, fun hlegal hwide => ?_⟩⟩
  · obtain ⟨u, hrun, hu⟩ := zeroSlot_runs hs hr hlegal
    exact ⟨u, congrArg Host.Outcome.next hrun, hu⟩
  · obtain ⟨u, hrun, hsums, hu⟩ := mac_runs hs hr hlegal ha hb hcyc hkg ⟨hA, hB, hwell⟩ hslot
    exact ⟨u, congrArg Host.Outcome.next hrun, hsums.trans (macSums_fst _ _), hu⟩
  · obtain ⟨u, hrun, hcan, hentry, hbits, hu⟩ := emit_runs hs hr hlegal ⟨hslot, hpoison, hwide⟩
    have htag := mxSlot_tag_lt w.toNat
    have hshape := slotShape_lt s c (mxSlot w.toNat).slot
    refine ⟨u, congrArg Host.Outcome.next hrun, (unpackCodes_entry hcan hentry).trans (emitVals_fst s c _),
      (leNat_trailer hcan hentry (i := 0) (by decide)).trans ?_, (leNat_trailer hcan hentry (i := 1) (by decide)).trans ?_,
      (leNat_trailer hcan hentry (i := 2) (by decide)).trans ?_,
      fun hinit x hx => ?_, fun hinit => ?_, hu⟩
    · exact (BitVec.toNat_ofNat ..).trans (Nat.mod_eq_of_lt (by omega))
    · exact (BitVec.toNat_ofNat ..).trans (Nat.mod_eq_of_lt (by omega))
    · refine (BitVec.toNat_ofNat ..).trans (Nat.mod_eq_of_lt ?_)
      split <;> decide
    · rw [hbits, if_pos hinit] at hx
      exact List.eq_of_mem_replicate hx
    · rw [hbits, if_neg (by simp [hinit])]
  · obtain ⟨u, hrun, hvals, hbits, hu⟩ := spill_runs hs hr hlegal ⟨hslot, hpoison, fun h => hwide (by simpa using h)⟩
    exact ⟨u, congrArg Host.Outcome.next hrun, hvals.trans (spillVals_eq s c _), fun x hx => List.eq_of_mem_replicate (hbits ▸ hx), hu⟩

end Sys2Proof.Machine
end

section
/-! PROOFS. A debug read of a core that the panel does not have is refused (R118, R357): `CoreRef.wf` allows every site below 256, and only a
compute die has cores. -/

namespace Sys2Proof.Machine

/-- `retrainPanel` in debug mode: its host is at port 0, and the hub of stack 0 is alive. -/
def debugPanel : State := retrainPanel.put panelSite Reg.SEC_STATUS.DEBUG 1

/-- The header of the host's first `READ_CSR`. -/
def debugReadHdr : CmdHdr := { retrainHdr with opcode := Op.READ_CSR }

/-- Core 0 as a hub die would number it. -/
def hubCore : CoreRef := ⟨siteOfStack 0, 0⟩

theorem debugPanel_takes : debugPanel.takes debugReadHdr 16 := by
  unfold State.takes
  decide +kernel

/-- Nothing of what the statement asks of the core's state and die stands in the way. -/
theorem hubCore_readable :
    hubCore.wf = true ∧ debugPanel.debugMode = true ∧ debugPanel.reachable hubCore.site = true
      ∧ debugPanel.flag hubCore.site Reg.MESH_STATUS.LOCAL_FENCED = false ∧ debugPanel.cget hubCore Reg.CORE_SCHED_STATUS.STATE ≠ 1
      ∧ debugPanel.cget hubCore Reg.CORE_SCHED_STATUS.STATE ≠ 2
      ∧ wordsIn debugPanel.sramUpset (coreKey hubCore Mem.ACC (debugPanel.dbgPair hubCore)) 8 = [] := by
  decide +kernel

/-- The statuses of the replies that a step leaves. -/
def statusesAfter (o : Host.Outcome State Fault Refusal) : List Nat :=
  match o with
  | .next u => u.replies.map (·.status)
  | _ => []

/-- The read names a unit that the site does not have, and its one reply is BAD_PARAM. -/
theorem hubCore_refused : statusesAfter (exec (.dbgDataRead debugReadHdr hubCore) debugPanel) = [St.BAD_PARAM] := by
  decide +kernel

/-- Refutes O41: `hubCore` is a core reference of the hub die of stack 0, which has no cores. On `debugPanel` its debug read is answered BAD_PARAM,
where the statement's last clause wants OK. -/
theorem not_hostQueriesAnswer : ¬ Obligations.HostQueriesAnswer := by
  intro h
  obtain ⟨-, -, -, -, -, -, hread⟩ := h debugPanel debugReadHdr (by decide +kernel)
  obtain ⟨hwf, hmode, hreach, hfenced, h1, h2, hclean⟩ := hubCore_readable
  obtain ⟨u, hu, -, ⟨-, -, -, hreplies, -⟩, -⟩ := hread hubCore hwf debugPanel_takes hmode hreach hfenced h1 h2 hclean
  have hstatus := hubCore_refused
  have hnone : debugPanel.replies = [] := rfl
  rw [hu, statusesAfter, hreplies, hnone] at hstatus
  exact absurd hstatus (by decide)

end Sys2Proof.Machine
end

section
/-! PROOFS. The canonical form of a state, and what keeps it: changes of lists and messages, writes of registers and memories, and the shapes
in which the model puts operations together (R146, R165, R229, R233). The blocks after this one hold, for each operation of the model that
answers a state, the lemma of its name: it keeps the form because the operations it is made of do. -/

namespace Sys2Proof.Machine

variable {s t : State}

/-- The state is in the canonical form; `h.put`, `h.raise`, ... then say that an operation keeps it. -/
def State.Canonical (s : State) : Prop := s.canonical = true

/-- A change of nothing but lists, messages and buffers. -/
theorem State.Canonical.same {streamOut : List StreamMsg} {beats : List Beat} {flights : List EngineUse}
    {outstanding reissue : List FetchReq} {hubReqs : List HubReq} {hubReps : List HubRep} {hubRecords : List HubRecord}
    {dedup : List DedupWindow} {hubWaits : List HubWait} {txFlits : List TxFlit} {rxFlits : List RxFlit} {held : List HeldPacket}
    {meshWait delivered : List SitePacket} {mcasts : List Mcast} {replies stored : List Reply} {deferred immediates : List Deferred}
    {teamcasts : List Teamcast} {txFrames : List TxFrame} {rxFrames arrived : List RxFrame} {proxies : List ProxyEntry}
    {proxyWait : List (Nat × HubReq)} {portOut : List (Nat × PortMsg)} {windows : List Window} {timeout : Option TimeoutRun}
    {waitTimeouts : List TimeoutRun} {powerUps : List PowerUp} {substs : List Subst} {ownFences : List Nat} {snapshots : List Snapshot}
    {timeOut timeSteps : List TimeUpdate} {noticeBuf : List Notice} {noticeQueue pushes : List Queued} {fresh : Nat} {pending : List Instr}
    (h : s.Canonical) :
    ({ s with
      streamOut := streamOut, beats := beats, flights := flights, outstanding := outstanding, reissue := reissue, hubReqs := hubReqs,
      hubReps := hubReps, hubRecords := hubRecords, dedup := dedup, hubWaits := hubWaits, txFlits := txFlits, rxFlits := rxFlits,
      held := held, meshWait := meshWait, delivered := delivered, mcasts := mcasts, replies := replies, stored := stored,
      deferred := deferred, teamcasts := teamcasts, txFrames := txFrames, rxFrames := rxFrames, arrived := arrived, proxies := proxies,
      proxyWait := proxyWait, portOut := portOut, windows := windows, timeout := timeout, waitTimeouts := waitTimeouts,
      powerUps := powerUps, substs := substs, ownFences := ownFences, snapshots := snapshots, immediates := immediates, timeOut := timeOut,
      timeSteps := timeSteps, noticeBuf := noticeBuf, noticeQueue := noticeQueue, pushes := pushes,
      fresh := fresh, pending := pending } : State).Canonical := h

theorem State.Canonical.ite {p : Prop} {_ : Decidable p} (hs : s.Canonical) (ht : t.Canonical) : (if p then s else t).Canonical := by
  split <;> assumption

theorem State.Canonical.foldl {α : Type} {l : List α} {f : State → α → State} (h : s.Canonical)
    (hf : ∀ t x, t.Canonical → (f t x).Canonical) : (l.foldl f s).Canonical :=
  List.foldlRecOn l f h fun t ht x _ => hf t x ht

theorem State.Canonical.put {site : Nat} {f : Fld} {v : Nat} (h : s.Canonical) : (s.put site f v).Canonical := State.put_canonical _ _ _ _ h
theorem State.Canonical.unset {site : Nat} {f : Fld} (h : s.Canonical) : (s.unset site f).Canonical := State.unset_canonical _ _ h
theorem State.Canonical.clearFlds {site lo hi : Nat} (h : s.Canonical) : (s.clearFlds site lo hi).Canonical := State.clearFlds_canonical _ _ _ h

theorem State.Canonical.setQueue {q : CluRef} {n : Nat} {x : QueueSt} (h : s.Canonical) : (s.setQueue q n x).Canonical :=
  State.setQueue_canonical _ _ _ h

theorem State.Canonical.raise {n : Notice} (h : s.Canonical) : (s.raise n).Canonical := State.raise_canonical _ h
theorem State.Canonical.wrP {k : Nat} {bs : List (Byte × Bool)} (h : s.Canonical) : (s.wrP k bs).Canonical := State.wrP_canonical _ _ h
theorem State.Canonical.clearSram {lo hi : Nat} (h : s.Canonical) : (s.clearSram lo hi).Canonical := State.clearSram_canonical _ _ h
theorem State.Canonical.wipeDie {site : Nat} (h : s.Canonical) : (s.wipeDie site).Canonical := State.wipeDie_canonical _ h

theorem State.Canonical.copyMems {old new : Nat} {pools : Bool} (h : s.Canonical) : (s.copyMems old new pools).Canonical :=
  State.copyMems_canonical _ _ _ h

theorem State.Canonical.clearStack {stack : Nat} (h : s.Canonical) : (s.clearStack stack).Canonical := State.clearStack_canonical _ h
theorem State.Canonical.poisonSector {q : Nat} (h : s.Canonical) : (s.poisonSector q).Canonical := State.poisonSector_canonical _ h
theorem State.Canonical.readSectors {k n : Nat} (h : s.Canonical) : (s.readSectors k n).Canonical := State.readSectors_canonical _ _ h

theorem State.Canonical.hbmWrite {k : Nat} {bs : List (Byte × Bool)} (h : s.Canonical) : (s.hbmWrite k bs).Canonical :=
  State.hbmWrite_canonical _ _ h

theorem State.Canonical.patrolSector {q : Nat} (h : s.Canonical) : (s.patrolSector q).Canonical := State.patrolSector_canonical _ h

theorem State.Canonical.foldl_fst {α β : Type} {l : List α} {f : State × β → α → State × β} {p : State × β} (h : p.1.Canonical)
    (hf : ∀ p x, p.1.Canonical → (f p x).1.Canonical) : (l.foldl f p).1.Canonical :=
  List.foldlRecOn (motive := fun p => p.1.Canonical) l f h fun p hp x _ => hf p x hp

theorem State.Canonical.foldl_snd {α β : Type} {l : List α} {f : β × State → α → β × State} {p : β × State} (h : p.2.Canonical)
    (hf : ∀ p x, p.2.Canonical → (f p x).2.Canonical) : (l.foldl f p).2.Canonical :=
  List.foldlRecOn (motive := fun p => p.2.Canonical) l f h fun p hp x _ => hf p x hp

/-- What is found in a list, where all that can be found is canonical, and a state that is. -/
theorem State.Canonical.getD {o : Option State} (h : s.Canonical) (ho : ∀ t ∈ o, t.Canonical) : (o.getD s).Canonical := by
  cases o with
  | none => exact h
  | some t => exact ho t rfl

theorem State.Canonical.putIf {p : Prop} {_ : Decidable p} {site : Nat} {f : Fld} {v : Nat} (h : s.Canonical) :
    (if p then s.put site f v else s).Canonical := .ite h.put h

theorem State.Canonical.mk_fst {β : Type} {b : β} (h : s.Canonical) : (s, b).1.Canonical := h

theorem State.Canonical.mk_snd {β : Type} {b : β} (h : s.Canonical) : (b, s).2.Canonical := h

theorem State.Canonical.ite_snd {β : Type} {p : Prop} {_ : Decidable p} {a b : β × State} (ha : a.2.Canonical) (hb : b.2.Canonical) :
    (if p then a else b).2.Canonical := by
  split <;> assumption

theorem State.Canonical.fst_eq {β : Type} {p : State × β} {b : β} (h : p.1.Canonical) (e : p = (s, b)) : s.Canonical := by
  rw [e] at h
  exact h

theorem State.Canonical.snd_eq {β : Type} {p : β × State} {b : β} (h : p.2.Canonical) (e : p = (b, s)) : s.Canonical := by
  rw [e] at h
  exact h

/-- Entries that stay at their keys stay in order. -/
theorem rising_map {β : Type} {g : Nat × β → Nat × β} (hg : ∀ e, (g e).1 = e.1) {lo : Nat} {m : SMap β} (hm : risingFrom lo m = true) :
    risingFrom lo (m.map g) = true := by
  induction m generalizing lo with
  | nil => rfl
  | cons e m ih =>
    obtain ⟨h1, h2⟩ := rising_cons.1 hm
    have hge : g e = (e.1, (g e).2) := by rw [← hg e]
    rw [List.map_cons, hge]
    exact rising_cons.2 ⟨h1, ih h2⟩

/-- Registers in order, the other maps as they were. -/
theorem State.Canonical.withFld {m : SMap Nat} (h : s.Canonical) (hm : risingFrom 0 m = true) : ({ s with fld := m } : State).Canonical :=
  let ⟨_, hr⟩ := State.canonical_maps h
  State.canonical_of_maps ⟨hm, hr⟩

theorem State.Canonical.withQueues {m : SMap QueueSt} (h : s.Canonical) (hm : risingFrom 0 m = true) : ({ s with queues := m } : State).Canonical :=
  let ⟨hf, _, hr⟩ := State.canonical_maps h
  State.canonical_of_maps ⟨hf, hm, hr⟩

theorem State.Canonical.withFlash {m : List Host.Cell} (h : s.Canonical) (hm : mapWf 0 m = true) : ({ s with flash := m } : State).Canonical :=
  let ⟨hf, hq, hs, hh, _, hr⟩ := State.canonical_maps h
  State.canonical_of_maps ⟨hf, hq, hs, hh, hm, hr⟩

theorem State.Canonical.withBootBuf {m : List Host.Cell} (h : s.Canonical) (hm : mapWf 0 m = true) : ({ s with bootBuf := m } : State).Canonical :=
  let ⟨hf, hq, hs, hh, hl, _, hr⟩ := State.canonical_maps h
  State.canonical_of_maps ⟨hf, hq, hs, hh, hl, hm, hr⟩

theorem State.Canonical.withSramUpset {m : SMap Nat} (h : s.Canonical) (hm : mapWf 0 m = true) : ({ s with sramUpset := m } : State).Canonical :=
  let ⟨hf, hq, hs, hh, hl, hb, hp, _, hr⟩ := State.canonical_maps h
  State.canonical_of_maps ⟨hf, hq, hs, hh, hl, hb, hp, hm, hr⟩

theorem State.Canonical.withHbm {m : List Host.Cell} {p u : SMap Nat} (h : s.Canonical) (hm : mapWf 0 m = true) (hp : mapWf 0 p = true)
    (hu : mapWf 0 u = true) : ({ s with hbm := m, hbmPoison := p, hbmUpset := u } : State).Canonical :=
  let ⟨hf, hq, hs, _, hl, hb, hP, hU, _⟩ := State.canonical_maps h
  State.canonical_of_maps ⟨hf, hq, hs, hm, hl, hb, hP, hU, hp, hu⟩

theorem State.Canonical.queues_rising (h : s.Canonical) : risingFrom 0 s.queues = true := (State.canonical_maps h).2.1
theorem State.Canonical.sramUpset_wf (h : s.Canonical) : mapWf 0 s.sramUpset = true := (State.canonical_maps h).2.2.2.2.2.2.2.1
theorem State.Canonical.bootBuf_wf (h : s.Canonical) : mapWf 0 s.bootBuf = true := (State.canonical_maps h).2.2.2.2.2.1

/-- A command goes on only to canonical states. -/
def NextCanonical (o : Host.Outcome State Fault Refusal) : Prop := ∀ t, o = .next t → t.Canonical

theorem NextCanonical.next (h : t.Canonical) : NextCanonical (.next t) := by
  rintro _ ⟨⟩
  exact h

/-- A thread's instruction is done only with canonical states. -/
def FetchOut.DoneCanonical (o : FetchOut) : Prop := ∀ t next, o = .done t next → t.Canonical

theorem FetchOut.DoneCanonical.done {next : Int} (h : t.Canonical) : (FetchOut.done t next).DoneCanonical := by
  rintro _ _ ⟨⟩
  exact h

theorem FetchOut.DoneCanonical.fault {code : Nat} : (FetchOut.fault code).DoneCanonical := nofun

theorem FetchOut.DoneCanonical.wait : FetchOut.wait.DoneCanonical := nofun

theorem FetchOut.DoneCanonical.ite {p : Prop} {_ : Decidable p} {a b : FetchOut} (ha : a.DoneCanonical) (hb : b.DoneCanonical) :
    (if p then a else b).DoneCanonical := by
  split <;> assumption

end Sys2Proof.Machine
end

section
/-! PROOFS. Registers, memories, poison events and notices of a canonical state (R165, R166, R478). -/

namespace Sys2Proof.Machine

variable {s : State} {cause k mem n site : Nat} {f : Fld} {c : CoreRef}

theorem State.Canonical.bump (h : s.Canonical) : (s.bump site f n).Canonical := h.put
theorem State.Canonical.putFlag {b : Bool} (h : s.Canonical) : (s.putFlag site f b).Canonical := h.put
theorem State.Canonical.cput {v : Nat} (h : s.Canonical) : (s.cput c f v).Canonical := h.put
theorem State.Canonical.cbump (h : s.Canonical) : (s.cbump c f n).Canonical := h.bump
theorem State.Canonical.cset {b : Bool} (h : s.Canonical) : (s.cset c f b).Canonical := h.putFlag
theorem State.Canonical.qput {q : CluRef} {v : Nat} (h : s.Canonical) : (s.qput q f v).Canonical := h.put
theorem State.Canonical.qbump {q : CluRef} (h : s.Canonical) : (s.qbump q f n).Canonical := h.bump
theorem State.Canonical.notify {unit typ cls arg0 arg1 : Nat} (h : s.Canonical) : (s.notify site unit typ cls arg0 arg1).Canonical := h.raise
theorem State.Canonical.ifReleased {t : State} (h : s.Canonical) (ht : t.Canonical) : (s.ifReleased t).Canonical := .ite ht h

theorem State.Canonical.notifyCtl {typ cls : Nat} {squad : Option Nat} {arg0 arg1 : Nat} (h : s.Canonical) :
    (s.notifyCtl typ cls squad arg0 arg1).Canonical :=
  h.raise

theorem State.Canonical.noteCause {source : Nat} (h : s.Canonical) : (s.noteCause n cause source site).Canonical := .ite h.put.put.put h
theorem State.Canonical.setBit {i : Nat} (h : s.Canonical) : (s.setBit site f i).Canonical := h.put
theorem State.Canonical.clrBit {i : Nat} (h : s.Canonical) : (s.clrBit site f i).Canonical := .ite h.put h

theorem State.Canonical.driveLine {line source : Nat} (h : s.Canonical) : (s.driveLine line cause source site).Canonical :=
  h.setBit.foldl fun _ _ ht => ht.noteCause

theorem State.Canonical.whistle (h : s.Canonical) : (s.whistle site cause).Canonical := .ite h.driveLine h

theorem State.Canonical.poisonEvent {word : Nat} (h : s.Canonical) : (s.poisonEvent c mem word).Canonical := by
  unfold State.poisonEvent
  extract_lets s1
  have h1 : s1.Canonical := h.notify.cset
  split
  · exact h1.whistle
  · exact h1.cset
  · exact h1

theorem State.Canonical.wr {bs : List Byte} (h : s.Canonical) : (s.wr k bs).Canonical := h.wrP

theorem State.Canonical.logMem {core : Bool} {unit word kind syndrome : Nat} (h : s.Canonical) :
    (s.logMem core site unit mem word kind syndrome).Canonical :=
  .ite h h.putFlag.put.put.put.put

theorem State.Canonical.free (h : s.Canonical) : s.free.2.Canonical := h.same

theorem State.Canonical.coreCorrected (h : s.Canonical) : (s.coreCorrected c mem).Canonical := by
  unfold State.coreCorrected
  extract_lets s1 total thr
  have h1 : s1.Canonical := h.cbump.cbump
  exact .ite (h1.notify.foldl fun _ _ ht => ht.cput) h1

theorem State.Canonical.checkWord {w : Nat} (h : s.Canonical) : (s.checkWord w).Canonical := by
  unfold State.checkWord
  extract_lets k unit core
  split
  · exact h.free.logMem
  · split
    · exact .ite h.free.logMem.coreCorrected h.free.logMem.bump
    · exact h

theorem State.Canonical.checkRange (h : s.Canonical) : (s.checkRange k n).Canonical := h.foldl fun _ _ ht => ht.checkWord

theorem State.Canonical.operandRead (h : s.Canonical) : (s.operandRead c k n).Canonical := by
  unfold State.operandRead
  split
  · exact h.checkRange.poisonEvent
  · exact h.checkRange

theorem State.Canonical.pathRead (h : s.Canonical) : (s.pathRead c k n).Canonical := by
  unfold State.pathRead
  split
  · exact h.checkRange.poisonEvent
  · exact h.checkRange

theorem State.Canonical.logPoisonWrite (h : s.Canonical) : (s.logPoisonWrite c k).Canonical := h.logMem

theorem State.Canonical.engineWrite {bs : List (Byte × Bool)} (h : s.Canonical) : (s.engineWrite c k bs).Canonical := by
  unfold State.engineWrite
  extract_lets s1
  have h1 : s1.Canonical := h.wrP
  split
  · exact h1.logPoisonWrite
  · exact h1

theorem State.Canonical.addFlights {us : List (Nat × Flight)} (h : s.Canonical) : (s.addFlights c us).Canonical := h.same
theorem State.Canonical.ageFlights (h : s.Canonical) : (s.ageFlights c).Canonical := h.same.foldl fun _ _ ht => ht.cset

theorem State.Canonical.endFlights (h : s.Canonical) : (s.endFlights c).Canonical :=
  h.same.foldl fun _ _ ht => by
    split
    · exact ht.cset
    · exact ht

theorem State.Canonical.schedFault {code addr : Nat} (h : s.Canonical) : (s.schedFault c code addr).Canonical :=
  .ite h h.cput.cput.cput.cput.notify.whistle

theorem State.Canonical.addCounter {amount : Nat} (h : s.Canonical) : (s.addCounter c n amount).Canonical := .ite h.cput h.cput.cset.schedFault

end Sys2Proof.Machine
end

section
/-! PROOFS. The matrix and vector engines keep the canonical form (R98, R119). -/

namespace Sys2Proof.Machine

variable {s : State} {addr n slot : Nat} {d x : TDesc} {c : CoreRef} {m : MxSlot} {i : VInstr}

theorem State.Canonical.putSlot {xs : List Nat} (h : s.Canonical) : (s.putSlot c slot xs).Canonical := h.wr
theorem State.Canonical.zeroAcc (h : s.Canonical) : (s.zeroAcc c slot).Canonical := h.clearSram
theorem State.Canonical.mxFlags {f : MxFlags} (h : s.Canonical) : (s.mxFlags c f).Canonical := h.putIf.putIf.putIf
theorem State.Canonical.occupyMx (h : s.Canonical) : (s.occupyMx c n).Canonical := h.cput.cset

theorem State.Canonical.readSlot (h : s.Canonical) : (s.readSlot c slot).Canonical := by
  unfold State.readSlot
  extract_lets s1
  have h1 : s1.Canonical := h.pathRead
  exact .ite h1.cset h1

theorem State.Canonical.macGroup {a b : Fmt} {g : Nat} (h : s.Canonical) : (s.macGroup c m a b addr g).1.Canonical := by
  unfold State.macGroup
  extract_lets mm nn ka kb na nb rows cols poisoned s1
  have h1 : s1.Canonical := h.operandRead.operandRead
  split
  · exact h.schedFault
  · exact .cbump <| .mxFlags <| .putSlot <| .readSlot <| .ite h1.cset h1

theorem State.Canonical.macGroups {a b : Fmt} {gs : List Nat} (h : s.Canonical) : (s.macGroups c m a b addr gs).Canonical := by
  induction gs generalizing s with
  | nil => exact h
  | cons g gs ih =>
    unfold State.macGroups
    split
    next heq => exact ih (h.macGroup.fst_eq heq)
    next heq => exact h.macGroup.fst_eq heq

theorem State.Canonical.initSlot {shape : Nat} (h : s.Canonical) : (s.initSlot c slot shape).Canonical := h.zeroAcc.cset.cput

theorem State.Canonical.mxMac (h : s.Canonical) : (s.mxMac c m addr).Canonical := by
  unfold State.mxMac
  split
  · exact .macGroups <| .cput <| .occupyMx <| .ite h.initSlot h
  · exact h

theorem State.Canonical.mxEmit (h : s.Canonical) : (s.mxEmit c m).Canonical := by
  unfold State.mxEmit
  extract_lets s1 wideBad s2 poison vals i trailer s3 s4 s5 s6
  have h1 : s1.Canonical := h.readSlot
  have h2 : s2.Canonical := .ite h1.operandRead h1
  have h4 : s4.Canonical := h2.wr.mxFlags.cput.cbump
  have h5 : s5.Canonical := .ite h4.cset h4
  have h6 : s6.Canonical := .ite h5.zeroAcc.cset h5
  exact h6.occupyMx.cput.addFlights

theorem State.Canonical.mxSpill (h : s.Canonical) : (s.mxSpill c m).Canonical := by
  unfold State.mxSpill
  extract_lets s1 s2 poison acc olds rs s3 s4 s5
  have h1 : s1.Canonical := h.readSlot
  have h2 : s2.Canonical := .ite h1 h1.operandRead
  exact h2.engineWrite.mxFlags.zeroAcc.cset.cbump.occupyMx.cput.addFlights

theorem State.Canonical.mxZero (h : s.Canonical) : (s.mxZero c m).Canonical := h.initSlot.occupyMx.cput

theorem State.Canonical.mxIssue {v : Nat} (h : s.Canonical) : (s.mxIssue c v addr).Canonical := by
  unfold State.mxIssue
  extract_lets m
  split
  · exact h.mxMac
  · exact h.mxEmit
  · exact h.mxSpill
  · exact h.mxZero
  · exact h

theorem State.Canonical.chunkRead {row : Int} {p : Nat} (h : s.Canonical) : (s.chunkRead c d row p n).Canonical :=
  .ite h (.ite h.checkRange.poisonEvent (.ite h.operandRead.operandRead (.ite h.operandRead h.operandRead)))

theorem State.Canonical.convFlags {f : ConvFlags} (h : s.Canonical) : (s.convFlags c f).Canonical := h.putIf.putIf.putIf.putIf
theorem State.Canonical.vxFlags {f : VxFlags} (h : s.Canonical) : (s.vxFlags c f).Canonical := h.putIf.putIf.putIf
theorem State.Canonical.poisonOut {p : Bool} (h : s.Canonical) : (s.poisonOut c p).Canonical := .ite h.cset h

theorem State.Canonical.packChunk {sr0 t : Nat} {o : ChunkOut} (h : s.Canonical) : (s.packChunk c i x d sr0 t o).Canonical :=
  .ite (h.foldl fun _ _ ht => .ite ht.engineWrite.convFlags.wr.poisonOut ht) h.engineWrite.convFlags.poisonOut

theorem State.Canonical.reduceRow {r : TDesc} {k : Nat} {chunks : List ChunkOut} (h : s.Canonical) : (s.reduceRow c i x r k chunks).Canonical :=
  .ite h (.poisonOut <| .vxFlags <| .engineWrite <| .ite h.operandRead h)

theorem State.Canonical.passCycle {y r : TDesc} {sr0 t : Nat} {outs : List ChunkOut} (h : s.Canonical) :
    (s.passCycle c i x y d r sr0 t outs).1.Canonical := by
  unfold State.passCycle
  extract_lets occ rc
  split
  next s1 outs1 heq =>
    have h1 : s1.Canonical := by
      split at heq <;> obtain ⟨rfl, -⟩ := Prod.mk.inj heq
      · exact .vxFlags <| .convFlags <| .ite h.chunkRead.chunkRead h.chunkRead
      · exact h
    extract_lets s2 s3
    have h2 : s2.Canonical := by
      unfold s2
      split
      · split
        · exact h1.packChunk
        · exact h1
      · exact h1
    exact .ite h2.reduceRow h2

theorem State.Canonical.advance (h : s.Canonical) : (s.advance c n).Canonical := by
  unfold State.advance
  extract_lets d s1
  have h1 : s1.Canonical := h.cput
  exact .ite h1.cput h1

theorem State.Canonical.vxRun {v : Nat} (h : s.Canonical) : (s.vxRun c v).Canonical := by
  unfold State.vxRun
  extract_lets i x y d r sr0 claims adv s1 s2 s3 res s4
  have h1 : s1.Canonical := h.cbump.foldl fun _ _ ht => ht.advance
  have h2 : s2.Canonical := .ite h1.cput h1
  have h3 : res.1.Canonical := .foldl_fst h2.cput.cset fun _ _ hp => hp.passCycle
  exact .addFlights <| .ite h3.cput.cput.cbump h3

end Sys2Proof.Machine
end

section
/-! PROOFS. Stream queues, inbox rings and the sequencer keep the canonical form (R159, R178, R28). -/

namespace Sys2Proof.Machine

variable {s : State} {addr epoch n v : Nat} {q : CluRef} {m : StreamMsg} {c : CoreRef} {p : QpSlot} {w : Slots}

theorem State.Canonical.countArrivals {old : QueueSt} (h : s.Canonical) : (s.countArrivals q n old).Canonical := .ite h.addCounter h

theorem State.Canonical.ptrError {which : Nat} (h : s.Canonical) : (s.ptrError q n which).Canonical := by
  unfold State.ptrError
  extract_lets s1
  have h1 : s1.Canonical := h.notify
  exact .ite h1 h1.qput.qput.qput

theorem State.Canonical.freeListError (h : s.Canonical) : (s.freeListError q).Canonical := h.ptrError.qput.whistle

theorem State.Canonical.queueError {which : Nat} (h : s.Canonical) : (s.queueError q n which).Canonical := by
  unfold State.queueError
  extract_lets s1
  have h1 : s1.Canonical := h.ptrError.qput
  exact .ite h1.whistle h1

theorem State.Canonical.linkCell {kind len : Nat} {reset : Bool} {data : List (Byte × Bool)} (h : s.Canonical) :
    (s.linkCell q n kind len epoch reset data).Canonical := by
  unfold State.linkCell
  extract_lets used k x pkt s1 s2 s3
  have h2 : s2.Canonical := h.wrP.qput.setQueue
  have h3 : s3.Canonical := .ite h2.qbump h2
  exact h3.countArrivals

theorem State.Canonical.linkMarker {drops : Nat} {reset : Bool} (h : s.Canonical) : (s.linkMarker q n drops reset).Canonical := h.linkCell

theorem State.Canonical.dropCell (h : s.Canonical) : (s.dropCell q n).Canonical := by
  unfold State.dropCell
  extract_lets x
  split
  · exact h.setQueue
  · split
    · exact .ite h.setQueue (.ite h.linkMarker h.setQueue)
    · exact .ite h.linkMarker h.setQueue

theorem State.Canonical.arriveCell {first : Bool} {data : List (Byte × Bool)} (h : s.Canonical) :
    (s.arriveCell q n first epoch data).Canonical := by
  unfold State.arriveCell
  extract_lets x
  split
  · exact h
  · split
    · exact h.setQueue
    · split
      · exact h.freeListError
      · split
        · exact h.setQueue.queueError
        · exact .ite h.dropCell h.linkCell

theorem State.Canonical.closeLength {len : Nat} (h : s.Canonical) : (s.closeLength q n len).Canonical := by
  unfold State.closeLength
  extract_lets +onlyGivenNames x
  split
  · exact h
  · extract_lets cells s1
    have h1 : s1.Canonical := h.setQueue.countArrivals
    exact .ite h1.addCounter h1

theorem State.Canonical.sendStream (h : s.Canonical) : (s.sendStream m).Canonical := h.same
theorem State.Canonical.returnCredits {k : Nat} (h : s.Canonical) : (s.returnCredits q n k).Canonical := .ite h (.ite h.qput h.sendStream)

theorem State.Canonical.freeCells {k : Nat} (h : s.Canonical) : (s.freeCells q n k).Canonical := by
  unfold State.freeCells
  extract_lets +onlyGivenNames x k
  split
  · exact h
  · extract_lets s1 s2
    have h2 : s2.Canonical := h.setQueue.qput.returnCredits
    exact .ite h2.setQueue.linkMarker h2

theorem State.Canonical.qpPush (h : s.Canonical) : (s.qpPush c p).Canonical := by
  unfold State.qpPush
  extract_lets q k data s0 pkt cells first s1 s2 epoch
  have h0 : s0.Canonical := h.pathRead
  have h1 : s1.Canonical := .ite h0 h0.qput
  have h2 : s2.Canonical := .ite h1.qput h1
  exact .ite h2.arriveCell h2.sendStream

theorem State.Canonical.qpPop (h : s.Canonical) : (s.qpPop c p).Canonical := by
  unfold State.qpPop
  extract_lets +onlyGivenNames q n x
  split
  · exact h.queueError
  · exact h
  · extract_lets s0 s1 auto x1 s2 s3 s4
    have h0 : s0.Canonical := .ite h h.pathRead
    have h2 : s2.Canonical := h0.wrP.setQueue
    have h3 : s3.Canonical := .ite h2.freeCells h2
    have h4 : s4.Canonical := h3.addFlights
    exact .ite h4.addCounter h4

theorem State.Canonical.qpOpen (h : s.Canonical) : (s.qpOpen c p).Canonical := h.qput.qput

theorem State.Canonical.qpClose (h : s.Canonical) : (s.qpClose c p).Canonical := by
  unfold State.qpClose
  extract_lets len s1
  have h1 : s1.Canonical := h.qput.qput
  exact .ite h1.closeLength h1.sendStream

theorem State.Canonical.qpMark (h : s.Canonical) : (s.qpMark c p).Canonical := by
  unfold State.qpMark
  extract_lets n x
  split
  · exact h.queueError
  · exact h.setQueue

theorem State.Canonical.qpRewind (h : s.Canonical) : (s.qpRewind c p).Canonical := by
  unfold State.qpRewind
  extract_lets n x
  split
  · exact h.queueError
  · exact h.setQueue

theorem State.Canonical.qpRelease (h : s.Canonical) : (s.qpRelease c p).Canonical := by
  unfold State.qpRelease
  extract_lets n x
  split
  · exact h.queueError
  · exact .ite h.freeListError h.setQueue.freeCells

theorem State.Canonical.qpIssue (h : s.Canonical) : (s.qpIssue c v).Canonical := by
  unfold State.qpIssue
  extract_lets p
  split
  · exact h.qpPush
  · exact h.qpPop
  · exact h.qpOpen
  · exact h.qpClose
  · exact h.qpMark
  · exact h.qpRewind
  · exact h.qpRelease
  · exact h

theorem State.Canonical.staleToken {tok : Nat} (h : s.Canonical) : (s.staleToken q tok epoch).Canonical := .ite h h.qput.notify
theorem State.Canonical.takeStream (h : s.Canonical) : (s.takeStream m).Canonical := h.same

theorem State.Canonical.ringDelivery (h : s.Canonical) : (s.ringDelivery m).Canonical :=
  .ite h.qbump.staleToken (.ite h (.ite h.cbump.notify h.wrP.cput.cput.addCounter))

theorem State.Canonical.cellMessage (h : s.Canonical) : (s.cellMessage m).Canonical :=
  .ite h.takeStream.ringDelivery (.ite h.takeStream.qbump.staleToken h.takeStream.arriveCell)

theorem State.Canonical.closeArrives (h : s.Canonical) : (s.closeArrives m).Canonical :=
  .ite h.takeStream.qbump.staleToken (.ite h.takeStream h.takeStream.closeLength)

theorem State.Canonical.creditArrives (h : s.Canonical) : (s.creditArrives m).Canonical :=
  .ite h.takeStream.qbump.staleToken (.ite h.takeStream h.takeStream.qput)

theorem State.Canonical.ringWait {ctr : Nat} (h : s.Canonical) : (s.ringWait c ctr n).Canonical := by
  unfold State.ringWait
  split
  · exact h
  · extract_lets held s1
    have h1 : s1.Canonical := h.cput.cput
    exact .ite h1 h1.sendStream

theorem State.Canonical.sweepDone (h : s.Canonical) : (s.sweepDone q n).Canonical := by
  unfold State.sweepDone
  split
  · exact h
  · extract_lets x drops s1 s2
    have h2 : s2.Canonical := h.setQueue.qput.returnCredits.qbump.qput
    exact .ite h2.linkMarker h2

theorem State.Canonical.closeLoop {l : Nat} (h : s.Canonical) : (s.closeLoop c l).Canonical := h.cput.cput.cput.cset.cput.cput
theorem State.Canonical.gotoWord {a : Nat} (h : s.Canonical) : (s.gotoWord c a).Canonical := .ite h.cput.cset h.cput

theorem State.Canonical.nextWord {a : Nat} (h : s.Canonical) : (State.nextWord n s c a).Canonical := by
  induction n generalizing s with
  | zero => exact h.gotoWord
  | succ n ih => exact .ite h.gotoWord (.ite h.cput.gotoWord (ih h.closeLoop))

theorem State.Canonical.openLoop {l start fin : Nat} (h : s.Canonical) : (s.openLoop c l start fin n).Canonical := h.cput.cput.cput.cset.cput.cput

theorem State.Canonical.sequence {s0 : State} (h : s.Canonical) : (s.sequence s0 c v addr).Canonical :=
  .ite (.ite h.nextWord h.openLoop.gotoWord) h.nextWord

theorem State.Canonical.startMove {ch : Nat} (h : s.Canonical) : (s.startMove c ch v addr).Canonical := by
  unfold State.startMove
  split
  · exact h
  · extract_lets n d src dst ext s1 s2
    have h2 : s2.Canonical := h.cset.cset.cput.cput.cset.cput.cput.cput.cput.cput.cput.cput
    exact .ite h2.cput.cput h2

theorem State.Canonical.readBeat {ch : Nat} (h : s.Canonical) : (s.readBeat c ch).Canonical := by
  unfold State.readBeat
  extract_lets d src dst beat rows k data rowEnd last s1 b next s2
  have h2 : s2.Canonical := h.pathRead.same.cput.cput.cput.cput
  exact .ite h2.cset h2

theorem State.Canonical.writeBeat {b : Beat} (h : s.Canonical) : (s.writeBeat b).Canonical := by
  unfold State.writeBeat
  extract_lets c s1
  have h1 : s1.Canonical := h.wrP
  exact .ite h1.addCounter h1

theorem State.Canonical.serveOnce {due : List CmAccess} (h : s.Canonical) : (s.serveOnce c due).1.Canonical := by
  unfold State.serveOnce
  extract_lets present s1 won lost s2 s3
  have h1 : s1.Canonical := h.foldl fun _ _ ht => ht.foldl fun _ _ ht => .ite ht.qput ht
  have h2 : s2.Canonical := .ite h1.cbump h1
  have h3 : s3.Canonical := .ite h2.cbump h2
  exact h3

theorem State.Canonical.serveBanks {due : List CmAccess} (h : s.Canonical) : (State.serveBanks n s c due).Canonical := by
  induction n generalizing s due with
  | zero => exact h
  | succ n ih => exact .ite h (.ite h.serveOnce (ih h.serveOnce.cbump))

theorem State.Canonical.tick (h : s.Canonical) : (s.tick c).Canonical := by
  unfold State.tick
  extract_lets s0 old rd s1 due keep s2 mo vo s3
  have hrd {t : State} {ch : Nat} (ht : t.Canonical) : (rd t ch).Canonical := .ite ht.readBeat ht
  have h0 : s0.Canonical := h.serveBanks
  have h1 : s1.Canonical := hrd (hrd h0.same)
  have h2 : s2.Canonical := h1.same.foldl fun _ _ ht => ht.writeBeat
  have h3 : s3.Canonical := .ite h2 h2.cput.cset
  exact .ageFlights <| .ite h3 h3.cput.cset

theorem State.Canonical.arrive {line : Nat} (h : s.Canonical) : (s.arrive c line).Canonical := .ite h.cput.whistle h.cput
theorem State.Canonical.signalArrival (h : s.Canonical) : (s.signalArrival c v).Canonical := .ite h.arrive.cput h

theorem State.Canonical.takeWait (h : s.Canonical) : (s.takeWait c v).Canonical := by
  unfold State.takeWait
  split
  · exact h.cput.ringWait
  · exact .ite h.arrive h.cput.cput
  · exact h

theorem State.Canonical.faultWord {code : Nat} (h : s.Canonical) : (s.faultWord c code addr).Canonical := by
  unfold State.faultWord
  split
  · exact h.schedFault.tick
  · split <;> exact h.tick.schedFault

theorem State.Canonical.slip {cause port : Nat} (h : s.Canonical) : (s.slip c cause port).Canonical := h.cput.cput.cput.cbump
theorem State.Canonical.loadCount {s0 : State} (h : s.Canonical) : (s.loadCount s0 c v).Canonical := .ite h.cput.cput h

theorem State.Canonical.writePred {pl : Option (Nat × Bool)} (h : s.Canonical) : (s.writePred c pl).Canonical := by
  unfold State.writePred
  split
  · extract_lets s1
    have h1 : s1.Canonical := h.same.cset
    exact .ite h1.cset h1
  · exact h

theorem State.Canonical.afterIssue {ended paused : Bool} (h : s.Canonical) : (s.afterIssue c ended paused).Canonical :=
  .ite h (.ite h.cput (.ite h.cput (.ite h.schedFault (.ite h.cset.cput (.ite h.cput h)))))

theorem State.Canonical.vxIssue (h : s.Canonical) : (s.vxIssue c v).Canonical := .ite h.vxRun h

theorem State.Canonical.tickChecked (h : s.Canonical) : (s.tickChecked c).Canonical := by
  unfold State.tickChecked
  split
  · exact h.tick.schedFault
  · exact h.tick

theorem State.Canonical.suspendMoves (h : s.Canonical) : (s.suspendMoves c).Canonical := h.cset.cset

theorem State.Canonical.issueSlots (h : s.Canonical) : (s.issueSlots c w addr).Canonical := by
  unfold State.issueSlots
  extract_lets g pause s1 s2 s4 s8 s9 s10
  have h8 : s8.Canonical := h.cput.cput.cset.takeWait.loadCount.qpIssue.startMove.startMove.mxIssue.vxIssue.writePred.cbump.tickChecked
  have h9 : s9.Canonical := .ite h8 h8.sequence
  have h10 : s10.Canonical := .ite h9.suspendMoves h9
  exact h10.afterIssue

theorem State.Canonical.issueDue (h : s.Canonical) : (s.issueDue c w).Canonical := by
  unfold State.issueDue
  extract_lets +onlyGivenNames addr
  split
  · exact h.schedFault
  · split
    · exact h.faultWord
    · extract_lets s1 cause
      have h1 : s1.Canonical := h.signalArrival
      exact .ite h1.slip (.ite h1.slip h1.issueSlots)

theorem State.Canonical.issueWord (h : s.Canonical) : (s.issueWord c w).Canonical := .ite h (.ite h.cput h.issueDue)

end Sys2Proof.Machine
end

section
/-! PROOFS. The fetch threads keep the canonical form (R206). -/

namespace Sys2Proof.Machine

variable {s : State} {t : ThreadRef} {v : Nat} {r : FetchReq} {pois : Bool} {c : CoreRef} {i : FetchInstr}

theorem State.Canonical.tput {f : Nat → Fld} (h : s.Canonical) : (s.tput t f v).Canonical := h.cput
theorem State.Canonical.setPend {r : Nat} {b : Bool} (h : s.Canonical) : (s.setPend t r b).Canonical := h.tput
theorem State.Canonical.setG {r : Nat} (h : s.Canonical) : (s.setG t r v pois).Canonical := h.cput.tput.setPend
theorem State.Canonical.setThread {st : Nat} (h : s.Canonical) : (s.setThread t st).Canonical := h.tput.cput
theorem State.Canonical.threadFault {code pc : Nat} (h : s.Canonical) : (s.threadFault t code pc).Canonical := h.tput.tput.setThread.notify.whistle
theorem State.Canonical.syncCounts (h : s.Canonical) : (s.syncCounts t).Canonical := h.tput.tput.cput
theorem State.Canonical.dispatch (h : s.Canonical) : (s.dispatch r).Canonical := h.cput.cbump.same.syncCounts
theorem State.Canonical.dropReq (h : s.Canonical) : (s.dropReq r).Canonical := h.same.syncCounts

theorem State.Canonical.completeReq (h : s.Canonical) : (s.completeReq r).Canonical := by
  unfold State.completeReq
  extract_lets s1
  have h1 : s1.Canonical := h.dropReq
  exact .ite h1.addCounter h1

theorem State.Canonical.countFailure {kind : Nat} (h : s.Canonical) : (s.countFailure r kind).Canonical := by
  unfold State.countFailure
  extract_lets c t panel s1 s2 s3
  have h2 : s2.Canonical := h.tput.cbump
  have h3 : s3.Canonical := .ite h2 h2.cset.cput.cput.cput.cput
  exact .ite h3 h3.notify

theorem State.Canonical.failReq {kind : Nat} (h : s.Canonical) : (s.failReq r kind).Canonical := by
  unfold State.failReq
  extract_lets s1 s2
  have h1 : s1.Canonical := h.countFailure
  have h2 : s2.Canonical := .ite h1.free.wrP (.ite h1.free.setG h1)
  exact h2.completeReq

theorem State.Canonical.takeValue {d : Nat} {tw : Option Nat} {pc mem word : Nat} (h : s.Canonical) :
    (s.takeValue t d v pois tw pc mem word).Canonical := by
  unfold State.takeValue
  extract_lets +onlyGivenNames s1
  have h1 : s1.Canonical := .ite h.poisonEvent h
  split
  · split
    · extract_lets s2
      have h2 : s2.Canonical := h1.setPend
      exact .ite h2.threadFault h2
    · exact h1.setG
  · exact h1.setG

theorem State.Canonical.fetchReply {m : HubRep} (h : s.Canonical) : (s.fetchReply m).Canonical := by
  unfold State.fetchReply
  extract_lets c
  split
  · exact h.cbump.staleToken
  · split
    · exact h.cbump
    · exact .ite h.failReq (.ite h.wrP.completeReq (.ite h.takeValue.completeReq h.completeReq))

theorem State.Canonical.startThreads (h : s.Canonical) : (s.startThreads c).Canonical := h.cput.foldl fun _ _ ht => .ite ht.tput.setThread ht
theorem State.Canonical.holdThreads (h : s.Canonical) : (s.holdThreads c).Canonical := h.cput.foldl fun _ _ ht => .ite ht.setThread ht
theorem State.Canonical.haltThreads (h : s.Canonical) : (s.haltThreads c).Canonical := .ite h (h.cput.foldl fun _ _ ht => .ite ht.setThread ht)

theorem State.Canonical.drainFetch (h : s.Canonical) : (s.drainFetch c).Canonical := by
  unfold State.drainFetch
  extract_lets +onlyGivenNames mine
  split
  · exact h.foldl fun _ _ ht => ht.same.dropReq
  · extract_lets s1
    have h1 : s1.Canonical := h.foldl fun _ _ ht => ht.failReq
    exact .ite h1 h1.notify
  · exact h

theorem State.Canonical.resumeThreads (h : s.Canonical) : (s.resumeThreads c).Canonical :=
  .foldl (h.cput.foldl fun _ _ ht => .ite ht.setThread ht) fun _ _ ht => by
    extract_lets s2
    have h2 : s2.Canonical := ht.same.syncCounts
    exact .ite h2.failReq h2.dispatch

theorem State.Canonical.runThread {op w : Nat} {body : State → FetchInstr → FetchOut} (h : s.Canonical) (hbody : ∀ i, (body s i).DoneCanonical) :
    (s.runThread t op w body).Canonical := by
  unfold State.runThread
  extract_lets c i pc
  refine .ite h (.ite h.threadFault (.ite h.setThread ?_))
  split
  · exact h.threadFault
  · exact h.setThread
  next heq =>
    have h1 := hbody i _ _ heq
    exact .ite h1 (.ite h1.threadFault h1.setThread.tput)

theorem State.Canonical.alu2 {f : Nat → Nat → Nat} (h : s.Canonical) : (s.alu2 t i f).DoneCanonical := .done h.setG
theorem State.Canonical.aluI {f : Nat → Nat → Nat} (h : s.Canonical) : (s.aluI t i f).DoneCanonical := .done h.setG
theorem State.Canonical.branch {taken : Bool} (h : s.Canonical) : (s.branch t i pois taken).DoneCanonical := .ite .fault (.ite .fault (.done h))
theorem State.Canonical.branchAB {cmp : Nat → Nat → Bool} (h : s.Canonical) : (s.branchAB t i cmp).DoneCanonical := h.branch

theorem FetchOut.DoneCanonical.issueReq {a size align : Nat} {before : State → State} (h : (before s).Canonical) :
    (s.issueReq t r a size align before).DoneCanonical := by
  unfold State.issueReq
  split
  · exact .fault
  · exact .done (.dispatch (.ite h.setPend h))

theorem State.Canonical.postInc {dv : Nat} (h : s.Canonical) : (s.postInc t i dv).Canonical := .ite h.setG.setG h
theorem State.Canonical.nextSeq (h : s.Canonical) : (s.nextSeq c).Canonical := h.cput

theorem State.Canonical.streamReq {opc param order group : Nat} {extra : Option Nat} (h : s.Canonical) :
    (s.streamReq t i opc param order group extra).DoneCanonical := by
  unfold State.streamReq
  extract_lets c dv conv la
  refine .ite .wait ?_
  split
  · exact .fault
  · refine .ite .fault ?_
    split
    · exact .fault
    · refine .ite .fault (.ite .fault (.issueReq (.postInc ?_)))
      have h1 : (if i.op = 0x24 then s else s.pathRead c (coreKey c Mem.SP la) 256).Canonical := .ite h h.pathRead
      exact .ite h1.nextSeq h1

end Sys2Proof.Machine
end

section
/-! PROOFS. The memory stacks and their hubs keep the canonical form (R229, R233). -/

namespace Sys2Proof.Machine

variable {s : State} {ch kind q stack status unitAddr : Nat} {r : HubReq} {data : List Byte} {p : HubPlan} {c : HubRecord}

theorem State.Canonical.logSector (h : s.Canonical) : (s.logSector q kind).Canonical := .ite h h.putFlag.put.put.put.put

theorem State.Canonical.sectorCorrected (h : s.Canonical) : (s.sectorCorrected q kind).Canonical := by
  unfold State.sectorCorrected
  extract_lets stack site s1 n thr
  have h1 : s1.Canonical := h.bump.bump.logSector
  exact .ite h1.put.notify h1

theorem State.Canonical.readSector (h : s.Canonical) : (s.readSector kind q).Canonical :=
  .ite h.poisonSector.bump.logSector.notify (.ite h.sectorCorrected h)

theorem State.Canonical.readPieces {ps : List Piece} (h : s.Canonical) : (s.readPieces ps).2.Canonical := h.foldl fun _ _ ht => ht.readSectors

theorem State.Canonical.writePieces {ps : List Piece} {bs : List (Byte × Bool)} (h : s.Canonical) : (s.writePieces ps bs).Canonical := by
  induction ps generalizing s bs with
  | nil => exact h
  | cons p ps ih => exact ih h.hbmWrite

theorem State.Canonical.poisonUnit (h : s.Canonical) : (s.poisonUnit stack unitAddr).Canonical := h.foldl fun _ _ ht => ht.poisonSector
theorem State.Canonical.hubReply {poison : BitVec 32} (h : s.Canonical) : (s.hubReply r status data poison).Canonical := h.same

theorem State.Canonical.countStatus (h : s.Canonical) : (s.countStatus stack status).Canonical :=
  .ite h.bump (.ite h.bump (.ite h.bump (.ite h.putFlag h)))

theorem State.Canonical.hubRefuse (h : s.Canonical) : (s.hubRefuse stack r status).Canonical := h.countStatus.hubReply

theorem State.Canonical.changeWindow {panel : Nat} {f : List DedupEntry → List DedupEntry} (h : s.Canonical) :
    (s.changeWindow stack panel f).Canonical :=
  h.same

theorem State.Canonical.countWindows (h : s.Canonical) : (s.countWindows stack).Canonical := h.put
theorem State.Canonical.openWindow (h : s.Canonical) : (s.openWindow stack r).Canonical := .ite h h.same.countWindows
theorem State.Canonical.enter (h : s.Canonical) : (s.enter stack r).Canonical := h.changeWindow

theorem State.Canonical.finish (h : s.Canonical) : (s.finish stack r status data).Canonical :=
  h.changeWindow.foldl fun _ _ ht => .ite ht.countStatus.hubReply ht.hubRefuse

theorem State.Canonical.hubFinish (h : s.Canonical) : (s.hubFinish stack r status data).Canonical := h.countStatus.hubReply.finish

theorem State.Canonical.duplicate {e : DedupEntry} (h : s.Canonical) : (s.duplicate stack r e).Canonical :=
  .ite h.countStatus.hubReply h.changeWindow

theorem State.Canonical.hubAtomic {p : Piece} (h : s.Canonical) : (s.hubAtomic stack r p).Canonical := by
  unfold State.hubAtomic
  extract_lets s0 old x new pois s1
  have h0 : s0.Canonical := h.enter
  have h1 : s1.Canonical := .ite h0.hbmWrite h0
  exact h1.hubFinish

theorem State.Canonical.contribute {rtype : Nat} {replace : Bool} (h : s.Canonical) : (s.contribute stack unitAddr rtype replace r).Canonical := by
  unfold State.contribute
  extract_lets k s1 old new
  have h1 : s1.Canonical := h.readSectors
  exact .ite h1.hbmWrite h1.hbmWrite

theorem State.Canonical.countRecords (h : s.Canonical) : (s.countRecords stack).Canonical := h.put.put
theorem State.Canonical.setRecord {closed : Bool} (h : s.Canonical) : (s.setRecord c closed).Canonical := h.same.countRecords

theorem State.Canonical.applyRanks {n : Nat} (h : s.Canonical) : (applyRanks n s c).1.Canonical := by
  induction n generalizing s c with
  | zero => exact h
  | succ n ih =>
    unfold Machine.applyRanks
    split
    · exact h
    · exact ih h.contribute.hubFinish

theorem State.Canonical.hubOrdered {p : Piece} (h : s.Canonical) : (s.hubOrdered stack r p).Canonical :=
  .ite h.hubRefuse (.ite h.hubRefuse (.ite h.hubRefuse (.ite h.hubRefuse h.enter.applyRanks.setRecord)))

theorem State.Canonical.hubReduce {p : Piece} (h : s.Canonical) : (s.hubReduce stack r p).Canonical :=
  .ite h.hubOrdered h.enter.contribute.hubFinish

theorem State.Canonical.closeRecord {lost : Bool} (h : s.Canonical) : (s.closeRecord c status lost).Canonical := by
  unfold State.closeRecord
  extract_lets s1 s2
  have h1 : s1.Canonical := .setRecord <| h.foldl fun _ _ ht => ht.hubFinish
  have h2 : s2.Canonical := .ite h1 h1.poisonUnit
  exact h2.bump.notify

theorem State.Canonical.hubConvFlags {f : ConvFlags} (h : s.Canonical) : (s.hubConvFlags stack f).Canonical := h.putIf.putIf.putIf.putIf

theorem State.Canonical.hubGather (h : s.Canonical) : (s.hubGather stack r p).Canonical := by
  unfold State.hubGather
  split
  · exact h
  · exact h.readPieces.readPieces.hubConvFlags.hubReply

theorem State.Canonical.hubStore (h : s.Canonical) : (s.hubStore stack r p).Canonical := by
  unfold State.hubStore
  split
  · exact h
  · exact .ite h.writePieces.writePieces.hubConvFlags.hubReply h.writePieces.hubConvFlags.hubReply

theorem State.Canonical.hubPerform (h : s.Canonical) : (s.hubPerform stack r p).Canonical := by
  unfold State.hubPerform
  extract_lets one
  split
  · exact h.writePieces.hubReply
  · exact h.writePieces.hubReply
  · exact h.writePieces.hubReply
  · exact h.hubAtomic
  · exact h.hubReduce
  · exact h.hubGather
  · exact h.hubStore
  · exact h.readPieces.hubReply

theorem State.Canonical.hubAtomStart (h : s.Canonical) : (s.hubAtomStart stack r p).Canonical := by
  unfold State.hubAtomStart
  split
  · exact h.hubRefuse
  · extract_lets s1
    have h1 : s1.Canonical := h.readPieces.openWindow
    exact .ite h1.hubRefuse h1.hubPerform

theorem State.Canonical.hubQueue {ch : Nat × Nat} (h : s.Canonical) : (s.hubQueue stack r ch).Canonical := h.same

theorem State.Canonical.hubServe (h : s.Canonical) : (s.hubServe stack r).Canonical := by
  unfold State.hubServe
  split
  · exact h.hubRefuse
  · split
    · exact h.hubRefuse
    · split
      · exact h.hubRefuse
      · split
        · exact h.duplicate
        · split
          · exact h.hubRefuse
          · split
            · exact h.hubQueue
            · exact .ite h.hubAtomStart h.hubPerform

theorem State.Canonical.hubArrive (h : s.Canonical) : (s.hubArrive stack r).Canonical := .ite h.same h.hubServe

theorem State.Canonical.hubCommand {opc : Nat} (h : s.Canonical) : (s.hubCommand stack opc r).Canonical := by
  unfold State.hubCommand
  extract_lets q
  split <;> exact .ite h.same.hubArrive h

theorem State.Canonical.releaseChannel (h : s.Canonical) : (s.releaseChannel stack ch).Canonical :=
  .foldl (h.same.foldl fun _ _ ht => ht.hubServe) fun _ _ ht => ht.hubArrive

theorem State.Canonical.startRetrain (h : s.Canonical) : (s.startRetrain stack ch).Canonical := .ite h.put h

theorem State.Canonical.failChannel (h : s.Canonical) : (s.failChannel stack ch).Canonical :=
  .ite h (.releaseChannel <| h.put.put.notify.foldl fun _ _ ht => ht.closeRecord)

theorem State.Canonical.stopAtomics (h : s.Canonical) : (s.stopAtomics stack).Canonical :=
  .putFlag <| h.foldl fun _ _ ht => .setRecord <| ht.foldl fun _ _ ht1 => ht1.hubFinish

theorem State.Canonical.closeRecords (h : s.Canonical) : (s.closeRecords stack).Canonical :=
  .ite (.putFlag <| h.foldl fun _ _ ht => ht.closeRecord) h

theorem State.Canonical.writeAccept {on : Bool} (h : s.Canonical) : (s.writeAccept stack on).Canonical := by
  unfold State.writeAccept
  extract_lets site s1
  have h1 : s1.Canonical := h.putFlag
  exact .ite (.ite h1.closeRecords h1) (.ite h1.stopAtomics h1)

theorem State.Canonical.startZeroScrub (h : s.Canonical) : (s.startZeroScrub stack).Canonical :=
  h.stopAtomics.closeRecords.same.countWindows.putFlag.put

theorem State.Canonical.execRecordTimeout (h : s.Canonical) : NextCanonical (execRecordTimeout stack unitAddr s) := by
  unfold Machine.execRecordTimeout
  refine .next ?_
  split
  · exact h.closeRecord
  · exact h

theorem State.Canonical.execHbmPatrolRead (h : s.Canonical) : NextCanonical (execHbmPatrolRead stack unitAddr s) := by
  unfold Machine.execHbmPatrolRead
  extract_lets +onlyGivenNames site
  refine .next ?_
  split
  · extract_lets k s1
    have h1 : s1.Canonical := h.foldl fun _ _ ht => ht.patrolSector
    exact .ite h1.bump h1
  · exact h

theorem State.Canonical.scrubEnds (h : s.Canonical) : (s.scrubEnds stack).Canonical := h.clearStack.putFlag.put.bump

end Sys2Proof.Machine
end

section
/-! PROOFS. The panel fabric and the frames of the Jorzen ports keep the canonical form (R257, R301). -/

namespace Sys2Proof.Machine

variable {s : State} {n port site status sub : Nat} {p : Packet} {f : FlitIn} {r : Reply}

theorem State.Canonical.sendOn (h : s.Canonical) : (s.sendOn site port p).Canonical := h.same.put.put.put
theorem State.Canonical.later (h : s.Canonical) : (s.later site p).Canonical := h.same
theorem State.Canonical.ackFor {ldie : Nat} (h : s.Canonical) : (s.ackFor site p ldie status).Canonical := .later <| .ite h h.bump

theorem State.Canonical.copies (h : s.Canonical) : (s.copies site p).1.Canonical := by
  unfold State.copies
  extract_lets bs s1 outs s2
  have h1 : s1.Canonical := h.foldl fun _ _ ht => by
    split
    · exact ht.ackFor
    · exact ht
  split
  · exact h
  · refine .foldl_fst h1.bump fun _ _ hp => ?_
    split
    · extract_lets q
      split
      · exact hp.bump
      · exact hp.ackFor
    · exact hp

theorem State.Canonical.hold {inPort : Nat} (h : s.Canonical) : (s.hold site inPort p).Canonical :=
  h.copies.put.foldl fun _ _ ht => .ite ht.bump ht.same

theorem State.Canonical.handLocal (h : s.Canonical) : (s.handLocal site p).Canonical := by
  unfold State.handLocal
  extract_lets +onlyGivenNames multi
  split
  · exact .ite h.ackFor (.ite h.bump (.ite h.later h.same))
  · extract_lets s1
    have h1 : s1.Canonical := h.same
    exact .ite h1.ackFor h1

theorem State.Canonical.leave {hdr : HeldPacket} (h : s.Canonical) : (s.leave hdr).Canonical := by
  unfold State.leave
  extract_lets site out c s0 s1 s2
  have h1 : s1.Canonical := h.same.put.put.put.bump
  have h2 : s2.Canonical := .ite h1.handLocal h1.sendOn
  exact .ite h2.bump h2

theorem State.Canonical.unreachable (h : s.Canonical) : (s.unreachable site p).Canonical := by
  unfold State.unreachable
  extract_lets s1
  have h1 : s1.Canonical := h.bump.notify
  exact .ite h1.hubReply h1

theorem State.Canonical.accept (h : s.Canonical) : (s.accept site p).Canonical := by
  unfold State.accept
  split
  · exact h.hold
  · split
    · exact h.unreachable
    · exact h.hold

theorem State.Canonical.meshRun (h : s.Canonical) : (meshRun n s site).Canonical := by
  induction n generalizing s with
  | zero => exact h
  | succ n ih =>
    unfold Machine.meshRun
    split
    · exact ih h.leave
    · split
      · exact ih <| .accept <| h.same
      · exact h

theorem State.Canonical.settle (h : s.Canonical) : (s.settle site).Canonical := h.meshRun
theorem State.Canonical.downEnd (h : s.Canonical) : (s.downEnd site port).Canonical := .ite h h.same.put.bump.notify

theorem State.Canonical.linkDown (h : s.Canonical) : (s.linkDown site port).Canonical := by
  unfold State.linkDown
  extract_lets s1
  have h1 : s1.Canonical := h.downEnd
  split
  · exact h1.downEnd
  · exact h1

theorem State.Canonical.subFails (h : s.Canonical) : (s.subFails site port sub).Canonical := by
  unfold State.subFails
  extract_lets n active s1
  have h1 : s1.Canonical := h.put.putFlag
  exact .ite h1 (.ite h1.linkDown h1.put.put.notify)

theorem State.Canonical.linkBack (h : s.Canonical) : (s.linkBack site port f).Canonical := by
  unfold State.linkBack
  extract_lets +onlyGivenNames mine s1
  have h1 : s1.Canonical := .ite h.same h
  exact .putIf <| .ite h1 (.ite (.put <| h1.same.put.foldl fun _ _ ht => ht.same.put) (.ite h1.bump.put.put.notify h1.bump.put))

theorem State.Canonical.assembled (h : s.Canonical) : (s.assembled site port).Canonical := by
  unfold State.assembled
  extract_lets mine fs s1 bs p
  have h1 : s1.Canonical := h.same
  exact .ite h1.bump.notify.bump h1.hold

theorem State.Canonical.acceptInOrder (h : s.Canonical) : (acceptInOrder n s site port).Canonical := by
  induction n generalizing s with
  | zero => exact h
  | succ n ih =>
    unfold Machine.acceptInOrder
    extract_lets pos
    split
    · exact h
    · extract_lets s1 s2
      have h2 : s2.Canonical := .put <| .put <| .put <| h.same
      exact ih <| .ite h2.assembled h2

theorem State.Canonical.takeFlit (h : s.Canonical) : (s.takeFlit site port sub f).Canonical := by
  unfold State.takeFlit
  split
  · exact h
  · extract_lets s1 next ahead twice waiting
    have h1 : s1.Canonical := h.putFlag
    exact .ite h1 h1.same.acceptInOrder

theorem State.Canonical.injectPacket (h : s.Canonical) : (s.injectPacket site p).Canonical := .ite h (.settle <| .later <| .ite h.same h)

theorem State.Canonical.flitArrives (h : s.Canonical) : (s.flitArrives site port sub f).Canonical := by
  unfold State.flitArrives
  split
  · exact h
  · split
    · exact .ite h h.bump.subFails.settle
    · extract_lets s1
      have h1 : s1.Canonical := h.linkBack
      exact .settle <| .ite h1.takeFlit h1

theorem State.Canonical.nakRepeat (h : s.Canonical) : (s.nakRepeat site port sub).Canonical := .ite h.subFails.settle h
theorem State.Canonical.jput {f : Fld} {v : Nat} (h : s.Canonical) : (s.jput port f v).Canonical := h.put
theorem State.Canonical.jbump {f : Fld} (h : s.Canonical) : (s.jbump port f n).Canonical := h.bump
theorem State.Canonical.jset {f : Fld} {b : Bool} (h : s.Canonical) : (s.jset port f b).Canonical := h.putFlag
theorem State.Canonical.sendFrame {t : TxFrame} (h : s.Canonical) : (s.sendFrame t).Canonical := h.same.jput.jput

theorem State.Canonical.pumpPort (h : s.Canonical) : (pumpPort n s port).Canonical := by
  induction n generalizing s with
  | zero => exact h
  | succ n ih =>
    unfold Machine.pumpPort
    extract_lets firsts
    split
    · exact h
    · exact ih h.sendFrame

theorem State.Canonical.pump (h : s.Canonical) : (s.pump port).Canonical := .ite h h.pumpPort
theorem State.Canonical.queueFrame {f : Frame} (h : s.Canonical) : (s.queueFrame port f).Canonical := h.same.pump
theorem State.Canonical.queueCmd {f : Frame} {cmd : Nat × Nat × Nat} (h : s.Canonical) : (s.queueCmd port f cmd).Canonical := h.same.pump
theorem State.Canonical.countAnswer (h : s.Canonical) : (s.countAnswer port status).Canonical := .ite h.jbump (.ite h.jbump (.ite h.jbump h))
theorem State.Canonical.portAnswer {r : HubReq} (h : s.Canonical) : (s.portAnswer port r status).Canonical := h.countAnswer.hubReply
theorem State.Canonical.countEntries (h : s.Canonical) : (s.countEntries port).Canonical := h.jput

theorem State.Canonical.proxyTake {r : HubReq} (h : s.Canonical) : (s.proxyTake port r).Canonical := by
  unfold State.proxyTake
  split
  · exact h.same
  · split
    · exact h.portAnswer
    · exact h.same.countEntries.queueFrame

theorem State.Canonical.proxyNext (h : s.Canonical) : (s.proxyNext port).Canonical := by
  unfold State.proxyNext
  split
  · exact h.same.proxyTake
  · exact h

theorem State.Canonical.proxyEnd {e : ProxyEntry} {data : List Byte} {poison : BitVec 32} (h : s.Canonical) :
    (s.proxyEnd e status data poison).Canonical :=
  h.same.countEntries.hubReply.proxyNext

theorem State.Canonical.sendRequest {r : HubReq} (h : s.Canonical) : (s.sendRequest site r).Canonical := .ite h.same h.proxyTake

theorem State.Canonical.emitReply (h : s.Canonical) : (s.emitReply r).Canonical := by
  unfold State.emitReply
  split
  · exact h
  · split
    next free s1 hfree =>
      split
      next dp s2 heq =>
        have h2 : s2.Canonical := by
          split at heq
          · exact .snd_eq (.mk_snd (h.free.snd_eq hfree)) heq
          · exact .snd_eq (.mk_snd h) heq
        exact h2.same.foldl fun _ _ ht => ht.queueFrame

theorem State.Canonical.storeReply (h : s.Canonical) : (s.storeReply r).Canonical := h.same.put
theorem State.Canonical.storeFinal (h : s.Canonical) : (s.storeFinal r).Canonical := h.same
theorem State.Canonical.countDeferred (h : s.Canonical) : s.countDeferred.Canonical := h.put

theorem State.Canonical.castEnd {c : Teamcast} {status : Option Nat} (h : s.Canonical) : (s.castEnd c status).Canonical :=
  h.same.countDeferred.storeFinal.emitReply

theorem State.Canonical.castMember {panel opcode tag seq : Nat} (h : s.Canonical) :
    ∀ t ∈ s.castMember panel opcode tag seq status, t.Canonical := by
  intro t ht
  obtain ⟨c, -, rfl⟩ := Option.map_eq_some_iff.1 ht
  exact .ite (.castEnd <| h.same) h.same

theorem State.Canonical.sendReply (h : s.Canonical) : (s.sendReply r).Canonical := .ite (.ite (h.getD h.castMember) h) h.emitReply

end Sys2Proof.Machine
end

section
/-! PROOFS. Command packets, data windows and `FILL` keep the canonical form (R357, R370). -/

namespace Sys2Proof.Machine

variable {s : State} {addr i length n op port status window : Nat} {hdr : CmdHdr} {words : List Nat} {d : Deferred} {w : Window}

theorem State.Canonical.answer {r : Reply} (h : s.Canonical) : (s.answer r).Canonical := .ite h.sendReply h.storeReply.sendReply
theorem State.Canonical.executed (h : s.Canonical) : (s.executed hdr).Canonical := .ite h.bump h.put.putFlag.bump
theorem State.Canonical.takePacket (h : s.Canonical) : (s.takePacket hdr op).Canonical := h.same

theorem State.Canonical.command {f : CmdForm} {body : State → State} (h : s.Canonical) (hbody : ∀ t, t.Canonical → (body t).Canonical) :
    (s.command hdr f body).Canonical := by
  have h1 : (s.takePacket hdr f.op).Canonical := h.takePacket
  unfold State.command
  extract_lets t
  split
  · exact h1
  · split
    · exact h1.sendReply
    · split
      · exact h1.sendReply
      · exact h1.bump.sendReply
      · split
        · exact h1.executed.answer
        · exact hbody _ h1.executed

theorem State.Canonical.reply (h : s.Canonical) : (s.reply hdr op status words).Canonical := h.answer

theorem State.Canonical.begin {cmd : Instr} {committed : Bool} {mask : Nat} (h : s.Canonical) :
    (s.begin hdr op cmd committed words mask).Canonical :=
  h.answer.same.countDeferred

theorem State.Canonical.setDeferred (h : s.Canonical) : (s.setDeferred d).Canonical := h.same

theorem State.Canonical.finishCmd (h : s.Canonical) : (s.finishCmd d status words).Canonical := by
  unfold State.finishCmd
  extract_lets r s1
  have h1 : s1.Canonical := h.same.countDeferred
  exact .ite h1.sendReply h1.storeFinal.sendReply

theorem State.Canonical.commit (h : s.Canonical) : (s.commit d status).Canonical := h.setDeferred

theorem State.Canonical.unknown (h : s.Canonical) : (s.unknown hdr).Canonical := by
  unfold State.unknown
  split
  · exact h
  · split
    · exact h.sendReply
    · split
      · exact h.sendReply
      · exact h.bump.sendReply
      · exact h.executed.answer

theorem State.Canonical.badCrc (h : s.Canonical) : (s.badCrc port).Canonical := .ite h h.bump.notifyCtl
theorem State.Canonical.setWindow (h : s.Canonical) : (s.setWindow w).Canonical := h.same
theorem State.Canonical.putDone (h : s.Canonical) : (s.putDone w).Canonical := h.jput

theorem State.Canonical.endWindow {w2 : Nat} (h : s.Canonical) : (s.endWindow w status w2).Canonical := by
  unfold State.endWindow
  extract_lets s1 s2
  have h1 : s1.Canonical := h.same.jset
  have h2 : s2.Canonical := by
    unfold s2
    split
    · exact h1.finishCmd
    · exact h1
  exact h2.foldl fun _ _ ht => ht.answer

theorem State.Canonical.settleWindow (h : s.Canonical) : (s.settleWindow w).Canonical := by
  unfold State.settleWindow
  split <;> exact .ite h.endWindow h

theorem State.Canonical.sendData {bs : List Byte} (h : s.Canonical) : (s.sendData port bs).Canonical := h.free.queueFrame

theorem State.Canonical.sendMessages (h : s.Canonical) : (sendMessages n s w i).1.Canonical := by
  induction n generalizing s w with
  | zero => exact h
  | succ n ih =>
    unfold Machine.sendMessages
    extract_lets off want got
    split
    · exact h
    · exact ih h.sendData

theorem State.Canonical.issueUnits {fuel off : Nat} {bs : List Byte} (h : s.Canonical) : (issueUnits fuel s w off n bs port).1.Canonical := by
  induction fuel generalizing s w off n bs with
  | zero => exact h
  | succ fuel ih =>
    unfold Machine.issueUnits
    split
    · exact h
    · exact ih h.sendRequest

theorem State.Canonical.readAhead (h : s.Canonical) : (readAhead n s w i).1.Canonical := by
  induction n generalizing s w with
  | zero => exact h
  | succ n ih =>
    unfold Machine.readAhead
    extract_lets k stride ahead len w1
    split
    · exact h
    · split
      next heq => exact ih (h.issueUnits.fst_eq heq)

theorem State.Canonical.advancePort (h : s.Canonical) : (s.advancePort w i).1.Canonical := by
  unfold State.advancePort
  split
  next heq => exact (h.sendMessages.fst_eq heq).readAhead

theorem State.Canonical.advanceWindow (h : s.Canonical) : (s.advanceWindow w).Canonical :=
  .settleWindow <| .putDone <| .setWindow <| .foldl_fst h fun _ _ hp => hp.advancePort

theorem State.Canonical.closeWindow {w2 : Nat} (h : s.Canonical) : (s.closeWindow w status w2).Canonical :=
  .ite h (.ite h.setWindow.advanceWindow h.setWindow.settleWindow)

theorem State.Canonical.closeWindows {p : Window → Bool} {status : Window → Nat} (h : s.Canonical) : (s.closeWindows p status).Canonical :=
  h.foldl fun _ _ ht => by
    split
    · exact ht.closeWindow
    · exact ht

theorem State.Canonical.windowsDown (h : s.Canonical) : (s.windowsDown port).Canonical := h.closeWindows

theorem State.Canonical.settleReads (h : s.Canonical) : (s.settleReads port).Canonical :=
  h.foldl fun _ _ ht => by
    split
    · exact ht.settleWindow
    · exact ht

theorem State.Canonical.windowReply {m : HubRep} (h : s.Canonical) : ∀ t ∈ s.windowReply port m, t.Canonical := by
  intro t ht
  obtain ⟨w, -, rfl⟩ := Option.map_eq_some_iff.1 ht
  exact .ite (.ite h.setWindow.settleWindow h.setWindow.closeWindow)
    (.ite h.setWindow.setWindow.advanceWindow h.setWindow.settleWindow)

theorem State.Canonical.openWindowAt {cmd : Instr} {dir burst : Nat} {ports : List Nat} (h : s.Canonical) :
    (s.openWindowAt hdr cmd addr length dir burst ports).Canonical := by
  unfold State.openWindowAt
  extract_lets n b starts w s1 s2 mask s3
  have h3 : s3.Canonical := h.begin.same.jset.jput.jput.jput.jput.putDone
  exact .ite h3.advanceWindow h3

theorem State.Canonical.execDataClose {rsv : Nat} (h : s.Canonical) : NextCanonical (execDataClose hdr window rsv s) :=
  .next <| h.command fun _ ht => by
    split
    · exact ht.reply
    · extract_lets w1
      split
      · exact ht.setWindow
      · exact ht.setWindow.closeWindow

theorem State.Canonical.takeData {offset dlen poison : Nat} {last : Bool} {rsv : Nat} {bytes : List Byte} (h : s.Canonical) :
    (s.takeData port window offset dlen poison last rsv bytes).Canonical := by
  unfold State.takeData
  split
  · exact h.jbump
  · refine .ite h (.ite h.jbump.closeWindow (.ite (h.withBootBuf (wf_write h.bootBuf_wf _ _)).setWindow ?_))
    split
    next heq => exact (h.issueUnits.fst_eq heq).setWindow

theorem State.Canonical.takeArrived {vc : Nat} {p : List Byte → Bool} (h : s.Canonical) : (s.takeArrived port vc p).Canonical := h.same

theorem State.Canonical.execAck {offset : Nat} (h : s.Canonical) : NextCanonical (execAck port window offset s) := by
  unfold Machine.execAck
  refine .next ?_
  split
  · exact h
  · exact .ite h h.setWindow.putDone.sendData.settleWindow

theorem State.Canonical.execWindowDrainBound (h : s.Canonical) : NextCanonical (execWindowDrainBound port window s) := by
  unfold Machine.execWindowDrainBound
  refine .next ?_
  split
  · exact h
  · split
    · exact h
    · exact .ite h h.endWindow

theorem State.Canonical.fillStep {pattern : Word} (h : s.Canonical) : (s.fillStep d addr length pattern).Canonical :=
  .ite h.commit.finishCmd h.sendRequest

theorem State.Canonical.execFill {pattern : Word} (h : s.Canonical) : NextCanonical (execFill hdr addr length pattern s) :=
  .next <| h.command fun _ ht => by
    extract_lets s1
    have h1 : s1.Canonical := ht.begin
    split
    · exact h1.fillStep
    · exact h1

theorem State.Canonical.fillReply {m : HubRep} (h : s.Canonical) : ∀ t ∈ s.fillReply m, t.Canonical := by
  intro t ht
  obtain ⟨d, -, rfl⟩ := Option.map_eq_some_iff.1 ht
  split
  · exact .ite h.finishCmd (.ite h.finishCmd h.setDeferred.fillStep)
  · exact h

end Sys2Proof.Machine
end

section
/-! PROOFS. Clocks and panel time keep the canonical form (R390). -/

namespace Sys2Proof.Machine

variable {s : State} {site : Nat}

theorem State.Canonical.noAnswer {hdr : CmdHdr} {op : Nat} {cmd : Instr} (h : s.Canonical) : (s.noAnswer hdr op cmd site).Canonical :=
  h.bump.notify.same

theorem State.Canonical.csrWrite {hdr : CmdHdr} {cmd : Instr} {ok : Bool} {body : State → State} (h : s.Canonical) (hbody : ∀ t, t.Canonical →
    (body t).Canonical) :
    (s.csrWrite hdr cmd site ok body).Canonical :=
  h.command fun t ht => .ite (hbody t ht).reply ht.noAnswer

theorem State.Canonical.lowerCode {code : Nat} (h : s.Canonical) : (s.lowerCode site code).Canonical := .ite h.put.bump.put.put h
theorem State.Canonical.settleCode (h : s.Canonical) : (s.settleCode site).Canonical := .ite h.lowerCode h

theorem State.Canonical.execMarginWarning {core mon slack : Nat} (h : s.Canonical) : NextCanonical (execMarginWarning site core mon slack s) := by
  unfold Machine.execMarginWarning
  refine .next ?_
  split
  · exact h
  · extract_lets s0 s1 s2
    have h0 : s0.Canonical := .ite h.put.put h
    have h1 : s1.Canonical := h0.bump.bump
    have h2 : s2.Canonical := .ite h1.put.put.put h1
    exact h2.lowerCode

theorem State.Canonical.minReset (h : s.Canonical) : (s.minReset site).Canonical := h.put
theorem State.Canonical.slackMinReset (h : s.Canonical) : (s.slackMinReset site).Canonical := h.put
theorem State.Canonical.putSlew {v : Int} (h : s.Canonical) : (s.putSlew site v).Canonical := h.put.putFlag
theorem State.Canonical.sendTime {step : Bool} {value : Nat} {neg : Bool} (h : s.Canonical) : (s.sendTime step value neg).Canonical := h.same

theorem State.Canonical.execTimeUpdate {step : Bool} {value : Nat} {neg : Bool} {edge : Nat} (h : s.Canonical) :
    NextCanonical (execTimeUpdate site step value neg edge s) := by
  unfold Machine.execTimeUpdate
  extract_lets +onlyGivenNames u s0
  have h0 : s0.Canonical := h.same
  refine .next ?_
  split
  · exact h
  · extract_lets late s1
    have h1 : s1.Canonical := .ite h0.bump h0
    exact .ite h1.same (.putSlew <| .ite h1.put h1)

theorem State.Canonical.correct {count : Nat} (h : s.Canonical) : (s.correct site count).Canonical := by
  unfold State.correct
  extract_lets k due s1
  have h1 : s1.Canonical := h.put.put
  split
  next s2 e stepped heq =>
    have h2 : s2.Canonical := by
      split at heq <;> obtain ⟨rfl, -⟩ := Prod.mk.inj heq
      · exact .putSlew <| h1.same
      · exact h1.putSlew
    extract_lets target diff s3 s4 s5
    have h4 : s4.Canonical := h2.put.put.putFlag
    exact .ite (.ite h4.bump.put.notify h4.bump) h4

theorem State.Canonical.answerSetTime (h : s.Canonical) : s.answerSetTime.Canonical := h.same.foldl fun _ _ ht => ht.answer

theorem State.Canonical.bringupDone (h : s.Canonical) : s.bringupDone.Canonical := by
  unfold State.bringupDone
  extract_lets s1
  have h1 : s1.Canonical := .ite h.put h
  exact .ite h1.free.put.put.notifyCtl h1

theorem State.Canonical.bringupFail {row arg1 : Nat} (h : s.Canonical) : (s.bringupFail row arg1).Canonical := h.notifyCtl

end Sys2Proof.Machine
end

section
/-! PROOFS. What a Jorzen port and the panel fabric do keeps the canonical form (R301, R304). -/

namespace Sys2Proof.Machine

variable {s : State} {lane port : Nat} {m : HubRep} {nak : Bool} {f : Frame} {fs : List Frame} {hdr : CmdHdr}

theorem State.Canonical.emit {m : PortMsg} (h : s.Canonical) : (s.emit port m).Canonical := h.same
theorem State.Canonical.sendCtrl (h : s.Canonical) : (s.sendCtrl port nak).Canonical := h.emit.foldl fun _ _ ht => ht.jput

theorem State.Canonical.sendRsp (h : s.Canonical) : (s.sendRsp port m).Canonical := by
  unfold State.sendRsp
  split
  · exact h.queueFrame
  · exact h.jbump

theorem State.Canonical.requestEnds {status : Nat} (h : s.Canonical) : (s.requestEnds port f status).Canonical := by
  unfold State.requestEnds
  extract_lets r s1
  have h1 : s1.Canonical := h.countAnswer
  split
  · split
    · exact h1.proxyEnd
    · exact h1
  · exact h1.sendRsp

theorem State.Canonical.failover {alt : Nat} {t : TxFrame} (h : s.Canonical) : (s.failover port alt t).1.Canonical := .jbump <| h.same

theorem State.Canonical.cmdLost {dpanel op tag seq status : Nat} (h : s.Canonical) : (s.cmdLost dpanel op tag seq status).Canonical := by
  unfold State.cmdLost
  split
  next t ht => exact h.castMember t ht
  · split
    · exact h.emitReply
    · exact h

theorem State.Canonical.cmdsLost {ts : List TxFrame} (h : s.Canonical) : (s.cmdsLost ts).Canonical := h.foldl fun _ _ ht => ht.cmdLost

theorem State.Canonical.dropFrames {und dbt : Nat} {ts : List TxFrame} (h : s.Canonical) : (s.dropFrames port und dbt ts).Canonical := by
  unfold State.dropFrames
  split
  next s1 again heq =>
    have h1 : s1.Canonical := by
      refine .fst_eq ?_ heq
      refine .foldl_fst h ?_
      rintro ⟨s, again⟩ t hp
      dsimp only at hp ⊢
      split
      · split
        · exact .mk_fst hp.failover
        · exact hp.requestEnds
      · split
        · exact hp.jbump
        · split
          · exact hp.bump
          · exact hp
    exact h1.cmdsLost.same.foldl fun _ _ ht => ht.pump

theorem State.Canonical.takeFramesOf {p : TxFrame → Bool} (h : s.Canonical) : (s.takeFramesOf port p).2.Canonical := h.same

theorem State.Canonical.disablePort (h : s.Canonical) : (s.disablePort port).Canonical := by
  unfold State.disablePort
  extract_lets train s1 s2
  have h2 : s2.Canonical := h.jput.jput.jput.jset.jset.same
  split
  · exact h2.finishCmd
  · exact h2

theorem State.Canonical.drainCheck (h : s.Canonical) : (s.drainCheck port).Canonical := .ite h.disablePort h

theorem State.Canonical.linkPortDown {cause : Nat} (h : s.Canonical) : (s.linkPortDown port cause).Canonical := by
  unfold State.linkPortDown
  extract_lets draining
  split
  · exact h
  · split
    next heq =>
      extract_lets s2 s3 s4 s5
      have h5 : s5.Canonical := (h.takeFramesOf.snd_eq heq).same.jput.jput.jput.emit.emit.emit.dropFrames.windowsDown.notify
      exact .ite h5.disablePort h5

theorem State.Canonical.startDrain {mine : Bool} (h : s.Canonical) : (s.startDrain port mine).Canonical := by
  unfold State.startDrain
  extract_lets s1 s2
  have h1 : s1.Canonical := h.jput.jset
  have h2 : s2.Canonical := .ite h1.emit h1
  exact h2.takeFramesOf.dropFrames.closeWindows.drainCheck

theorem State.Canonical.takeAck {a : Nat} (h : s.Canonical) : (s.takeAck port a).Canonical := .ite h h.same.jput.pump.settleReads.drainCheck

theorem State.Canonical.startReplay (h : s.Canonical) : (s.startReplay port nak).Canonical := by
  unfold State.startReplay
  extract_lets +onlyGivenNames acked n
  split
  · exact h
  · extract_lets s1 mark
    have h1 : s1.Canonical := h.jset.jput.jput.jbump
    exact .ite h1.same.linkPortDown h1.same.jset

theorem State.Canonical.finishReplay (h : s.Canonical) : (s.finishReplay port).Canonical := .ite h.same.jset.pump h.pump
theorem State.Canonical.freeWords (h : s.Canonical) : (s.freeWords port f).Canonical := h.jput

theorem State.Canonical.discard {fld : Fld} (h : s.Canonical) : (s.discard port f fld).Canonical := by
  unfold State.discard
  extract_lets s1
  have h1 : s1.Canonical := h.jbump.notify
  exact .ite h1.sendRsp h1

theorem State.Canonical.transit (h : s.Canonical) : (s.transit port f).Canonical := by
  unfold State.transit
  split
  · exact h.discard
  · split
    · exact h.queueFrame
    · exact h.discard

theorem State.Canonical.arriveAt (h : s.Canonical) : (s.arriveAt port lane f).Canonical := h.same

theorem State.Canonical.bridge {dpanel : Nat} {key : Nat × Nat × Nat} (h : s.Canonical) : (s.bridge port dpanel fs key).Canonical := by
  unfold State.bridge
  split
  · exact h.foldl fun _ _ ht => ht.queueCmd
  · exact h.cmdLost

theorem State.Canonical.castStart (h : s.Canonical) : (s.castStart port lane hdr fs).Canonical := by
  unfold State.castStart
  extract_lets key c s1 s2 s3
  have h3 : s3.Canonical := h.answer.same.countDeferred.foldl fun _ _ ht => .ite (ht.foldl fun _ _ ht1 => ht1.arriveAt) ht.bridge
  exact .ite h3.castEnd h3

theorem State.Canonical.teamcast {bs : List Byte} (h : s.Canonical) : (s.teamcast port lane fs bs).Canonical :=
  .ite h.badCrc (.ite h.unknown (h.command fun _ ht => ht.castStart))

theorem State.Canonical.bridgedReply {bs : List Byte} (h : s.Canonical) : (s.bridgedReply fs bs).Canonical := by
  unfold State.bridgedReply
  extract_lets sp op tag seq waits
  split
  · exact .ite (h.getD h.castMember) h
  · split
    · exact h.foldl fun _ _ ht => ht.queueFrame
    · exact h

theorem State.Canonical.cmdPacket (h : s.Canonical) : (s.cmdPacket port lane fs).Canonical := by
  unfold State.cmdPacket
  extract_lets bs
  split
  · exact h
  · exact .ite h.teamcast (.ite (.ite h.bridge (h.foldl fun _ _ ht => ht.transit)) (.ite (.ite h.bridgedReply h) (h.foldl fun _ _ ht =>
      ht.arriveAt)))

theorem State.Canonical.cmdFrame (h : s.Canonical) : (s.cmdFrame port lane f).Canonical := .ite h.same h.same.cmdPacket

theorem State.Canonical.inject (h : s.Canonical) : (s.inject port lane f).Canonical := by
  unfold State.inject
  split
  · exact h.cmdFrame
  · split
    · exact h.transit
    · split
      · exact h.same
      · split
        · exact h.same
        · split
          · exact h.arriveAt
          · split
            · exact h.queueFrame
            · exact h.bump

theorem State.Canonical.deliver (h : s.Canonical) : (s.deliver port lane f).Canonical := .ite h.freeWords.jbump (.ite h.same h.freeWords.inject)
theorem State.Canonical.releaseArrived (h : s.Canonical) : s.releaseArrived.Canonical := h.same.foldl fun _ _ ht => ht.freeWords.inject
theorem State.Canonical.lose (h : s.Canonical) : (s.lose port).Canonical := h.same.jset.jbump.sendCtrl

theorem State.Canonical.acceptFrames {n : Nat} (h : s.Canonical) : (acceptFrames n s port lane f).Canonical := by
  induction n generalizing s lane f with
  | zero => exact h
  | succ n ih =>
    unfold Machine.acceptFrames
    extract_lets next s1
    have h1 : s1.Canonical := h.jput.jset.deliver
    split
    · exact ih h1.same
    · exact h1

theorem State.Canonical.takeFrame (h : s.Canonical) : (s.takeFrame port lane f).Canonical :=
  .ite h (.ite (.ite h h.acceptFrames) (.ite h (.ite h.lose (.ite h h.same))))

theorem State.Canonical.execCtrl {freed : List Nat} (h : s.Canonical) : NextCanonical (execCtrl port f nak freed s) := by
  unfold Machine.execCtrl
  refine .next ?_
  split
  · exact h
  · extract_lets s1 s2
    have h2 : s2.Canonical := h.takeAck.foldl fun _ _ ht => ht.jput
    exact .ite h2.startReplay h2.pump

theorem State.Canonical.narrow {arg : Nat} (h : s.Canonical) : (s.narrow port arg).Canonical := .notify <| .ite h.jput h

theorem State.Canonical.retireTx {sets : Nat} (h : s.Canonical) : (s.retireTx port sets).Canonical := by
  unfold State.retireTx
  extract_lets base s1
  have h1 : s1.Canonical := h.jput.jput
  exact h1.emit.narrow.startReplay

theorem State.Canonical.retireRx {sets : Nat} (h : s.Canonical) : (s.retireRx port sets).Canonical :=
  .narrow <| .emit <| .jset <| .jput <| .ite h.lose h

theorem State.Canonical.laneFails (h : s.Canonical) : (s.laneFails port lane).Canonical := by
  unfold State.laneFails
  extract_lets +onlyGivenNames sets left
  split
  · exact h
  · extract_lets s1
    have h1 : s1.Canonical := h.jset
    exact .ite h1 (.ite h1.linkPortDown h1.retireRx)

theorem State.Canonical.limitPort (h : s.Canonical) : (s.limitPort port).Canonical := by
  unfold State.limitPort
  extract_lets +onlyGivenNames tx rx
  split
  · exact h
  · split
    · exact h.linkPortDown
    · extract_lets s1
      have h1 : s1.Canonical := .ite h h.retireRx
      exact .ite h1 h1.retireTx

theorem State.Canonical.execMgmtRepeat (h : s.Canonical) : NextCanonical (execMgmtRepeat port s) := by
  unfold Machine.execMgmtRepeat
  refine .next ?_
  split
  · exact h
  · extract_lets s1
    have h1 : s1.Canonical := .ite h.emit h
    exact .ite h1.emit h1

theorem State.Canonical.marginCross {k : Nat} {beyond : Bool} {value : Nat} (h : s.Canonical) :
    (s.marginCross port lane k beyond value).Canonical := by
  unfold State.marginCross
  extract_lets was s1
  have h1 : s1.Canonical := h.jset
  exact .ite h1.notify h1

theorem State.Canonical.badWindow {f : Fld} {bad : Bool} (h : s.Canonical) : (s.badWindow port f bad).Canonical := h.jput

theorem State.Canonical.execFecWindow {rxpow : Int} {bias prefec uncorr : Nat} {lock : Bool} (h : s.Canonical) :
    NextCanonical (execFecWindow port lane rxpow bias prefec uncorr lock s) := by
  unfold Machine.execFecWindow
  refine .next ?_
  split
  · exact h
  · extract_lets pf s1 warn s2 s3 s4 s5
    have h5 : s5.Canonical := h.jput.jput.jput.jput.jset.marginCross.marginCross.marginCross.badWindow.badWindow
    exact .ite h5.laneFails h5

theorem State.Canonical.execReplyTimeout {entry : Nat} (h : s.Canonical) : NextCanonical (execReplyTimeout port entry s) := by
  unfold Machine.execReplyTimeout
  refine .next ?_
  split
  · exact h.jbump.countAnswer.proxyEnd.drainCheck
  · exact h

theorem State.Canonical.linkReply (h : s.Canonical) : (s.linkReply port m).Canonical := by
  unfold State.linkReply
  split
  · exact h.proxyEnd.drainCheck
  · exact h.jbump.getD h.windowReply

theorem State.Canonical.execHubReply (h : s.Canonical) : NextCanonical (execHubReply m s) := by
  unfold Machine.execHubReply
  extract_lets s1
  have h1 : s1.Canonical := h.same
  exact .next <| .ite h (.ite h1.fetchReply (.ite h1.linkReply (.ite (h1.getD h1.fillReply) h1)))

theorem State.Canonical.freshLink (h : s.Canonical) : (s.freshLink port).Canonical :=
  h.clearFlds.clearFlds.clearFlds.jput.same.foldl fun _ _ ht => ht.jset

theorem State.Canonical.portLimits (h : s.Canonical) : (s.portLimits port).Canonical := .ite h.limitPort h

theorem State.Canonical.portUp {tx rx : Nat} (h : s.Canonical) : (s.portUp port tx rx).Canonical :=
  .notify <| h.freshLink.jput.jput.jput.jset.foldl fun _ _ ht => ht.jset

theorem State.Canonical.endPortControl (h : s.Canonical) : (s.endPortControl port).Canonical := by
  unfold State.endPortControl
  split
  · exact h.finishCmd
  · exact h

theorem State.Canonical.execPortTrained {txSets rxSets : BitVec 4} {misplaced : Nat} (h : s.Canonical) :
    NextCanonical (execPortTrained port txSets rxSets misplaced s) := by
  unfold Machine.execPortTrained
  refine .next ?_
  split
  · exact h
  · split
    · extract_lets s1 s2
      have h1 : s1.Canonical := .ite h.notify h
      have h2 : s2.Canonical := .ite h1.bringupFail h1
      exact h2.jset.bringupDone
    · exact h.portUp.endPortControl.portLimits.pump.bringupDone

theorem State.Canonical.half {v : Int} (h : s.Canonical) : (s.half v).2.Canonical := .ite_snd h h.free

theorem State.Canonical.putRoutes {first : Nat} {routes : List (BitVec 32)} (h : s.Canonical) : (s.putRoutes port first routes).Canonical :=
  h.foldl fun _ _ ht => ht.jput

theorem State.Canonical.putTeam {team : List Nat} (h : s.Canonical) : (s.putTeam team).Canonical := h.foldl fun _ _ ht => ht.put.putFlag

theorem State.Canonical.execSetPortRoutes {flags : BitVec 8} {panel captain first : Nat} {team : List Nat} {routes : List (BitVec 32)} {rsv : Nat}
    (h : s.Canonical) :
    NextCanonical (execSetPortRoutes hdr flags port panel captain first team routes rsv s) :=
  .next <| h.command fun _ ht => by
    extract_lets s1 s2 s3 s4
    have h1 : s1.Canonical := .ite ht.put.putFlag ht
    have h2 : s2.Canonical := .ite h1.put.putFlag h1
    have h3 : s3.Canonical := .ite h2.putTeam h2
    have h4 : s4.Canonical := .ite (h3.foldl fun _ _ ht1 => ht1.putRoutes) h3
    exact h4.reply

theorem State.Canonical.portControl {cmd : Instr} {action role : Nat} (h : s.Canonical) : (s.portControl hdr cmd port action role).Canonical := by
  unfold State.portControl
  extract_lets +onlyGivenNames s1
  have h1 : s1.Canonical := h.begin
  split
  · extract_lets s2
    have h2 : s2.Canonical := h1.jput
    split
    · exact h2.finishCmd
    · exact h2
  · exact .ite h1.jput (.ite h1.startDrain h1.disablePort)

theorem State.Canonical.portUnit {site : Nat} {p : Packet} (h : s.Canonical) : (s.portUnit site p).Canonical := by
  unfold State.portUnit
  extract_lets +onlyGivenNames port
  split
  · extract_lets r s1
    have h1 : s1.Canonical := h.same
    exact .ite h (.ite h1.queueFrame h1.proxyTake)
  · exact .ite h h.same.sendRsp

theorem State.Canonical.portUnits (h : s.Canonical) : s.portUnits.Canonical := h.same.foldl fun _ _ ht => ht.portUnit

end Sys2Proof.Machine
end

section
/-! PROOFS. The schedule's rows, and squads with their dies, keep the canonical form (R28, R335). -/

namespace Sys2Proof.Machine

variable {s : State} {cause line n op site w : Nat} {c : CoreRef}

theorem State.Canonical.runWord {w : Slots} (h : s.Canonical) : (s.runWord c w).Canonical := by
  unfold State.runWord
  extract_lets s1
  have h1 : s1.Canonical := h.issueWord
  exact .ite h1.holdThreads h1

theorem State.Canonical.runPl (h : s.Canonical) : (s.runPl c w op).Canonical := h.runWord
theorem State.Canonical.runWt {kind : Nat} (h : s.Canonical) : (s.runWt c w kind).Canonical := h.runWord
theorem State.Canonical.runHuddle {mode : Nat} (h : s.Canonical) : (s.runHuddle c w mode).Canonical := h.runWord
theorem State.Canonical.runQp (h : s.Canonical) : (s.runQp c w op).Canonical := h.runWord
theorem State.Canonical.runMx (h : s.Canonical) : (s.runMx c w op).Canonical := h.runWord

theorem State.Canonical.readRest {ch : Nat} (h : s.Canonical) : (State.readRest n s c ch).Canonical := by
  induction n generalizing s with
  | zero => exact h
  | succ n ih => exact .ite (ih h.readBeat) h

theorem State.Canonical.finishMove {ch : Nat} (h : s.Canonical) : (s.finishMove c ch).Canonical := by
  unfold State.finishMove
  split
  · exact h
  · exact .foldl (.same <| .ite h.readRest h) fun _ _ ht => ht.writeBeat

theorem State.Canonical.stepWord (h : s.Canonical) : (s.stepWord c).Canonical := .ite h.pathRead.cset.cput.runWord h
theorem State.Canonical.continueCore (h : s.Canonical) : (s.continueCore c).Canonical := .ite h.cput.cset h
theorem State.Canonical.flushBeats (h : s.Canonical) : (s.flushBeats c).Canonical := h.same.foldl fun _ _ ht => ht.writeBeat
theorem State.Canonical.idleEngines (h : s.Canonical) : (s.idleEngines c).Canonical := h.endFlights.cput.cset.cput.cset

theorem State.Canonical.execCorePaused (h : s.Canonical) : NextCanonical (execCorePaused c s) := by
  unfold Machine.execCorePaused
  refine .next ?_
  split
  · extract_lets s1
    have h1 : s1.Canonical := h.flushBeats.idleEngines
    exact .ite h1.cput.cput h1
  · exact h

theorem State.Canonical.execCoreEnded (h : s.Canonical) : NextCanonical (execCoreEnded c s) := by
  refine .next (.ite ?_ h)
  extract_lets rest s1 s2
  have hrest {t : State} {ch : Nat} (ht : t.Canonical) : (rest t ch).Canonical := .ite ht.readRest ht
  have h1 : s1.Canonical := (hrest (hrest h)).flushBeats.idleEngines
  have h2 : s2.Canonical := h1.cput.cput
  exact .ite (.ite h2.holdThreads h2) h1

theorem State.Canonical.execHuddleComplete (h : s.Canonical) : NextCanonical (execHuddleComplete line s) := by
  unfold Machine.execHuddleComplete
  extract_lets +onlyGivenNames cores
  refine .next ?_
  split
  · extract_lets s1
    have h1 : s1.Canonical := h.foldl fun _ _ ht => ht.cput
    split
    · exact h1.bump.foldl fun _ _ ht => ht.put
    · exact h1
  · exact h

theorem State.Canonical.patrolLine {k : Nat} (h : s.Canonical) : (s.patrolLine k n).Canonical :=
  h.checkRange.withSramUpset (wf_filter h.checkRange.sramUpset_wf _)

theorem State.Canonical.execSramPatrolRead {unit : Nat} (h : s.Canonical) : NextCanonical (execSramPatrolRead site unit line s) := by
  unfold Machine.execSramPatrolRead
  extract_lets +onlyGivenNames q
  refine .next ?_
  split
  · exact .ite h.patrolLine h
  · split
    · extract_lets s1
      have h1 : s1.Canonical := h.patrolLine
      exact .ite h1.qbump h1
    · exact h

theorem State.Canonical.putFields {fs : List Fld} (h : s.Canonical) : (s.putFields site fs w).Canonical := h.foldl fun _ _ ht => ht.put
theorem State.Canonical.setSquad {st : Nat} (h : s.Canonical) : (s.setSquad n st).Canonical := h.put
theorem State.Canonical.freezeCore (h : s.Canonical) : (s.freezeCore c).Canonical := .ite h.cput.cput h
theorem State.Canonical.haltCore (h : s.Canonical) : (s.haltCore c).Canonical := h.freezeCore.haltThreads

theorem State.Canonical.latchDie (h : s.Canonical) : (s.latchDie line site).Canonical := by
  unfold State.latchDie
  extract_lets s1
  have h1 : s1.Canonical := h.setBit.put
  split
  · exact .ite h1.put (h1.foldl fun _ _ ht => ht.haltCore)
  · exact h1.foldl fun _ _ ht => ht.haltCore

theorem State.Canonical.latchLine (h : s.Canonical) : (s.latchLine line).Canonical := by
  unfold State.latchLine
  extract_lets s1
  have h1 : s1.Canonical := h.foldl fun _ _ ht => ht.latchDie
  exact .ite h1.driveLine h1.clrBit

theorem State.Canonical.clearLatches (h : s.Canonical) : (s.clearLatches n).Canonical := h.put.foldl fun _ _ ht => ht.put
theorem State.Canonical.clearCore {lo hi : Nat} (h : s.Canonical) : (s.clearCore c lo hi).Canonical := h.clearFlds

theorem State.Canonical.clearCoreState (h : s.Canonical) : (s.clearCoreState c).Canonical :=
  h.clearCore.clearCore.clearCore.clearCore.clearCore.cput.cput.cput

theorem State.Canonical.rebuildPool {q : CluRef} (h : s.Canonical) : (s.rebuildPool q).Canonical := by
  unfold State.rebuildPool
  extract_lets s1 on s2
  have h2 : s2.Canonical := h.clearFlds.clearFlds.foldl fun _ _ ht => ht.qput
  clear_value s2
  exact (h2.withQueues (rising_filter _ h2.queues_rising)).qput.qput.qput.qput

theorem State.Canonical.clearDie (h : s.Canonical) : (s.clearDie site).Canonical :=
  .put <| .put <| .rebuildPool <| .rebuildPool <| h.wipeDie.foldl fun _ _ ht => ht.clearCoreState

theorem State.Canonical.startClear (h : s.Canonical) : (s.startClear site).Canonical := .ite h.put h
theorem State.Canonical.dieOff (h : s.Canonical) : (s.dieOff site).Canonical := h.wipeDie.clearFlds.clearFlds.put.put.put.put.put.put
theorem State.Canonical.kickCore (h : s.Canonical) : (s.kickCore c).Canonical := .ite h.cput.startThreads h
theorem State.Canonical.resumeCore (h : s.Canonical) : (s.resumeCore c).Canonical := .resumeThreads <| .ite h.cput.cset.cset h

theorem State.Canonical.squadRuns {core : State → CoreRef → State} (h : s.Canonical) (hcore : ∀ t c, t.Canonical → (core t c).Canonical) :
    (s.squadRuns n core).Canonical :=
  .put <| .bump <| h.setSquad.foldl fun _ _ ht => ht.put.put.foldl hcore

theorem State.Canonical.kickSquad (h : s.Canonical) : (s.kickSquad n).Canonical := h.squadRuns fun _ _ ht => ht.kickCore
theorem State.Canonical.resumeSquad (h : s.Canonical) : (s.resumeSquad n).Canonical := h.squadRuns fun _ _ ht => ht.resumeCore

theorem State.Canonical.requestPause (h : s.Canonical) : (s.requestPause n).Canonical :=
  h.put.foldl fun _ _ ht => ht.foldl fun _ _ ht1 => .ite ht1.holdThreads ht1

theorem State.Canonical.squadPaused (h : s.Canonical) : (s.squadPaused n).Canonical := h.setSquad.put.foldl fun _ _ ht => ht.put

theorem State.Canonical.cancelPause (h : s.Canonical) : (s.cancelPause n).Canonical :=
  h.put.foldl fun _ _ ht => ht.foldl fun _ _ ht1 => .resumeCore <| .ite ht1.cput.cset.cset ht1

theorem State.Canonical.squadStops (h : s.Canonical) : (s.squadStops n).Canonical := .notifyCtl <| h.setSquad.put.foldl fun _ _ ht => ht.put
theorem State.Canonical.stopNow {source : Nat} (h : s.Canonical) : (s.stopNow n cause source).Canonical := h.put.put.put.squadStops
theorem State.Canonical.whistleSquad (h : s.Canonical) : (s.whistleSquad n cause).Canonical := h.driveLine
theorem State.Canonical.stopSquad (h : s.Canonical) : (s.stopSquad n cause).Canonical := .ite h.whistleSquad (.ite h.stopNow h)
theorem State.Canonical.reportSkew (h : s.Canonical) : (s.reportSkew n).Canonical := h.foldl fun _ _ ht => ht.notify

theorem State.Canonical.shotClock (h : s.Canonical) : (s.shotClock site).Canonical := by
  unfold State.shotClock
  split
  · exact .ite h.put.put.whistle.notify.reportSkew h
  · exact h

theorem State.Canonical.execHaltNRelease (h : s.Canonical) : NextCanonical (execHaltNRelease s) := by
  unfold Machine.execHaltNRelease
  extract_lets s1
  have h1 : s1.Canonical := h.put
  exact .next <| h.ifReleased (.ite (.ite h1.clrBit h1) h)

end Sys2Proof.Machine
end

section
/-! PROOFS. Program images, evacuation and the commands of the runs group keep the canonical form (R323, R345, R365). -/

namespace Sys2Proof.Machine

variable {s : State} {epoch ldie n site : Nat} {xs : List Section} {hdr : CmdHdr}

theorem State.Canonical.memWrite {a : Nat} {bs : List (Byte × Bool)} (h : s.Canonical) : (s.memWrite a bs).Canonical := h.writePieces
theorem State.Canonical.leaveSquad (h : s.Canonical) : (s.leaveSquad site).Canonical := h.put.put.put
theorem State.Canonical.joinSquad (h : s.Canonical) : (s.joinSquad n site).Canonical := h.put.put.put

theorem State.Canonical.mapSquad (h : s.Canonical) : (s.mapSquad n epoch).Canonical :=
  .clearLatches <| .foldl (.put <| .put <| .put <| .put <| .put <| .put <| .put <| .foldl (h.foldl fun _ _ ht => ht.leaveSquad) fun _ _ ht =>
    ht.put) fun _ _ ht => ht.joinSquad

theorem State.Canonical.switchCluster {q : CluRef} {no : Nat} (h : s.Canonical) : (s.switchCluster xs q no epoch).Canonical := by
  unfold State.switchCluster
  extract_lets held off s1 put s2 on s3 s4
  have h2 : s2.Canonical := h.clearFlds.qput.foldl fun _ _ ht => ht.putFields.putFields.putFields.qput
  have h3 : s3.Canonical := h2.foldl fun _ _ ht => ht.qput
  have h4 : s4.Canonical := h3.withQueues (rising_filter _ h3.queues_rising)
  exact h4.qput.qput.qput.qput.qput

theorem State.Canonical.switchSquad (h : s.Canonical) : (s.switchSquad xs epoch n).Canonical :=
  h.mapSquad.foldl fun _ _ ht => by
    split
    · exact ht.switchCluster.switchCluster
    · exact ht

theorem State.Canonical.resetCore {c : CoreRef} (h : s.Canonical) : (s.resetCore c).Canonical := h.clearCore.clearCore.clearCore.clearCore.same

theorem State.Canonical.loadCore {c : CoreRef} {no : Nat} {e : SquadEntry} (h : s.Canonical) : (s.loadCore xs c no epoch e n).Canonical :=
  .cput <| .cput <| .cput <| .cput <| .cput <| .foldl (.foldl (.foldl (h.resetCore.wrP.wrP.wrP.clearSram.clearSram.clearSram.foldl fun _ _ ht =>
    ht.cput.cput) fun _ _ ht => ht.putFields) fun _ _ ht => ht.cput.cput.cput.cput) fun _ _ ht => ht.cput.cput.foldl fun _ _ ht1 => ht1.cput

theorem State.Canonical.preload {x : Section} (h : s.Canonical) : (s.preload site ldie x).Canonical := .ite h.wrP (.ite h.wrP h)

theorem State.Canonical.loadDie (h : s.Canonical) : (s.loadDie xs n ldie site).Canonical :=
  .qput <| .qput <| .foldl (h.foldl fun _ _ ht => ht.loadCore) fun _ _ ht => ht.preload

theorem State.Canonical.loadHubs {clear : Bool} (h : s.Canonical) : (s.loadHubs clear).Canonical :=
  h.foldl fun _ _ ht => by
    extract_lets site s1 s2
    have h2 : s2.Canonical := ht.put.foldl fun _ _ ht1 => ht1.putFields.putFields
    exact .ite h2.clearFlds h2

theorem State.Canonical.loadSquad (h : s.Canonical) : (s.loadSquad xs n).Canonical :=
  h.foldl fun _ _ ht => by
    split
    · exact ht.loadDie
    · exact ht

theorem State.Canonical.putSnapshot {x : Snapshot} (h : s.Canonical) : (s.putSnapshot x site).Canonical := by
  obtain ⟨hf, hq, hr⟩ := State.canonical_maps h
  exact State.canonical_of_maps ⟨rising_put (rising_filter _ hf) _, rising_put (rising_filter _ hq) _, hr⟩

theorem State.Canonical.saveDie (h : s.Canonical) : (s.saveDie ldie site).Canonical :=
  .same <| .foldl (h.foldl fun _ _ ht => ht.memWrite) fun _ _ ht => ht.memWrite

theorem State.Canonical.rewriteEpoch (h : s.Canonical) : (s.rewriteEpoch site epoch).Canonical := by
  unfold State.rewriteEpoch
  extract_lets s1 s2 mine
  have h1 : s1.Canonical := h.foldl fun _ _ ht => ht.cput
  have h2 : s2.Canonical := h1.qput.qput
  clear_value s2
  obtain ⟨hf, hq, hr⟩ := State.canonical_maps h2
  exact State.canonical_of_maps ⟨hf, rising_map (fun e => by split <;> rfl) hq, hr⟩

theorem State.Canonical.restoreDie (h : s.Canonical) : (s.restoreDie ldie site epoch).Canonical :=
  .rewriteEpoch <| .putSnapshot <| h.foldl fun _ _ ht => ht.wrP

theorem State.Canonical.saveSquads {ns : List Nat} (h : s.Canonical) : (s.saveSquads ns).Canonical :=
  .memWrite <| .put <| .put <| h.foldl fun _ _ ht => ht.put.foldl fun _ _ ht1 => by
    split
    · exact ht1.saveDie
    · exact ht1

theorem State.Canonical.withDeferred {op : Nat} {f : State → Deferred → State} (h : s.Canonical) (hf : ∀ t d, t.Canonical → (f t d).Canonical) :
    (s.withDeferred hdr op f).Canonical := by
  unfold State.withDeferred
  split
  · exact hf _ _ h
  · exact h

theorem State.Canonical.execLoadImage {base length digest : Nat} (h : s.Canonical) : NextCanonical (execLoadImage hdr base length digest s) :=
  .next <| h.command fun _ ht => by
    extract_lets s1
    have h1 : s1.Canonical := ht.begin.put
    exact .ite h1 (h1.withDeferred fun _ _ ht => ht.finishCmd)

theorem State.Canonical.execLoadImageHashed (h : s.Canonical) : NextCanonical (execLoadImageHashed s) := by
  unfold Machine.execLoadImageHashed
  refine .next ?_
  split
  · split
    · exact .ite h.put.put.put.put.put.finishCmd h.finishCmd
    · exact h
  · exact h

theorem State.Canonical.execConfigure {squads : BitVec 16} {rsv : Nat} (h : s.Canonical) : NextCanonical (execConfigure hdr squads rsv s) :=
  .next <| h.command fun _ ht => ht.begin.withDeferred fun _ _ ht => by
    split
    · exact ht.finishCmd
    · exact ht

theorem State.Canonical.execConfigureDrainEnd (h : s.Canonical) : NextCanonical (execConfigureDrainEnd s) := by
  unfold Machine.execConfigureDrainEnd
  refine .next ?_
  split
  · exact h.setDeferred.put.foldl fun _ _ ht => ht.switchSquad
  · exact h

theorem State.Canonical.execConfigureDone (h : s.Canonical) : NextCanonical (execConfigureDone s) := by
  unfold Machine.execConfigureDone
  refine .next ?_
  split
  · exact .finishCmd <| .foldl (h.loadHubs.foldl fun _ _ ht => ht.loadSquad) fun _ _ ht => ht.setSquad
  · exact h

theorem State.Canonical.advancePause {d : Deferred} (h : s.Canonical) : (s.advancePause d).Canonical := .ite h (.ite h.finishCmd h.setDeferred)

theorem State.Canonical.requestPauses {mask : Nat} (h : s.Canonical) : (s.requestPauses mask).Canonical :=
  h.foldl fun _ _ ht => .ite ht.requestPause ht

theorem State.Canonical.restoreSquad (h : s.Canonical) : (s.restoreSquad epoch n).Canonical :=
  .resumeSquad <| h.mapSquad.foldl fun _ _ ht => by
    split
    · exact ht.restoreDie
    · exact ht

theorem State.Canonical.execRestoreDone (h : s.Canonical) : NextCanonical (execRestoreDone s) := by
  unfold Machine.execRestoreDone
  refine .next ?_
  split
  · exact .finishCmd <| h.put.loadHubs.foldl fun _ _ ht => ht.restoreSquad
  · exact h

theorem State.Canonical.advanceStop {d : Deferred} (h : s.Canonical) : (s.advanceStop d).Canonical := by
  unfold State.advanceStop
  extract_lets mask
  split
  · exact h
  · split
    · exact h.setDeferred.foldl fun _ _ ht => ht.startClear
    · exact h.finishCmd

theorem State.Canonical.startPanelScrub (h : s.Canonical) : s.startPanelScrub.Canonical :=
  .put <| .foldl (h.closeWindows.foldl fun _ _ ht => .ite ht.startZeroScrub ht) fun _ _ ht => ht.startClear

theorem State.Canonical.scrubSquads {ns : List Nat} (h : s.Canonical) : (s.scrubSquads ns).Canonical :=
  h.foldl fun _ _ ht => .ite ht.setSquad.clearLatches ht

theorem State.Canonical.panelScrubbed (h : s.Canonical) : s.panelScrubbed.Canonical :=
  .put <| .put <| .put <| .put <| .put <| .foldl (h.same.foldl fun _ _ ht => ht.countEntries) fun _ _ ht => ht.setSquad.put

theorem State.Canonical.execScrub {squads : BitVec 16} {scope rsv : Nat} (h : s.Canonical) : NextCanonical (execScrub hdr squads scope rsv s) :=
  .next <| h.command fun _ ht => by
    extract_lets s1
    have h1 : s1.Canonical := ht.begin
    exact .ite h1.startPanelScrub (h1.foldl fun _ _ ht1 => ht1.startClear)

end Sys2Proof.Machine
end

section
/-! PROOFS. Power-up, fabric timeouts and the roster keep the canonical form (R379, R411). -/

namespace Sys2Proof.Machine

variable {s : State} {site status : Nat} {r : TimeoutRun} {x : Subst}

theorem State.Canonical.applyCeiling (h : s.Canonical) : (s.applyCeiling site).Canonical := h.put.settleCode

theorem State.Canonical.powerOn (h : s.Canonical) : (s.powerOn site).Canonical := by
  unfold State.powerOn
  extract_lets s1 s2 s3 s4 s5
  have h1 : s1.Canonical := h.put.put
  have h2 : s2.Canonical := .ite h1.put h1.put
  have h3 : s3.Canonical := h2.foldl fun _ _ ht => ht.put.put
  exact h3.unset.unset.unset.unset.applyCeiling.free.put

theorem State.Canonical.linkOff (h : s.Canonical) : (s.linkOff site).Canonical := by
  unfold State.linkOff
  extract_lets p s1 s2
  have h1 : s1.Canonical := h.linkPortDown
  have h2 : s2.Canonical := .ite h1.jput h1
  exact h2.put.put.put.put

theorem State.Canonical.switchOff (h : s.Canonical) : (s.switchOff site).Canonical := .ite h.dieOff (.ite h.linkOff h)
theorem State.Canonical.markAdmit {block : Nat} (h : s.Canonical) : (s.markAdmit block).Canonical := h.putFlag
theorem State.Canonical.askPower {why : Nat} (h : s.Canonical) : (s.askPower site why).Canonical := .ite h h.same.markAdmit
theorem State.Canonical.dropPower (h : s.Canonical) : (s.dropPower site).Canonical := h.same.markAdmit
theorem State.Canonical.phasePower {phase : Nat} (h : s.Canonical) : (s.phasePower site phase).Canonical := h.same
theorem State.Canonical.loseSquad {n cause : Nat} (h : s.Canonical) : (s.loseSquad n cause).Canonical := .ite h.stopNow h.whistleSquad
theorem State.Canonical.enterTimeout (h : s.Canonical) : (s.enterTimeout r).Canonical := .same <| h.same.foldl fun _ _ ht => ht.putFlag
theorem State.Canonical.startTimeout (h : s.Canonical) : (s.startTimeout r).Canonical := .ite h.same h.enterTimeout
theorem State.Canonical.dropWaiting {kind : Nat} (h : s.Canonical) : (s.dropWaiting kind site).Canonical := h.same
theorem State.Canonical.freshPort {port : Nat} (h : s.Canonical) : (s.freshPort site port).Canonical := h.same.clearFlds.put.put.put

theorem State.Canonical.putAlive {alive : List Bool} (h : s.Canonical) : (s.putAlive alive).Canonical :=
  .foldl (h.foldl fun _ _ ht => ht.putFlag.putFlag) fun _ _ ht => ht.freshPort

theorem State.Canonical.putTables (h : s.Canonical) : (s.putTables r).Canonical := by
  unfold State.putTables
  extract_lets alive sites fenced s1 s2 s3
  have h1 : s1.Canonical := .ite h h.putAlive
  have h2 : s2.Canonical := h1.foldl fun _ _ ht => ht.put
  have h3 : s3.Canonical := h2.foldl fun _ _ ht => ht.putFlag
  split
  · exact h3.foldl fun _ _ ht => ht.put
  · exact h3

theorem State.Canonical.leaveTimeout (h : s.Canonical) : s.leaveTimeout.Canonical :=
  .releaseArrived <| .portUnits <| .foldl (h.same.foldl fun _ _ ht => ht.putFlag) fun _ _ ht => ht.settle

theorem State.Canonical.nextTimeout (h : s.Canonical) : s.nextTimeout.Canonical := by
  unfold State.nextTimeout
  split
  · exact .ite h h.same.enterTimeout
  · exact h

theorem State.Canonical.timeoutNotice {sites : List Nat} (h : s.Canonical) : (s.timeoutNotice sites).Canonical := h.notifyCtl

theorem State.Canonical.endTimeoutCmd {words : List Nat} (h : s.Canonical) : (s.endTimeoutCmd status words).Canonical := by
  unfold State.endTimeoutCmd
  split
  · exact h.finishCmd
  · exact h

theorem State.Canonical.execFabricTimeout {hdr : CmdHdr} {tables : TimeoutTables} {rsv : Nat} (h : s.Canonical) :
    NextCanonical (execFabricTimeout hdr tables rsv s) :=
  .next <| h.command fun _ ht => by
    extract_lets s1 s2
    have h1 : s1.Canonical := ht.begin
    have h2 : s2.Canonical := .ite (h1.foldl fun _ _ ht1 => ht1.whistleSquad) h1
    exact h2.startTimeout

theorem State.Canonical.countRoster (h : s.Canonical) : s.countRoster.Canonical := h.put.put.put
theorem State.Canonical.setSite {st : Nat} (h : s.Canonical) : (s.setSite site st).Canonical := h.put.countRoster

theorem State.Canonical.placeDie {ldie : Nat} {placed : Bool} (h : s.Canonical) : (s.placeDie ldie site placed).Canonical :=
  h.put.putFlag.put.countRoster

theorem State.Canonical.showSubst (h : s.Canonical) : s.showSubst.Canonical := by
  unfold State.showSubst
  split <;> exact h.put.put.put.put.put

theorem State.Canonical.stepSubst {step : Nat} (h : s.Canonical) : (s.stepSubst x step).Canonical := h.same.showSubst
theorem State.Canonical.removeSubst (h : s.Canonical) : (s.removeSubst x).Canonical := h.same.dropPower.dropWaiting.showSubst

theorem State.Canonical.replySubst (h : s.Canonical) : (s.replySubst x status).Canonical := by
  unfold State.replySubst
  split
  · exact h
  · split
    · exact h.finishCmd
    · exact h

theorem State.Canonical.cutTimeout (h : s.Canonical) : (s.cutTimeout x).Canonical := by
  unfold State.cutTimeout
  split
  · exact .ite h.leaveTimeout.nextTimeout h
  · exact h

theorem State.Canonical.fenceSite (h : s.Canonical) : (s.fenceSite site).Canonical := by
  unfold State.fenceSite
  extract_lets s1 s2
  have h2 : s2.Canonical := h.putFlag.dieOff.leaveSquad.setSite.dropPower
  split
  · exact h2.put
  · exact h2

theorem State.Canonical.unwindSubst {fence : Bool} (h : s.Canonical) : (s.unwindSubst x fence).Canonical := by
  unfold State.unwindSubst
  extract_lets s1
  have h1 : s1.Canonical := h.cutTimeout.removeSubst
  exact .ite h1.fenceSite (.ite h1.dieOff.setSite h1)

theorem State.Canonical.squadBack (h : s.Canonical) : (s.squadBack x).Canonical := by
  unfold State.squadBack
  split
  · exact .ite h (.ite (.ite h h.resumeSquad) (.ite h.cancelPause h))
  · exact h

theorem State.Canonical.abortSubst {row : Nat} {fence back : Bool} (h : s.Canonical) : (s.abortSubst x row status fence back).Canonical := by
  unfold State.abortSubst
  extract_lets s1 s2 s3
  have h1 : s1.Canonical := h.unwindSubst
  have h2 : s2.Canonical := .ite h1.squadBack h1
  have h3 : s3.Canonical := .ite h2.notifyCtl h2
  exact h3.replySubst

theorem State.Canonical.loseSubsts (h : s.Canonical) : (s.loseSubsts site).Canonical := h.foldl fun _ _ ht => .ite ht.abortSubst ht.abortSubst

theorem State.Canonical.beginSubst {own live : Bool} {ldie bench : Nat} (h : s.Canonical) : (s.beginSubst own live ldie bench).Canonical :=
  h.same.askPower.showSubst

theorem State.Canonical.fenceOwn (h : s.Canonical) : (s.fenceOwn site).Canonical := by
  unfold State.fenceOwn
  extract_lets +onlyGivenNames s1
  have h1 : s1.Canonical := h.same
  split
  · exact h1
  · extract_lets s2
    have h2 : s2.Canonical := h1.fenceSite
    split
    · exact h2.beginSubst
    · exact h2

theorem State.Canonical.settleFences (h : s.Canonical) : s.settleFences.Canonical := h.foldl fun _ _ ht => ht.fenceOwn

theorem State.Canonical.askFence (h : s.Canonical) : (s.askFence site).Canonical := by
  unfold State.askFence
  extract_lets +onlyGivenNames s1
  have h1 : s1.Canonical := h.loseSubsts
  split
  · exact h1.fenceSite
  · split
    · exact h1
    · extract_lets s2
      have h2 : s2.Canonical := by
        unfold s2
        split
        · exact h1.loseSquad
        · exact h1
      exact h2.same

theorem State.Canonical.ownFence (h : s.Canonical) : (s.ownFence site).Canonical := h.askFence.settleFences

theorem State.Canonical.advanceFence {d : Deferred} (h : s.Canonical) : (s.advanceFence d).Canonical := by
  unfold State.advanceFence
  split
  · split
    · exact h
    · extract_lets s1 s2
      have h1 : s1.Canonical := h.loseSubsts
      have h2 : s2.Canonical := .ite h1.fenceSite h1
      exact h2.finishCmd
  · exact h

theorem State.Canonical.execFenceDie {hdr : CmdHdr} {rsv : Nat} (h : s.Canonical) : NextCanonical (execFenceDie hdr site rsv s) :=
  .next <| h.command fun _ ht => by
    extract_lets s1 s2
    have h1 : s1.Canonical := ht.begin
    have h2 : s2.Canonical := by
      unfold s2
      split
      · exact h1.whistleSquad
      · exact h1
    exact h2.withDeferred fun _ _ ht => ht.advanceFence

theorem State.Canonical.retire (h : s.Canonical) : (s.retire site).Canonical := h.loseSubsts.put.putFlag.put.setSite

theorem State.Canonical.substGranted (h : s.Canonical) : (s.substGranted site).Canonical := by
  unfold State.substGranted
  split
  · exact h.powerOn.setSite.stepSubst
  · exact h

theorem State.Canonical.substDeferred (h : s.Canonical) : (s.substDeferred site).Canonical := by
  unfold State.substDeferred
  split
  · exact h.removeSubst.replySubst
  · exact h

theorem State.Canonical.advanceSubst (h : s.Canonical) : (s.advanceSubst x).Canonical := .ite h.stepSubst h

theorem State.Canonical.substTested {ok : Bool} (h : s.Canonical) : (s.substTested x ok).Canonical := by
  unfold State.substTested
  split
  · exact h.abortSubst
  · extract_lets +onlyGivenNames s1
    have h1 : s1.Canonical := h.clearDie.dropPower
    split
    · extract_lets s2 s3
      have h2 : s2.Canonical := h1.stepSubst
      have h3 : s3.Canonical := by
        unfold s3
        split
        · exact .ite h2.requestPause h2
        · exact h2
      exact h3.advanceSubst
    · exact .startTimeout <| .stepSubst <| .ite h1.fenceSite h1

theorem State.Canonical.execBulkCopyDone (h : s.Canonical) : NextCanonical (execBulkCopyDone s) := by
  unfold Machine.execBulkCopyDone
  refine .next ?_
  split
  · exact h.copyMems.stepSubst.startTimeout
  · exact h

theorem State.Canonical.execCopyStall (h : s.Canonical) : NextCanonical (execCopyStall s) := by
  unfold Machine.execCopyStall
  refine .next ?_
  split
  · exact h.abortSubst
  · exact h

theorem State.Canonical.moveDie (h : s.Canonical) : (s.moveDie x).Canonical := h.copyMems.putSnapshot.foldl fun _ _ ht => ht.put

theorem State.Canonical.commitSubst (h : s.Canonical) : (s.commitSubst x).Canonical := by
  unfold State.commitSubst
  extract_lets placed s1 s2 s3
  have h2 : s2.Canonical := h.placeDie.setSite.putFlag
  have h3 : s3.Canonical := .ite h2.putFlag h2
  exact h3.notifyCtl

theorem State.Canonical.endSubst (h : s.Canonical) : (s.endSubst x).Canonical := .replySubst <| .removeSubst <| .ite h.fenceSite.squadBack h

theorem State.Canonical.timeoutDone (h : s.Canonical) : (s.timeoutDone r).Canonical := by
  unfold State.timeoutDone
  extract_lets x s1 s2 s3 s4 s5 s6 s7
  clear_value x
  have h1 : s1.Canonical := by
    unfold s1
    split
    · exact .ite h.moveDie h
    · exact h
  have h3 : s3.Canonical := by
    unfold s3
    split
    · exact h1.putTables.commitSubst
    · exact h1.putTables
  have h4 : s4.Canonical := .ite (h3.foldl fun _ _ ht => ht.putFlag) h3
  have h6 : s6.Canonical := .leaveTimeout <| .ite (.bringupDone <| h4.put.foldl fun _ _ ht => ht.switchOff) h4
  have h7 : s7.Canonical := by
    unfold s7
    split
    · exact h6.endSubst
    · exact .ite h6.endTimeoutCmd h6
  exact h7.nextTimeout

theorem State.Canonical.execTimeoutDrainDone (h : s.Canonical) : NextCanonical (execTimeoutDrainDone s) := by
  unfold Machine.execTimeoutDrainDone
  refine .next ?_
  split
  · exact .ite h.timeoutDone h
  · exact h

theorem State.Canonical.timeoutLost {words : List Nat} (h : s.Canonical) : (s.timeoutLost r status words).Canonical := by
  unfold State.timeoutLost
  extract_lets s1
  have h1 : s1.Canonical := by
    unfold s1
    split
    · exact h.endTimeoutCmd
    · split
      · split
        · exact h.abortSubst
        · exact h
      · exact h
  exact h1.nextTimeout

theorem State.Canonical.execTimeoutDrainLimit {notEmpty : List Nat} (h : s.Canonical) : NextCanonical (execTimeoutDrainLimit notEmpty s) := by
  unfold Machine.execTimeoutDrainLimit
  refine .next ?_
  split
  · exact h.leaveTimeout.timeoutNotice.timeoutLost
  · exact h

theorem State.Canonical.execRouterNoAnswer {notEmpty : List Nat} (h : s.Canonical) : NextCanonical (execRouterNoAnswer site notEmpty s) := by
  unfold Machine.execRouterNoAnswer
  refine .next ?_
  split
  · exact .ite h.same.driveLine.timeoutNotice.timeoutLost h
  · exact h

theorem State.Canonical.portLost {port : Nat} (h : s.Canonical) : (s.portLost port).Canonical := h.same.countEntries.jput.windowsDown

theorem State.Canonical.routerStops (h : s.Canonical) : (s.routerStops site).Canonical :=
  h.same.foldl fun _ _ ht => by
    split
    · exact ht.put.downEnd
    · exact ht

theorem State.Canonical.dieDead (h : s.Canonical) : (s.dieDead site).Canonical := by
  unfold State.dieDead
  extract_lets s1 s2 ldie s3 s4 s5 s6
  have h1 : s1.Canonical := h.loseSubsts
  have h2 : s2.Canonical := by
    unfold s2
    split
    · exact h1.loseSquad
    · exact h1
  have h3 : s3.Canonical := h2.routerStops
  have h4 : s4.Canonical := .ite h3.fenceSite h3
  have h5 : s5.Canonical := .ite h4.portLost h4
  exact h5.notifyCtl.same.startTimeout

theorem State.Canonical.buildRoster (h : s.Canonical) : s.buildRoster.Canonical :=
  .foldl (h.foldl fun _ _ ht => ht.put) fun _ _ ht => by
    split <;> exact ht.placeDie

end Sys2Proof.Machine
end

section
/-! PROOFS. Power delivery, `RESET_N`, roll calls and aborted commands keep the canonical form (R8, R367, R414). -/

namespace Sys2Proof.Machine

variable {s : State} {block corner port site status tag : Nat} {aligns : List (Nat × Int)}

theorem State.Canonical.sumDraw (h : s.Canonical) : (s.sumDraw block).Canonical := h.put

theorem State.Canonical.powerSample {volts amps : List Nat} (h : s.Canonical) : (s.powerSample site volts amps).Canonical := by
  unfold State.powerSample
  extract_lets s1 power s2
  have h1 : s1.Canonical := h.foldl fun _ _ ht => ht.put.put
  have h2 : s2.Canonical := h1.put.put.bump.bump
  exact .sumDraw <| .put <| .put <| .ite h2.free.put h2

theorem State.Canonical.execVinUndervolt {mv : Nat} (h : s.Canonical) : NextCanonical (execVinUndervolt site corner mv s) := by
  unfold Machine.execVinUndervolt
  refine .next ?_
  split
  · extract_lets s1
    have h1 : s1.Canonical := h.bump.notify
    exact .ite h1.put.putFlag.askFence.dieOff h1.switchOff
  · exact h

theorem State.Canonical.lowerCap {cap : Nat} (h : s.Canonical) : (s.lowerCap site cap).Canonical := h.put

theorem State.Canonical.phaseFail {phase : Nat} (h : s.Canonical) : (s.phaseFail site phase).Canonical := by
  unfold State.phaseFail
  extract_lets s1 n s2
  have h2 : s2.Canonical := h.setBit.clrBit.bump.notify
  exact .ite h2.lowerCap (.ite h2.lowerCap.put.applyCeiling h2.put.ownFence)

theorem State.Canonical.execIslandCellFail {cell : Nat} (h : s.Canonical) : NextCanonical (execIslandCellFail site cell s) := by
  unfold Machine.execIslandCellFail
  refine .next ?_
  split
  · extract_lets s1
    have h1 : s1.Canonical := h.clrBit.bump.notify
    exact .ite h1.routerStops h1
  · exact h

theorem State.Canonical.pathCross {k rise : Nat} (h : s.Canonical) : (s.pathCross site corner k rise).Canonical := by
  unfold State.pathCross
  extract_lets +onlyGivenNames s1 threshold
  have h1 : s1.Canonical := h.setBit
  split
  · exact h1.put.ownFence
  · extract_lets s2
    have h2 : s2.Canonical := h1.bump.notify
    exact .ite h2.lowerCap h2

theorem State.Canonical.pathSample {base now : Nat} {persistent : Bool} (h : s.Canonical) :
    (s.pathSample site corner base now persistent).Canonical := by
  unfold State.pathSample
  extract_lets rise above s1 s2
  have h2 : s2.Canonical := h.put.put.foldl fun _ _ ht => .ite ht ht.clrBit
  exact .ite (h2.foldl fun _ _ ht => ht.pathCross) h2

theorem State.Canonical.updateBudgets (h : s.Canonical) : s.updateBudgets.Canonical :=
  .foldl (h.put.put.foldl fun _ _ ht => ht.put) fun _ _ ht => ht.put

theorem State.Canonical.execCeilingControl {avg1us avg1ms : Nat} (h : s.Canonical) : NextCanonical (execCeilingControl site avg1us avg1ms s) := by
  unfold Machine.execCeilingControl
  refine .next ?_
  split
  · exact h
  · extract_lets p code s1 s2
    have h1 : s1.Canonical := h.put.put
    have h2 : s2.Canonical := .ite h1.put.bump (.ite h1.put (.ite h1.put h1))
    exact h2.applyCeiling

theorem State.Canonical.assertReset (h : s.Canonical) : s.assertReset.Canonical :=
  let ⟨hf, _, _, hh, hl, _, _, _, hP, hU⟩ := State.canonical_maps h
  State.canonical_of_maps ⟨rising_filter _ hf, rfl, rfl, hh, hl, rfl, rfl, rfl, hP, hU⟩

theorem State.Canonical.newChallenge (h : s.Canonical) : s.newChallenge.Canonical := h.free.put

theorem State.Canonical.startClocks (h : s.Canonical) : s.startClocks.Canonical :=
  .foldl (.foldl (h.foldl fun _ _ ht => ht.put) fun _ _ ht => ht.put) fun _ _ ht => ht.free.put.put

theorem State.Canonical.releaseReset {ctlsel flowOk : Bool} (h : s.Canonical) : (s.releaseReset ctlsel flowOk).Canonical := by
  unfold State.releaseReset
  extract_lets air host s1 s2 s3
  have h3 : s3.Canonical := h.put.putFlag.putFlag.putFlag.putFlag.put.put.put
  exact h3.newChallenge.startClocks

theorem State.Canonical.assertFault {cause : Nat} (h : s.Canonical) : (s.assertFault site cause).Canonical := .ite h h.put.put
theorem State.Canonical.deriveIdentity (h : s.Canonical) : s.deriveIdentity.Canonical := h.put

theorem State.Canonical.controlBooted {ok : Bool} (h : s.Canonical) : (s.controlBooted ok).Canonical :=
  .ite h.put.deriveIdentity (.ite h.assertFault.assertFault h.put.put.notifyCtl)

theorem State.Canonical.runFirmware {img : List Byte} (h : s.Canonical) : (s.runFirmware img).Canonical := h.put.put.put.put
theorem State.Canonical.countFail (h : s.Canonical) : s.countFail.Canonical := h.bump
theorem State.Canonical.routerFails (h : s.Canonical) : (s.routerFails site).Canonical := h.putFlag.putFlag.put.countFail.bringupFail
theorem State.Canonical.dieFails (h : s.Canonical) : (s.dieFails site).Canonical := .ite h h.put.countFail

theorem State.Canonical.putAlign (h : s.Canonical) : (s.putAlign aligns site).Canonical := by
  unfold State.putAlign
  split
  · exact .ite h.put.put h.dieFails
  · exact h.dieFails

theorem State.Canonical.startTime (h : s.Canonical) : (s.startTime site).Canonical := h.put.put.put.put

theorem State.Canonical.firstTables (h : s.Canonical) : s.firstTables.Canonical :=
  .foldl (.clearFlds <| h.foldl fun _ _ ht => ht.unset.put) fun _ _ ht => ht.putFlag

theorem State.Canonical.wavesEnd (h : s.Canonical) : (s.wavesEnd aligns).Canonical := by
  unfold State.wavesEnd
  extract_lets dead s1 alive s2 s3 s4
  have h1 : s1.Canonical := h.foldl fun _ _ ht => ht.putFlag.putFlag
  have h2 : s2.Canonical := h1.foldl fun _ _ ht => ht.putAlign.startTime
  have h3 : s3.Canonical := h2.foldl fun _ _ ht => ht.freshPort
  have h4 : s4.Canonical := h3.firstTables
  exact .ite h4 h4.put

theorem State.Canonical.execMeshWaveDone {wave : Nat} {failed : List Nat} (h : s.Canonical) :
    NextCanonical (execMeshWaveDone wave failed aligns s) := by
  unfold Machine.execMeshWaveDone
  extract_lets +onlyGivenNames site
  refine .next ?_
  split
  · extract_lets bad s1
    have h1 : s1.Canonical := .put <| h.foldl fun _ _ ht => ht.routerFails
    exact .ite h1.wavesEnd h1
  · exact h

theorem State.Canonical.askRounds (h : s.Canonical) : (s.askRounds block).Canonical := h.foldl fun _ _ ht => .ite ht.askPower ht
theorem State.Canonical.blockUp (h : s.Canonical) : (s.blockUp block).Canonical := h.put.askRounds

theorem State.Canonical.execBlkEnRaise (h : s.Canonical) : NextCanonical (execBlkEnRaise block s) := by
  unfold Machine.execBlkEnRaise
  refine .next ?_
  split
  · extract_lets s1 s2
    have h1 : s1.Canonical := h.put
    have h2 : s2.Canonical := .ite h1 h1.setBit
    exact .ite h2.askRounds h2
  · exact h

theorem State.Canonical.execZeroScrubDone {stack : Nat} (h : s.Canonical) : NextCanonical (execZeroScrubDone stack s) := by
  unfold Machine.execZeroScrubDone
  extract_lets +onlyGivenNames site
  refine .next ?_
  split
  · extract_lets +onlyGivenNames s1
    have h1 : s1.Canonical := h.scrubEnds
    split
    · exact h1
    · extract_lets s2
      have h2 : s2.Canonical := h1.put
      exact .bringupDone <| .ite h2.put h2
  · exact h

theorem State.Canonical.dropPowers {p : Nat → Bool} (h : s.Canonical) : (s.dropPowers p).Canonical := h.same.foldl fun _ _ ht => ht.markAdmit
theorem State.Canonical.blockOff (h : s.Canonical) : (s.blockOff block).Canonical := .dropPowers <| h.foldl fun _ _ ht => ht.switchOff
theorem State.Canonical.blockSubsts (h : s.Canonical) : (s.blockSubsts block).Canonical := h.foldl fun _ _ ht => .ite ht.abortSubst ht.abortSubst
theorem State.Canonical.startRollCall (h : s.Canonical) : (s.startRollCall block).Canonical := h.blockSubsts.blockOff.put.put.put

theorem State.Canonical.failRollCall (h : s.Canonical) : (s.failRollCall block status).Canonical := by
  unfold State.failRollCall
  extract_lets s1
  have h1 : s1.Canonical := h.put.put
  split
  · exact h1.finishCmd
  · exact h1

theorem State.Canonical.substFailed {mask : Nat} (h : s.Canonical) : (s.substFailed block mask).Canonical :=
  h.foldl fun _ _ ht => by
    split
    · exact ht.beginSubst
    · exact ht

theorem State.Canonical.endRollCall (h : s.Canonical) : (s.endRollCall block).Canonical := by
  unfold State.endRollCall
  split
  · exact h
  · extract_lets s1
    have h1 : s1.Canonical := h.put
    split
    · exact h1.finishCmd.substFailed
    · exact h1

theorem State.Canonical.rollPower (h : s.Canonical) : (s.rollPower block).Canonical := by
  unfold State.rollPower
  extract_lets s1 due
  have h1 : s1.Canonical := by
    unfold s1
    split
    · exact h.commit
    · exact h
  exact .endRollCall <| h1.foldl fun _ _ ht => ht.askPower

theorem State.Canonical.rollFails (h : s.Canonical) : (s.rollFails site).Canonical := by
  unfold State.rollFails
  extract_lets s1 s2 s3
  have h1 : s1.Canonical := h.switchOff.dropPower
  have h2 : s2.Canonical := .ite h1.put.fenceSite h1
  have h3 : s3.Canonical := by
    unfold s3
    split
    · exact h2.setDeferred
    · exact h2
  exact h3.endRollCall

theorem State.Canonical.rollPasses (h : s.Canonical) : (s.rollPasses site).Canonical := .endRollCall <| .ite h.switchOff.dropPower h.phasePower

theorem State.Canonical.execSiteCheckDone {vin amps : Nat} (h : s.Canonical) : NextCanonical (execSiteCheckDone site vin amps s) := by
  unfold Machine.execSiteCheckDone
  refine .next ?_
  split
  · exact .ite (.ite h.rollPasses h.rollFails) h
  · exact h

theorem State.Canonical.cancelPauses {mask : Nat} (h : s.Canonical) : (s.cancelPauses mask).Canonical :=
  h.foldl fun _ _ ht => .ite ht.cancelPause ht

theorem State.Canonical.unwind {d : Deferred} (h : s.Canonical) : (s.unwind d status).Canonical := by
  unfold State.unwind
  split
  · exact h.cancelPauses.finishCmd
  · exact h.cancelPauses.finishCmd
  · split
    · exact h.abortSubst
    · exact h.finishCmd
  · exact h.failRollCall
  · exact h.closeWindows
  · exact h.commit
  · exact h.commit.jset.disablePort
  · exact h.leaveTimeout.timeoutNotice.finishCmd.nextTimeout
  · exact h.finishCmd

theorem State.Canonical.endCast {status : Option Nat} (h : s.Canonical) : (s.endCast port tag status).Canonical := by
  unfold State.endCast
  split
  · exact h.castEnd
  · exact h

theorem State.Canonical.offerSlot (h : s.Canonical) : (s.offerSlot port tag status).Canonical := by
  unfold State.offerSlot
  split
  · exact .ite h.unwind h
  · exact h

theorem State.Canonical.endImmediate (h : s.Canonical) : (s.endImmediate port tag).Canonical := by
  unfold State.endImmediate
  split
  · exact h.same.answer
  · exact h

theorem State.Canonical.expire (h : s.Canonical) : (s.expire port tag).Canonical := h.endCast.offerSlot.endImmediate

end Sys2Proof.Machine
end

section
/-! PROOFS. Thermal holds, reset scopes, security and what follows a stop keep the canonical form (R430, R451). -/

namespace Sys2Proof.Machine

variable {s : State} {target : Nat} {d : Deferred}

theorem State.Canonical.endCommands {p : Deferred → Bool} (h : s.Canonical) : (s.endCommands p).Canonical :=
  h.foldl fun _ _ ht => by
    split
    · exact .ite ht.unwind ht
    · exact ht

theorem State.Canonical.setThermal {site code : Nat} (h : s.Canonical) : (s.setThermal site code).Canonical := h.put.applyCeiling

theorem State.Canonical.enterHold {byRate : Bool} (h : s.Canonical) : (s.enterHold byRate).Canonical :=
  .foldl (.foldl (.driveLine <| h.put.put.put.put.put.notifyCtl.endCommands.foldl fun _ _ ht => ht.abortSubst) fun _ _ ht => ht.setThermal) fun _ _
    ht => ht.limitPort

theorem State.Canonical.rateLoss (h : s.Canonical) : s.rateLoss.Canonical := .ite h.enterHold h

theorem State.Canonical.execFlowLoss {byRate : Bool} (h : s.Canonical) : NextCanonical (execFlowLoss byRate s) := by
  unfold Machine.execFlowLoss
  extract_lets s1
  have h1 : s1.Canonical := h.put
  exact .next <| h.ifReleased (.ite h.rateLoss (.ite h1.enterHold h1))

theorem State.Canonical.holdSaved (h : s.Canonical) : s.holdSaved.Canonical := .ite h h.saveSquads.put

theorem State.Canonical.holdBlock {block : Nat} (h : s.Canonical) : (s.holdBlock block).Canonical := by
  unfold State.holdBlock
  split
  · exact h
  · extract_lets s1
    have h1 : s1.Canonical := h.put.put
    exact .ite h1 h1.put

theorem State.Canonical.holdOff (h : s.Canonical) : s.holdOff.Canonical :=
  .foldl (.foldl (.foldl (h.dropPowers.foldl fun _ _ ht => ht.endRollCall) fun _ _ ht => ht.switchOff) fun _ _ ht => ht.switchOff) fun _ _ ht =>
    ht.holdBlock

theorem State.Canonical.execHbmHoldExpiry (h : s.Canonical) : NextCanonical (execHbmHoldExpiry s) := by
  unfold Machine.execHbmHoldExpiry
  refine .next (.ite ?_ h)
  extract_lets s1 s2 s3
  have h1 : s1.Canonical := (h.withHbm (m := []) (p := []) (u := []) rfl rfl rfl).same
  have h2 : s2.Canonical := h1.foldl fun _ _ ht => ht.put
  have h3 : s3.Canonical := h2.foldl fun _ _ ht => ht.switchOff
  exact h3.put.notifyCtl.assertFault

theorem State.Canonical.execFlowRestored (h : s.Canonical) : NextCanonical (execFlowRestored s) := by
  unfold Machine.execFlowRestored
  extract_lets s1
  have h1 : s1.Canonical := h.put
  exact .next <| h.ifReleased (.ite h1.put (.ite (h1.foldl fun _ _ ht => ht.askRounds) h1))

theorem State.Canonical.cycleDie {site : Nat} (h : s.Canonical) : (s.cycleDie site).Canonical := by
  unfold State.cycleDie
  extract_lets s1 s2
  have h1 : s1.Canonical := h.switchOff
  have h2 : s2.Canonical := .ite h1.clearFlds.leaveSquad h1
  exact h2.clearFlds.clearFlds.askPower

theorem State.Canonical.restHub {stack : Nat} (h : s.Canonical) : (s.restHub stack).Canonical := .ite h.stopAtomics.closeRecords.put h

theorem State.Canonical.resetRounds {block : Nat} (h : s.Canonical) : (s.resetRounds block).Canonical :=
  h.foldl fun _ _ ht => .ite ht (.ite (.ite ht ht.cycleDie) (.ite ht ht.cycleDie))

theorem State.Canonical.computeRounds (h : s.Canonical) : s.computeRounds.Canonical :=
  .put <| .foldl (.foldl (.foldl (.foldl (.dropPowers <| .foldl (.scrubSquads <| h.foldl fun _ _ ht => ht.stopSquad) fun _ _ ht => ht.restHub) fun
    _ _ ht => ht.switchOff) fun _ _ ht => ht.switchOff) fun _ _ ht => ht.put) fun _ _ ht => ht.resetRounds

theorem State.Canonical.advanceReset (h : s.Canonical) : s.advanceReset.Canonical :=
  .ite h (.ite (.ite h h.computeRounds) (.ite (.ite h (.put <| h.scrubSquads.foldl fun _ _ ht => ht.cycleDie)) (.ite h h.cycleDie.put)))

theorem State.Canonical.startCompute (h : s.Canonical) : s.startCompute.Canonical := h.endCommands.driveLine.put

theorem State.Canonical.startPortRetrain {port : Nat} (h : s.Canonical) : (s.startPortRetrain port).Canonical := by
  unfold State.startPortRetrain
  extract_lets s1
  have h1 : s1.Canonical := h.put
  exact .ite h1.jset.startDrain (.ite h1.jset (.ite h1.jput h1))

theorem State.Canonical.startScope {scope : Nat} (h : s.Canonical) : (s.startScope scope target).Canonical := by
  unfold State.startScope
  extract_lets s1 s2
  have h2 : s2.Canonical := h.put.put.put.put.put
  split
  · exact h2.startCompute.advanceReset
  · split
    · exact .advanceReset <| h2.foldl fun _ _ ht => ht.stopSquad
    · split
      · split
        · exact h2.loseSquad.advanceReset
        · exact h2.advanceReset
      · exact h2.startPortRetrain

theorem State.Canonical.writeReset {value : Nat} (h : s.Canonical) : (s.writeReset value).Canonical := by
  unfold State.writeReset
  extract_lets scope target
  split
  · exact h.bump.put.put
  · exact h.startScope

theorem State.Canonical.resetCommand {hdr : CmdHdr} {cmd : Instr} {value : Word} (h : s.Canonical) : (s.resetCommand hdr cmd value).Canonical :=
  h.command fun _ ht => ht.reply.writeReset

theorem State.Canonical.endHold (h : s.Canonical) : s.endHold.Canonical := .ite h.put.put.put.put h

theorem State.Canonical.nextRetrain (h : s.Canonical) : s.nextRetrain.Canonical := by
  unfold State.nextRetrain
  split
  · exact .ite h h.clrBit.startScope
  · exact h

theorem State.Canonical.wipeSecrets (h : s.Canonical) : s.wipeSecrets.Canonical := h.put.put.put.put
theorem State.Canonical.writeGrade {v : Nat} (h : s.Canonical) : (s.writeGrade v).Canonical := .ite h h.put.bump.updateBudgets
theorem State.Canonical.writeHostport {v : Nat} (h : s.Canonical) : (s.writeHostport v).Canonical := .ite h h.put.put.bump

theorem State.Canonical.execFwUpdateVerified (h : s.Canonical) : NextCanonical (execFwUpdateVerified s) := by
  unfold Machine.execFwUpdateVerified
  refine .next ?_
  split
  · split
    · split
      · exact h.finishCmd
      · exact h.setDeferred.withFlash rfl
    · exact h
  · exact h

theorem State.Canonical.flashed {img : List Byte} (h : s.Canonical) : (s.flashed img).Canonical := by
  unfold State.flashed
  extract_lets s1 s2
  have h1 : s1.Canonical := h.withFlash (wf_write rfl _ _)
  have h2 : s2.Canonical := .ite h1.put.bump h1
  exact .ite h2.put.put.put.runFirmware h2

theorem State.Canonical.execFlashWriteDone {readBackOk : Bool} (h : s.Canonical) : NextCanonical (execFlashWriteDone readBackOk s) := by
  unfold Machine.execFlashWriteDone
  refine .next ?_
  split
  · split
    · exact .ite h.flashed.finishCmd h.finishCmd
    · exact h
  · exact h

theorem State.Canonical.revoke {slot : Nat} (h : s.Canonical) : (s.revoke d slot).Canonical :=
  .ite h.finishCmd (.ite h.finishCmd h.setBit.finishCmd)

theorem State.Canonical.lifeBegins {arg : Nat} (h : s.Canonical) : (s.lifeBegins d target arg).Canonical :=
  .ite h.revoke h.setDeferred.startPanelScrub

theorem State.Canonical.lifeMoves {arg : Nat} (h : s.Canonical) : (s.lifeMoves d target arg).Canonical := by
  unfold State.lifeMoves
  extract_lets s1 s2
  have h1 : s1.Canonical := h.put
  have h2 : s2.Canonical := .ite h1.put.put h1
  exact h2.wipeSecrets.deriveIdentity.notifyCtl.finishCmd

theorem State.Canonical.advanceDebug (h : s.Canonical) : (s.advanceDebug d).Canonical := .ite h.setDeferred.startPanelScrub h
theorem State.Canonical.advanceTamper (h : s.Canonical) : s.advanceTamper.Canonical := .ite h.put.startPanelScrub h

theorem State.Canonical.tampered {cause : Nat} (h : s.Canonical) : (s.tampered cause).Canonical := by
  unfold State.tampered
  extract_lets s1 s2 s3
  have h1 : s1.Canonical := h.wipeSecrets.put
  have h2 : s2.Canonical := .ite h1 h1.put.put
  exact h2.bump.notifyCtl.driveLine.closeWindows.put.advanceTamper

theorem State.Canonical.scrubEnded (h : s.Canonical) : (s.scrubEnded d).Canonical := by
  unfold State.scrubEnded
  split
  · exact h.finishCmd
  · exact .ite h.lifeMoves h
  · exact .ite h.putFlag.finishCmd h
  · exact h

theorem State.Canonical.finishPanelScrub (h : s.Canonical) : s.finishPanelScrub.Canonical := by
  unfold State.finishPanelScrub
  extract_lets s1 s2
  have h2 : s2.Canonical := h.panelScrubbed.foldl fun _ _ ht => ht.scrubEnded
  exact .ite h2.put.deriveIdentity h2

theorem State.Canonical.advanceCmd (h : s.Canonical) : (s.advanceCmd d).Canonical :=
  .ite h.advancePause (.ite h.advanceStop (.ite h.advanceFence h.advanceDebug))

theorem State.Canonical.progress (h : s.Canonical) : s.progress.Canonical :=
  .advanceTamper <| .advanceReset <| .foldl (.settleFences <| h.foldl fun _ _ ht => ht.advanceCmd) fun _ _ ht => ht.advanceSubst

theorem State.Canonical.latched {line : Nat} (h : s.Canonical) : (s.latched line).Canonical :=
  .progress <| h.latchLine.foldl fun _ _ ht => ht.abortSubst

theorem State.Canonical.pauseLimit {mask : Nat} (h : s.Canonical) : (s.pauseLimit mask).Canonical := by
  unfold State.pauseLimit
  split
  · exact h.finishCmd
  · split
    · exact h.abortSubst
    · exact h

theorem State.Canonical.halfTimeSaved (h : s.Canonical) : s.halfTimeSaved.Canonical := by
  unfold State.halfTimeSaved
  split
  · exact h.saveSquads.finishCmd
  · exact h.holdSaved

theorem State.Canonical.finishScrub (h : s.Canonical) : (s.finishScrub d).Canonical := .ite h.scrubSquads.finishCmd h

theorem State.Canonical.execScrubDone (h : s.Canonical) : NextCanonical (execScrubDone s) := by
  unfold Machine.execScrubDone
  extract_lets s1
  have h1 : s1.Canonical := h.foldl fun _ _ ht => ht.finishScrub
  exact .next <| .ite h1.finishPanelScrub h1

end Sys2Proof.Machine
end

section
/-! PROOFS. Power-up of blocks, temperatures and the notice queue keep the canonical form (R411, R427, R478). -/

namespace Sys2Proof.Machine

variable {s : State} {block k site : Nat} {p : PowerUp} {ok : Bool} {r : Reading}

theorem State.Canonical.admitPower (h : s.Canonical) : (s.admitPower p).Canonical := .phasePower <| .ite h.substGranted h.powerOn

theorem State.Canonical.tryAdmit (h : s.Canonical) : (s.tryAdmit block).Canonical := by
  unfold State.tryAdmit
  split
  · exact .ite h.admitPower h
  · exact h

theorem State.Canonical.bringupLost (h : s.Canonical) : (s.bringupLost site).Canonical := h.switchOff.dieFails.bringupFail.bringupDone

theorem State.Canonical.deferPower (h : s.Canonical) : (s.deferPower p).Canonical := by
  unfold State.deferPower
  extract_lets +onlyGivenNames s1
  have h1 : s1.Canonical := h.bump
  split
  · exact h1.substDeferred
  · split
    · exact h1.rollFails
    · split
      · exact h1.dropPower.bringupLost
      · split
        · extract_lets s2
          have h2 : s2.Canonical := h1.dropPower.put
          exact .ite h2.ownFence h2
        · exact h1.dropPower

theorem State.Canonical.execAdmissionDeferred (h : s.Canonical) : NextCanonical (execAdmissionDeferred block s) := by
  unfold Machine.execAdmissionDeferred
  refine .next ?_
  split
  · exact h.deferPower.progress
  · exact h

theorem State.Canonical.trainLink (h : s.Canonical) : (s.trainLink site).Canonical := h.jput

theorem State.Canonical.bringupTested (h : s.Canonical) : (s.bringupTested site ok).Canonical :=
  .ite h.bringupLost (.ite h.put.clearDie h.trainLink)

theorem State.Canonical.rollTested (h : s.Canonical) : (s.rollTested site ok).Canonical := by
  unfold State.rollTested
  split
  · exact .ite h.ownFence h.switchOff
  · split
    · extract_lets s1
      have h1 : s1.Canonical := h.clearDie
      exact .ite h1.startTimeout h1
    · exact .ite h.trainLink h

theorem State.Canonical.resetTested (h : s.Canonical) : (s.resetTested site ok).Canonical :=
  .ite (.ite h.ownFence h.switchOff) (.ite (.ite h.clearDie.switchOff h.clearDie) h.trainLink)

theorem State.Canonical.selfTested (h : s.Canonical) : (s.selfTested p ok).Canonical := by
  unfold State.selfTested
  split
  · split
    · exact h.substTested
    · exact h
  · exact .ite (.ite h.dropPower.rollTested h) (.ite h.dropPower.bringupTested (.ite h.dropPower.resetTested (.ite h.dropPower.trainLink
      h.dropPower.switchOff)))

theorem State.Canonical.execSelfTestDone (h : s.Canonical) : NextCanonical (execSelfTestDone site ok s) := by
  unfold Machine.execSelfTestDone
  refine .next ?_
  split
  · exact .ite h h.selfTested.progress
  · exact h

theorem State.Canonical.supplied (h : s.Canonical) : (s.supplied block).Canonical := by
  unfold State.supplied
  extract_lets st s1
  have h1 : s1.Canonical := h.put
  exact .ite h1.rollPower (.ite h1 (.ite h1.put.resetRounds h1.blockUp))

theorem State.Canonical.blockLost (h : s.Canonical) : (s.blockLost block).Canonical := by
  unfold State.blockLost
  extract_lets s1 s2 s3 s4
  have h1 : s1.Canonical := h.foldl fun _ _ ht => ht.loseSquad
  have h4 : s4.Canonical := h1.put.put.notifyCtl.blockSubsts.blockOff.same
  split
  · exact h4.finishCmd.progress
  · exact h4.progress

theorem State.Canonical.execPwrgoodFall (h : s.Canonical) : NextCanonical (execPwrgoodFall block s) := by
  unfold Machine.execPwrgoodFall
  extract_lets st s1
  have h1 : s1.Canonical := h.put
  exact .next <| h.ifReleased (.ite (.ite h1.blockLost h1) h)

theorem State.Canonical.markBad {code : Nat} (h : s.Canonical) : (s.markBad site k code).Canonical := by
  unfold State.markBad
  extract_lets s1 s2
  have h1 : s1.Canonical := .ite h h.put
  have h2 : s2.Canonical := .ite h1 h1.put
  exact h2.bump.notify

theorem State.Canonical.countRun {f : Fld} {on : Bool} (h : s.Canonical) : (s.countRun site f on).Canonical := .ite h.bump h.put

theorem State.Canonical.bothGood (h : s.Canonical) : (s.bothGood site k r).2.Canonical := by
  unfold State.bothGood
  extract_lets apart s1 s2 nearA
  have h1 : s1.Canonical := h.countRun.countRun
  have h2 : s2.Canonical := .ite h1.bump.notify h1
  exact .ite_snd (.ite_snd (.mk_snd h2.markBad) (.mk_snd h2.markBad)) (.ite_snd h2 h2.half)

theorem State.Canonical.oneGood {good ro : Int} (h : s.Canonical) : (s.oneGood site k good ro).2.Canonical :=
  .ite_snd (.mk_snd h.countRun.markBad) (.mk_snd h.countRun)

theorem State.Canonical.govern (h : s.Canonical) : (s.govern site k r).2.Canonical := by
  unfold State.govern
  split
  · exact h.bothGood
  · exact h.oneGood
  · exact h.oneGood
  · exact h

theorem State.Canonical.sampleSite (h : s.Canonical) : (s.sampleSite site k r).Canonical := h.put.put.put.putFlag.govern.put
theorem State.Canonical.putTj (h : s.Canonical) : (s.putTj site).Canonical := h.put.put
theorem State.Canonical.moveCeil {down up : Nat} (h : s.Canonical) : (s.moveCeil site down up).Canonical := .ite h.setThermal h

theorem State.Canonical.throttles (h : s.Canonical) : (s.throttles site).Canonical := by
  unfold State.throttles
  extract_lets s1
  have h1 : s1.Canonical := h.bump
  exact .ite h1.put.notify h1

theorem State.Canonical.everyMs {f : State → State} (h : s.Canonical) (hf : ∀ t, t.Canonical → (f t).Canonical) : (s.everyMs site f).Canonical :=
  .ite (hf _ h.put) h.bump

theorem State.Canonical.followTj (h : s.Canonical) : (s.followTj site).Canonical := by
  unfold State.followTj
  extract_lets old new s1
  have h1 : s1.Canonical := h.put.put
  exact .ite (.ite h1.moveCeil h1.throttles.moveCeil) (.ite (h1.everyMs fun _ ht => ht.moveCeil) (.ite (h1.everyMs fun _ ht => ht.moveCeil) h1))

theorem State.Canonical.overtemp (h : s.Canonical) : (s.overtemp site).Canonical := by
  unfold State.overtemp
  extract_lets s1
  have h1 : s1.Canonical := h.bump.notify
  split
  · exact h1.ownFence.progress
  · exact h1.putFlag.switchOff
  · exact h1.foldl fun _ _ ht => ht.failChannel
  · exact h1

theorem State.Canonical.levelTj (h : s.Canonical) : (s.levelTj site).Canonical := by
  unfold State.levelTj
  extract_lets s1 run level s2
  have h2 : s2.Canonical := h.countRun.put
  exact .ite h2.overtemp h2

theorem State.Canonical.keepRise (h : s.Canonical) : (s.keepRise site).Canonical := h.put.put.put.putFlag

theorem State.Canonical.sensorSample {readings : List Reading} (h : s.Canonical) : (s.sensorSample site readings).Canonical := by
  unfold State.sensorSample
  extract_lets s1 s2 s3
  have h1 : s1.Canonical := .putTj <| h.foldl fun _ _ ht => ht.sampleSite
  have h2 : s2.Canonical := h1.followTj.levelTj
  have h3 : s3.Canonical := .ite h2.keepRise h2
  exact .ite h3.rateLoss h3

theorem State.Canonical.execLidSample {inlet outlet : Int} (h : s.Canonical) : NextCanonical (execLidSample inlet outlet s) := by
  unfold Machine.execLidSample
  extract_lets s1
  have h1 : s1.Canonical := h.put.put
  exact .next <| .ite h1.bump h1

theorem State.Canonical.updateTheta (h : s.Canonical) : (s.updateTheta site).Canonical := .put <| .put <| .ite (.ite h.put h.free.put) h
theorem State.Canonical.dieCap (h : s.Canonical) : (s.dieCap site).2.Canonical := .ite_snd h.free h
theorem State.Canonical.updateDieCaps (h : s.Canonical) : s.updateDieCaps.Canonical := h.foldl fun _ _ ht => ht.dieCap.put

theorem State.Canonical.queueNotice {n : Notice} (h : s.Canonical) : (s.queueNotice n).Canonical := by
  unfold State.queueNotice
  extract_lets seq s1 s2
  have h2 : s2.Canonical := h.put.put.same
  exact .ite h2.same h2

theorem State.Canonical.takeNotice {n : Notice} (h : s.Canonical) : (s.takeNotice n).Canonical := .ite h.bump.bump h.queueNotice

theorem State.Canonical.execNoticeRecord (h : s.Canonical) : NextCanonical (execNoticeRecord site s) := by
  unfold Machine.execNoticeRecord
  refine .next ?_
  split
  · exact .ite h.same.put.takeNotice h
  · exact h

theorem State.Canonical.pushTo (h : s.Canonical) : ∀ x ∈ s.pushTo, x.2.2.Canonical := by
  intro x hx
  unfold State.pushTo at hx
  split at hx
  · split at hx
    · cases hx; exact h
    · cases hx
  · split at hx
    · split at hx
      · cases hx; exact h.free
      · cases hx
    · cases hx

theorem State.Canonical.pushNotices (h : s.Canonical) : s.pushNotices.Canonical := by
  unfold State.pushNotices
  extract_lets batch s1
  have h1 : s1.Canonical := h.same
  split
  next heq => exact (State.Canonical.pushTo h1 _ heq).queueFrame
  · exact h1.bump

theorem State.Canonical.removeNotices {n : Nat} (h : s.Canonical) : (s.removeNotices n).Canonical := h.same.put.put
theorem State.Canonical.startScan (h : s.Canonical) : (s.startScan site).Canonical := h.put.put.put.put.put

theorem State.Canonical.scanSlack (h : s.Canonical) : (s.scanSlack site).2.2.Canonical := by
  unfold State.scanSlack
  split
  · exact h.free.free
  · exact h

theorem State.Canonical.timingWord (h : s.Canonical) : (s.timingWord site).2.Canonical := by
  unfold State.timingWord
  extract_lets r
  exact .mk_snd h.scanSlack

theorem State.Canonical.scanWords {kind : Nat} (h : s.Canonical) : (s.scanWords kind site).2.Canonical := by
  unfold State.scanWords
  extract_lets dies
  split
  · split <;> exact h
  · split
    · exact h
    · exact .foldl_snd h fun _ _ hp => hp.timingWord

theorem State.Canonical.execMarginScanDone (h : s.Canonical) : NextCanonical (execMarginScanDone s) := by
  unfold Machine.execMarginScanDone
  refine .next ?_
  split
  · exact .ite h h.scanWords.finishCmd
  · exact h

theorem State.Canonical.keepSlack {core slack : Nat} (h : s.Canonical) : (s.keepSlack site core slack).Canonical := .ite h.free.put.put.put h

theorem State.Canonical.checkSlack {e : Nat × Nat × Nat} (h : s.Canonical) : (s.checkSlack e).Canonical :=
  .ite (.ite h.keepSlack.put.notify h.keepSlack) h

end Sys2Proof.Machine
end

section
/-! PROOFS. JTAG, lost clocks, registers as the host sees them and the fetch threads' instructions keep the canonical form (R6, R206, R467). -/

namespace Sys2Proof.Machine

variable {s : State} {a k site v : Nat} {c : CoreRef}

theorem State.Canonical.jtag {die instr out : Nat} {driving : Bool} (h : s.Canonical) : (s.jtag die instr out driving).Canonical :=
  h.put.put.putFlag

theorem State.Canonical.jtagCount (h : s.Canonical) : s.jtagCount.Canonical := h.bump
theorem State.Canonical.writeXfer (h : s.Canonical) : (s.writeXfer v).Canonical := h.put.put.put.put
theorem State.Canonical.startXfer (h : s.Canonical) : s.startXfer.Canonical := .ite h.put h.put.put
theorem State.Canonical.writeI3c (h : s.Canonical) : (s.writeI3c v).Canonical := .ite h.writeXfer.startXfer h.writeXfer

theorem State.Canonical.execI3cDone {nack : Bool} {rdata : BitVec 32} (h : s.Canonical) : NextCanonical (execI3cDone nack rdata s) := by
  unfold Machine.execI3cDone
  refine .next ?_
  split
  · exact h
  · extract_lets +onlyGivenNames s1
    have h1 : s1.Canonical := h.put
    split
    · exact h1.put
    · extract_lets s2
      have h2 : s2.Canonical := h1.put
      exact .ite h2.put h2

theorem State.Canonical.fabricLost (h : s.Canonical) : (s.fabricLost site).Canonical := by
  unfold State.fabricLost
  extract_lets s1
  have h1 : s1.Canonical := h.put
  exact .routerStops <| .ite h1.assertFault h1

theorem State.Canonical.coreLost (h : s.Canonical) : (s.coreLost site).Canonical := by
  unfold State.coreLost
  extract_lets s1
  have h1 : s1.Canonical := h.put.put
  split
  · exact h1.ownFence.progress
  · exact h1.putFlag.switchOff
  · exact h1

theorem State.Canonical.phyLost (h : s.Canonical) : (s.phyLost site).Canonical := h.put.foldl fun _ _ ht => ht.startRetrain

theorem State.Canonical.serdesLost {i : Nat} (h : s.Canonical) : (s.serdesLost site i).Canonical := by
  unfold State.serdesLost
  extract_lets p lanes s1 s2
  have h1 : s1.Canonical := h.clrBit
  have h2 : s2.Canonical := .ite (h1.foldl fun _ _ ht => ht.jset) h1
  exact h2.foldl fun _ _ ht => ht.laneFails

theorem State.Canonical.clockLost {gen : Nat} (h : s.Canonical) : (s.clockLost site gen).Canonical := by
  unfold State.clockLost
  split
  · exact h
  · extract_lets s1
    have h1 : s1.Canonical := h.bump.notify
    split
    · exact h1.fabricLost
    · exact h1.coreLost
    · exact h1.phyLost
    · exact h1.serdesLost

theorem State.Canonical.clocksLost (h : s.Canonical) : (s.clocksLost site).Canonical := h.foldl fun _ _ ht => ht.clockLost
theorem State.Canonical.advancePair (h : s.Canonical) : (s.advancePair c).Canonical := .ite h.cput.cput h
theorem State.Canonical.afterDebugRead (h : s.Canonical) : (s.afterDebugRead c).Canonical := h.checkRange.advancePair

theorem State.Canonical.afterRead (h : s.Canonical) : (s.afterRead a).Canonical := by
  unfold State.afterRead
  split
  · exact .ite h.afterDebugRead h
  · exact h

theorem State.Canonical.readRegs {as : List Nat} (h : s.Canonical) : (s.readRegs as).2.Canonical := .foldl_snd h fun _ _ hp => hp.afterRead

theorem State.Canonical.replyRegs {hdr : CmdHdr} {op : Nat} {cmd : Instr} {as : List Nat} (h : s.Canonical) :
    (s.replyRegs hdr op cmd as).Canonical := by
  unfold State.replyRegs
  split
  · exact h.noAnswer
  · exact h.readRegs.reply

theorem State.Canonical.writeFld {f : Fld} (h : s.Canonical) : (s.writeFld site k v f).Canonical := by
  unfold State.writeFld
  extract_lets x
  split
  · exact h.put
  · exact h.put
  · exact h

theorem State.Canonical.schedWrite (h : s.Canonical) : (s.schedWrite c v).Canonical := by
  unfold State.schedWrite
  extract_lets s1
  have h1 : s1.Canonical := .ite h.stepWord h
  exact .ite h1.continueCore h1

theorem State.Canonical.writeEffect {u : RegUnit} {off : Nat} (h : s.Canonical) : (s.writeEffect u site k off v).Canonical :=
  .ite h.schedWrite (.ite (h.foldl fun _ _ ht => ht.startRetrain) (.ite h.settleCode (.ite (.ite h.minReset h) (.ite (.ite h.slackMinReset h) (.ite
    (.ite h.put h) (.ite h.writeGrade (.ite h.writeHostport h)))))))

theorem State.Canonical.writeHubCtl (h : s.Canonical) : (s.writeHubCtl site v).Canonical := .writeAccept <| h.foldl fun _ _ ht => ht.writeFld

theorem State.Canonical.writeFields {u : RegUnit} {off : Nat} (h : s.Canonical) : (s.writeFields u site k off v).Canonical :=
  .writeEffect <| h.foldl fun _ _ ht => ht.writeFld

theorem State.Canonical.writeReg (h : s.Canonical) : (s.writeReg a v).Canonical := by
  unfold State.writeReg
  extract_lets site
  split
  · exact h
  · exact .ite h.writeI3c (.ite h.writeHubCtl h.writeFields)

theorem State.Canonical.csrPut {hdr : CmdHdr} {cmd : Instr} (h : s.Canonical) : (s.csrPut hdr cmd a v).Canonical :=
  h.command fun _ ht => .ite ht.reply.writeReset (.ite ht.writeReg.reply ht.noAnswer)

theorem State.Canonical.openWords {n : Nat} (h : s.Canonical) : (openWords n s).2.Canonical := by
  induction n generalizing s with
  | zero => exact h
  | succ n ih => exact ih h.free

theorem State.Canonical.chainBits {bits : Nat} (h : s.Canonical) : (s.chainBits bits).2.Canonical := h.openWords

theorem State.Canonical.readLocal {t : ThreadRef} {d : Nat} {tw : Option Nat} (h : s.Canonical) : (s.readLocal t d a tw).DoneCanonical :=
  .ite .fault (.ite .fault (.done h.checkRange.takeValue))

theorem State.Canonical.execAtom {t : ThreadRef} {w : BitVec 32} (h : s.Canonical) : NextCanonical (execAtom t w s) := by
  refine .next <| h.runThread fun i => ?_
  extract_lets c dv aop n
  refine .ite .wait ?_
  split
  · exact .fault
  · exact .ite .fault (.issueReq h.nextSeq)

end Sys2Proof.Machine
end

section
/-! PROOFS. A step keeps the canonical form (O3). -/

namespace Sys2Proof.Machine

variable {s : State}

/-- Each command by what it does: one line per row of the dispatch. -/
theorem exec_canonical (h : s.Canonical) (i : Instr) : NextCanonical (exec i s) := by
  cases i with
  | loop => exact .next h.runPl
  | pset => exact .next h.runPl
  | ploop => exact .next h.runPl
  | plogic => exact .next h.runPl
  | ldcnt => exact .next h.runPl
  | endSched => exact .next h.runPl
  | counterWait => exact .next h.runWt
  | queueWait => exact .next h.runWt
  | arriveAndWait => exact .next h.runHuddle
  | arriveOnly => exact .next h.runHuddle
  | waitOnly => exact .next h.runHuddle
  | start => exact .next h.runWord
  | moveComplete => exact .next <| .ite h h.finishMove
  | push => exact .next h.runQp
  | pop => exact .next h.runQp
  | openPkt => exact .next h.runQp
  | closePkt => exact .next h.runQp
  | markQ => exact .next h.runQp
  | rewindQ => exact .next h.runQp
  | releaseQ => exact .next h.runQp
  | mac => exact .next h.runMx
  | emit => exact .next h.runMx
  | spill => exact .next h.runMx
  | zeroSlot => exact .next h.runMx
  | run => exact .next h.runWord
  | stepWord => exact .next h.stepWord
  | continueCore => exact .next h.continueCore
  | dbgDataRead => exact .next <| h.command fun _ ht => ht.replyRegs
  | corePaused => exact h.execCorePaused
  | coreEnded => exact h.execCoreEnded
  | whistleDriven => exact .next <| .ite h.latched h
  | huddleComplete => exact h.execHuddleComplete
  | shotClock => exact .next h.shotClock
  | sramPatrolRead => exact h.execSramPatrolRead
  | clearComplete => exact .next <| .ite h.clearDie h
  | inboxDelivery => exact .next h.takeStream.ringDelivery
  | cell => exact .next h.cellMessage
  | closeMessage => exact .next h.closeArrives
  | credit => exact .next h.creditArrives
  | queueSweepDone => exact .next h.sweepDone
  | nop => exact .next <| h.runThread fun _ => .done h
  | add => exact .next <| h.runThread fun _ => h.alu2
  | sub => exact .next <| h.runThread fun _ => h.alu2
  | addi => exact .next <| h.runThread fun _ => h.aluI
  | and => exact .next <| h.runThread fun _ => h.alu2
  | or => exact .next <| h.runThread fun _ => h.alu2
  | xor => exact .next <| h.runThread fun _ => h.alu2
  | shli => exact .next <| h.runThread fun _ => h.aluI
  | shri => exact .next <| h.runThread fun _ => h.aluI
  | muli => exact .next <| h.runThread fun _ => h.aluI
  | shin => exact .next <| h.runThread fun _ => .done h.setG
  | beq => exact .next <| h.runThread fun _ => h.branchAB
  | bne => exact .next <| h.runThread fun _ => h.branchAB
  | blt => exact .next <| h.runThread fun _ => h.branchAB
  | bge => exact .next <| h.runThread fun _ => h.branchAB
  | bnzd => exact .next <| h.runThread fun _ => h.setG.branch
  | jmp => exact .next <| h.runThread fun _ => h.branch
  | waitc => exact .next <| h.runThread fun _ => .ite .fault (.ite .fault (.ite .wait (.done h)))
  | threadStop => exact .next <| h.runThread fun _ => .done h.setThread
  | cinc => exact .next <| h.runThread fun _ => .ite (.ite .fault (.ite .fault (.done h.addCounter))) (.done h.addCounter)
  | stat => exact .next <| h.runThread fun _ => .done h.setG.tput
  | fence => exact .next <| h.runThread fun _ => .ite .fault (.ite .wait (.done h))
  | ld => exact .next <| h.runThread fun _ => .ite .wait (.ite .fault (.issueReq h))
  | lds => exact .next <| h.runThread fun _ => .ite .fault h.readLocal
  | str => exact .next <| h.runThread fun _ => .ite .wait (.ite .fault (.issueReq h))
  | twalk => exact .next <| h.runThread fun _ => .ite .fault (.ite .wait (.ite .fault (.ite h.readLocal (.issueReq h))))
  | gather => exact .next <| h.runThread fun _ => h.streamReq
  | storeT => exact .next <| h.runThread fun _ => h.streamReq
  | atom => exact h.execAtom
  | red => exact .next <| h.runThread fun _ => h.streamReq
  | fetchDrainBound => exact .next h.drainFetch
  | hubReply => exact h.execHubReply
  | hubRead => exact .next h.hubCommand
  | read8 => exact .next h.hubCommand
  | hubWrite => exact .next h.hubCommand
  | write8 => exact .next h.hubCommand
  | hubAtom => exact .next h.hubCommand
  | hubRed => exact .next h.hubCommand
  | gatherC => exact .next h.hubCommand
  | storeC => exact .next h.hubCommand
  | partRead => exact .next h.hubCommand
  | partWrite => exact .next h.hubCommand
  | recordTimeout => exact h.execRecordTimeout
  | dedupWindowIdle => exact .next <| .ite h.same.countWindows h
  | hbmPatrolRead => exact h.execHbmPatrolRead
  | zeroScrubDone => exact h.execZeroScrubDone
  | channelErrors => exact .next <| .ite h.startRetrain h
  | retrain => exact .next h.csrPut
  | channelRetrainDone => exact .next <| .ite (.ite h.put.put.put.releaseChannel (.ite h.put.failChannel h.put)) h
  | acceptAtom => exact .next h.csrPut
  | hubDrainBound => exact .next <| .ite h.closeRecords h
  | hbmRailFault => exact .next <| .ite (h.foldl fun _ _ ht => ht.foldl fun _ _ ht1 => ht1.failChannel) h
  | packetInject => exact .next h.injectPacket.portUnits
  | flit => exact .next h.flitArrives.portUnits
  | nakRepeat => exact .next h.nakRepeat.portUnits
  | multicastAck => exact .next <| .ite h h.same
  | fencedReply => exact .next h.same
  | timeoutDrainDone => exact h.execTimeoutDrainDone
  | timeoutDrainLimit => exact h.execTimeoutDrainLimit
  | routerNoAnswer => exact h.execRouterNoAnswer
  | pkt => exact .next <| .ite h (.ite (.ite h.lose h) (.ite h h.takeAck.takeFrame))
  | ctrl => exact h.execCtrl
  | ctrlTimer => exact .next <| .ite h h.sendCtrl.finishReplay
  | rto => exact .next <| .ite h h.startReplay
  | retire => exact .next <| .ite h (.ite (.ite h h.emit) (.ite h.linkPortDown h.retireTx))
  | confirm => exact .next <| .ite h h.same.jput.jset
  | down => exact .next <| .ite h h.linkPortDown
  | drain => exact .next <| .ite h.startDrain h
  | mgmtRepeat => exact h.execMgmtRepeat
  | laneFailure => exact .next <| .ite h h.laneFails
  | fecWindow => exact h.execFecWindow
  | replyTimeout => exact h.execReplyTimeout
  | autoRetrain => exact .next <| .ite h.jput h
  | portDrainBound => exact .next <| .ite h (.disablePort <| h.takeFramesOf.dropFrames.foldl fun _ _ ht => ht.countAnswer.proxyEnd)
  | portTrained => exact h.execPortTrained
  | timeExchange => exact .next <| .ite h h.jput.jput.emit.emit
  | sync => exact .next <| .ite h (.jput <| .jput <| .jput <| .ite h h.jset)
  | followUp => exact .next <| .ite h h.jput.jput.jput.emit
  | delayReq => exact .next <| .ite h h.emit
  | delayResp => exact .next <| .ite h (.ite h.half.half.jput.jput.jset.jput.sendTime (.ite h.half.half.jput.jput.jset.jput
      h.half.half.jput.jput.jset.jput.sendTime))
  | commandBadcrc => exact .next h.badCrc
  | unknownOpcode => exact .next h.takePacket.unknown
  | identify => exact .next <| h.command fun _ ht => ht.reply
  | getStatus => exact .next <| h.command fun _ ht => ht.reply
  | readCsr => exact .next <| h.command fun _ ht => ht.replyRegs
  | writeCsr => exact .next h.csrPut
  | echo => exact .next <| h.command fun _ ht => ht.reply
  | setPowerCap => exact .next <| h.command fun _ ht => ht.put.updateBudgets.reply
  | setBlockLimits => exact .next <| h.command fun _ ht => .reply <| .updateBudgets <| ht.foldl fun _ _ ht1 => .ite ht1 ht1.put
  | setCoolant => exact .next <| h.command fun _ ht => ht.put.put.reply
  | getPowerThermal => exact .next <| h.command fun _ ht => ht.reply
  | getRoster => exact .next <| h.command fun _ ht => ht.reply
  | fenceDie => exact h.execFenceDie
  | substitute => exact .next <| h.command fun _ ht => ht.begin.beginSubst
  | retireDie => exact .next <| h.command fun _ ht => ht.begin.withDeferred fun _ _ ht => .finishCmd <| .ite ht ht.retire
  | rollCall => exact .next <| h.command fun _ ht => ht.begin.startRollCall
  | loadImage => exact h.execLoadImage
  | configure => exact h.execConfigure
  | kickoff => exact .next <| h.command fun _ ht => .reply <| ht.foldl fun _ _ ht1 => ht1.kickSquad
  | pause => exact .next <| h.command fun _ ht => ht.begin.requestPauses.withDeferred fun _ _ ht => ht.advancePause
  | halfTime => exact .next <| h.command fun _ ht => ht.begin.requestPauses.withDeferred fun _ _ ht => ht.advancePause
  | resume => exact .next <| h.command fun _ ht => ht.begin.withDeferred fun _ _ ht => .ite (.ite ht ht.finishCmd) (.finishCmd <|
      ht.foldl fun _ _ ht2 => ht2.resumeSquad)
  | stop => exact .next <| h.command fun _ ht => .withDeferred (ht.begin.foldl fun _ _ ht1 => ht1.stopSquad) fun _ _ ht => ht.advanceStop
  | scrub => exact h.execScrub
  | abort => exact .next <| h.command fun _ ht => ht.reply.endCast.offerSlot
  | dataOpen => exact .next <| h.command fun _ ht => ht.openWindowAt
  | dataClose => exact h.execDataClose
  | fill => exact h.execFill
  | setPortRoutes => exact h.execSetPortRoutes
  | portControl => exact .next <| h.command fun _ ht => ht.portControl
  | fabricTimeout => exact h.execFabricTimeout
  | timeSync => exact .next <| h.command fun _ ht => .reply <| ht.put.putFlag.foldl fun _ _ ht1 => ht1.jset
  | setTime => exact .next <| h.command fun _ ht => ht.same.sendTime
  | attest => exact .next <| h.command fun _ ht => ht.free.reply
  | lifecycle => exact .next <| h.command fun _ ht => ht.begin.newChallenge.withDeferred fun _ _ ht => .ite ht.lifeBegins ht.finishCmd
  | debugUnlock => exact .next <| h.command fun _ ht => .ite (ht.begin.newChallenge.withDeferred fun _ _ ht => .ite ht.setDeferred.startPanelScrub
      ht.finishCmd) (.withDeferred (ht.begin.foldl fun _ _ ht1 => ht1.stopSquad) fun _ _ ht => ht.advanceDebug)
  | fwUpdate => exact .next <| h.command fun _ ht => ht.begin
  | readNotices => exact .next <| h.command fun _ ht => .reply <| .ite ht ht.removeNotices
  | readCounters => exact .next <| h.command fun _ ht => ht.replyRegs
  | marginScan => exact .next <| h.command fun _ ht => ht.begin.foldl fun _ _ ht1 => ht1.startScan
  | scanAccess => exact .next <| h.command fun _ ht => .ite ht.noAnswer (.ite ht.reply ht.chainBits.reply)
  | cmdTmo => exact .next <| .ite h h.expire
  | loadImageHashed => exact h.execLoadImageHashed
  | configureDrainEnd => exact h.execConfigureDrainEnd
  | configureDone => exact h.execConfigureDone
  | squadPaused => exact .next <| .ite h.squadPaused.progress h
  | pauseLimit => exact .next h.pauseLimit
  | halfTimeSaved => exact .next h.halfTimeSaved
  | restoreDone => exact h.execRestoreDone
  | scrubDone => exact h.execScrubDone
  | squadStopped => exact .next <| .ite h.squadStops.progress h
  | squadComplete => exact .next <| .ite h.stopNow.progress h
  | admissionGranted => exact .next h.tryAdmit
  | admissionRetry => exact .next h.tryAdmit
  | admissionDeferred => exact h.execAdmissionDeferred
  | selfTestDone => exact h.execSelfTestDone
  | bulkCopyDone => exact h.execBulkCopyDone
  | copyStall => exact h.execCopyStall
  | dieDead => exact .next <| .ite h.dieDead h
  | data => exact .next <| .ite h h.takeArrived.takeData
  | ack => exact h.execAck
  | windowDrainBound => exact h.execWindowDrainBound
  | marginScanDone => exact h.execMarginScanDone
  | flashWriteDone => exact h.execFlashWriteDone
  | powerSample => exact .next <| .ite h.powerSample h
  | vinUndervolt => exact h.execVinUndervolt
  | vaonOvercurrent => exact .next <| .ite h.put.put.routerStops h
  | phaseFail => exact .next <| .ite h.phaseFail h
  | islandCellFail => exact h.execIslandCellFail
  | pathSample => exact .next <| .ite h.pathSample h
  | budgetUpdate => exact .next <| .ite h h.updateBudgets
  | ceilingControl => exact h.execCeilingControl
  | pwrgoodFall => exact h.execPwrgoodFall
  | pwrgoodAssert => exact .next <| h.ifReleased (.ite h.supplied h)
  | rollCallLimit => exact .next <| .ite h.failRollCall h
  | siteCheckDone => exact h.execSiteCheckDone
  | sensorSample => exact .next <| .ite h.sensorSample h
  | lidSample => exact h.execLidSample
  | flowCheck => exact .next <| .ite h.put.notifyCtl h
  | flowLoss => exact h.execFlowLoss
  | hbmHoldExpiry => exact h.execHbmHoldExpiry
  | flowRestored => exact h.execFlowRestored
  | thermtrip => exact .next <| .ite h.put.switchOff.assertFault h
  | marginWarning => exact h.execMarginWarning
  | codeRise => exact .next <| .ite h.put h
  | clockFloor => exact .next <| .ite h.put.bump.notify h
  | clockUnlock => exact .next <| .ite h.clockLost h
  | refclkLoss => exact .next <| h.foldl fun _ _ ht => ht.clocksLost
  | correctionEdge => exact .next <| .ite h.correct.answerSetTime h
  | timeUpdate => exact h.execTimeUpdate
  | minReset => exact .next <| h.csrWrite fun _ ht => ht.minReset
  | slackMinReset => exact .next <| h.csrWrite fun _ ht => ht.slackMinReset
  | peakReset => exact .next <| h.csrWrite fun _ ht => ht.put
  | haltNAssert => exact .next <| h.ifReleased h.put.driveLine
  | haltNRelease => exact h.execHaltNRelease
  | resetNAssert => exact .next h.assertReset
  | resetNRelease => exact .next <| .ite h h.releaseReset
  | controlDieBooted => exact .next <| .ite h.controlBooted h
  | firmwareVerified => exact .next <| .ite h (.ite h.free.runFirmware.put.put h.put.put.bringupFail)
  | meshWaveDone => exact h.execMeshWaveDone
  | blkEnRaise => exact h.execBlkEnRaise
  | pwrgoodTimeout => exact .next <| .ite (.bringupFail <| h.put.put.setBit.notifyCtl.foldl fun _ _ ht => ht.dieFails) h
  | hbmTrained => exact .next <| .ite (.startZeroScrub <| h.foldl fun _ _ ht => ht.failChannel.bringupFail) h
  | rosterBuild => exact .next <| .ite h.buildRoster.put.startTimeout h
  | computeReset => exact .next h.resetCommand
  | squadReset => exact .next h.resetCommand
  | dieComputeReset => exact .next h.resetCommand
  | portRetrain => exact .next h.resetCommand
  | resetDone => exact .next <| .ite h.endHold.put.put.bump.put.notifyCtl.nextRetrain h
  | tamper => exact .next <| .ite h.tampered h
  | bypass => exact .next <| .ite h.jtag h
  | idcode => exact .next <| .ite h.jtag h
  | samplePreload => exact .next <| .ite h.free.jtag.put h
  | extest => exact .next <| .ite h (.ite h.jtag.jtagCount h.free.jtag)
  | faultRead => exact .next <| .ite h.jtag h
  | jtagRefused => exact .next <| .ite h.jtagCount h
  | i3cStart => exact .next <| h.csrWrite fun _ ht => ht.writeI3c
  | i3cDone => exact h.execI3cDone
  | privateInstruction => exact .next <| .ite h (.ite h.free.jtag.put h.jtagCount)
  | noticeRecord => exact h.execNoticeRecord
  | marginCheck => exact .next <| .ite h (h.foldl fun _ _ ht => ht.checkSlack)
  | grade => exact .next <| h.command fun _ ht => ht.writeGrade.reply
  | hostport => exact .next <| h.command fun _ ht => ht.writeHostport.reply
  | noticePush => exact .next <| .ite h h.pushNotices
  | fwUpdateVerified => exact h.execFwUpdateVerified
  | thmSaveCut => exact .next <| .ite (.holdOff <| .put <| .put <| .ite h h.put.notifyCtl) h
  | heartbeatLoss => exact .next <| .ite h.assertFault h
  | watchdog => exact .next <| .ite h.assertFault h
  | thetaUpdate => exact .next <| .put <| h.foldl fun _ _ ht => ht.updateTheta
  | thermalCapUpdate => exact .next h.updateDieCaps.put.updateBudgets

/-- Settles O3: one lemma for each operation of the model, put together along `exec`; the queue of commands is no part of the form. -/
theorem everyStepKeepsCanonicalForm : Obligations.EveryStepKeepsCanonicalForm := by
  unfold Obligations.EveryStepKeepsCanonicalForm
  intro s t hs hstep
  unfold step at hstep
  split at hstep
  · cases hstep
    exact hs
  · exact exec_canonical (State.Canonical.same hs) _ t hstep

end Sys2Proof.Machine
end

section
/-! PROOFS. Stream messages (O27): a cell linked at its queue's tail, the length of a packet, credits, and a delivery to an inbox ring (R159, R179,
R186, R190). -/

namespace Sys2Proof.Machine

variable {s : State} {m : StreamMsg} {q : CluRef} {n : Nat}

/-! ### The bytes of a cell -/

theorem length_cellData (m : StreamMsg) : (cellData m).length = 64 := by simp [cellData]

theorem cellData_bytes (h : m.data.length = 64) : (cellData m).map (·.1) = m.data := by
  refine List.ext_getElem (by simp [cellData, h]) fun i _ hi => ?_
  simp [cellData, hi]

/-- The marks of eight bytes in a row, where each word of eight has one mark. -/
theorem any_wordMarks (f : Nat → Bool) {i : Nat} (hi : i < 8) :
    ((((List.range 64).map fun j => f (j / 8)).drop (8 * i)).take 8).any id = f i := by
  have hword : (((List.range 64).map fun j => f (j / 8)).drop (8 * i)).take 8 = List.replicate 8 (f i) := by
    refine List.ext_getElem (by simp; omega) fun j hj _ => ?_
    have hj8 : j < 8 := by simp at hj; omega
    simp only [List.getElem_take, List.getElem_drop, List.getElem_map, List.getElem_range, List.getElem_replicate]
    rw [show (8 * i + j) / 8 = i by omega]
  rw [hword]
  cases f i <;> rfl

/-- A word of a cell is stored with its bit of the message's poison mask (R165, R190). -/
theorem sramPoison_wrP_cellData (hs : s.canonical = true) {k i : Nat} (hk : k % 8 = 0) (hi : i < 8) :
    mapGet 0 (s.wrP k (cellData m)).sramPoison (k / 8 + i) = if m.poison.toNat.testBit i then 1 else 0 := by
  rw [sramPoison_wrP hs hk (n := 8) (by simp [cellData]) hi, cellData, List.map_map]
  exact congrArg (fun b : Bool => if b then 1 else 0) (any_wordMarks m.poison.toNat.testBit hi)

theorem cellKey_mod (q : CluRef) (k : Nat) : cellKey q k % 8 = 0 := by unfold cellKey cluKey sramKey; omega

/-! ### A cell at the tail of a queue -/

theorem countArrivals_eq_self (old : QueueSt) (h : s.qget q (Reg.CLU_QCFG.ARR_MODE n) = 0) : s.countArrivals q n old = s :=
  if_neg fun hc => by omega

/-- Queue `n` of a cluster after a data cell has been linked: it takes the lowest free cell, and the open packet goes on or starts (R177, R178). -/
def State.queueWith (s : State) (q : CluRef) (n : Nat) (first : Bool) (epoch : Nat) : QueueSt :=
  { s.queue q n with
    cells := (s.queue q n).cells ++ [⟨s.freeCell q, if first then 1 else 0, if first then lenMax else 0, epoch, false, false⟩]
    openPkt := if first then some 1 else (s.queue q n).openPkt.map (· + 1) }

/-- A CREDITED queue whose pointers are sound, in a pool whose free list is, takes a cell; it counts no arrivals in mode 0. -/
structure State.Accepts (s : State) (q : CluRef) (n : Nat) : Prop where
  canonical : s.canonical = true
  sound : s.qget q Reg.CLU_QPOOL.FL_BROKEN = 0
  matched : s.qget q Clu.FL_MISMATCH = 0
  active : s.qget q (Reg.CLU_QSTATE.STATE n) = 1
  credited : s.qget q (Reg.CLU_QCFG.MODE n) = 0
  uncounted : s.qget q (Reg.CLU_QCFG.ARR_MODE n) = 0
  undamaged : (s.queue q n).mismatch = 0

/-- A write of a memory changes no field. -/
theorem get_wrP (k : Nat) (bs : List (Byte × Bool)) (site : Nat) (f : Fld) : (s.wrP k bs).get site f = s.get site f := by
  rw [wrP_eq]
  rfl

theorem get_clu_put (h : risingFrom 0 s.fld = true) (q : CluRef) {f g : Fld} (hp : g.pos ≠ f.pos) (v : Nat) :
    (s.qput q f v).qget q g = s.qget q g :=
  s.get_put_other q.site (f.nth q.clu) v (by simp only [fldKey_eq_pos, Fld.pos_nth]; omega) h

theorem arrMode_pos (n : Nat) : (Reg.CLU_QCFG.ARR_MODE n).pos ≠ Reg.CLU_QPOOL.FREE.pos := by
  unfold Reg.CLU_QCFG.ARR_MODE Reg.CLU_QPOOL.FREE Fld.pos
  dsimp only
  omega

namespace State.Accepts
variable (h : s.Accepts q n) (first : Bool) (epoch : Nat) (data : List (Byte × Bool))
include h

/-- The cell is written, FREE falls, and the queue grows. -/
theorem arriveCell_eq : s.arriveCell q n first epoch data =
    ((s.wrP (cellKey q (s.freeCell q)) data).qput q Reg.CLU_QPOOL.FREE (s.qget q Reg.CLU_QPOOL.FREE - 1)).setQueue q n
      (s.queueWith q n first epoch) := by
  have hw : risingFrom 0 (s.wrP (cellKey q (s.freeCell q)) data).fld = true := State.canonical_fld (State.wrP_canonical _ _ h.canonical)
  have hlink : s.arriveCell q n first epoch data = s.linkCell q n (if first then 1 else 0) (if first then lenMax else 0) epoch false data := by
    have hdam : (s.queue q n).damaged [1] = none := by simp [QueueSt.damaged, h.undamaged]
    simp only [State.arriveCell, h.sound, h.matched, h.active, h.credited, hdam]
    simp
  rw [hlink]
  unfold State.linkCell
  dsimp only
  rw [if_neg (by cases first <;> decide), countArrivals_eq_self]
  · cases first <;> rfl
  · exact (get_clu_put hw q (arrMode_pos n) _).trans ((get_wrP ..).trans h.uncounted)

theorem onlyQueue : s.onlyQueue (s.arriveCell q n first epoch data) q n (s.queueWith q n first epoch) := by
  rw [h.arriveCell_eq, State.onlyQueue, wrP_eq]
  rfl

theorem rd_cell : (s.arriveCell q n first epoch data).rd (cellKey q (s.freeCell q)) data.length = data.map (·.1) := by
  rw [h.arriveCell_eq]
  exact rd_wrP h.canonical _ data

theorem sameBytesBut : s.sameBytesBut (s.arriveCell q n first epoch data) (cellKey q (s.freeCell q)) data.length := by
  rw [h.arriveCell_eq]
  exact sameBytesBut_wrP h.canonical _ data

theorem sramPoison : (s.arriveCell q n first epoch data).sramPoison = (s.wrP (cellKey q (s.freeCell q)) data).sramPoison := by
  rw [h.arriveCell_eq]
  rfl

theorem sameFields : s.sameFields (s.arriveCell q n first epoch data) [cluFld q Reg.CLU_QPOOL.FREE] := by
  intro site f hne
  rw [h.arriveCell_eq]
  have hput := State.get_put_other (s.wrP (cellKey q (s.freeCell q)) data) q.site (Reg.CLU_QPOOL.FREE.nth q.clu)
    (s.qget q Reg.CLU_QPOOL.FREE - 1) (hne (cluFld q Reg.CLU_QPOOL.FREE) (List.mem_singleton_self _))
    (State.canonical_fld (State.wrP_canonical _ _ h.canonical))
  exact hput.trans (get_wrP _ _ site f)

theorem free_eq : (s.arriveCell q n first epoch data).qget q Reg.CLU_QPOOL.FREE = s.qget q Reg.CLU_QPOOL.FREE - 1 := by
  rw [h.arriveCell_eq]
  have hlt : s.qget q Reg.CLU_QPOOL.FREE < 2 ^ 16 := s.get_lt ..
  exact (State.get_put_same _ q.site _ _ (State.canonical_fld (State.wrP_canonical _ _ h.canonical))).trans
    (Nat.mod_eq_of_lt (lt_of_le_of_lt (Nat.sub_le _ _) hlt))

end State.Accepts

/-- A CELL message of the pool's epoch reaches its queue (R190, R192). -/
theorem cellMessage_eq (hr : m.ring = false) (he : m.epoch = s.qget (s.destCluster m) Reg.CLU_QPOOL.EPOCH) :
    s.cellMessage m = (s.takeStream m).arriveCell (s.destCluster m) m.dindex m.first m.epoch (cellData m) := by
  unfold State.cellMessage
  rw [if_neg (by simp [hr]), if_neg (not_not.2 he)]

/-! ### The length of a packet, and credits -/

/-- A CLOSE message of the pool's epoch writes the length slot of the open packet (R186, R187). -/
theorem closeArrives_eq (he : m.epoch = s.qget (s.destCluster m) Reg.CLU_QPOOL.EPOCH)
    (hb : s.qget (s.destCluster m) Reg.CLU_QPOOL.FL_BROKEN = 0) :
    s.closeArrives m = (s.takeStream m).closeLength (s.destCluster m) m.dindex m.count := by
  unfold State.closeArrives
  rw [if_neg (not_not.2 he), if_neg (by omega)]

/-- Where no arrivals are counted, the length of a packet changes its queue alone (R188). -/
theorem closeLength_eq (hst : s.qget q (Reg.CLU_QSTATE.STATE n) = 1) (hp : (s.queue q n).openPkt.isSome = true)
    (harr : s.qget q (Reg.CLU_QCFG.ARR_MODE n) = 0) (len : Nat) :
    s.closeLength q n len = s.setQueue q n { s.queue q n with
      cells := (s.queue q n).cells.map fun y => if y.kind = 1 ∧ y.len = lenMax then { y with len := len } else y
      openPkt := none } := by
  have hopen : ¬ (s.qget q (Reg.CLU_QSTATE.STATE n) ≠ 1 ∨ (s.queue q n).openPkt.isNone = true) := by
    rw [not_or, not_not, Bool.not_eq_true, Option.isNone_eq_false_iff]
    exact ⟨hst, hp⟩
  unfold State.closeLength
  dsimp only
  rw [if_neg hopen, countArrivals_eq_self]
  · exact if_neg fun hc => absurd (harr.symm.trans hc) (by decide)
  · exact harr

/-- A CREDIT message of the pool's epoch adds to the port's credits (R179). -/
theorem creditArrives_eq (he : m.epoch = s.qget (s.destCluster m) Reg.CLU_QPOOL.EPOCH)
    (hb : s.qget (s.destCluster m) Reg.CLU_QPOOL.FL_BROKEN = 0) :
    s.creditArrives m = (s.takeStream m).qput (s.destCluster m) (Reg.CLU_QPSTATE.CREDITS m.dindex)
      (s.qget (s.destCluster m) (Reg.CLU_QPSTATE.CREDITS m.dindex) + m.count) := by
  unfold State.creditArrives
  rw [if_neg (not_not.2 he), if_neg (by omega)]

/-! ### Inbox rings -/

/-- The core whose ring a message is for. -/
def State.ringCore (s : State) (m : StreamMsg) : CoreRef := ⟨(s.destCluster m).site, (s.destCluster m).clu * 24 + m.dcore⟩

/-- The line of the ring that is written next. -/
def State.ringLine (s : State) (m : StreamMsg) : Nat :=
  coreKey (s.ringCore m) Mem.SP
    ((s.cget (s.ringCore m) (Reg.CORE_INBOX_DESC.BASE m.dring) + s.cget (s.ringCore m) (Reg.CORE_INBOX_STATE.WPTR m.dring)) * 64)

/-- The fields that a delivery writes, with their values. -/
def State.ringWrites (s : State) (m : StreamMsg) : List (Fld × Nat) :=
  let c := s.ringCore m
  let ctr := s.cget c (Reg.CORE_INBOX_DESC.COUNTER m.dring)
  [(Reg.CORE_INBOX_STATE.WPTR m.dring, (s.cget c (Reg.CORE_INBOX_STATE.WPTR m.dring) + 1) % s.cget c (Reg.CORE_INBOX_DESC.SIZE m.dring)),
   (Reg.CORE_INBOX_STATE.FILLED m.dring, s.cget c (Reg.CORE_INBOX_STATE.FILLED m.dring) + 1),
   (Reg.CORE_CCOUNT.VALUE ctr, s.cget c (Reg.CORE_CCOUNT.VALUE ctr) + 1)]

/-- A counter that has room takes what is added (R42). -/
theorem addCounter_eq {c : CoreRef} {ctr : Nat} (h : s.cget c (Reg.CORE_CCOUNT.VALUE ctr) < 0xFFFFFF) :
    s.addCounter c ctr 1 = s.cput c (Reg.CORE_CCOUNT.VALUE ctr) (s.cget c (Reg.CORE_CCOUNT.VALUE ctr) + 1) :=
  if_pos h

/-- A counter's place is below those of the inbox rings. -/
theorem ccount_pos {ctr : Nat} (h : ctr < 16) (r : Nat) {f : Fld} (hf : f = Reg.CORE_INBOX_STATE.WPTR r ∨ f = Reg.CORE_INBOX_STATE.FILLED r) :
    (Reg.CORE_CCOUNT.VALUE ctr).pos ≠ f.pos := by
  rcases hf with rfl | rfl <;> simp only [Reg.CORE_CCOUNT.VALUE, Reg.CORE_INBOX_STATE.WPTR, Reg.CORE_INBOX_STATE.FILLED, Fld.pos] <;> omega

/-- A message for an enabled ring of the core's epoch, with a free line, whose counter has room. -/
structure State.RingReady (s : State) (m : StreamMsg) : Prop where
  canonical : s.canonical = true
  epoch : m.epoch = s.cget (s.ringCore m) Reg.CORE_SCHED_STATUS.EPOCH
  enabled : s.cget (s.ringCore m) (Reg.CORE_INBOX_DESC.EN m.dring) = 1
  room : s.cget (s.ringCore m) (Reg.CORE_INBOX_STATE.FILLED m.dring) < s.cget (s.ringCore m) (Reg.CORE_INBOX_DESC.SIZE m.dring)
  counter : s.cget (s.ringCore m) (Reg.CORE_CCOUNT.VALUE (s.cget (s.ringCore m) (Reg.CORE_INBOX_DESC.COUNTER m.dring))) < 0xFFFFFF

namespace State.RingReady
variable (h : s.RingReady m)
include h

/-- The line is written and counted (R159). -/
theorem ringDelivery_eq : s.ringDelivery m = (s.wrP (s.ringLine m) (cellData m)).cputs (s.ringCore m) (s.ringWrites m) := by
  have hw := State.canonical_fld (State.wrP_canonical (s.ringLine m) (cellData m) h.canonical)
  have hctr : s.cget (s.ringCore m) (Reg.CORE_INBOX_DESC.COUNTER m.dring) < 16 := s.cget_lt ..
  have hcore : (⟨(s.destCluster m).site, (s.destCluster m).clu * 24 + m.dcore⟩ : CoreRef) = s.ringCore m := rfl
  have hval (a b : Nat) : (((s.wrP (s.ringLine m) (cellData m)).cput (s.ringCore m) (Reg.CORE_INBOX_STATE.WPTR m.dring) a).cput (s.ringCore m)
      (Reg.CORE_INBOX_STATE.FILLED m.dring) b).cget (s.ringCore m)
        (Reg.CORE_CCOUNT.VALUE (s.cget (s.ringCore m) (Reg.CORE_INBOX_DESC.COUNTER m.dring)))
      = s.cget (s.ringCore m) (Reg.CORE_CCOUNT.VALUE (s.cget (s.ringCore m) (Reg.CORE_INBOX_DESC.COUNTER m.dring))) := by
    rw [State.cget_cput_other (State.cput_rising hw ..) _ (ccount_pos hctr _ (.inr rfl)),
      State.cget_cput_other hw _ (ccount_pos hctr _ (.inl rfl)), State.cget, get_wrP, ← State.cget]
  unfold State.ringDelivery
  dsimp only
  rw [hcore, if_neg (not_not.2 h.epoch), if_neg (by rw [h.enabled]; decide), if_neg (not_le.2 h.room), addCounter_eq (hval .. ▸ h.counter)]
  exact congrArg (fun v => State.cput _ _ _ (v + 1)) (hval ..)

/-- A field that has been written reads its value. -/
theorem cget_written {f : Fld} {v : Nat} (hf : (f, v) ∈ s.ringWrites m) : (s.ringDelivery m).cget (s.ringCore m) f = v := by
  have hw := State.canonical_fld (State.wrP_canonical (s.ringLine m) (cellData m) h.canonical)
  have hctr : s.cget (s.ringCore m) (Reg.CORE_INBOX_DESC.COUNTER m.dring) < 16 := s.cget_lt ..
  have hsize : s.cget (s.ringCore m) (Reg.CORE_INBOX_DESC.SIZE m.dring) < 2 ^ 13 := s.cget_lt ..
  have hroom := h.room
  have hcount := h.counter
  rw [h.ringDelivery_eq]
  refine State.cget_cputs_mem hw _ ?_ hf ?_
  · have hptr : (Reg.CORE_INBOX_STATE.WPTR m.dring).pos ≠ (Reg.CORE_INBOX_STATE.FILLED m.dring).pos := by
      simp [Reg.CORE_INBOX_STATE.WPTR, Reg.CORE_INBOX_STATE.FILLED, Fld.pos]
    simpa [State.ringWrites, hptr] using And.intro (ccount_pos hctr m.dring (.inl rfl)).symm (ccount_pos hctr m.dring (.inr rfl)).symm
  · simp only [State.ringWrites, List.mem_cons, Prod.mk.injEq, List.not_mem_nil, or_false] at hf
    obtain ⟨rfl, rfl⟩ | ⟨rfl, rfl⟩ | ⟨rfl, rfl⟩ := hf
    · exact lt_trans (Nat.mod_lt _ (by omega)) hsize
    · exact lt_of_le_of_lt hroom hsize
    · exact lt_of_le_of_lt hcount (show 0xFFFFFF < 2 ^ 24 by decide)

end State.RingReady

/-- Settles O27: a message that is not stale acts as `arriveCell`, `closeLength`, a write of CREDITS or `ringDelivery` do, none of which stops
short under the statement's hypotheses. -/
theorem streamMessagesArrive : Obligations.StreamMessagesArrive := by
  unfold Obligations.StreamMessagesArrive
  intro s m hs _ _
  refine ⟨fun hr he hb hst hmode harr hmis => ⟨fun hfl hlen => ?_, fun hopen => ?_, ?_⟩, fun he hen hroom hctr hlen => ?_⟩
  · have h : (s.takeStream m).Accepts (s.destCluster m) m.dindex := ⟨hs, hb, hfl, hst, hmode, harr, hmis⟩
    refine ⟨s.cellMessage m, rfl, ?_⟩
    rw [cellMessage_eq hr he]
    refine ⟨h.onlyQueue .., ?_, ?_, fun i hi => ?_, h.free_eq .., h.sameFields _ _ _⟩
    · have hrd := h.rd_cell m.first m.epoch (cellData m)
      rwa [length_cellData, cellData_bytes hlen] at hrd
    · have hbut := h.sameBytesBut m.first m.epoch (cellData m)
      rwa [length_cellData] at hbut
    · rw [h.sramPoison]
      exact sramPoison_wrP_cellData hs (cellKey_mod ..) hi
  · refine ⟨s.closeArrives m, rfl, ?_⟩
    rw [closeArrives_eq he hb, closeLength_eq (s := s.takeStream m) hst hopen harr]
    exact ⟨⟨rfl, rfl, rfl, rfl, rfl, rfl⟩, rfl, rfl⟩
  · refine ⟨s.creditArrives m, rfl, ?_⟩
    rw [creditArrives_eq he hb]
    have hfld : risingFrom 0 (s.takeStream m).fld = true := State.canonical_fld hs
    exact ⟨State.get_put_same _ _ _ _ hfld, ((State.Writes.refl hfld).put (cluFld _ _) _).only.2, ⟨rfl, rfl, rfl, rfl, rfl, rfl⟩, rfl⟩
  · have h : (s.takeStream m).RingReady m := ⟨hs, he, hen, hroom, hctr⟩
    have hrd := rd_wrP h.canonical ((s.takeStream m).ringLine m) (cellData m)
    have hbut := sameBytesBut_wrP h.canonical ((s.takeStream m).ringLine m) (cellData m)
    rw [length_cellData] at hrd hbut
    rw [cellData_bytes hlen] at hrd
    refine ⟨(s.takeStream m).ringDelivery m, rfl, ?_, ?_, h.cget_written ?_, h.cget_written ?_, h.cget_written ?_, ?_⟩
    · rw [h.ringDelivery_eq]; exact hrd
    · rw [h.ringDelivery_eq]; exact hbut
    · exact .tail _ (.head _)
    · exact .head _
    · exact .tail _ (.tail _ (.head _))
    · rw [h.ringDelivery_eq, State.cputs, wrP_eq]; rfl

end Sys2Proof.Machine
end

section
/-! PROOFS. The patrol scrubber and the clear engine (O26): a corrected word is counted and logged before it is rewritten, and a cleared die holds
zeros, empty queues and free pools (R164, R166–R169). -/

namespace Sys2Proof.Machine

variable {s t : State} {c : CoreRef} {q : CluRef}

/-! ### A corrected word of a scratchpad -/

/-- The fields of a core's error log. -/
def errLogFs : List Fld :=
  [Reg.CORE_MEM_ERR_LOG.VALID, Reg.CORE_MEM_ERR_LOG.KIND, Reg.CORE_MEM_ERR_LOG.MEM, Reg.CORE_MEM_ERR_LOG.WORD, Reg.CORE_MEM_ERR_LOG.SYNDROME]

/-- The counts of a core's corrected errors since its last notice. -/
def sinceFs : List Fld := (List.range 9).map Core.CE_SINCE

theorem logMem_writes (h : risingFrom 0 s.fld = true) (mem word kind syndrome : Nat) :
    s.Writes (s.logMem true c.site c.core mem word kind syndrome) (errLogFs.map (coreFld c)) := by
  unfold State.logMem
  simp only [if_true]
  split
  · exact (State.Writes.refl h).mono (List.nil_subset _)
  · exact (((((State.Writes.refl h).cset c _ _).cput c _ _).cput c _ _).cput c _ _).cput c _ _

theorem State.sameMemory.trans {u : State} (h : s.sameMemory t) (g : t.sameMemory u) : s.sameMemory u := by
  obtain ⟨h1, h2, h3, h4, h5, h6⟩ := h
  obtain ⟨g1, g2, g3, g4, g5, g6⟩ := g
  exact ⟨g1.trans h1, g2.trans h2, g3.trans h3, g4.trans h4, g5.trans h5, g6.trans h6⟩

theorem State.WritesAndNotes.mono {as bs : List (Nat × Fld)} (h : s.WritesAndNotes t as) (hab : as ⊆ bs) : s.WritesAndNotes t bs :=
  let ⟨b, hw⟩ := h
  ⟨b, hw.mono hab⟩

theorem State.WritesAndNotes.sameMemory {es : List (Nat × Fld)} (h : s.WritesAndNotes t es) : s.sameMemory t :=
  let ⟨_, hw⟩ := h
  hw.sameMemory

theorem notify_writes (h : risingFrom 0 s.fld = true) (site unit typ cls arg0 arg1 : Nat) :
    s.WritesAndNotes (s.notify site unit typ cls arg0 arg1) (noticeFlds site) := (raise_writes h _).1

/-- The counts start again at 0. -/
theorem clearSince_writes (h : risingFrom 0 s.fld = true) :
    s.Writes ((List.range 9).foldl (fun s m => s.cput c (Core.CE_SINCE m) 0) s) (sinceFs.map (coreFld c)) :=
  State.Writes.foldl (f := fun s m => s.cput c (Core.CE_SINCE m) 0) (es := fun m => [coreFld c (Core.CE_SINCE m)])
    (l := List.range 9) (fun _ m _ ht => (State.Writes.refl ht).cput c (Core.CE_SINCE m) 0) h

/-- A corrected error of a scratchpad is counted; at the threshold a notice is raised and the counts since the last one start again (R166). -/
theorem coreCorrected_writes (h : risingFrom 0 s.fld = true) :
    (s.cbump c Reg.CORE_MEM_CE.SP).WritesAndNotes (s.coreCorrected c Mem.SP) (sinceFs.map (coreFld c) ++ noticeFlds c.site) := by
  unfold State.coreCorrected
  extract_lets s1 total thr
  have hSP : coreFld c (Core.CE_SINCE Mem.SP) ∈ sinceFs.map (coreFld c) :=
    List.mem_map_of_mem (List.mem_map_of_mem (List.mem_range.2 (by decide)))
  have h1 : (s.cbump c Reg.CORE_MEM_CE.SP).Writes s1 (sinceFs.map (coreFld c)) :=
    ((State.Writes.refl (State.cput_rising h ..)).cbump c (Core.CE_SINCE Mem.SP)).mono (List.cons_subset.2 ⟨hSP, List.nil_subset _⟩)
  clear_value s1
  split
  · have h2 := notify_writes h1.ordered c.site c.core 0x0103 1 (s1.worstMem c) total
    have h3 := (State.WritesAndNotes.of_writes h1).trans (h2.trans (.of_writes (clearSince_writes (c := c) h2.ordered)))
    exact h3.mono (by simp)
  · exact (State.WritesAndNotes.of_writes h1).mono (by simp)

/-- A key of a core's scratchpad. -/
theorem key_of_scratchpad {site unit a w : Nat} (hu : unit < 48) (ha : a + 64 ≤ 2 ^ 25) (hlo : sramKey site unit Mem.SP a / 8 ≤ w)
    (hhi : w < sramKey site unit Mem.SP a / 8 + 8) (hal : a % 8 = 0) :
    keySite (8 * w) = site ∧ keyUnit (8 * w) = unit ∧ keyMem (8 * w) = Mem.SP := by
  unfold sramKey Mem.SP at *
  unfold keySite keyUnit keyMem
  omega

/-- A word with one upset bit and no poison reads correctable (R164). -/
theorem wordBad_of_correctable {w : Nat} (hu : mapGet 0 s.sramUpset w = 1) (hp : mapGet 0 s.sramPoison w = 0) : s.wordBad w = false := by
  simp [State.wordBad, hu, hp]

/-- The read of a correctable word of a scratchpad counts the error, and changes no memory and no mark (R164, R166). -/
theorem checkWord_correctable (hs : s.canonical = true) (hc : c.wf = true) {w : Nat} (hsite : keySite (8 * w) = c.site)
    (hunit : keyUnit (8 * w) = c.core) (hmem : keyMem (8 * w) = Mem.SP) (hu : mapGet 0 s.sramUpset w = 1) (hp : mapGet 0 s.sramPoison w = 0) :
    s.sameMemory (s.checkWord w)
      ∧ (s.checkWord w).cget c Reg.CORE_MEM_CE.SP = min (s.cget c Reg.CORE_MEM_CE.SP + 1) (2 ^ Reg.CORE_MEM_CE.SP.width - 1) := by
  obtain ⟨-, hcore⟩ := (coreRef_wf_iff c).1 hc
  let s1 := s.free.2.logMem true c.site c.core Mem.SP (keyWord (8 * w)) 1 s.free.1
  have hword : s.checkWord w = s1.coreCorrected c Mem.SP := by
    unfold State.checkWord
    simp only [wordBad_of_correctable hu hp, hu, hsite, hunit, hmem, hcore, decide_true, if_true, Bool.false_eq_true, if_false]
    rfl
  have h1 : s.free.2.Writes s1 (errLogFs.map (coreFld c)) :=
    logMem_writes (s := s.free.2) (State.canonical_fld hs) Mem.SP (keyWord (8 * w)) 1 s.free.1
  have h2 : s1.Writes (s1.cbump c Reg.CORE_MEM_CE.SP) [coreFld c Reg.CORE_MEM_CE.SP] := (State.Writes.refl h1.ordered).cbump c _
  have h3 := coreCorrected_writes (c := c) h1.ordered
  rw [hword]
  have hlog : s1.cget c Reg.CORE_MEM_CE.SP = s.cget c Reg.CORE_MEM_CE.SP := h1.cget_eq (apart_coreFlds (by decide))
  have hlast : (s1.coreCorrected c Mem.SP).cget c Reg.CORE_MEM_CE.SP = (s1.cbump c Reg.CORE_MEM_CE.SP).cget c Reg.CORE_MEM_CE.SP :=
    h3.get_eq (e := coreFld c Reg.CORE_MEM_CE.SP)
      ((apart_append ..).2 ⟨apart_coreFlds (by decide), apart_core_die hc (fs := noticeFs) (by decide)⟩)
  exact ⟨(h1.trans h2).sameMemory.trans h3.sameMemory, by rw [hlast, State.cget_cbump_same h1.ordered, hlog]⟩

/-! ### The patrol scrubber -/

theorem rising_mem {β : Type} {lo : Nat} {m : SMap β} (hm : risingFrom lo m = true) {e : Nat × β} (he : e ∈ m) : lo ≤ e.1 := by
  induction m generalizing lo with
  | nil => cases he
  | cons a m ih =>
    obtain ⟨hlo, hr⟩ := rising_cons.1 hm
    rcases List.mem_cons.1 he with rfl | he
    · exact hlo
    · have := ih hr he
      omega

/-- What a listed key holds. -/
theorem mapGet_of_mem {β : Type} (d : β) {lo : Nat} {m : SMap β} (hm : risingFrom lo m = true) {e : Nat × β} (he : e ∈ m) :
    mapGet d m e.1 = e.2 := by
  induction m generalizing lo with
  | nil => cases he
  | cons a m ih =>
    obtain ⟨k, v⟩ := a
    obtain ⟨-, hr⟩ := rising_cons.1 hm
    rcases List.mem_cons.1 he with rfl | he
    · simp [mapGet]
    · have habove := rising_mem hr he
      rw [mapGet_cons_above d (by omega), ih hr he]

/-- A listed word of a range lies in it. -/
theorem wordsIn_mem {m : SMap Nat} {k n w : Nat} (h : w ∈ wordsIn m k n) : k / 8 ≤ w ∧ w < (k + n - 1) / 8 + 1 := by
  unfold wordsIn at h
  split at h
  · cases h
  · obtain ⟨e, he, rfl⟩ := List.mem_map.1 h
    simpa using (List.mem_filter.1 he).2

/-- The line's correctable word is counted and rewritten: its upset mark is gone (R164, R167). -/
theorem patrolLine_rewrites (hs : s.canonical = true) (hc : c.wf = true) {line w : Nat} (hl : line < 24576)
    (hw : wordsIn s.sramUpset (coreKey c Mem.SP (line * 64)) 64 = [w]) (hu : mapGet 0 s.sramUpset w = 1) (hp : mapGet 0 s.sramPoison w = 0) :
    let u := s.patrolLine (coreKey c Mem.SP (line * 64)) 64
    mapGet 0 u.sramUpset w = 0 ∧ u.sram = s.sram ∧ u.sramPoison = s.sramPoison
      ∧ u.cget c Reg.CORE_MEM_CE.SP = min (s.cget c Reg.CORE_MEM_CE.SP + 1) (2 ^ Reg.CORE_MEM_CE.SP.width - 1) := by
  obtain ⟨-, hcore⟩ := (coreRef_wf_iff c).1 hc
  have hal : coreKey c Mem.SP (line * 64) % 8 = 0 := by unfold coreKey sramKey; omega
  obtain ⟨hlo, hhi⟩ := wordsIn_mem (hw ▸ List.mem_singleton_self w)
  obtain ⟨hsite, hunit, hmem⟩ := key_of_scratchpad (site := c.site) (a := line * 64) hcore (by omega) hlo
    (show w < coreKey c Mem.SP (line * 64) / 8 + 8 by omega) (by omega)
  have hcheck : s.checkRange (coreKey c Mem.SP (line * 64)) 64 = s.checkWord w := by rw [State.checkRange, hw]; rfl
  obtain ⟨hsame, hcount⟩ := checkWord_correctable hs hc hsite hunit hmem hu hp
  obtain ⟨hsram, hpois, hups, -⟩ := hsame
  have hbad : (s.checkWord w).wordBad w = false := wordBad_of_correctable (hups ▸ hu) (hpois ▸ hp)
  unfold State.patrolLine
  rw [hcheck]
  refine ⟨mapGet_not_listed 0 fun e he hew => ?_, hsram, hpois, hcount⟩
  obtain ⟨hin, hkeep⟩ := List.mem_filter.1 he
  have he2 : e.2 = 1 := by
    have hget := mapGet_of_mem 0 (wf_iff.1 (State.Canonical.sramUpset_wf hs)).1 (hups ▸ hin)
    rw [← hget, hew, hu]
  rw [hew, he2, hbad] at hkeep
  simp only [BEq.rfl, Bool.and_true, Bool.not_false, Bool.not_and, Bool.or_eq_true, Bool.not_eq_eq_eq_not, Bool.not_true,
    decide_eq_false_iff_not, not_le, not_lt] at hkeep
  omega

/-! ### The clear engine -/

/-- Only fields differ, and of the queues some are set back. -/
structure State.Resets (s t : State) : Prop where
  frame : t = { s with fld := t.fld, queues := t.queues }
  queues : ∀ e ∈ t.queues, e ∈ s.queues

namespace State.Resets
variable {u : State}

theorem of_fld {m : SMap Nat} : s.Resets { s with fld := m } := ⟨rfl, fun _ he => he⟩

theorem trans (h : s.Resets t) (g : t.Resets u) : s.Resets u where
  frame := by rw [g.frame, h.frame]
  queues := fun e he => h.queues e (g.queues e he)

theorem put (h : s.Resets t) {site : Nat} {f : Fld} {v : Nat} : s.Resets (t.put site f v) := h.trans of_fld

theorem dropQueues (h : s.Resets t) {lo hi : Nat} : s.Resets { t with queues := mapClear lo hi t.queues } :=
  h.trans ⟨rfl, fun _ he => (List.mem_filter.1 he).1⟩

theorem foldl {α : Type} {f : State → α → State} (hf : ∀ (t : State) x, t.Resets (f t x)) (l : List α) : s.Resets (l.foldl f s) :=
  List.foldlRecOn (motive := s.Resets) l f ⟨rfl, fun _ he => he⟩ fun _ ht x _ => ht.trans (hf _ x)

end State.Resets

theorem rebuildPool_resets (s : State) (q : CluRef) : s.Resets (s.rebuildPool q) := by
  unfold State.rebuildPool
  extract_lets s1 on s2
  have h2 : s.Resets s2 := State.Resets.of_fld.trans (.foldl (fun _ _ => .of_fld) on)
  exact h2.dropQueues.put.put.put.put

/-- After its memories and queues have been wiped, a clear sets back fields, and queues once more. -/
theorem clearDie_resets (s : State) (site : Nat) : (s.wipeDie site).Resets (s.clearDie site) := by
  unfold State.clearDie
  extract_lets s1
  have h1 : (s.wipeDie site).Resets s1 := .foldl (fun _ _ => .of_fld) _
  exact (h1.trans (rebuildPool_resets _ _)).trans (rebuildPool_resets _ _) |>.put.put

/-- The keys of a die's memories. -/
theorem sramKey_die (site : Nat) : sramKey site 0 0 0 = site * 2 ^ 35 := by unfold sramKey; omega

/-- The keys of a die's queues. -/
theorem queue_wipeDie {site n : Nat} (hq : q.site = site) (hclu : q.clu < 2) (hn : n < 1024) {e : Nat × QueueSt}
    (he : e ∈ (s.wipeDie site).queues) : e.1 ≠ queueKey q n := by
  have hout := (List.mem_filter.1 he).2
  simp only [Bool.or_eq_true, decide_eq_true_eq] at hout
  unfold queueKey at hout ⊢
  dsimp only at hout
  omega

/-- Fields outside the range that is set back read as before. -/
theorem get_clearFlds_other (h : risingFrom 0 s.fld = true) {site lo hi : Nat} {f : Fld} (hf : f.pos < lo * 64 ∨ hi * 64 ≤ f.pos) :
    (s.clearFlds site lo hi).get site f = s.get site f := by
  unfold State.get State.clearFlds
  rw [mapGet_clear_other _ (by rw [fldKey_eq_pos]; omega) h]

/-- The other fields of the pool that are written when it is rebuilt. -/
def poolFs : List Fld := [Reg.CLU_QPOOL.FL_BROKEN, Clu.FL_MISMATCH, Clu.STALE_SEEN]

theorem poolWrites (h : risingFrom 0 s.fld = true) (q : CluRef) :
    s.Writes (((s.qput q Reg.CLU_QPOOL.FL_BROKEN 0).qput q Clu.FL_MISMATCH 0).qput q Clu.STALE_SEEN 0) (poolFs.map (cluFld q)) :=
  (((State.Writes.refl h).put (cluFld q _) _).put (cluFld q _) _).put (cluFld q _) _

/-- Fields of one cluster at other places. -/
theorem apart_clu {f : Fld} {fs : List Fld} (hf : ∀ g ∈ fs, f.pos ≠ g.pos) : Apart (cluFld q f) (fs.map (cluFld q)) := by
  intro a ha
  obtain ⟨g, hg, rfl⟩ := List.mem_map.1 ha
  have := hf g hg
  simp only [cluFld, fldKey_eq_pos, Fld.pos_nth]
  omega

/-- Every cell of a rebuilt pool is free (R193). -/
theorem rebuildPool_free (hs : s.Canonical) (q : CluRef) : (s.rebuildPool q).qget q Reg.CLU_QPOOL.FREE = 32768 := by
  unfold State.rebuildPool
  extract_lets s1 on s2
  have h2 : s2.Canonical := .foldl hs.clearFlds.clearFlds fun _ _ ht => ht.qput
  clear_value s2
  let s3 : State := { s2 with queues := mapClear (queueKey q 0) (queueKey q 1024) s2.queues }
  have h3 : risingFrom 0 s3.fld = true := (State.canonical_fld h2 : risingFrom 0 s2.fld = true)
  have hw := poolWrites (State.put_rising s3 q.site (Reg.CLU_QPOOL.FREE.nth q.clu) 32768 h3) q
  exact (hw.get_eq (e := cluFld q Reg.CLU_QPOOL.FREE) (apart_clu (by decide))).trans (State.get_put_same _ _ _ _ h3)

/-- A field of cluster 0, and fields of cluster 1. -/
theorem apart_clusters {site : Nat} {f : Fld} {fs : List Fld} (hf : ∀ g ∈ fs, f.pos ≠ g.pos + 2 ^ 22) :
    Apart (cluFld ⟨site, 0⟩ f) (fs.map (cluFld ⟨site, 1⟩)) := by
  intro a ha
  obtain ⟨g, hg, rfl⟩ := List.mem_map.1 ha
  have := hf g hg
  simp only [cluFld, fldKey_eq_pos, Fld.pos_nth]
  omega

/-- The pool of cluster 0 keeps its free cells when that of cluster 1 is rebuilt. -/
theorem rebuildPool_free_other (hs : s.Canonical) (site : Nat) :
    (s.rebuildPool ⟨site, 1⟩).qget ⟨site, 0⟩ Reg.CLU_QPOOL.FREE = s.qget ⟨site, 0⟩ Reg.CLU_QPOOL.FREE := by
  have hstate (n : Nat) : Reg.CLU_QPOOL.FREE.pos ≠ (Reg.CLU_QSTATE.STATE n).pos + 2 ^ 22 := by
    simp only [Reg.CLU_QPOOL.FREE, Reg.CLU_QSTATE.STATE, Fld.pos]
    omega
  unfold State.rebuildPool
  extract_lets s1 on s2
  have h1 : s1.Canonical := hs.clearFlds.clearFlds
  have hget1 : s1.qget ⟨site, 0⟩ Reg.CLU_QPOOL.FREE = s.qget ⟨site, 0⟩ Reg.CLU_QPOOL.FREE :=
    (get_clearFlds_other (State.canonical_fld (State.Canonical.clearFlds hs))
      (.inl (by decide : (Reg.CLU_QPOOL.FREE.nth 0).pos < (0x40A000 + 1 * 0x10000) * 64))).trans
    (get_clearFlds_other (State.canonical_fld hs) (.inl (by decide : (Reg.CLU_QPOOL.FREE.nth 0).pos < (0x404000 + 1 * 0x10000) * 64)))
  have h2 : s1.Writes s2 (on.flatMap fun n => [Reg.CLU_QSTATE.STATE n].map (cluFld ⟨site, 1⟩)) :=
    .foldl (fun t n _ ht => (State.Writes.refl ht).put (cluFld ⟨site, 1⟩ (Reg.CLU_QSTATE.STATE n)) 1) (State.canonical_fld h1)
  have hget2 := h2.get_eq (e := cluFld ⟨site, 0⟩ Reg.CLU_QPOOL.FREE) (apart_flatMap fun n _ => apart_clusters (by simpa using hstate n))
  have hr2 : risingFrom 0 s2.fld = true := h2.ordered
  clear_value s2
  let s3 : State := { s2 with queues := mapClear (queueKey ⟨site, 1⟩ 0) (queueKey ⟨site, 1⟩ 1024) s2.queues }
  have h3 : s3.Writes (s3.qput ⟨site, 1⟩ Reg.CLU_QPOOL.FREE 32768) ([Reg.CLU_QPOOL.FREE].map (cluFld ⟨site, 1⟩)) :=
    (State.Writes.refl (show risingFrom 0 s3.fld = true from hr2)).put (cluFld ⟨site, 1⟩ Reg.CLU_QPOOL.FREE) 32768
  have hget3 := (h3.trans (poolWrites h3.ordered ⟨site, 1⟩)).get_eq (e := cluFld ⟨site, 0⟩ Reg.CLU_QPOOL.FREE)
    ((apart_append ..).2 ⟨apart_clusters (by decide), apart_clusters (by decide)⟩)
  exact hget3.trans (hget2.trans hget1)

/-- The latches and the mark of the engine are no fields of a pool. -/
theorem clearDie_free (hs : s.Canonical) (site : Nat) {k : Nat} (hk : k < 2) : (s.clearDie site).qget ⟨site, k⟩ Reg.CLU_QPOOL.FREE = 32768 := by
  unfold State.clearDie
  extract_lets s1
  have h1 : s1.Canonical := hs.wipeDie.foldl fun _ _ ht => ht.clearCoreState
  clear_value s1
  have hlast (t : State) (ht : risingFrom 0 t.fld = true) :
      ((t.put site Reg.DIE_SIDEBAND.LATCH 0).put site Die.CLEARING 0).qget ⟨site, k⟩ Reg.CLU_QPOOL.FREE
        = t.qget ⟨site, k⟩ Reg.CLU_QPOOL.FREE :=
    (((State.Writes.refl ht).put (site, Reg.DIE_SIDEBAND.LATCH) 0).put (site, Die.CLEARING) 0).get_eq
      (e := (site, Reg.CLU_QPOOL.FREE.nth k)) (apart_die (fs := [Reg.DIE_SIDEBAND.LATCH, Die.CLEARING]) (by
        obtain rfl | rfl : k = 0 ∨ k = 1 := by omega
        · decide
        · decide))
  rw [hlast _ (State.canonical_fld (State.Canonical.rebuildPool h1.rebuildPool))]
  obtain rfl | rfl : k = 0 ∨ k = 1 := by omega
  · exact (rebuildPool_free_other h1.rebuildPool site).trans (rebuildPool_free h1 ⟨site, 0⟩)
  · exact rebuildPool_free h1.rebuildPool ⟨site, 1⟩

/-- The engine has stopped. -/
theorem clearDie_done (hs : s.Canonical) (site : Nat) : (s.clearDie site).flag site Die.CLEARING = false := by
  have h1 : ((coresOf site).foldl State.clearCoreState (s.wipeDie site)).Canonical := hs.wipeDie.foldl fun _ _ ht => ht.clearCoreState
  rw [State.flag, State.clearDie, State.get_put_same _ _ _ _ (State.canonical_fld (State.Canonical.put (.rebuildPool h1.rebuildPool)))]
  rfl

/-- Settles O26: the patrol's line holds one word to check, and the clear engine wipes the die before it rebuilds its pools. -/
theorem patrolRewritesAndClearZeroes : Obligations.PatrolRewritesAndClearZeroes := by
  unfold Obligations.PatrolRewritesAndClearZeroes
  refine fun s hs => ⟨fun site unit line w hsite hunit hline hen hw hu hp => ?_, fun site hcomp hclr => ?_⟩
  · refine ⟨s.patrolLine (sramKey site unit Mem.SP (line * 64)) 64, ?_,
      patrolLine_rewrites (c := ⟨site, unit⟩) hs ((coreRef_wf_iff _).2 ⟨hsite, hunit⟩) hline hw hu hp⟩
    show execSramPatrolRead site unit line s = _
    unfold execSramPatrolRead
    simp only [hunit, hline, hen, if_true, and_self]
  · have hr := clearDie_resets s site
    obtain ⟨-, -, hsram, -⟩ := State.canonical_maps hs
    refine ⟨s.clearDie site, ?_, ?_, fun a ha => ?_, fun a ha => ?_, fun w hw => ?_, fun q n hq hn => ?_, ?_,
      fun q hq => clearDie_free hs site hq⟩
    · show execClearComplete site s = _
      unfold execClearComplete
      rw [if_pos ⟨hcomp, hclr⟩]
    · exact clearDie_done hs site
    · rw [hr.frame]
      exact mapGet_clear_in 0 _ (by rw [sramKey_die]; omega) (by rw [sramKey_die]; omega)
    · rw [hr.frame]
      exact mapGet_clear_other 0 (by rw [sramKey_die, sramKey_die]; omega) (wf_iff.1 hsram).1
    · rw [hr.frame]
      exact mapGet_clear_in 0 _ (by rw [sramKey_die]; omega) (by rw [sramKey_die]; omega)
    · exact mapGet_not_listed _ fun e he => queue_wipeDie rfl hq hn (hr.queues e he)
    · rw [hr.frame]
      rfl

end Sys2Proof.Machine
end

section
/-! PROOFS. Fields of a cluster: where they stand beside those of its cores, and what a run of writes of them leaves (R170, R201). -/

namespace Sys2Proof.Machine

variable {s t d : State} {c : CoreRef} {q : CluRef} {f g : Fld} {ws : List (Fld × Nat)} {p n : Nat}

/-! ### Where the fields of a cluster stand -/

/-- A field stands where those of core 0 do, the registers or the others. -/
abbrev Fld.AtCore (f : Fld) : Prop := f.pos < 0x110000 * 64 ∨ 0x1100000 * 64 ≤ f.pos ∧ f.pos < 0x1110000 * 64

/-- A field stands where those of cluster 0 do, clear of the fields of every core. -/
abbrev Fld.AtCluster (f : Fld) : Prop := 0x400000 * 64 ≤ f.pos ∧ f.pos < 0x10F0000 * 64 ∨ 0x1400000 * 64 ≤ f.pos

theorem fldKey_cluFld_ne_coreFld (hc : c.wf = true) (hf : f.AtCluster) (hg : g.AtCore) :
    fldKey (cluFld (cluOf c) f).1 (cluFld (cluOf c) f).2 ≠ fldKey (coreFld c g).1 (coreFld c g).2 := by
  obtain ⟨-, hcore⟩ := (coreRef_wf_iff c).1 hc
  have hclu : c.core / 24 < 2 := by omega
  simp only [cluFld, coreFld, cluOf, fldKey_eq_pos, Fld.pos_nth]
  omega

/-- A cluster's field is none of its cores' fields. -/
theorem apart_clu_core (hc : c.wf = true) (hf : f.AtCluster) {gs : List Fld} (hg : ∀ g ∈ gs, g.AtCore) :
    Apart (cluFld (cluOf c) f) (gs.map (coreFld c)) := by
  intro a ha
  obtain ⟨g, hgm, rfl⟩ := List.mem_map.1 ha
  exact fldKey_cluFld_ne_coreFld hc hf (hg g hgm)

/-- A core's field is none of its cluster's fields. -/
theorem apart_core_clu (hc : c.wf = true) (hg : g.AtCore) {fs : List Fld} (hf : ∀ f ∈ fs, f.AtCluster) :
    Apart (coreFld c g) (fs.map (cluFld (cluOf c))) := by
  intro a ha
  obtain ⟨f, hfm, rfl⟩ := List.mem_map.1 ha
  exact (fldKey_cluFld_ne_coreFld hc (hf f hfm) hg).symm

/-- The marks of an issue leave the fields of the core's cluster. -/
theorem qget_mark (h : risingFrom 0 s.fld = true) (hc : c.wf = true) (hf : f.AtCluster) :
    (s.mark c).qget (cluOf c) f = s.qget (cluOf c) f :=
  (State.Issuing.mark h c).writes.get_eq (e := cluFld (cluOf c) f) ((apart_append ..).2 ⟨apart_clu_core hc hf (gs := markFs) (by decide), apart_nil _⟩)

/-- So does the step to the next word. -/
theorem qget_issueNext (h : risingFrom 0 s.fld = true) (hc : c.wf = true) (hf : f.AtCluster) {a : Nat} (ha : a ≤ 2047) :
    (s.issueNext c a).qget (cluOf c) f = s.qget (cluOf c) f :=
  (writes_issueNext h c ha).get_eq (e := cluFld (cluOf c) f) (apart_clu_core hc hf (by decide))

/-! ### Writes of several fields of a cluster -/

/-- The listed fields of a cluster are written, one after the other. -/
def State.qputs (s : State) (q : CluRef) (ws : List (Fld × Nat)) : State := ws.foldl (fun s w => s.qput q w.1 w.2) s

/-! Cluster `k` has its fields where core `k` has those that stand as far on (`Fld.nth`): the laws of a core's fields are those of a cluster's. -/

section
variable (h : risingFrom 0 s.fld = true) (q : CluRef)
include h

theorem State.writes_qputs (ws : List (Fld × Nat)) : s.Writes (s.qputs q ws) (ws.map fun w => cluFld q w.1) :=
  State.writes_cputs h ⟨q.site, q.clu⟩ ws

theorem State.qget_qputs_other (hf : ∀ w ∈ ws, f.pos ≠ w.1.pos) : (s.qputs q ws).qget q f = s.qget q f :=
  State.cget_cputs_other h ⟨q.site, q.clu⟩ hf

/-- Of several fields at different places, each reads as it was written. -/
theorem State.qget_qputs_mem (hp : ws.Pairwise fun a b => a.1.pos ≠ b.1.pos) {v : Nat} (hm : (f, v) ∈ ws) (hv : v < 2 ^ f.width) :
    (s.qputs q ws).qget q f = v :=
  State.cget_cputs_mem h ⟨q.site, q.clu⟩ hp hm hv

end

/-! ### The fields of ports and queues -/

/-- Registers of a port or queue of cluster 0: one of 8 bytes for each number, from `base` on. -/
theorem atCluster_entry {off lo : Nat} (h : 0x400000 ≤ off ∧ off ≤ 0x410000) (hlo : lo < 64) (hn : n < 1024) {width reset : Nat} {acc : Acc} :
    (⟨off + 8 * n, lo, width, reset, acc⟩ : Fld).AtCluster := by
  simp only [Fld.AtCluster, Fld.pos]
  omega

end Sys2Proof.Machine
end

section
/-! PROOFS. A word whose queue-port slot is an operation: its checks, its issue, and where the core goes on (R28, R56–R58, R128, R198). -/

namespace Sys2Proof.Machine

variable {s t d : State} {c : CoreRef} {f : Fld} {ws : List (Fld × Nat)} {us : List (Nat × Flight)} {op p v a kind : Nat}

/-! ### The slot -/

theorem qpSlot_op (hop : op < 16) (w : Nat) :
    qpSlot (withField w 9 6 op) = ⟨op, bitsOf w 19 10, bitsOf w 21 20, bitsOf w 29 22⟩ := by
  simp only [qpSlot, bitsOf_op hop, bitsOf_op_other hop (show 9 < 10 by decide), bitsOf_op_other hop (show 9 < 20 by decide),
    bitsOf_op_other hop (show 9 < 22 by decide)]

theorem port_lt (w : Nat) : bitsOf w 19 10 < 1024 := bitsOf_lt w 19 10

/-! ### The checks -/

/-- A port that may be used breaks none of the checks common to operations and waits (R198). -/
theorem portBad_of_qportOk (h : s.qportOk c p kind) : s.portBad c p = false := by
  obtain ⟨hen, howner, hkind, -, -, hqueue⟩ := h
  have hsweep : ¬ (s.localPort c p = true ∧ s.qget (cluOf c) (Reg.CLU_QSTATE.STATE (s.portQueue c p)) = 2) := by
    rintro ⟨hlocal, h2⟩
    have := (hqueue (by simpa only [State.localPort, hkind, decide_eq_true_eq] using hlocal)).1
    omega
  rw [State.portBad, hen, howner]
  simpa only [Nat.one_ne_zero, decide_false, bne_self_eq_false, Bool.false_or, Bool.and_eq_false_iff, not_and_or, Bool.not_eq_true,
    decide_eq_false_iff_not] using hsweep

/-- What an operation asks of its port beside the port's kind (R173, R186, R198). -/
structure State.PortAllows (s : State) (c : CoreRef) (op p : Nat) : Prop where
  opens : op = 3 → s.pget c Reg.CLU_QPSTATE.PKT_OPEN p = 0
  closes : op = 4 → s.pget c Reg.CLU_QPSTATE.PKT_OPEN p = 1 ∧ s.pget c Reg.CLU_QPSTATE.PKT_CELLS p ≠ 0
  counts : op = 1 → s.pget c Reg.CLU_QPSTATE.PKT_CELLS p + 1 < lenMax
  packets : op = 3 ∨ op = 4 → s.lossyPort c p = false ∧ s.pget c Reg.CLU_QPORT.RING p = 0
  held : 5 ≤ op → s.qget (cluOf c) (Reg.CLU_QCFG.AUTO_REL (s.portQueue c p)) = 0

theorem qpDynamic_eq_nil (hop : op < 16) {w : Nat} (hk : kindForbids kind op = false) (hok : s.qportOk c (bitsOf w 19 10) kind)
    (ha : s.PortAllows c op (bitsOf w 19 10)) : qpDynamic s c (withField w 9 6 op) = [] := by
  have hbad := portBad_of_qportOk hok
  obtain ⟨-, -, hkind, -⟩ := hok
  obtain ⟨hopens, hcloses, hcounts, hpackets, hheld⟩ := ha
  unfold qpDynamic
  rw [qpSlot_op hop]
  dsimp only
  rw [hbad, hkind, hk]
  split
  · rfl
  · refine if_neg ?_
    simp only [Bool.or_eq_true, Bool.and_eq_true, beq_iff_eq, decide_eq_true_eq, Bool.false_eq_true, false_or]
    rintro ((((⟨h3, ho⟩ | ⟨h4, ho⟩) | ⟨⟨h1, -⟩, hc⟩) | ⟨h34, hl⟩) | ⟨h5, hr⟩)
    · have := hopens h3; omega
    · have := hcloses h4; omega
    · have := hcounts h1; omega
    · obtain ⟨hlossy, hring⟩ := hpackets h34
      rcases hl with hl | ⟨-, hl⟩
      · exact absurd (hl.symm.trans hlossy) (by decide)
      · omega
    · have := hheld h5; omega

/-- A queue-port slot alone does not over-subscribe a tile buffer's ports, where the core has no other use under way (R128). -/
theorem tileFault_qp (h : s.Unused c) (v : Nat) : s.tileFault c 0 v = [] := by
  have hmine : (s.flights.filter fun u => u.owner == c) = [] := by simpa using h.flights_filter fun _ => true
  unfold State.tileFault State.tileUses
  simp only [hmine, bitsOf_zero, Nat.zero_ne_one, false_and, if_false, List.nil_append, List.map_nil, List.append_nil]
  split <;> simp

/-- A live queue-port slot that keeps its checks, and whose implicit wait is met, passes as a word. -/
theorem passes_qp (hl : s.slotLive c v) (hu : s.Unused c) (h1 : qpStatic v = []) (h2 : qpDynamic s c v = []) (h3 : qpReady s c v = true) :
    s.Passes c (qpWord v) where
  checks := by
    have h4 := tileFault_qp hu v
    simp [State.wordFault, qpWord, hl.1, hl.2, h1, h2, h4]
  arrival := by simp
  waits := by simp
  port := by rw [qpWord_qp, gated_of_live hl.2, h3]

/-! ### The cycle of issue -/

/-- The cycle of issue of a core whose engines are not occupied: the uses that are under way come a cycle nearer (R49). -/
theorem State.MxBusy.tickChecked_idle (h : s.MxBusy c 0) : s.tickChecked c = s.withFlights (State.Occupied.aged s c) := by
  have hd : (s.beats.filter fun b => b.dueNow c) = [] := h.dueBeats
  have hk : ((s.beats.filter fun b => !b.dueNow c).map fun b => b.age c) = s.beats := by
    rw [List.filter_eq_self.2 fun b hb => by simp [Beat.dueNow, h.beats b hb]]
    exact (List.map_congr_left fun b hb => if_neg (h.beats b hb)).trans (List.map_id _)
  have hf : ∀ f, { s with beats := [] }.cflag c f = s.cflag c f := fun _ => rfl
  have hage : s.ageFlights c = s.withFlights (State.Occupied.aged s c) := by
    unfold State.ageFlights
    rw [h.predsDue]
    rfl
  simp only [State.tickChecked, h.portCollision, State.tick, h.cmAccesses, State.serveBanks, List.isEmpty_nil, if_true, hf, h.busy0, h.busy1,
    Bool.false_and, Bool.false_eq_true, if_false, hd, hk, List.foldl_nil, List.append_nil, h.mx, h.vx]
  exact hage

/-- A word of one live queue-port slot: the operation takes effect, the cycle passes, and the sequencer goes on (R45). -/
theorem issueSlots_qp (hl : s.live c v = true) {u : State}
    (hu : (((s.mark c).qpIssue c v).cbump c Reg.CORE_ISSUE_COUNT.COUNT).tickChecked c = u) (hst : u.cget c Reg.CORE_SCHED_STATUS.STATE = 1) :
    s.issueSlots c (qpWord v) a = (u.sequence s c 0 a).afterIssue c false false := by
  have hg := gated_of_live hl
  have hend : (bitsOf 0 9 6 == 6) = false := rfl
  unfold State.mark at hu
  simp -implicitDefEqProofs only [State.issueSlots, show qpWord v = ⟨0, 0, 0, 0, v, 0, 0⟩ from rfl, gated_zero, hg, pausesHere_zero, takeWait_zero,
    loadCount_zero, mxIssue_zero, startMove_zero, vxIssue_zero, plPred_zero, State.writePred, hu, hst, OfNat.one_ne_ofNat, Bool.false_eq_true,
    if_false, hend]

/-! ### The operation and its word -/

/-- An operation that leaves `d` writes the listed fields of a cluster, and starts no beat and no use of an engine. -/
structure State.QueueOp (t d : State) (q : CluRef) (ws : List (Fld × Nat)) : Prop where
  fld : d.fld = (t.qputs q ws).fld
  beats : d.beats = t.beats
  flights : d.flights = t.flights
  places : ∀ w ∈ ws, w.1.AtCluster

/-- What the word of an operation that leaves `d` makes of the panel. -/
structure State.QueueRan (s u d : State) (c : CoreRef) (ws : List (Fld × Nat)) (us : List (Nat × Flight)) : Prop where
  goesOn : s.coreGoesOn u c (s.wordAddr c + 1) (ws.map fun w => cluFld (cluOf c) w.1)
  frame : u = { d with fld := u.fld, flights := u.flights }
  flights : us = [] → u.flights = s.flights
  kept : ∀ f : Fld, f.AtCluster → u.qget (cluOf c) f = d.qget (cluOf c) f

namespace State.QueueOp

/-! Operations are made of writes of the cluster's fields, and of others that no field shows. -/

variable {q : CluRef}

theorem refl (t : State) (q : CluRef) : t.QueueOp t q [] := ⟨rfl, rfl, rfl, fun _ h => absurd h List.not_mem_nil⟩

theorem thenQput (h : t.QueueOp d q ws) (hf : f.AtCluster) (v : Nat) : t.QueueOp (d.qput q f v) q (ws ++ [(f, v)]) where
  fld := by
    have happ : t.qputs q (ws ++ [(f, v)]) = (t.qputs q ws).qput q f v := List.foldl_append ..
    rw [happ]
    exact congrArg (fun m => mapSet f.reset m (fldKey q.site (f.nth q.clu)) (v % 2 ^ f.width)) h.fld
  beats := h.beats
  flights := h.flights
  places := fun w hw => by
    rcases List.mem_append.1 hw with hw | hw
    · exact h.places w hw
    · rwa [List.mem_singleton.1 hw]

theorem qputs (t : State) (q : CluRef) (hw : ∀ w ∈ ws, w.1.AtCluster) : t.QueueOp (t.qputs q ws) q ws := by
  induction ws using List.reverseRecOn with
  | nil => exact refl t q
  | append_singleton ws w ih =>
    have happ : t.qputs q (ws ++ [w]) = (t.qputs q ws).qput q w.1 w.2 := List.foldl_append ..
    rw [happ]
    exact (ih fun a ha => hw a (List.mem_append_left _ ha)).thenQput (hw w (by simp)) w.2

theorem setQueue (h : t.QueueOp d q ws) (q' : CluRef) (n : Nat) (x : QueueSt) : t.QueueOp (d.setQueue q' n x) q ws :=
  ⟨h.fld, h.beats, h.flights, h.places⟩

theorem sendStream (h : t.QueueOp d q ws) (m : StreamMsg) : t.QueueOp (d.sendStream m) q ws := ⟨h.fld, h.beats, h.flights, h.places⟩

theorem wrP (h : t.QueueOp d q ws) (k : Nat) (bs : List (Byte × Bool)) : t.QueueOp (d.wrP k bs) q ws := by
  rw [wrP_eq]
  exact ⟨h.fld, h.beats, h.flights, h.places⟩

/-- The marks of an issue and an operation, as writes of fields. -/
theorem get_eq (hs : s.canonical = true) (h : (s.mark c).QueueOp d (cluOf c) ws) {e : Nat × Fld} (h1 : Apart e (markFlds c))
    (h2 : Apart e (ws.map fun w => cluFld (cluOf c) w.1)) : d.get e.1 e.2 = s.get e.1 e.2 := by
  have hm := (State.Issuing.mark (State.canonical_fld hs) c).writes
  have hw := State.writes_qputs hm.ordered (cluOf c) ws
  have hd : d.get e.1 e.2 = ((s.mark c).qputs (cluOf c) ws).get e.1 e.2 := by rw [State.get, h.fld]; rfl
  exact hd.trans ((hw.get_eq h2).trans (hm.get_eq ((apart_append ..).2 ⟨h1, apart_nil _⟩)))

variable (hs : s.canonical = true) (hr : s.coreReady c) (h : (s.mark c).QueueOp d (cluOf c) ws)
include hs h

theorem ordered : risingFrom 0 d.fld = true :=
  h.fld ▸ (State.writes_qputs (State.Issuing.mark (State.canonical_fld hs) c).ordered (cluOf c) ws).ordered

theorem cget_mark (hc : c.wf = true) (hf : f.AtCore) : d.cget c f = (s.mark c).cget c f := by
  have hw := State.writes_qputs (State.Issuing.mark (State.canonical_fld hs) c).ordered (cluOf c) ws
  have hap : Apart (coreFld c f) ((ws.map (·.1)).map (cluFld (cluOf c))) := apart_core_clu hc hf fun g hg => by
    obtain ⟨w, hw, rfl⟩ := List.mem_map.1 hg
    exact h.places w hw
  have hd : d.cget c f = ((s.mark c).qputs (cluOf c) ws).cget c f := by rw [State.cget, State.get, h.fld]; rfl
  exact hd.trans (hw.cget_eq (by rwa [List.map_map] at hap))

include hr

/-- A field that the sequencer reads, other than the marks of the issue. -/
theorem cget_seq (hf : f.AtCore) (h1 : ∀ g ∈ markFs, f.pos ≠ g.pos) : d.cget c f = s.cget c f :=
  (h.cget_mark hs hr.1.wf hf).trans ((State.Issuing.mark (State.canonical_fld hs) c).cget_eq (apart_mark h1) (by simp))

/-- The core once the operation has taken effect and its uses are under way. -/
theorem idle (hus : ∀ p ∈ us, p.1 ≠ 0) : ((d.addFlights c us).cbump c Reg.CORE_ISSUE_COUNT.COUNT).MxBusy c 0 := by
  have hq := hr.1.quiet
  have hcount {g : Fld} (hg : g.pos ≠ Reg.CORE_ISSUE_COUNT.COUNT.pos) :
      ((d.addFlights c us).cbump c Reg.CORE_ISSUE_COUNT.COUNT).cget c g = d.cget c g := State.cget_cput_other (h.ordered hs) c hg _
  refine ⟨(State.cflag_false_iff _ c _ rfl).2 ((hcount (by decide)).trans ((h.cget_seq hs hr (by decide) (by decide)).trans hq.busy0)),
    (State.cflag_false_iff _ c _ rfl).2 ((hcount (by decide)).trans ((h.cget_seq hs hr (by decide) (by decide)).trans hq.busy1)),
    (hcount (by decide)).trans ((h.cget_seq hs hr (by decide) (by decide)).trans hq.mx),
    (hcount (by decide)).trans ((h.cget_seq hs hr (by decide) (by decide)).trans hq.vx), ?_, ?_⟩
  · show ∀ b ∈ d.beats, b.owner ≠ c
    rw [h.beats]
    exact hq.beats
  · intro e he hown
    rcases List.mem_append.1 (show e ∈ d.flights ++ _ from he) with he | he
    · rw [h.flights] at he
      exact (hq.flights e he hown).elim
    · obtain ⟨p, hp, rfl⟩ := List.mem_map.1 he
      exact hus p hp

/-- The word: the operation takes effect, and the core goes on with the next word. -/
theorem runWord (hp : s.Passes c (qpWord v)) (hl : s.live c v = true) (hop : (s.mark c).qpIssue c v = d.addFlights c us)
    (hus : ∀ p ∈ us, p.1 ≠ 0) :
    s.runWord c (qpWord v) = (d.issueNext c (s.wordAddr c + 1)).withFlights
      (State.Occupied.aged ((d.addFlights c us).cbump c Reg.CORE_ISSUE_COUNT.COUNT) c) := by
  have htick := (h.idle hs hr hus).tickChecked_idle
  have hcount {g : Fld} (hg : g.pos ≠ Reg.CORE_ISSUE_COUNT.COUNT.pos) : (d.cbump c Reg.CORE_ISSUE_COUNT.COUNT).cget c g = d.cget c g :=
    State.cget_cput_other (h.ordered hs) c hg _
  have hstate : (d.cbump c Reg.CORE_ISSUE_COUNT.COUNT).cget c Reg.CORE_SCHED_STATUS.STATE = 1 :=
    (hcount (by decide)).trans ((h.cget_mark hs hr.1.wf (by decide)).trans (State.Issuing.mark (State.canonical_fld hs) c).state)
  rw [State.issueNext, State.gotoWord_of_le _ _ hr.1.addr_lt]
  refine hr.runWord_next hp (e := d.cbump c Reg.CORE_ISSUE_COUNT.COUNT) (issueSlots_qp hl (by rw [hop, htick]; rfl) hstate)
    (State.cput_rising (h.ordered hs) c _ _) hstate fun g hg => ?_
  exact (hcount ((by decide : ∀ g ∈ stopFlds ++ loopEndFlds, g.pos ≠ Reg.CORE_ISSUE_COUNT.COUNT.pos) g hg)).trans
    (h.cget_seq hs hr ((by decide : ∀ g ∈ stopFlds ++ loopEndFlds, g.AtCore) g hg)
      ((by decide : ∀ g ∈ stopFlds ++ loopEndFlds, ∀ f ∈ markFs, g.pos ≠ f.pos) g hg))

/-- Where the core goes on (R28). -/
theorem coreGoesOn : s.coreGoesOn (d.issueNext c (s.wordAddr c + 1)) c (s.wordAddr c + 1) (ws.map fun w => cluFld (cluOf c) w.1) := by
  have hd := h.ordered hs
  have hm := State.Issuing.mark (State.canonical_fld hs) c
  have hnext := writes_issueNext hd c (show s.wordAddr c + 1 ≤ 2047 from hr.1.addr_lt)
  have hkeep {g : Fld} (h1 : g.pos ≠ Reg.CORE_ISSUE_COUNT.COUNT.pos) (h2 : g.pos ≠ Reg.CORE_SCHED_STATUS.ADDR.pos) :
      (d.issueNext c (s.wordAddr c + 1)).cget c g = d.cget c g := State.cget_issueNext hd h1 h2 hr.1.addr_lt
  refine ⟨(hkeep (by decide) (by decide)).trans ((h.cget_mark hs hr.1.wf (by decide)).trans hm.state),
    (hkeep (by decide) (by decide)).trans ((h.cget_mark hs hr.1.wf (by decide)).trans hm.slip), ?_, ?_, fun site f hne => ?_⟩
  · rw [State.issueNext, State.gotoWord_of_le _ _ hr.1.addr_lt]
    exact State.cget_cput_of_lt (State.cput_rising hd c _ _) c Reg.CORE_SCHED_STATUS.ADDR
      (show s.wordAddr c + 1 < 2 ^ 11 by have := hr.1.addr_lt; omega)
  · rw [State.issueNext, State.gotoWord_of_le _ _ hr.1.addr_lt]
    refine (State.cget_cput_other (State.cput_rising hd c _ _) c (by decide) _).trans ((State.cget_cbump_same hd c _).trans ?_)
    rw [h.cget_seq hs hr (by decide) (by decide)]
    rfl
  · refine (hnext.only.2 site f fun e he => hne e (List.mem_append_left _ ?_)).trans
      (h.get_eq hs (e := (site, f)) (fun e he => hne e (List.mem_append_left _ ?_)) fun e he => hne e (List.mem_append_right _ he))
    · simp only [issueFlds, List.map_cons, List.map_nil, List.mem_cons, List.not_mem_nil, or_false] at he ⊢
      tauto
    · simp only [issueFlds, markFlds, List.mem_cons, List.not_mem_nil, or_false] at he ⊢
      tauto

end State.QueueOp

/-- Uses of other cores are left by a cycle of this one. -/
theorem aged_of_unused (h : ∀ u ∈ s.flights, u.owner ≠ c) : State.Occupied.aged s c = s.flights := State.flights_kept h

/-- A row of the queue-port slot whose checks pass and whose wait is met: what its word leaves (R28, R57). -/
theorem State.coreReady.runQp (hs : s.canonical = true) (hr : s.coreReady c) {w : BitVec 32} (hl : s.slotLive c w.toNat) (hop : 1 ≤ op ∧ op ≤ 7)
    (h0 : bitsOf w.toNat 31 30 = 0) (h2 : 2 < op → bitsOf w.toNat 29 20 = 0) (hd : qpDynamic s c (withField w.toNat 9 6 op) = [])
    (hready : qpReady s c (withField w.toNat 9 6 op) = true)
    (hissue : (s.mark c).qpIssue c (withField w.toNat 9 6 op) = d.addFlights c us) (hus : ∀ p ∈ us, p.1 ≠ 0)
    (h : (s.mark c).QueueOp d (cluOf c) ws) : s.QueueRan (s.runQp c w.toNat op) d c ws us := by
  have hlt : op < 16 := by omega
  have hl' : s.slotLive c (withField w.toNat 9 6 op) := slotLive_withField hl (by decide) (by decide) hlt
  have hp := passes_qp hl' hr.1.quiet.unused (qpStatic_of_op hop h0 h2) hd hready
  rw [runQp_eq s c w hlt, h.runWord hs hr hp hl'.2 hissue hus]
  refine ⟨h.coreGoesOn hs hr, ?_, fun hnone => ?_, fun f hf => qget_issueNext (h.ordered hs) hr.1.wf hf hr.1.addr_lt⟩
  · rw [(writes_issueNext (h.ordered hs) c (show s.wordAddr c + 1 ≤ 2047 from hr.1.addr_lt)).eq_with_fld]
    rfl
  · have hfl : d.flights = s.flights := h.flights
    subst hnone
    have hsame : ((d.addFlights c []).cbump c Reg.CORE_ISSUE_COUNT.COUNT).flights = s.flights := by
      show d.flights ++ [] = s.flights
      rw [List.append_nil, hfl]
    exact (aged_of_unused (hsame ▸ hr.1.quiet.flights)).trans hsame

/-! ### What an operation reads of its port under the marks of the issue -/

theorem portQueue_lt (s : State) (c : CoreRef) (p : Nat) : s.portQueue c p < 1024 := s.get_lt c.site ((Reg.CLU_QPORT.QUEUE p).nth (c.core / 24))

section
variable (h : risingFrom 0 s.fld = true) (hc : c.wf = true) (hp : p < 1024)
include h hc

theorem pget_mark {f : Nat → Fld} (hf : (f p).AtCluster) : (s.mark c).pget c f p = s.pget c f p := qget_mark h hc hf

include hp

theorem portQueue_mark : (s.mark c).portQueue c p = s.portQueue c p := qget_mark h hc (atCluster_entry (by decide) (by decide) hp)

/-- A port that may be used may be used by the operation that issues. -/
theorem qportOk_mark (hok : s.qportOk c p kind) : (s.mark c).qportOk c p kind := by
  obtain ⟨hen, howner, hkind, hbroken, hmatch, hqueue⟩ := hok
  refine ⟨(pget_mark h hc (f := Reg.CLU_QPORT.EN) (atCluster_entry (by decide) (by decide) hp)).trans hen,
    (pget_mark h hc (f := Reg.CLU_QPORT.OWNER) (atCluster_entry (by decide) (by decide) hp)).trans howner,
    (pget_mark h hc (f := Reg.CLU_QPORT.KIND) (atCluster_entry (by decide) (by decide) hp)).trans hkind, (qget_mark h hc (by decide)).trans hbroken,
    (qget_mark h hc (by decide)).trans hmatch, fun hlocal => ?_⟩
  rw [portQueue_mark h hc hp, qget_mark h hc (f := Reg.CLU_QSTATE.STATE (s.portQueue c p))
      (atCluster_entry (by decide) (by decide) (portQueue_lt s c p))]
  exact hqueue hlocal

end

end Sys2Proof.Machine
end

section
/-! PROOFS. `PUSH` (O18): a cell linked at a local queue, or sent on a route (R178, R179, R186, R190). -/

namespace Sys2Proof.Machine

variable {s t u d : State} {c : CoreRef} {q : CluRef} {f : Fld} {p : QpSlot} {ws : List (Fld × Nat)} {us : List (Nat × Flight)} {k n port v : Nat}

/-! ### Bytes that are read without poison -/

theorem length_rdP (s : State) (k n : Nat) : (s.rdP k n).length = n := by simp [State.rdP, State.bytePoison]

/-- Clean words are read without poison (R164). -/
theorem State.cleanRange.noPoison_rdP (h : s.cleanRange k n) : NoPoison (s.rdP k n) := by
  intro b hb
  have hmem : b.2 ∈ s.bytePoison k n := (List.of_mem_zip (b := b.2) (a := b.1) hb).2
  obtain ⟨i, hi, hb2⟩ := List.mem_map.1 hmem
  have hi' := List.mem_range.1 hi
  exact hb2 ▸ h.wordPoison (by omega) (by omega) (by omega)

/-- The words of a message that carry poison, as its mask of eight bits (R190). -/
def cellPoison (data : List (Byte × Bool)) : BitVec 8 :=
  BitVec.ofNat 8 (((List.range 8).filter fun w => ((data.drop (8 * w)).take 8).any (·.2)).foldl (fun a w => a + 2 ^ w) 0)

theorem NoPoison.cellPoison {data : List (Byte × Bool)} (h : NoPoison data) : cellPoison data = 0 := by
  have hnone : ((List.range 8).filter fun w => ((data.drop (8 * w)).take 8).any (·.2)) = [] :=
    List.filter_eq_nil_iff.2 fun w _ => by
      have hw : NoPoison ((data.drop (8 * w)).take 8) := fun b hb => h b (List.mem_of_mem_drop (List.mem_of_mem_take hb))
      rw [hw.any]
      decide
  rw [Machine.cellPoison, hnone]
  rfl

/-! ### What an operation leaves of its writes -/

/-- A field that the operation of a word wrote reads as it was written. -/
theorem State.QueueRan.qget_written (hu : s.QueueRan u d c ws us) (h : t.QueueOp d (cluOf c) ws) (ht : risingFrom 0 t.fld = true)
    (hp : ws.Pairwise fun a b => a.1.pos ≠ b.1.pos) (hm : (f, v) ∈ ws) (hv : v < 2 ^ f.width) : u.qget (cluOf c) f = v := by
  have hd : d.qget (cluOf c) f = (t.qputs (cluOf c) ws).qget (cluOf c) f := by rw [State.qget, State.get, h.fld]; rfl
  exact (hu.kept f (h.places (f, v) hm)).trans (hd.trans (State.qget_qputs_mem ht (cluOf c) hp hm hv))

theorem State.QueueRan.streamOut_eq (hu : s.QueueRan u d c ws us) : u.streamOut = d.streamOut := by rw [hu.frame]
theorem State.QueueRan.queues_eq (hu : s.QueueRan u d c ws us) : u.queues = d.queues := by rw [hu.frame]

theorem State.QueueRan.rd_eq (hu : s.QueueRan u d c ws us) (k n : Nat) : u.rd k n = d.rd k n := by rw [hu.frame]; rfl

/-- Where an operation that starts no use of an engine changed fields and messages alone, so did its word. -/
theorem State.QueueRan.eq_sent (hu : s.QueueRan u d c ws []) {so : List StreamMsg} (hd : d = { s with fld := d.fld, streamOut := so }) :
    u = { s with fld := u.fld, streamOut := so } := by
  have hf := hu.flights rfl
  rw [hu.frame, hf, hd]

/-- What the operation changed of the dies' memories is what the word did. -/
theorem State.QueueRan.sameBytesBut (hu : s.QueueRan u d c ws us) (h : (s.mark c).sameBytesBut d k n) : s.sameBytesBut u k n := by
  rw [hu.frame]
  exact h

/-! ### Credits and the count of a packet's cells -/

/-- What a `PUSH` on a CREDITED port writes: a credit is spent, and in an open packet the cell is counted (R179, R186). -/
def State.pushWrites (s : State) (c : CoreRef) (port : Nat) : List (Fld × Nat) :=
  (Reg.CLU_QPSTATE.CREDITS port, s.pget c Reg.CLU_QPSTATE.CREDITS port - 1)
    :: if s.pget c Reg.CLU_QPSTATE.PKT_OPEN port = 1 then [(Reg.CLU_QPSTATE.PKT_CELLS port, s.pget c Reg.CLU_QPSTATE.PKT_CELLS port + 1)] else []

/-- The cell is the first one of an open packet. -/
def State.pushFirst (s : State) (c : CoreRef) (port : Nat) : Bool :=
  decide (s.pget c Reg.CLU_QPSTATE.PKT_OPEN port = 1 ∧ s.pget c Reg.CLU_QPSTATE.PKT_CELLS port = 0)

/-- Where the fields of a port's state stand. -/
theorem pushWrites_places : ∀ w ∈ s.pushWrites c port, w.1 = Reg.CLU_QPSTATE.CREDITS port ∨ w.1 = Reg.CLU_QPSTATE.PKT_CELLS port := by
  unfold State.pushWrites
  split <;> simp

theorem atCluster_credits (h : port < 1024) : (Reg.CLU_QPSTATE.CREDITS port).AtCluster := atCluster_entry (by decide) (by decide) h
theorem atCluster_pktCells (h : port < 1024) : (Reg.CLU_QPSTATE.PKT_CELLS port).AtCluster := atCluster_entry (by decide) (by decide) h

theorem pushWrites_atCluster (h : port < 1024) : ∀ w ∈ s.pushWrites c port, w.1.AtCluster := fun w hw => by
  rcases pushWrites_places w hw with hw | hw <;> rw [hw]
  exacts [atCluster_credits h, atCluster_pktCells h]

/-- A field outside the ports' state is none of them. -/
theorem pushWrites_pos_ne (h : port < 1024) (hf : f.pos < 0x404000 * 64 ∨ 0x406000 * 64 ≤ f.pos) : ∀ w ∈ s.pushWrites c port, f.pos ≠ w.1.pos :=
  fun w hw => by
    rcases pushWrites_places w hw with hw | hw <;> rw [hw] <;>
      simp only [Reg.CLU_QPSTATE.CREDITS, Reg.CLU_QPSTATE.PKT_CELLS, Fld.pos] at hf ⊢ <;> omega

theorem pushWrites_pairwise : (s.pushWrites c port).Pairwise fun a b => a.1.pos ≠ b.1.pos := by
  have hne : (Reg.CLU_QPSTATE.CREDITS port).pos ≠ (Reg.CLU_QPSTATE.PKT_CELLS port).pos := by
    simp only [Reg.CLU_QPSTATE.CREDITS, Reg.CLU_QPSTATE.PKT_CELLS, Fld.pos]; omega
  unfold State.pushWrites
  split <;> simp [hne]

/-- A `PUSH` on a CREDITED port, of a cell that is read without poison. -/
theorem qpPush_eq (hlossy : s.lossyPort c p.port = false) (hclean : s.cleanRange (tileCell c p.tbuf p.cell) 64) :
    s.qpPush c p =
      if s.pget c Reg.CLU_QPORT.KIND p.port = 0 then
        (s.qputs (cluOf c) (s.pushWrites c p.port)).arriveCell (cluOf c) (s.portQueue c p.port) (s.pushFirst c p.port)
          (s.cget c Reg.CORE_SCHED_STATUS.EPOCH) (s.rdP (tileCell c p.tbuf p.cell) 64)
      else
        (s.qputs (cluOf c) (s.pushWrites c p.port)).sendStream
          { kind := 0, epoch := s.cget c Reg.CORE_SCHED_STATUS.EPOCH, ddie := s.pget c Reg.CLU_QPORT.DDIE p.port
            dclu := s.pget c Reg.CLU_QPORT.DCLU p.port, ring := decide (s.pget c Reg.CLU_QPORT.RING p.port = 1)
            dring := if s.pget c Reg.CLU_QPORT.RING p.port = 1 then s.pget c Reg.CLU_QPORT.DRING p.port else 0
            dindex := if s.pget c Reg.CLU_QPORT.RING p.port = 1 then 0 else s.pget c Reg.CLU_QPORT.DQUEUE p.port
            dcore := if s.pget c Reg.CLU_QPORT.RING p.port = 1 then s.pget c Reg.CLU_QPORT.DCORE p.port else 0
            first := s.pushFirst c p.port, poison := 0, count := 0, data := s.rd (tileCell c p.tbuf p.cell) 64 } := by
  have hpoison := hclean.noPoison_rdP.cellPoison
  have hpath := hclean.pathRead c
  have hfirst : (decide (s.pget c Reg.CLU_QPSTATE.PKT_OPEN p.port = 1) && s.pget c Reg.CLU_QPSTATE.PKT_CELLS p.port == 0)
      = s.pushFirst c p.port := by
    rw [State.pushFirst, Bool.decide_and]; rfl
  have hwrites : (if s.pget c Reg.CLU_QPSTATE.PKT_OPEN p.port = 1 then
      (s.qput (cluOf c) (Reg.CLU_QPSTATE.CREDITS p.port) (s.pget c Reg.CLU_QPSTATE.CREDITS p.port - 1)).qput (cluOf c)
        (Reg.CLU_QPSTATE.PKT_CELLS p.port) (s.pget c Reg.CLU_QPSTATE.PKT_CELLS p.port + 1)
      else s.qput (cluOf c) (Reg.CLU_QPSTATE.CREDITS p.port) (s.pget c Reg.CLU_QPSTATE.CREDITS p.port - 1))
        = s.qputs (cluOf c) (s.pushWrites c p.port) := by
    unfold State.pushWrites
    split <;> rfl
  unfold Machine.cellPoison at hpoison
  unfold State.qpPush
  simp only [hlossy, hpath, hfirst, hpoison, rdP_fst, Bool.false_eq_true, if_false, hwrites]

/-! ### A cell linked at a local queue -/

/-- A CREDITED queue that counts no cells as they arrive links a cell: it is written to the lowest free cell of the pool, and FREE falls
(R177, R178). -/
theorem arriveCell_eq_linked (hs : s.canonical = true) (hb : s.qget q Reg.CLU_QPOOL.FL_BROKEN = 0) (hfl : s.qget q Clu.FL_MISMATCH = 0)
    (hst : s.qget q (Reg.CLU_QSTATE.STATE n) = 1) (hmode : s.qget q (Reg.CLU_QCFG.MODE n) = 0) (harr : s.qget q (Reg.CLU_QCFG.ARR_MODE n) ≠ 1)
    (hmis : (s.queue q n).mismatch = 0) (first : Bool) (epoch : Nat) (data : List (Byte × Bool)) :
    s.arriveCell q n first epoch data =
      ((s.wrP (cellKey q (s.freeCell q)) data).qput q Reg.CLU_QPOOL.FREE (s.qget q Reg.CLU_QPOOL.FREE - 1)).setQueue q n
        (s.queueWith q n first epoch) := by
  have hdam : (s.queue q n).damaged [1] = none := by simp [QueueSt.damaged, hmis]
  have hlink : s.arriveCell q n first epoch data = s.linkCell q n (if first then 1 else 0) (if first then lenMax else 0) epoch false data := by
    unfold State.arriveCell
    simp only [hb, hfl, hst, hmode, hdam, zero_ne_one, OfNat.one_ne_ofNat, one_ne_zero, or_self, false_and, if_false]
  have hcount (t : State) (old : QueueSt) (ht : t.qget q (Reg.CLU_QCFG.ARR_MODE n) ≠ 1) : t.countArrivals q n old = t := if_neg fun h => ht h.1
  have hfld : risingFrom 0 (s.wrP (cellKey q (s.freeCell q)) data).fld = true := State.canonical_fld (State.wrP_canonical _ _ hs)
  rw [hlink]
  unfold State.linkCell
  dsimp only
  rw [if_neg (by cases first <;> decide), hcount]
  · cases first <;> rfl
  · exact ne_of_eq_of_ne ((get_clu_put hfld q (arrMode_pos n) _).trans (get_wrP ..)) harr

theorem qputs_canonical (hs : s.canonical = true) (q : CluRef) (ws : List (Fld × Nat)) : (s.qputs q ws).canonical = true :=
  State.Canonical.foldl hs fun _ _ ht => ht.qput

/-- The queue of a linked cell is read from the queues alone. -/
theorem queueWith_congr (h : t.queues = s.queues) (q : CluRef) (n : Nat) (first : Bool) (epoch : Nat) :
    t.freeCell q = s.freeCell q ∧ t.queueWith q n first epoch = s.queueWith q n first epoch := by
  have hfree : t.freeCell q = s.freeCell q := by rw [State.freeCell, State.usedCells, h]; rfl
  refine ⟨hfree, ?_⟩
  rw [State.queueWith, hfree, State.queue, h]
  rfl

/-- What a `PUSH` on a local port writes. -/
def State.pushLocalWrites (s : State) (c : CoreRef) (port : Nat) : List (Fld × Nat) :=
  s.pushWrites c port ++ [(Reg.CLU_QPOOL.FREE, s.qget (cluOf c) Reg.CLU_QPOOL.FREE - 1)]

/-- The place of the cell that a `PUSH` on a local port links. -/
def State.pushKey (s : State) (c : CoreRef) : Nat := cellKey (cluOf c) (s.freeCell (cluOf c))

/-- The state that a `PUSH` on a local port leaves: the cell is in the pool and linked. -/
def State.pushedLocal (s : State) (c : CoreRef) (p : QpSlot) : State :=
  (((s.qputs (cluOf c) (s.pushWrites c p.port)).wrP (s.pushKey c) (s.rdP (tileCell c p.tbuf p.cell) 64)).qput (cluOf c) Reg.CLU_QPOOL.FREE
    (s.qget (cluOf c) Reg.CLU_QPOOL.FREE - 1)).setQueue (cluOf c) (s.portQueue c p.port)
    (s.queueWith (cluOf c) (s.portQueue c p.port) (s.pushFirst c p.port) (s.cget c Reg.CORE_SCHED_STATUS.EPOCH))

theorem pushedLocal_op (s : State) (c : CoreRef) (hp : p.port < 1024) :
    s.QueueOp (s.pushedLocal c p) (cluOf c) (s.pushLocalWrites c p.port) :=
  (((State.QueueOp.qputs s (cluOf c) (pushWrites_atCluster hp)).wrP _ _).thenQput (by decide) _).setQueue _ _ _

theorem pushLocalWrites_pairwise (hp : port < 1024) : (s.pushLocalWrites c port).Pairwise fun a b => a.1.pos ≠ b.1.pos :=
  List.pairwise_append.2 ⟨pushWrites_pairwise, List.pairwise_singleton _ _, fun a ha b hb => by
    rw [List.mem_singleton.1 hb]
    exact (pushWrites_pos_ne (f := Reg.CLU_QPOOL.FREE) hp (.inl (by decide)) a ha).symm⟩

theorem qpPush_local (hs : s.canonical = true) (hp : p.port < 1024) (hok : s.qportOk c p.port 0) (hl : s.pget c Reg.CLU_QPORT.LOSSY p.port = 0)
    (hmode : s.qget (cluOf c) (Reg.CLU_QCFG.MODE (s.portQueue c p.port)) = 0)
    (harr : s.qget (cluOf c) (Reg.CLU_QCFG.ARR_MODE (s.portQueue c p.port)) ≠ 1) (hclean : s.cleanRange (tileCell c p.tbuf p.cell) 64) :
    s.qpPush c p = s.pushedLocal c p := by
  obtain ⟨-, -, hkind, hbroken, hmatch, hqueue⟩ := hok
  obtain ⟨hstate, hmis⟩ := hqueue (by decide)
  have hlossy : s.lossyPort c p.port = false := by
    unfold State.portQueue at hmode
    simp only [State.lossyPort, hl, hmode, decide_false, Bool.and_false, Bool.or_false, zero_ne_one]
  have hw := State.writes_qputs (State.canonical_fld hs) (cluOf c) (s.pushWrites c p.port)
  have hget {f : Fld} (hf : f.pos < 0x404000 * 64 ∨ 0x406000 * 64 ≤ f.pos) :
      (s.qputs (cluOf c) (s.pushWrites c p.port)).qget (cluOf c) f = s.qget (cluOf c) f :=
    State.qget_qputs_other (State.canonical_fld hs) (cluOf c) (pushWrites_pos_ne hp hf)
  obtain ⟨hfree, hnew⟩ := queueWith_congr hw.queues_eq (cluOf c) (s.portQueue c p.port) (s.pushFirst c p.port) (s.cget c Reg.CORE_SCHED_STATUS.EPOCH)
  rw [qpPush_eq hlossy hclean, if_pos hkind, arriveCell_eq_linked (qputs_canonical hs _ _), hfree, hnew, hget (.inl (by decide))]
  · rfl
  · exact (hget (.inl (by decide))).trans hbroken
  · exact (hget (.inr (by decide))).trans hmatch
  · exact (hget (.inr (by unfold Reg.CLU_QSTATE.STATE Fld.pos; dsimp only; omega))).trans hstate
  · exact (hget (.inr (by unfold Reg.CLU_QCFG.MODE Fld.pos; dsimp only; omega))).trans hmode
  · exact ne_of_eq_of_ne (hget (.inr (by unfold Reg.CLU_QCFG.ARR_MODE Fld.pos; dsimp only; omega))) harr
  · rw [State.queue, hw.queues_eq]
    exact hmis

/-- The queue has grown by the cell. -/
theorem pushedLocal_queues (hs : s.canonical = true) (p : QpSlot) :
    (s.pushedLocal c p).queues = mapSet QueueSt.empty s.queues (queueKey (cluOf c) (s.portQueue c p.port))
      (s.queueWith (cluOf c) (s.portQueue c p.port) (s.pushFirst c p.port) (s.cget c Reg.CORE_SCHED_STATUS.EPOCH)) := by
  have hw := State.writes_qputs (State.canonical_fld hs) (cluOf c) (s.pushWrites c p.port)
  unfold State.pushedLocal
  rw [wrP_eq, State.setQueue]
  exact congrArg (mapSet QueueSt.empty · _ _) hw.queues_eq

/-- The cell holds the tile buffer's bytes, and every other byte is as before. -/
theorem pushedLocal_bytes (hs : s.canonical = true) (p : QpSlot) :
    (s.pushedLocal c p).rd (s.pushKey c) 64 = s.rd (tileCell c p.tbuf p.cell) 64 ∧ s.sameBytesBut (s.pushedLocal c p) (s.pushKey c) 64 := by
  have hw := State.writes_qputs (State.canonical_fld hs) (cluOf c) (s.pushWrites c p.port)
  have hq := qputs_canonical hs (cluOf c) (s.pushWrites c p.port)
  have hrd := rd_wrP hq (s.pushKey c) (s.rdP (tileCell c p.tbuf p.cell) 64)
  have hbut := sameBytesBut_wrP hq (s.pushKey c) (s.rdP (tileCell c p.tbuf p.cell) 64)
  rw [length_rdP] at hrd hbut
  rw [rdP_fst] at hrd
  rw [hw.eq_with_fld] at hbut
  rw [hw.eq_with_fld] at hrd
  unfold State.pushedLocal
  rw [hw.eq_with_fld]
  exact ⟨hrd, hbut⟩

/-! ### The row `PUSH` -/

/-- The place of a `PUSH` or `POP` and its port, from the bits of the row. -/
def rowSlot (op w : Nat) : QpSlot := ⟨op, bitsOf w 19 10, bitsOf w 21 20, bitsOf w 29 22⟩

section
variable (h : risingFrom 0 s.fld = true) (hc : c.wf = true) (hp : port < 1024)
include h hc hp

theorem pushWrites_mark : (s.mark c).pushWrites c port = s.pushWrites c port := by
  rw [State.pushWrites, pget_mark h hc (f := Reg.CLU_QPSTATE.CREDITS) (atCluster_credits hp),
    pget_mark h hc (f := Reg.CLU_QPSTATE.PKT_OPEN) (atCluster_entry (by decide) (by decide) hp),
    pget_mark h hc (f := Reg.CLU_QPSTATE.PKT_CELLS) (atCluster_pktCells hp), State.pushWrites]

theorem pushFirst_mark : (s.mark c).pushFirst c port = s.pushFirst c port := by
  rw [State.pushFirst, pget_mark h hc (f := Reg.CLU_QPSTATE.PKT_OPEN) (atCluster_entry (by decide) (by decide) hp),
    pget_mark h hc (f := Reg.CLU_QPSTATE.PKT_CELLS) (atCluster_pktCells hp), State.pushFirst]

end

theorem epoch_mark (h : risingFrom 0 s.fld = true) (c : CoreRef) :
    (s.mark c).cget c Reg.CORE_SCHED_STATUS.EPOCH = s.cget c Reg.CORE_SCHED_STATUS.EPOCH :=
  (State.Issuing.mark h c).cget_eq (apart_mark (by decide)) (apart_nil _)

/-- A CREDITED port with a credit, in a packet that may go on, takes a cell that is read without poison. -/
structure State.CanPush (s : State) (c : CoreRef) (w : BitVec 32) : Prop where
  canonical : s.canonical = true
  ready : s.coreReady c
  live : s.slotLive c w.toNat
  reserved : bitsOf w.toNat 31 30 = 0
  credited : s.pget c Reg.CLU_QPORT.LOSSY (bitsOf w.toNat 19 10) = 0
  credit : s.pget c Reg.CLU_QPSTATE.CREDITS (bitsOf w.toNat 19 10) ≠ 0
  room : s.pget c Reg.CLU_QPSTATE.PKT_CELLS (bitsOf w.toNat 19 10) + 1 < lenMax
  clean : s.cleanRange (tileCell c (bitsOf w.toNat 21 20) (bitsOf w.toNat 29 22)) 64

/-- What a `PUSH` sends on a route (R190). -/
def State.pushMessage (s : State) (c : CoreRef) (w : BitVec 32) : StreamMsg :=
  { kind := 0, epoch := s.cget c Reg.CORE_SCHED_STATUS.EPOCH, ddie := s.pget c Reg.CLU_QPORT.DDIE (bitsOf w.toNat 19 10)
    dclu := s.pget c Reg.CLU_QPORT.DCLU (bitsOf w.toNat 19 10), ring := false, dring := 0
    dindex := s.pget c Reg.CLU_QPORT.DQUEUE (bitsOf w.toNat 19 10), dcore := 0, first := s.pushFirst c (bitsOf w.toNat 19 10), poison := 0
    count := 0, data := s.rd (tileCell c (bitsOf w.toNat 21 20) (bitsOf w.toNat 29 22)) 64 }

namespace State.CanPush
variable {w : BitVec 32} (h : s.CanPush c w)
include h

/-- The word of a `PUSH` whose operation leaves `d`. -/
theorem ran {kind : Nat} (hk : kindForbids kind 1 = false) (hok : s.qportOk c (bitsOf w.toNat 19 10) kind)
    (hop : (s.mark c).qpPush c (rowSlot 1 w.toNat) = d) (hd : (s.mark c).QueueOp d (cluOf c) ws) : s.QueueRan (s.runQp c w.toNat 1) d c ws [] := by
  have hbroken : s.qget (cluOf c) Reg.CLU_QPOOL.FL_BROKEN = 0 := by
    obtain ⟨-, -, -, hbroken, -⟩ := hok
    exact hbroken
  have hdyn : qpDynamic s c (withField w.toNat 9 6 1) = [] :=
    qpDynamic_eq_nil (by decide) hk hok ⟨nofun, nofun, fun _ => h.room, fun h34 => by omega, fun h5 => by omega⟩
  have hready : qpReady s c (withField w.toNat 9 6 1) = true := by
    have hcredit := Nat.pos_of_ne_zero h.credit
    unfold qpReady
    rw [qpSlot_op (by decide)]
    simp only [hbroken, hcredit, decide_true, Bool.or_true, Bool.and_true]
    rfl
  refine h.ready.runQp h.canonical h.live (by decide) h.reserved (fun h2 => by omega) hdyn hready ?_ nofun hd
  rw [addFlights_nil, ← hop, State.qpIssue, qpSlot_op (by decide)]
  rfl

/-- On a local port the cell is linked (R178). -/
theorem linked (hok : s.qportOk c (bitsOf w.toNat 19 10) 0)
    (hmode : s.qget (cluOf c) (Reg.CLU_QCFG.MODE (s.portQueue c (bitsOf w.toNat 19 10))) = 0)
    (harr : s.qget (cluOf c) (Reg.CLU_QCFG.ARR_MODE (s.portQueue c (bitsOf w.toNat 19 10))) ≠ 1) :
    s.QueueRan (s.runQp c w.toNat 1) ((s.mark c).pushedLocal c (rowSlot 1 w.toNat)) c
      ((s.mark c).pushLocalWrites c (bitsOf w.toNat 19 10)) [] := by
  have hfld := State.canonical_fld h.canonical
  have hp := port_lt w.toNat
  have hc := h.ready.1.wf
  have hn := portQueue_lt s c (bitsOf w.toNat 19 10)
  have hqueue := portQueue_mark hfld hc hp
  refine h.ran rfl hok (qpPush_local (mark_canonical h.canonical c) hp (qportOk_mark hfld hc hp hok) ?_ ?_ ?_ h.clean) (pushedLocal_op _ c hp)
  · exact (pget_mark hfld hc (f := Reg.CLU_QPORT.LOSSY) (atCluster_entry (by decide) (by decide) hp)).trans h.credited
  · rw [show (rowSlot 1 w.toNat).port = bitsOf w.toNat 19 10 from rfl, hqueue]
    exact (qget_mark hfld hc (f := Reg.CLU_QCFG.MODE _) (atCluster_entry (by decide) (by decide) hn)).trans hmode
  · rw [show (rowSlot 1 w.toNat).port = bitsOf w.toNat 19 10 from rfl, hqueue]
    exact ne_of_eq_of_ne (qget_mark hfld hc (f := Reg.CLU_QCFG.ARR_MODE _) (atCluster_entry (by decide) (by decide) hn)) harr

/-- On a route port the cell leaves (R190). -/
theorem sent (hok : s.qportOk c (bitsOf w.toNat 19 10) 2) (hring : s.pget c Reg.CLU_QPORT.RING (bitsOf w.toNat 19 10) = 0) :
    s.QueueRan (s.runQp c w.toNat 1)
      (((s.mark c).qputs (cluOf c) ((s.mark c).pushWrites c (bitsOf w.toNat 19 10))).sendStream (s.pushMessage c w)) c
      ((s.mark c).pushWrites c (bitsOf w.toNat 19 10)) [] := by
  have hfld := State.canonical_fld h.canonical
  have hp := port_lt w.toNat
  have hc := h.ready.1.wf
  have hkind := (qportOk_mark hfld hc hp hok).2.2.1
  have hget {f : Nat → Fld} (hf : (f (bitsOf w.toNat 19 10)).AtCluster) := pget_mark hfld hc hf
  have hlossy : (s.mark c).lossyPort c (bitsOf w.toNat 19 10) = false := by
    rw [State.lossyPort, State.localPort, hkind, hget (f := Reg.CLU_QPORT.LOSSY) (atCluster_entry (by decide) (by decide) hp), h.credited]
    rfl
  refine h.ran rfl hok ?_ ((State.QueueOp.qputs _ _ (pushWrites_atCluster hp)).sendStream _)
  rw [qpPush_eq (p := rowSlot 1 w.toNat) hlossy h.clean, if_neg (by rw [show (rowSlot 1 w.toNat).port = bitsOf w.toNat 19 10 from rfl, hkind]; decide)]
  refine congrArg (State.sendStream _) ?_
  simp only [show (rowSlot 1 w.toNat).port = bitsOf w.toNat 19 10 from rfl, pushFirst_mark hfld hc hp, epoch_mark hfld c,
    hget (f := Reg.CLU_QPORT.RING) (atCluster_entry (by decide) (by decide) hp),
    hget (f := Reg.CLU_QPORT.DDIE) (atCluster_entry (by decide) (by decide) hp),
    hget (f := Reg.CLU_QPORT.DCLU) (atCluster_entry (by decide) (by decide) hp),
    hget (f := Reg.CLU_QPORT.DQUEUE) (atCluster_entry (by decide) (by decide) hp), hring, zero_ne_one, decide_false, if_false]
  rfl

end State.CanPush

theorem mem_pushWrites_cells (h : s.pget c Reg.CLU_QPSTATE.PKT_OPEN port = 1) :
    (Reg.CLU_QPSTATE.PKT_CELLS port, s.pget c Reg.CLU_QPSTATE.PKT_CELLS port + 1) ∈ s.pushWrites c port := by
  rw [State.pushWrites, if_pos h]
  exact .tail _ (.head _)

/-- The fields that a `PUSH` may write. -/
def pushFlds (c : CoreRef) (port : Nat) : List (Nat × Fld) :=
  [cluFld (cluOf c) (Reg.CLU_QPSTATE.CREDITS port), cluFld (cluOf c) (Reg.CLU_QPSTATE.PKT_CELLS port), cluFld (cluOf c) Reg.CLU_QPOOL.FREE]

theorem pushWrites_subset : (s.pushWrites c port).map (fun w => cluFld (cluOf c) w.1) ⊆ pushFlds c port := by
  unfold State.pushWrites
  split <;> simp [pushFlds]

theorem pushLocalWrites_subset : (s.pushLocalWrites c port).map (fun w => cluFld (cluOf c) w.1) ⊆ pushFlds c port := by
  rw [State.pushLocalWrites, List.map_append]
  exact List.append_subset.2 ⟨pushWrites_subset, by simp [pushFlds]⟩

theorem State.coreGoesOn.mono {a : Nat} {as bs : List (Nat × Fld)} (h : s.coreGoesOn u c a as) (hab : as ⊆ bs) : s.coreGoesOn u c a bs := by
  obtain ⟨h1, h2, h3, h4, h5⟩ := h
  exact ⟨h1, h2, h3, h4, fun site f hne => h5 site f fun e he => hne e (by
    rcases List.mem_append.1 he with he | he
    · exact List.mem_append_left _ he
    · exact List.mem_append_right _ (hab he))⟩

theorem credits_pred_lt (s : State) (c : CoreRef) (port : Nat) :
    s.pget c Reg.CLU_QPSTATE.CREDITS port - 1 < 2 ^ (Reg.CLU_QPSTATE.CREDITS port).width :=
  lt_of_le_of_lt (Nat.sub_le _ _) (s.get_lt ..)

/-- Settles O18: a `PUSH` that may be made leaves `pushedLocal` on a local port (`CanPush.linked`), and sends its message on a route
(`CanPush.sent`). -/
theorem pushLinksOrSendsACell : Obligations.PushLinksOrSendsACell := by
  unfold Obligations.PushLinksOrSendsACell
  intro s c w hs hr hl h0 q p n x k pkt cells first portFlds hlossy hcredit hroom hclean
  have h : s.CanPush c w := ⟨hs, hr, hl, h0, hlossy, hcredit, hroom, hclean⟩
  have hfld := State.canonical_fld hs
  have hc := hr.1.wf
  have hp : p < 1024 := port_lt w.toNat
  have hmark := mark_canonical hs c
  have hmfld := State.canonical_fld hmark
  have hwrites := pushWrites_mark hfld hc hp
  have hwide : cells + 1 < 2 ^ (Reg.CLU_QPSTATE.PKT_CELLS p).width := hroom.trans (show lenMax < 2 ^ 32 by decide)
  refine ⟨fun hok hmode harr => ?_, fun hok hring => ?_⟩
  · have hu := h.linked hok hmode harr
    have hop := pushedLocal_op (s.mark c) c (p := rowSlot 1 w.toNat) hp
    have hpair := pushLocalWrites_pairwise (s := s.mark c) (c := c) hp
    obtain ⟨hrd, hbut⟩ := pushedLocal_bytes (c := c) hmark (rowSlot 1 w.toNat)
    have hget {f : Fld} {v : Nat} (hm : (f, v) ∈ (s.mark c).pushLocalWrites c p) (hv : v < 2 ^ f.width) := hu.qget_written hop hmfld hpair hm hv
    rw [State.pushLocalWrites, hwrites, qget_mark hfld hc (by decide)] at hget
    refine ⟨_, rfl, ?_, ?_, hu.sameBytesBut hbut, hget (.head _) (credits_pred_lt s c p), ?_, fun hopen => ?_, ?_⟩
    · rw [State.onlyQueue, hu.queues_eq, pushedLocal_queues hmark, show (rowSlot 1 w.toNat).port = p from rfl, portQueue_mark hfld hc hp,
        pushFirst_mark hfld hc hp, epoch_mark hfld c]
      rfl
    · exact (hu.rd_eq _ _).trans hrd
    · exact hget (List.mem_append_right _ (.head _)) (lt_of_le_of_lt (Nat.sub_le _ _) (s.get_lt ..))
    · exact hget (List.mem_append_left _ (mem_pushWrites_cells hopen)) hwide
    · exact hu.goesOn.mono pushLocalWrites_subset
  · have hu := h.sent hok hring
    have hop := (State.QueueOp.qputs (s.mark c) (cluOf c) (pushWrites_atCluster (s := s.mark c) (c := c) hp)).sendStream (s.pushMessage c w)
    have hget {f : Fld} {v : Nat} (hm : (f, v) ∈ (s.mark c).pushWrites c p) (hv : v < 2 ^ f.width) :=
      hu.qget_written hop hmfld pushWrites_pairwise hm hv
    rw [hwrites] at hget
    refine ⟨_, rfl, hu.goesOn.mono pushWrites_subset, ?_, hget (.head _) (credits_pred_lt s c p), fun hopen => hget (mem_pushWrites_cells hopen) hwide⟩
    · have hw := State.writes_qputs hmfld (cluOf c) ((s.mark c).pushWrites c p)
      exact hu.eq_sent (so := s.streamOut ++ [s.pushMessage c w]) (by rw [hw.eq_with_fld]; rfl)

end Sys2Proof.Machine
end

section
/-! PROOFS. `POP` (O19): the cell at RPTR goes to the tile buffer, and RPTR moves on (R57, R184, R185). -/

namespace Sys2Proof.Machine

variable {s : State} {c : CoreRef} {p : QpSlot} {y : QCell}

/-- No pointer of a queue whose copies all agree is damaged (R194). -/
theorem damaged_eq_none {x : QueueSt} (h : x.mismatch = 0) (ptrs : List Nat) : x.damaged ptrs = none := by simp [QueueSt.damaged, h]

/-- A queue whose cell at RPTR has been popped, and is held (R184). -/
def QueueSt.popped (x : QueueSt) (y : QCell) : QueueSt := { x with cells := x.cells.set x.rptr { y with popped := true }, rptr := x.rptr + 1 }

/-- The state that a `POP` of cell `y` leaves. -/
def State.poppedCell (s : State) (c : CoreRef) (p : QpSlot) (y : QCell) : State :=
  (s.wrP (tileCell c p.tbuf p.cell) (s.rdP (cellKey (cluOf c) y.cellNo) 64)).setQueue (cluOf c) (s.portQueue c p.port)
    ((s.queue (cluOf c) (s.portQueue c p.port)).popped y)

theorem poppedCell_op (s : State) (c : CoreRef) (p : QpSlot) (y : QCell) : s.QueueOp (s.poppedCell c p y) (cluOf c) [] :=
  ((State.QueueOp.refl s (cluOf c)).wrP _ _).setQueue _ _ _

/-- A data cell that is read without poison, of a queue without automatic release: the write port of the tile buffer is used 4 cycles later
(R57). -/
theorem qpPop_eq (hok : s.qportOk c p.port 1) (hauto : s.qget (cluOf c) (Reg.CLU_QCFG.AUTO_REL (s.portQueue c p.port)) = 0)
    (hy : (s.queue (cluOf c) (s.portQueue c p.port)).cells[(s.queue (cluOf c) (s.portQueue c p.port)).rptr]? = some y) (hk : y.kind ≠ 2)
    (hclean : s.cleanRange (cellKey (cluOf c) y.cellNo) 64) :
    s.qpPop c p = (s.poppedCell c p y).addFlights c [(4, .tileWrite p.tbuf)] := by
  obtain ⟨-, -, -, -, -, hqueue⟩ := hok
  obtain ⟨-, hmis⟩ := hqueue (by decide)
  have hpath := hclean.pathRead c
  have hdam := damaged_eq_none hmis [2]
  unfold State.qpPop
  simp only [hdam, hy, hk, hauto, hpath, State.popBody, zero_ne_one, if_false, false_and]
  rfl

/-- The tile buffer holds the cell's bytes, and every other byte is as before. -/
theorem poppedCell_bytes (hs : s.canonical = true) (c : CoreRef) (p : QpSlot) (y : QCell) :
    (s.poppedCell c p y).rd (tileCell c p.tbuf p.cell) 64 = s.rd (cellKey (cluOf c) y.cellNo) 64
      ∧ s.sameBytesBut (s.poppedCell c p y) (tileCell c p.tbuf p.cell) 64 := by
  have hrd := rd_wrP hs (tileCell c p.tbuf p.cell) (s.rdP (cellKey (cluOf c) y.cellNo) 64)
  have hbut := sameBytesBut_wrP hs (tileCell c p.tbuf p.cell) (s.rdP (cellKey (cluOf c) y.cellNo) 64)
  rw [length_rdP] at hrd hbut
  rw [rdP_fst] at hrd
  exact ⟨hrd, hbut⟩

theorem poppedCell_queues (s : State) (c : CoreRef) (p : QpSlot) (y : QCell) :
    (s.poppedCell c p y).queues = mapSet QueueSt.empty s.queues (queueKey (cluOf c) (s.portQueue c p.port))
      ((s.queue (cluOf c) (s.portQueue c p.port)).popped y) := by
  unfold State.poppedCell
  rw [wrP_eq]
  rfl

/-- Settles O19: a `POP` leaves `poppedCell`, and the use of the tile buffer's write port is under way. -/
theorem popReadsTheCellAtRptr : Obligations.PopReadsTheCellAtRptr := by
  unfold Obligations.PopReadsTheCellAtRptr
  intro s c w hs hr hl h0 q p n x k hok hauto hreadable y hy hkind _ hclean
  have hfld := State.canonical_fld hs
  have hc := hr.1.wf
  have hp : p < 1024 := port_lt w.toNat
  have hmark := mark_canonical hs c
  have hqueue : (s.mark c).portQueue c p = n := portQueue_mark hfld hc hp
  have hbroken : s.qget (cluOf c) Reg.CLU_QPOOL.FL_BROKEN = 0 := by
    obtain ⟨-, -, -, hbroken, -⟩ := hok
    exact hbroken
  have hdyn : qpDynamic s c (withField w.toNat 9 6 2) = [] :=
    qpDynamic_eq_nil (by decide) rfl hok ⟨nofun, nofun, nofun, fun h34 => by omega, fun h5 => by omega⟩
  have hready : qpReady s c (withField w.toNat 9 6 2) = true := by
    unfold qpReady
    rw [qpSlot_op (by decide)]
    simp only [hbroken]
    exact decide_eq_true hreadable
  have hpop : (s.mark c).qpPop c (rowSlot 2 w.toNat)
      = ((s.mark c).poppedCell c (rowSlot 2 w.toNat) y).addFlights c [(4, .tileWrite (bitsOf w.toNat 21 20))] := by
    refine qpPop_eq (qportOk_mark hfld hc hp hok) ?_ ?_ hkind hclean
    · rw [show (rowSlot 2 w.toNat).port = p from rfl, hqueue]
      exact (qget_mark hfld hc (f := Reg.CLU_QCFG.AUTO_REL n) (atCluster_entry (by decide) (by decide) (portQueue_lt s c p))).trans hauto
    · rw [show (rowSlot 2 w.toNat).port = p from rfl, hqueue]
      exact hy
  have hissue : (s.mark c).qpIssue c (withField w.toNat 9 6 2)
      = ((s.mark c).poppedCell c (rowSlot 2 w.toNat) y).addFlights c [(4, .tileWrite (bitsOf w.toNat 21 20))] := by
    rw [← hpop, State.qpIssue, qpSlot_op (by decide)]
    rfl
  have hu := hr.runQp hs hl (by decide) h0 (fun h2 => by omega) hdyn hready hissue (by simp) (poppedCell_op _ c _ y)
  obtain ⟨hrd, hbut⟩ := poppedCell_bytes hmark c (rowSlot 2 w.toNat) y
  refine ⟨_, rfl, (hu.rd_eq _ _).trans hrd, hu.sameBytesBut hbut, ?_, hu.goesOn⟩
  rw [State.onlyQueue, hu.queues_eq, poppedCell_queues, show (rowSlot 2 w.toNat).port = p from rfl, hqueue]
  rfl

end Sys2Proof.Machine
end

section
/-! PROOFS. `OPEN`, `CLOSE`, `MARK` and `REWIND` (R185, R186, R190). -/

namespace Sys2Proof.Machine

variable {s t u d : State} {c : CoreRef} {ws : List (Fld × Nat)} {us : List (Nat × Flight)} {op kind port : Nat} {w : BitVec 32}

/-! ### Rows that name a port alone -/

/-- A row of a queue port that names no place of a tile buffer. -/
structure State.PortRow (s : State) (c : CoreRef) (w : BitVec 32) : Prop where
  canonical : s.canonical = true
  ready : s.coreReady c
  live : s.slotLive c w.toNat
  reserved : bitsOf w.toNat 31 20 = 0

/-- The word of such a row, whose operation leaves `d`. -/
theorem State.PortRow.ran (h : s.PortRow c w) (hop : 3 ≤ op ∧ op ≤ 7) (hk : kindForbids kind op = false)
    (hok : s.qportOk c (bitsOf w.toNat 19 10) kind) (ha : s.PortAllows c op (bitsOf w.toNat 19 10))
    (hd : (s.mark c).QueueOp d (cluOf c) ws) (hissue : (s.mark c).qpIssue c (withField w.toNat 9 6 op) = d) :
    s.QueueRan (s.runQp c w.toNat op) d c ws [] := by
  have hlt : op < 16 := by omega
  obtain ⟨hhigh, hlow⟩ : bitsOf w.toNat 31 30 = 0 ∧ bitsOf w.toNat 29 20 = 0 := by
    have := h.reserved
    unfold bitsOf at *
    omega
  have hready : qpReady s c (withField w.toNat 9 6 op) = true := by
    unfold qpReady
    rw [qpSlot_op hlt]
    dsimp only
    split
    · omega
    · omega
    · rfl
  exact h.ready.runQp h.canonical h.live (by omega) hhigh (fun _ => hlow) (qpDynamic_eq_nil hlt hk hok ha) hready
    (by rw [addFlights_nil, hissue]) nofun hd

theorem State.QueueRan.sameMemory (hu : s.QueueRan u d c ws us) (h : s.sameMemory d) : s.sameMemory u := by
  rw [hu.frame]
  exact h

/-! ### `OPEN` and `CLOSE` -/

/-- What `OPEN` (1) and `CLOSE` (0) write of a port's packet. -/
def packetWrites (isOpen port : Nat) : List (Fld × Nat) := [(Reg.CLU_QPSTATE.PKT_OPEN port, isOpen), (Reg.CLU_QPSTATE.PKT_CELLS port, 0)]

theorem packetWrites_places {isOpen : Nat} (h : port < 1024) : ∀ w ∈ packetWrites isOpen port, w.1.AtCluster := by
  simp only [packetWrites, List.forall_mem_cons, List.not_mem_nil, false_imp_iff, implies_true, and_true]
  exact ⟨atCluster_entry (by decide) (by decide) h, atCluster_pktCells h⟩

theorem packetWrites_pairwise {isOpen : Nat} : (packetWrites isOpen port).Pairwise fun a b => a.1.pos ≠ b.1.pos := by
  simp only [packetWrites, List.pairwise_cons, List.mem_singleton, forall_eq, List.not_mem_nil, false_imp_iff, implies_true, List.Pairwise.nil,
    and_true, Reg.CLU_QPSTATE.PKT_OPEN, Reg.CLU_QPSTATE.PKT_CELLS, Fld.pos]
  omega

/-- The packet's fields after the word. -/
theorem State.QueueRan.packet {isOpen : Nat} (hu : s.QueueRan u d c (packetWrites isOpen port) us)
    (h : t.QueueOp d (cluOf c) (packetWrites isOpen port)) (ht : risingFrom 0 t.fld = true) (hb : isOpen < 2) :
    u.pget c Reg.CLU_QPSTATE.PKT_OPEN port = isOpen ∧ u.pget c Reg.CLU_QPSTATE.PKT_CELLS port = 0 :=
  ⟨hu.qget_written h ht packetWrites_pairwise (.head _) (show isOpen < 2 ^ 1 from hb),
    hu.qget_written h ht packetWrites_pairwise (.tail _ (.head _)) (show 0 < 2 ^ 32 by decide)⟩

/-- A field outside the ports' state is none of a packet's. -/
theorem qget_packet_other {f : Fld} {isOpen : Nat} (hs : s.canonical = true) (hf : f.pos < 0x404000 * 64 ∨ 0x406000 * 64 ≤ f.pos) (hp : port < 1024) :
    (s.qputs (cluOf c) (packetWrites isOpen port)).qget (cluOf c) f = s.qget (cluOf c) f :=
  State.qget_qputs_other (State.canonical_fld hs) (cluOf c) (by
    simp only [packetWrites, List.forall_mem_cons, List.not_mem_nil, false_imp_iff, implies_true, and_true, Reg.CLU_QPSTATE.PKT_OPEN,
      Reg.CLU_QPSTATE.PKT_CELLS, Fld.pos] at hf ⊢
    omega)

/-- A queue whose open packet has been closed: its first cell carries the length (R186). -/
def QueueSt.closed (x : QueueSt) (len : Nat) : QueueSt :=
  { x with cells := x.cells.map fun y => if y.kind = 1 ∧ y.len = lenMax then { y with len := len } else y, openPkt := none }

/-- `CLOSE` on a local port. -/
theorem qpClose_local {p : QpSlot} (hs : s.canonical = true) (hp : p.port < 1024) (hok : s.qportOk c p.port 0)
    (hopen : (s.queue (cluOf c) (s.portQueue c p.port)).openPkt.isSome = true)
    (harr : s.qget (cluOf c) (Reg.CLU_QCFG.ARR_MODE (s.portQueue c p.port)) = 0) :
    s.qpClose c p = (s.qputs (cluOf c) (packetWrites 0 p.port)).setQueue (cluOf c) (s.portQueue c p.port)
      ((s.queue (cluOf c) (s.portQueue c p.port)).closed (s.pget c Reg.CLU_QPSTATE.PKT_CELLS p.port)) := by
  obtain ⟨-, -, hkind, -, -, hqueue⟩ := hok
  obtain ⟨hstate, -⟩ := hqueue (by decide)
  have hget {f : Fld} (hf : f.pos < 0x404000 * 64 ∨ 0x406000 * 64 ≤ f.pos) := qget_packet_other (c := c) (isOpen := 0) hs hf hp
  unfold State.qpClose
  rw [if_pos hkind]
  refine closeLength_eq (s := s.qputs (cluOf c) (packetWrites 0 p.port)) ((hget (.inr ?_)).trans hstate) hopen ((hget (.inr ?_)).trans harr) _
  · unfold Reg.CLU_QSTATE.STATE Fld.pos; dsimp only; omega
  · unfold Reg.CLU_QCFG.ARR_MODE Fld.pos; dsimp only; omega

/-- The state after the packet of port `port` has been closed at its queue `n`. -/
def State.closedAt (s : State) (q : CluRef) (port n len : Nat) : State :=
  (s.qputs q (packetWrites 0 port)).setQueue q n ((s.queue q n).closed len)

theorem closedAt_op (s : State) (q : CluRef) (n len : Nat) (hp : port < 1024) : s.QueueOp (s.closedAt q port n len) q (packetWrites 0 port) :=
  (State.QueueOp.qputs s q (packetWrites_places hp)).setQueue q n _

theorem closedAt_queues (h : risingFrom 0 s.fld = true) (q : CluRef) (port n len : Nat) :
    (s.closedAt q port n len).queues = mapSet QueueSt.empty s.queues (queueKey q n) ((s.queue q n).closed len) := by
  rw [State.closedAt, (State.writes_qputs h q (packetWrites 0 port)).eq_with_fld]
  rfl

theorem closedAt_sameMemory (h : risingFrom 0 s.fld = true) (q : CluRef) (port n len : Nat) : s.sameMemory (s.closedAt q port n len) := by
  rw [State.closedAt, (State.writes_qputs h q (packetWrites 0 port)).eq_with_fld]
  exact ⟨rfl, rfl, rfl, rfl, rfl, rfl⟩

/-- On a route port the packet's length leaves (R190). -/
def State.closeMessage (s : State) (c : CoreRef) (port : Nat) : StreamMsg :=
  { kind := 1, epoch := s.cget c Reg.CORE_SCHED_STATUS.EPOCH, ddie := s.pget c Reg.CLU_QPORT.DDIE port
    dclu := s.pget c Reg.CLU_QPORT.DCLU port, ring := false, dring := 0, dindex := s.pget c Reg.CLU_QPORT.DQUEUE port
    dcore := 0, first := false, poison := 0, count := s.pget c Reg.CLU_QPSTATE.PKT_CELLS port, data := [] }

theorem closeMessage_mark (h : risingFrom 0 s.fld = true) (hc : c.wf = true) (hp : port < 1024) :
    (s.mark c).closeMessage c port = s.closeMessage c port := by
  rw [State.closeMessage, epoch_mark h c, pget_mark h hc (f := Reg.CLU_QPORT.DDIE) (atCluster_entry (by decide) (by decide) hp),
    pget_mark h hc (f := Reg.CLU_QPORT.DCLU) (atCluster_entry (by decide) (by decide) hp),
    pget_mark h hc (f := Reg.CLU_QPORT.DQUEUE) (atCluster_entry (by decide) (by decide) hp),
    pget_mark h hc (f := Reg.CLU_QPSTATE.PKT_CELLS) (atCluster_pktCells hp), State.closeMessage]

/-- `CLOSE` on a route port. -/
theorem qpClose_route {p : QpSlot} (hok : s.qportOk c p.port 2) :
    s.qpClose c p = (s.qputs (cluOf c) (packetWrites 0 p.port)).sendStream (s.closeMessage c p.port) := by
  obtain ⟨-, -, hkind, -⟩ := hok
  unfold State.qpClose
  rw [if_neg (by rw [hkind]; decide)]
  rfl

section
variable (h : s.PortRow c w)
include h

/-- `OPEN` on a producer port without an open packet. -/
theorem State.PortRow.opened (hk : kind = 0 ∨ kind = 2) (hok : s.qportOk c (bitsOf w.toNat 19 10) kind)
    (hpkt : s.pget c Reg.CLU_QPSTATE.PKT_OPEN (bitsOf w.toNat 19 10) = 0) (hlossy : s.lossyPort c (bitsOf w.toNat 19 10) = false)
    (hring : s.pget c Reg.CLU_QPORT.RING (bitsOf w.toNat 19 10) = 0) :
    s.QueueRan (s.runQp c w.toNat 3) ((s.mark c).qputs (cluOf c) (packetWrites 1 (bitsOf w.toNat 19 10))) c
      (packetWrites 1 (bitsOf w.toNat 19 10)) [] := by
  refine h.ran (by decide) (by rcases hk with rfl | rfl <;> rfl) hok ⟨fun _ => hpkt, nofun, nofun, fun _ => ⟨hlossy, hring⟩, fun h5 => by omega⟩
    (.qputs _ _ (packetWrites_places (port_lt _))) ?_
  rw [State.qpIssue, qpSlot_op (by decide)]
  rfl

/-- `CLOSE` on a producer port with an open packet that has cells. -/
theorem State.PortRow.closed (hk : kind = 0 ∨ kind = 2) (hok : s.qportOk c (bitsOf w.toNat 19 10) kind)
    (hpkt : s.pget c Reg.CLU_QPSTATE.PKT_OPEN (bitsOf w.toNat 19 10) = 1) (hcells : s.pget c Reg.CLU_QPSTATE.PKT_CELLS (bitsOf w.toNat 19 10) ≠ 0)
    (hlossy : s.lossyPort c (bitsOf w.toNat 19 10) = false) (hring : s.pget c Reg.CLU_QPORT.RING (bitsOf w.toNat 19 10) = 0)
    (hclose : (s.mark c).qpClose c (rowSlot 4 w.toNat) = d) (hd : (s.mark c).QueueOp d (cluOf c) ws) :
    s.QueueRan (s.runQp c w.toNat 4) d c ws [] := by
  refine h.ran (by decide) (by rcases hk with rfl | rfl <;> rfl) hok
    ⟨nofun, fun _ => ⟨hpkt, hcells⟩, nofun, fun _ => ⟨hlossy, hring⟩, fun h5 => by omega⟩ hd ?_
  rw [← hclose, State.qpIssue, qpSlot_op (by decide)]
  rfl

/-- On a local port the queue's open packet gets its length. -/
theorem State.PortRow.closedLocal (hok : s.qportOk c (bitsOf w.toNat 19 10) 0)
    (hpkt : s.pget c Reg.CLU_QPSTATE.PKT_OPEN (bitsOf w.toNat 19 10) = 1) (hcells : s.pget c Reg.CLU_QPSTATE.PKT_CELLS (bitsOf w.toNat 19 10) ≠ 0)
    (hlossy : s.lossyPort c (bitsOf w.toNat 19 10) = false) (hring : s.pget c Reg.CLU_QPORT.RING (bitsOf w.toNat 19 10) = 0)
    (hopen : (s.queue (cluOf c) (s.portQueue c (bitsOf w.toNat 19 10))).openPkt.isSome = true)
    (harr : s.qget (cluOf c) (Reg.CLU_QCFG.ARR_MODE (s.portQueue c (bitsOf w.toNat 19 10))) = 0) :
    s.QueueRan (s.runQp c w.toNat 4) ((s.mark c).closedAt (cluOf c) (bitsOf w.toNat 19 10) (s.portQueue c (bitsOf w.toNat 19 10))
        (s.pget c Reg.CLU_QPSTATE.PKT_CELLS (bitsOf w.toNat 19 10))) c (packetWrites 0 (bitsOf w.toNat 19 10)) [] := by
  have hfld := State.canonical_fld h.canonical
  have hc := h.ready.1.wf
  have hp := port_lt w.toNat
  have hqueue := portQueue_mark hfld hc hp
  refine h.closed (.inl rfl) hok hpkt hcells hlossy hring ?_ (closedAt_op _ _ _ _ hp)
  refine (qpClose_local (p := rowSlot 4 w.toNat) (mark_canonical h.canonical c) hp (qportOk_mark hfld hc hp hok) ?_ ?_).trans ?_ <;>
    rw [show (rowSlot 4 w.toNat).port = bitsOf w.toNat 19 10 from rfl, hqueue]
  · exact hopen
  · exact (qget_mark hfld hc (f := Reg.CLU_QCFG.ARR_MODE _) (atCluster_entry (by decide) (by decide) (portQueue_lt s c _))).trans harr
  · rw [pget_mark hfld hc (f := Reg.CLU_QPSTATE.PKT_CELLS) (atCluster_pktCells hp)]
    rfl

/-- On a route port the length leaves. -/
theorem State.PortRow.closedRoute (hok : s.qportOk c (bitsOf w.toNat 19 10) 2)
    (hpkt : s.pget c Reg.CLU_QPSTATE.PKT_OPEN (bitsOf w.toNat 19 10) = 1) (hcells : s.pget c Reg.CLU_QPSTATE.PKT_CELLS (bitsOf w.toNat 19 10) ≠ 0)
    (hlossy : s.lossyPort c (bitsOf w.toNat 19 10) = false) (hring : s.pget c Reg.CLU_QPORT.RING (bitsOf w.toNat 19 10) = 0) :
    s.QueueRan (s.runQp c w.toNat 4) (((s.mark c).qputs (cluOf c) (packetWrites 0 (bitsOf w.toNat 19 10))).sendStream
        (s.closeMessage c (bitsOf w.toNat 19 10))) c (packetWrites 0 (bitsOf w.toNat 19 10)) [] := by
  have hfld := State.canonical_fld h.canonical
  have hc := h.ready.1.wf
  have hp := port_lt w.toNat
  refine h.closed (.inr rfl) hok hpkt hcells hlossy hring ?_ ((State.QueueOp.qputs _ _ (packetWrites_places hp)).sendStream _)
  rw [← closeMessage_mark hfld hc hp]
  exact qpClose_route (p := rowSlot 4 w.toNat) (qportOk_mark hfld hc hp hok)

end

/-! ### `MARK` and `REWIND` -/

section
variable (h : s.PortRow c w)
include h

/-- A row of the read side of a queue without automatic release. -/
theorem State.PortRow.reads (hop : 5 ≤ op ∧ op ≤ 7) (hok : s.qportOk c (bitsOf w.toNat 19 10) 1)
    (hauto : s.qget (cluOf c) (Reg.CLU_QCFG.AUTO_REL (s.portQueue c (bitsOf w.toNat 19 10))) = 0)
    (hd : (s.mark c).QueueOp d (cluOf c) ws) (hissue : (s.mark c).qpIssue c (withField w.toNat 9 6 op) = d) :
    s.QueueRan (s.runQp c w.toNat op) d c ws [] := by
  refine h.ran (by omega) ?_ hok ⟨fun _ => by omega, fun _ => by omega, fun _ => by omega, fun _ => by omega, fun _ => hauto⟩ hd hissue
  obtain rfl | rfl | rfl : op = 5 ∨ op = 6 ∨ op = 7 := by omega
  all_goals rfl

end

theorem qpMark_eq {p : QpSlot} (hok : s.qportOk c p.port 1) :
    s.qpMark c p = s.setQueue (cluOf c) (s.portQueue c p.port)
      { s.queue (cluOf c) (s.portQueue c p.port) with mark := (s.queue (cluOf c) (s.portQueue c p.port)).rptr } := by
  obtain ⟨-, -, -, -, -, hqueue⟩ := hok
  obtain ⟨-, hmis⟩ := hqueue (by decide)
  unfold State.qpMark
  simp only [damaged_eq_none hmis]

theorem qpRewind_eq {p : QpSlot} (hok : s.qportOk c p.port 1) :
    s.qpRewind c p = s.setQueue (cluOf c) (s.portQueue c p.port)
      { s.queue (cluOf c) (s.portQueue c p.port) with rptr := (s.queue (cluOf c) (s.portQueue c p.port)).mark } := by
  obtain ⟨-, -, -, -, -, hqueue⟩ := hok
  obtain ⟨-, hmis⟩ := hqueue (by decide)
  unfold State.qpRewind
  simp only [damaged_eq_none hmis]

section
variable (h : s.PortRow c w) (hok : s.qportOk c (bitsOf w.toNat 19 10) 1)
  (hauto : s.qget (cluOf c) (Reg.CLU_QCFG.AUTO_REL (s.portQueue c (bitsOf w.toNat 19 10))) = 0)
include h hok hauto

/-- A row that does nothing but replace its queue. -/
theorem State.PortRow.replaces (hop : 5 ≤ op ∧ op ≤ 7) {x : QueueSt}
    (hissue : (s.mark c).qpIssue c (withField w.toNat 9 6 op)
      = (s.mark c).setQueue (cluOf c) ((s.mark c).portQueue c (bitsOf w.toNat 19 10)) x) :
    s.onlyQueue (s.runQp c w.toNat op) (cluOf c) (s.portQueue c (bitsOf w.toNat 19 10)) x
      ∧ s.coreGoesOn (s.runQp c w.toNat op) c (s.wordAddr c + 1) [] ∧ s.sameMemory (s.runQp c w.toNat op) := by
  have hu := h.reads hop hok hauto ((State.QueueOp.refl (s.mark c) (cluOf c)).setQueue _ _ _) hissue
  refine ⟨?_, hu.goesOn, hu.sameMemory ⟨rfl, rfl, rfl, rfl, rfl, rfl⟩⟩
  rw [State.onlyQueue, hu.queues_eq, portQueue_mark (State.canonical_fld h.canonical) h.ready.1.wf (port_lt w.toNat)]
  rfl

theorem State.PortRow.marked :
    s.onlyQueue (s.runQp c w.toNat 5) (cluOf c) (s.portQueue c (bitsOf w.toNat 19 10))
        { s.queue (cluOf c) (s.portQueue c (bitsOf w.toNat 19 10)) with
          mark := (s.queue (cluOf c) (s.portQueue c (bitsOf w.toNat 19 10))).rptr }
      ∧ s.coreGoesOn (s.runQp c w.toNat 5) c (s.wordAddr c + 1) [] ∧ s.sameMemory (s.runQp c w.toNat 5) := by
  have hfld := State.canonical_fld h.canonical
  have hc := h.ready.1.wf
  have hp := port_lt w.toNat
  refine h.replaces hok hauto (by decide) ?_
  rw [State.qpIssue, qpSlot_op (by decide)]
  refine (qpMark_eq (p := rowSlot 5 w.toNat) (qportOk_mark hfld hc hp hok)).trans ?_
  rw [show (rowSlot 5 w.toNat).port = bitsOf w.toNat 19 10 from rfl, portQueue_mark hfld hc hp]
  rfl

theorem State.PortRow.rewound :
    s.onlyQueue (s.runQp c w.toNat 6) (cluOf c) (s.portQueue c (bitsOf w.toNat 19 10))
        { s.queue (cluOf c) (s.portQueue c (bitsOf w.toNat 19 10)) with
          rptr := (s.queue (cluOf c) (s.portQueue c (bitsOf w.toNat 19 10))).mark }
      ∧ s.coreGoesOn (s.runQp c w.toNat 6) c (s.wordAddr c + 1) [] ∧ s.sameMemory (s.runQp c w.toNat 6) := by
  have hfld := State.canonical_fld h.canonical
  have hc := h.ready.1.wf
  have hp := port_lt w.toNat
  refine h.replaces hok hauto (by decide) ?_
  rw [State.qpIssue, qpSlot_op (by decide)]
  refine (qpRewind_eq (p := rowSlot 6 w.toNat) (qportOk_mark hfld hc hp hok)).trans ?_
  rw [show (rowSlot 6 w.toNat).port = bitsOf w.toNat 19 10 from rfl, portQueue_mark hfld hc hp]
  rfl

end

end Sys2Proof.Machine
end

section
/-! PROOFS. `RELEASE` (R179, R185): cells return to the pool, and their credits to the producer; then O20 as a whole. -/

namespace Sys2Proof.Machine

variable {s t u d : State} {c : CoreRef} {q : CluRef} {ws : List (Fld × Nat)} {us : List (Nat × Flight)} {op kind port k n : Nat} {w : BitVec 32}

/-! ### A queue written twice -/

section
variable {β : Type} {key : Nat} {x y : β}

theorem mapErase_insert (m : SMap β) : mapErase (mapInsert m key x) key = mapErase m key := by
  induction m with
  | nil => simp [mapInsert, mapErase]
  | cons e m ih =>
    obtain ⟨k, v⟩ := e
    rcases lt_trichotomy key k with h | rfl | h
    · simp [mapInsert, mapErase, h, h.ne]
    · simp [mapInsert, mapErase]
    · simp [mapInsert, mapErase, h.ne', h.not_gt, ih]

theorem mapInsert_insert (m : SMap β) : mapInsert (mapInsert m key x) key y = mapInsert m key y := by
  induction m with
  | nil => simp [mapInsert]
  | cons e m ih =>
    obtain ⟨k, v⟩ := e
    rcases lt_trichotomy key k with h | rfl | h
    · simp [mapInsert, h, h.ne]
    · simp [mapInsert]
    · simp [mapInsert, h.ne', h.not_gt, ih]

/-- Of two writes of a key, the first one not of the default, the second one counts. -/
theorem mapSet_set_same [DecidableEq β] {d : β} (hx : x ≠ d) (m : SMap β) : mapSet d (mapSet d m key x) key y = mapSet d m key y := by
  unfold mapSet
  rw [if_neg hx, mapErase_insert, mapInsert_insert]

end

theorem setQueue_setQueue {x y : QueueSt} (hx : x ≠ QueueSt.empty) : (s.setQueue q n x).setQueue q n y = s.setQueue q n y := by
  simp only [State.setQueue, mapSet_set_same hx]

theorem queue_setQueue (h : risingFrom 0 s.queues = true) (q : CluRef) (n : Nat) (x : QueueSt) : (s.setQueue q n x).queue q n = x :=
  mapGet_set_same _ _ x h

/-! ### The logical die of a site -/

/-- A field of the panel is no field of a die. -/
theorem get_panel_of_writes {es : List (Nat × Fld)} (h : s.Writes t es) (hes : ∀ e ∈ es, e.1 < 256 ∧ e.2.pos < 2 ^ 32) (f : Fld) :
    t.get panelSite f = s.get panelSite f :=
  h.get_eq (e := (panelSite, f)) fun a ha => by
    obtain ⟨hsite, hpos⟩ := hes a ha
    simp only [panelSite, fldKey_eq_pos]
    omega

theorem ldieOf_congr (h : ∀ f, t.get panelSite f = s.get panelSite f) (site : Nat) : t.ldieOf site = s.ldieOf site := by
  simp only [State.ldieOf, State.flag, h]

theorem ldieOf_mark (h : risingFrom 0 s.fld = true) (hc : c.wf = true) (site : Nat) : (s.mark c).ldieOf site = s.ldieOf site := by
  obtain ⟨hsite, hcore⟩ := (coreRef_wf_iff c).1 hc
  refine ldieOf_congr (get_panel_of_writes (State.Issuing.mark h c).writes fun e he => ?_) site
  rw [List.append_nil] at he
  obtain ⟨g, hg, rfl⟩ := List.mem_map.1 (show e ∈ markFs.map (coreFld c) from he)
  have hpos := (by decide : ∀ g ∈ markFs, g.pos < 2 ^ 31) g hg
  refine ⟨hsite, ?_⟩
  rw [coreFld, Fld.pos_nth]
  omega

/-! ### Credits that return -/

/-- The producer port of a queue is a local one of the queue's own cluster (R174). -/
def State.producerHere (s : State) (q : CluRef) (n : Nat) : Prop :=
  s.ldieOf q.site = some (s.qget q (Reg.CLU_QSRC.PCORE n) / 48) ∧ s.qget q (Reg.CLU_QSRC.PCORE n) % 48 / 24 = q.clu
    ∧ s.qget q (Reg.CLU_QPORT.KIND (s.qget q (Reg.CLU_QSRC.PPORT n))) = 0

/-- The CREDIT message to the producer port of a queue (R190). -/
def State.creditFor (s : State) (q : CluRef) (n k : Nat) : StreamMsg :=
  { kind := 2, epoch := s.qget q Reg.CLU_QPOOL.EPOCH, ddie := s.qget q (Reg.CLU_QSRC.PCORE n) / 48
    dclu := s.qget q (Reg.CLU_QSRC.PCORE n) % 48 / 24, ring := false, dring := 0, dindex := s.qget q (Reg.CLU_QSRC.PPORT n), dcore := 0
    first := false, poison := 0, count := k, data := [] }

theorem returnCredits_here (hk : k ≠ 0) (hmode : s.qget q (Reg.CLU_QCFG.MODE n) = 0) (h : s.producerHere q n) :
    s.returnCredits q n k = s.qput q (Reg.CLU_QPSTATE.CREDITS (s.qget q (Reg.CLU_QSRC.PPORT n)))
      (s.qget q (Reg.CLU_QPSTATE.CREDITS (s.qget q (Reg.CLU_QSRC.PPORT n))) + k) := by
  unfold State.returnCredits
  rw [if_neg (by omega)]
  exact if_pos h

theorem returnCredits_away (hk : k ≠ 0) (hmode : s.qget q (Reg.CLU_QCFG.MODE n) = 0) (h : ¬ s.producerHere q n) :
    s.returnCredits q n k = s.sendStream (s.creditFor q n k) := by
  unfold State.returnCredits
  rw [if_neg (by omega)]
  exact if_neg h

/-- What `producerHere` and `creditFor` read of a queue. -/
structure State.SameSource (s t : State) (q : CluRef) (n : Nat) : Prop where
  die : t.ldieOf q.site = s.ldieOf q.site
  core : t.qget q (Reg.CLU_QSRC.PCORE n) = s.qget q (Reg.CLU_QSRC.PCORE n)
  port : t.qget q (Reg.CLU_QSRC.PPORT n) = s.qget q (Reg.CLU_QSRC.PPORT n)
  kind : t.qget q (Reg.CLU_QPORT.KIND (s.qget q (Reg.CLU_QSRC.PPORT n))) = s.qget q (Reg.CLU_QPORT.KIND (s.qget q (Reg.CLU_QSRC.PPORT n)))
  credits : t.qget q (Reg.CLU_QPSTATE.CREDITS (s.qget q (Reg.CLU_QSRC.PPORT n)))
    = s.qget q (Reg.CLU_QPSTATE.CREDITS (s.qget q (Reg.CLU_QSRC.PPORT n)))
  mode : t.qget q (Reg.CLU_QCFG.MODE n) = s.qget q (Reg.CLU_QCFG.MODE n)

theorem State.SameSource.producerHere_iff (h : s.SameSource t q n) : t.producerHere q n ↔ s.producerHere q n := by
  rw [State.producerHere, h.die, h.core, h.port, h.kind, State.producerHere]

theorem State.SameSource.trans (h : s.SameSource t q n) (g : t.SameSource u q n) : s.SameSource u q n := by
  obtain ⟨hdie, hcore, hport, hkind, hcredits, hmode⟩ := g
  rw [h.port] at hkind hcredits
  exact ⟨hdie.trans h.die, hcore.trans h.core, hport.trans h.port, hkind.trans h.kind, hcredits.trans h.credits, hmode.trans h.mode⟩

theorem producerPort_lt (s : State) (q : CluRef) (n : Nat) : s.qget q (Reg.CLU_QSRC.PPORT n) < 1024 :=
  s.get_lt q.site ((Reg.CLU_QSRC.PPORT n).nth q.clu)

theorem sameSource_mark (h : risingFrom 0 s.fld = true) (hc : c.wf = true) (hn : n < 1024) : s.SameSource (s.mark c) (cluOf c) n where
  die := ldieOf_mark h hc _
  core := qget_mark h hc (f := Reg.CLU_QSRC.PCORE n) (atCluster_entry (by decide) (by decide) hn)
  port := qget_mark h hc (f := Reg.CLU_QSRC.PPORT n) (atCluster_entry (by decide) (by decide) hn)
  kind := qget_mark h hc (f := Reg.CLU_QPORT.KIND _) (atCluster_entry (by decide) (by decide) (producerPort_lt s (cluOf c) n))
  credits := qget_mark h hc (atCluster_credits (producerPort_lt s (cluOf c) n))
  mode := qget_mark h hc (f := Reg.CLU_QCFG.MODE n) (atCluster_entry (by decide) (by decide) hn)

/-- A field of a port or queue is not FREE. -/
theorem entry_pos_ne_free {off lo : Nat} (h : 0x402000 ≤ off) {width reset : Nat} {acc : Acc} :
    (⟨off + 8 * n, lo, width, reset, acc⟩ : Fld).pos ≠ Reg.CLU_QPOOL.FREE.pos := by
  simp only [Reg.CLU_QPOOL.FREE, Fld.pos]
  omega

/-- FREE is written when cells return to the pool, and the source of the queue stays. -/
theorem sameSource_free (h : risingFrom 0 s.fld = true) (hq : q.wf = true) (v : Nat) (x : QueueSt) :
    s.SameSource ((s.setQueue q n x).qput q Reg.CLU_QPOOL.FREE v) q n := by
  have hget {f : Fld} (hf : f.pos ≠ Reg.CLU_QPOOL.FREE.pos) : ((s.setQueue q n x).qput q Reg.CLU_QPOOL.FREE v).qget q f = s.qget q f :=
    get_clu_put (s := s.setQueue q n x) h q hf v
  refine ⟨?_, hget (entry_pos_ne_free (by decide)), hget (entry_pos_ne_free (by decide)), hget (entry_pos_ne_free (by decide)),
    hget (entry_pos_ne_free (by decide)), hget (entry_pos_ne_free (by decide))⟩
  have hw : s.Writes (s.qput q Reg.CLU_QPOOL.FREE v) [cluFld q Reg.CLU_QPOOL.FREE] := (State.Writes.refl h).put (cluFld q _) v
  obtain ⟨hsite, hclu⟩ : q.site < 256 ∧ q.clu < 2 := by simpa [CluRef.wf] using hq
  exact ldieOf_congr (get_panel_of_writes hw fun e he => by
    rw [List.mem_singleton.1 he]
    have hpos : Reg.CLU_QPOOL.FREE.pos < 2 ^ 31 := by decide
    refine ⟨hsite, ?_⟩
    rw [cluFld, Fld.pos_nth]
    omega) _

/-! ### Cells that return to the pool -/

/-- A queue without its first `k` cells. -/
def QueueSt.freed (x : QueueSt) (k : Nat) : QueueSt := { x with cells := x.cells.drop k, rptr := x.rptr - k, mark := x.mark - k }

/-- Cells of a queue without a pending drop count return to the pool, and their credits to the producer. -/
theorem freeCells_eq (hk : k ≠ 0) (hle : k ≤ (s.queue q n).held) (hpend : (s.queue q n).pendDrops = 0) :
    s.freeCells q n k =
      ((s.setQueue q n ((s.queue q n).freed k)).qput q Reg.CLU_QPOOL.FREE (s.qget q Reg.CLU_QPOOL.FREE + k)).returnCredits q n k := by
  unfold State.freeCells
  dsimp only
  rw [Nat.min_eq_left hle, if_neg hk, if_neg (not_not.2 hpend)]
  rfl

/-- A queue whose cells before RPTR have been released. -/
def QueueSt.released (x : QueueSt) : QueueSt := { x with cells := x.cells.drop x.rptr, rptr := 0, mark := 0 }

/-- The state that a `RELEASE` leaves but for the credits: the cells before RPTR are free. -/
def State.released (s : State) (q : CluRef) (n : Nat) : State :=
  (s.setQueue q n (s.queue q n).released).qput q Reg.CLU_QPOOL.FREE (s.qget q Reg.CLU_QPOOL.FREE + (s.queue q n).rptr)

/-- A `RELEASE` of cells of a sound queue. -/
theorem qpRelease_eq {p : QpSlot} (hs : s.canonical = true) (hok : s.qportOk c p.port 1)
    (hpos : 0 < (s.queue (cluOf c) (s.portQueue c p.port)).rptr)
    (hle : (s.queue (cluOf c) (s.portQueue c p.port)).rptr ≤ (s.queue (cluOf c) (s.portQueue c p.port)).held)
    (hpend : (s.queue (cluOf c) (s.portQueue c p.port)).pendDrops = 0) :
    s.qpRelease c p = (s.released (cluOf c) (s.portQueue c p.port)).returnCredits (cluOf c) (s.portQueue c p.port)
      (s.queue (cluOf c) (s.portQueue c p.port)).rptr := by
  obtain ⟨-, -, -, -, hmatch, hqueue⟩ := hok
  obtain ⟨-, hmis⟩ := hqueue (by decide)
  obtain ⟨-, hrise, -⟩ := State.canonical_maps hs
  have hfree : ¬ (s.qget (cluOf c) Clu.FL_MISMATCH = 1 ∧ 0 < (s.queue (cluOf c) (s.portQueue c p.port)).rptr) := by omega
  unfold State.qpRelease
  simp only [damaged_eq_none hmis, hfree, if_false]
  unfold State.released
  generalize hx : s.queue (cluOf c) (s.portQueue c p.port) = x at *
  have hnew := queue_setQueue hrise (cluOf c) (s.portQueue c p.port) { x with mark := x.rptr }
  have hnonempty : ({ x with mark := x.rptr } : QueueSt) ≠ QueueSt.empty := fun he => by
    have hrptr : x.rptr = 0 := congrArg QueueSt.rptr he
    omega
  rw [freeCells_eq (by omega) (by rw [hnew]; exact hle) (by rw [hnew]; exact hpend), hnew, setQueue_setQueue hnonempty]
  simp only [QueueSt.freed, QueueSt.released, Nat.sub_self]
  rfl

theorem released_op (s : State) (q : CluRef) (n : Nat) :
    s.QueueOp (s.released q n) q [(Reg.CLU_QPOOL.FREE, s.qget q Reg.CLU_QPOOL.FREE + (s.queue q n).rptr)] :=
  ((State.QueueOp.refl s q).setQueue q n _).thenQput (by decide) _

/-- A value is cut to the field's width. -/
theorem qput_mod (s : State) (q : CluRef) (f : Fld) (v : Nat) : s.qput q f (v % 2 ^ f.width) = s.qput q f v := by
  unfold State.qput State.put
  rw [Fld.width_nth, Nat.mod_mod]

/-! ### The row `RELEASE` -/

/-- What a `RELEASE` of the cells before RPTR of queue `x` writes of the pool. -/
def State.freeWrite (s : State) (q : CluRef) (x : QueueSt) : Fld × Nat := (Reg.CLU_QPOOL.FREE, s.qget q Reg.CLU_QPOOL.FREE + x.rptr)

/-- What it writes of the producer's port, where that is a local one. -/
def State.creditWrite (s : State) (q : CluRef) (n : Nat) (x : QueueSt) : Fld × Nat :=
  (Reg.CLU_QPSTATE.CREDITS (s.qget q (Reg.CLU_QSRC.PPORT n)),
    (s.qget q (Reg.CLU_QPSTATE.CREDITS (s.qget q (Reg.CLU_QSRC.PPORT n))) + x.rptr) % 2 ^ 16)

/-- The state that a `RELEASE` leaves where the producer's port of `s` is a local one. -/
def State.releasedHere (t s : State) (c : CoreRef) (n : Nat) (x : QueueSt) : State :=
  (t.released (cluOf c) n).qput (cluOf c) (s.creditWrite (cluOf c) n x).1 (s.creditWrite (cluOf c) n x).2

/-- A consumer port of a CREDITED queue without automatic release, with cells before RPTR, and room to count them in the pool. -/
structure State.CanRelease (s : State) (c : CoreRef) (w : BitVec 32) (n : Nat) (x : QueueSt) : Prop where
  row : s.PortRow c w
  ok : s.qportOk c (bitsOf w.toNat 19 10) 1
  auto : s.qget (cluOf c) (Reg.CLU_QCFG.AUTO_REL n) = 0
  number : s.portQueue c (bitsOf w.toNat 19 10) = n
  queue : s.queue (cluOf c) n = x
  cells : 0 < x.rptr
  heldThere : x.rptr ≤ x.held
  dropless : x.pendDrops = 0
  credited : s.qget (cluOf c) (Reg.CLU_QCFG.MODE n) = 0
  room : s.qget (cluOf c) Reg.CLU_QPOOL.FREE + x.rptr < 2 ^ 16

namespace State.CanRelease
variable {x : QueueSt} (h : s.CanRelease c w n x)
include h

/-- What the word's operation reads of the queue's producer. -/
theorem sameSource : s.SameSource ((s.mark c).released (cluOf c) n) (cluOf c) n := by
  have hfld := State.canonical_fld h.row.canonical
  have hc := h.row.ready.1.wf
  obtain ⟨hsite, hcore⟩ := (coreRef_wf_iff c).1 hc
  have hq : (cluOf c).wf = true := by
    have hclu : c.core / 24 < 2 := by omega
    simp [CluRef.wf, cluOf, hsite, hclu]
  have hn : n < 1024 := h.number ▸ portQueue_lt s c _
  exact (sameSource_mark hfld hc hn).trans (sameSource_free (State.canonical_fld (mark_canonical h.row.canonical c)) hq _ _)

/-- The word of a `RELEASE` whose operation leaves `d`. -/
theorem ran (hrelease : ((s.mark c).released (cluOf c) n).returnCredits (cluOf c) n x.rptr = d) (hd : (s.mark c).QueueOp d (cluOf c) ws) :
    s.QueueRan (s.runQp c w.toNat 7) d c ws [] := by
  have hfld := State.canonical_fld h.row.canonical
  have hc := h.row.ready.1.wf
  have hp := port_lt w.toNat
  have hnumber : (s.mark c).portQueue c (rowSlot 7 w.toNat).port = n := (portQueue_mark hfld hc hp).trans h.number
  have hqueue : (s.mark c).queue (cluOf c) n = x := h.queue
  refine h.row.reads (by decide) h.ok (h.number ▸ h.auto) hd ?_
  rw [State.qpIssue, qpSlot_op (by decide)]
  refine (qpRelease_eq (p := rowSlot 7 w.toNat) (mark_canonical h.row.canonical c) (qportOk_mark hfld hc hp h.ok) ?_ ?_ ?_).trans ?_ <;>
    rw [hnumber, hqueue]
  exacts [h.cells, h.heldThere, h.dropless, hrelease]

/-- FREE as the word's operation writes it. -/
theorem free_eq : (s.mark c).qget (cluOf c) Reg.CLU_QPOOL.FREE + ((s.mark c).queue (cluOf c) n).rptr
    = s.qget (cluOf c) Reg.CLU_QPOOL.FREE + x.rptr := by
  have hqueue : (s.mark c).queue (cluOf c) n = x := h.queue
  rw [hqueue, qget_mark (State.canonical_fld h.row.canonical) h.row.ready.1.wf (by decide)]

theorem released_op : (s.mark c).QueueOp ((s.mark c).released (cluOf c) n) (cluOf c) [s.freeWrite (cluOf c) x] :=
  (show (_, _) = s.freeWrite (cluOf c) x from congrArg (Prod.mk _) h.free_eq) ▸ Machine.released_op (s.mark c) (cluOf c) n

theorem queues_eq : ((s.mark c).released (cluOf c) n).queues = mapSet QueueSt.empty s.queues (queueKey (cluOf c) n) x.released :=
  h.queue ▸ rfl

/-- The producer's port in the same cluster gets its credits at once. -/
theorem here (hhere : s.producerHere (cluOf c) n) : s.QueueRan (s.runQp c w.toNat 7) ((s.mark c).releasedHere s c n x) c
    [s.freeWrite (cluOf c) x, s.creditWrite (cluOf c) n x] [] := by
  have hsrc := h.sameSource
  refine h.ran ?_ (h.released_op.thenQput (atCluster_credits (producerPort_lt s (cluOf c) n)) _)
  rw [returnCredits_here (Nat.ne_of_gt h.cells) (hsrc.mode.trans h.credited) (hsrc.producerHere_iff.2 hhere), hsrc.port, hsrc.credits]
  exact (qput_mod _ _ (Reg.CLU_QPSTATE.CREDITS _) _).symm

/-- Any other producer's port gets them in a message. -/
theorem away (haway : ¬ s.producerHere (cluOf c) n) : s.QueueRan (s.runQp c w.toNat 7)
    (((s.mark c).released (cluOf c) n).sendStream (((s.mark c).released (cluOf c) n).creditFor (cluOf c) n x.rptr)) c
    [s.freeWrite (cluOf c) x] [] := by
  have hsrc := h.sameSource
  exact h.ran (returnCredits_away (Nat.ne_of_gt h.cells) (hsrc.mode.trans h.credited) (hsrc.producerHere_iff.not.2 haway))
    (h.released_op.sendStream _)

end State.CanRelease

theorem creditWrite_pairwise {x : QueueSt} : [s.freeWrite q x, s.creditWrite q n x].Pairwise fun a b => a.1.pos ≠ b.1.pos := by
  simp only [List.pairwise_cons, List.mem_singleton, forall_eq, List.not_mem_nil, false_imp_iff, implies_true, List.Pairwise.nil, and_true]
  exact (entry_pos_ne_free (by decide)).symm

/-- Settles O20: `PortRow.opened` and `PortRow.closed` on the producer's side, `PortRow.marked`, `PortRow.rewound` and `CanRelease` on the
consumer's. -/
theorem packetsOpenCloseAndRewind : Obligations.PacketsOpenCloseAndRewind := by
  unfold Obligations.PacketsOpenCloseAndRewind
  refine ⟨fun s c w hs hr hl h0 => ?_, fun s c w hs hr hl h0 => ?_⟩
  · intro q p n x pkt cells flds hlossy hring
    have h : s.PortRow c w := ⟨hs, hr, hl, h0⟩
    have hp : p < 1024 := port_lt w.toNat
    have hmfld := State.canonical_fld (mark_canonical hs c)
    have hw (isOpen : Nat) := State.writes_qputs hmfld (cluOf c) (packetWrites isOpen p)
    have hop (isOpen : Nat) := State.QueueOp.qputs (s.mark c) (cluOf c) (packetWrites_places (isOpen := isOpen) hp)
    refine ⟨fun hpkt hok => ?_, fun hpkt hcells hok hopen harr => ?_, fun hpkt hcells hok => ?_⟩
    · have hu : s.QueueRan (s.runQp c w.toNat 3) ((s.mark c).qputs (cluOf c) (packetWrites 1 p)) c (packetWrites 1 p) [] :=
        hok.elim (fun hok => h.opened (.inl rfl) hok hpkt hlossy hring) (fun hok => h.opened (.inr rfl) hok hpkt hlossy hring)
      obtain ⟨hone, hzero⟩ := hu.packet (hop 1) hmfld (by decide)
      exact ⟨_, rfl, hone, hzero, hu.goesOn, hu.eq_sent (so := s.streamOut) (by rw [(hw 1).eq_with_fld]; rfl)⟩
    · have hu := h.closedLocal hok hpkt hcells hlossy hring hopen harr
      obtain ⟨hone, hzero⟩ := hu.packet (closedAt_op _ _ _ _ hp) hmfld (by decide)
      exact ⟨_, rfl, hone, hzero, hu.queues_eq.trans (closedAt_queues hmfld ..), hu.goesOn, hu.sameMemory (closedAt_sameMemory hmfld ..)⟩
    · have hu := h.closedRoute hok hpkt hcells hlossy hring
      obtain ⟨hone, hzero⟩ := hu.packet ((hop 0).sendStream _) hmfld (by decide)
      exact ⟨_, rfl, hone, hzero, hu.goesOn, hu.eq_sent (so := s.streamOut ++ [s.closeMessage c p]) (by rw [(hw 0).eq_with_fld]; rfl)⟩
  · intro q p n x core port next hok hauto
    have h : s.PortRow c w := ⟨hs, hr, hl, h0⟩
    have hmfld := State.canonical_fld (mark_canonical hs c)
    refine ⟨⟨_, rfl, h.marked hok hauto⟩, ⟨_, rfl, h.rewound hok hauto⟩, fun hpos hle hpend hmode hroom => ?_⟩
    have hrel : s.CanRelease c w n x := ⟨h, hok, hauto, rfl, rfl, hpos, hle, hpend, hmode, hroom⟩
    have hsrc := hrel.sameSource
    by_cases hhere : s.producerHere q n
    · have hu := hrel.here hhere
      have hop := hrel.released_op.thenQput (atCluster_credits (producerPort_lt s q n)) (s.creditWrite q n x).2
      refine ⟨_, rfl, hu.sameMemory ⟨rfl, rfl, rfl, rfl, rfl, rfl⟩, hu.queues_eq.trans hrel.queues_eq,
        hu.qget_written hop hmfld creditWrite_pairwise (.head _) hroom, (if_pos hhere).mpr ?_⟩
      exact ⟨hu.qget_written hop hmfld creditWrite_pairwise (.tail _ (.head _)) (Nat.mod_lt _ (by decide)), hu.goesOn⟩
    · have hu := hrel.away hhere
      have hop := hrel.released_op.sendStream (((s.mark c).released q n).creditFor q n x.rptr)
      refine ⟨_, rfl, hu.sameMemory ⟨rfl, rfl, rfl, rfl, rfl, rfl⟩, hu.queues_eq.trans hrel.queues_eq,
        hu.qget_written hop hmfld (List.pairwise_singleton _ _) (.head _) hroom, (if_neg hhere).mpr ?_⟩
      exact ⟨hu.goesOn, _, hu.streamOut_eq, rfl, rfl, hsrc.port, congrArg (· / 48) hsrc.core⟩

end Sys2Proof.Machine
end

section
/-! PROOFS. Stale stream messages (R192, R333) and the end of a sweep (R194, R196): O28. -/

namespace Sys2Proof.Machine

variable {s t u : State} {c : CoreRef} {q : CluRef} {f : Fld} {m : StreamMsg} {n k drops : Nat}

/-! ### Stale messages -/

theorem State.WritesAndNotes.queues_eq {es : List (Nat × Fld)} (h : s.WritesAndNotes t es) : t.queues = s.queues :=
  let ⟨_, hw⟩ := h
  hw.queues_eq

/-- The first stale token after an epoch switch is marked, and a notice raised. -/
theorem staleToken_writes (h : risingFrom 0 s.fld = true) (tok epoch : Nat) :
    s.WritesAndNotes (s.staleToken q tok epoch) ([Clu.STALE_SEEN].map (cluFld q) ++ noticeFlds q.site) := by
  unfold State.staleToken
  split
  · exact (State.WritesAndNotes.of_writes (.refl h)).mono (List.nil_subset _)
  · have hw : s.Writes (s.qput q Clu.STALE_SEEN 1) ([Clu.STALE_SEEN].map (cluFld q)) := (State.Writes.refl h).put (cluFld q Clu.STALE_SEEN) 1
    exact (State.WritesAndNotes.of_writes hw).trans (notify_writes hw.ordered ..)

/-- The count of stale messages stands apart from a die's notices. -/
theorem apart_stale (hclu : q.clu < 2) : Apart (cluFld q Reg.CLU_QSTALE.STALE) ([Clu.STALE_SEEN].map (cluFld q) ++ noticeFlds q.site) := by
  refine (apart_append ..).2 ⟨apart_clu (by decide), apart_die (fs := noticeFs) ?_⟩
  obtain h0 | h1 : q.clu = 0 ∨ q.clu = 1 := by omega
  · rw [h0]
    decide
  · rw [h1]
    decide

/-- The state that a discarded message leaves. -/
def State.discarded (s : State) (m : StreamMsg) : State :=
  ((s.takeStream m).qbump (s.destCluster m) Reg.CLU_QSTALE.STALE).staleToken (s.destCluster m) 0 m.epoch

/-- A message of another epoch that is for no ring is discarded, whatever it carries. -/
theorem exec_stale (hring : m.ring = false) (he : m.epoch ≠ s.qget (s.destCluster m) Reg.CLU_QPOOL.EPOCH) :
    ∀ i ∈ [Instr.cell m, .closeMessage m, .credit m], exec i s = .next (s.discarded m) := by
  have hcell : s.cellMessage m = s.discarded m := by
    unfold State.cellMessage
    rw [hring]
    exact if_pos he
  have hclose : s.closeArrives m = s.discarded m := if_pos he
  have hcredit : s.creditArrives m = s.discarded m := if_pos he
  simp only [List.forall_mem_cons, List.not_mem_nil, false_imp_iff, implies_true, and_true]
  exact ⟨congrArg Host.Outcome.next hcell, congrArg Host.Outcome.next hclose, congrArg Host.Outcome.next hcredit⟩

theorem discarded_counts (hs : s.canonical = true) (hclu : m.dclu < 2) :
    s.sameMemory (s.discarded m) ∧ (s.discarded m).queues = s.queues
      ∧ (s.discarded m).qget (s.destCluster m) Reg.CLU_QSTALE.STALE
          = min (s.qget (s.destCluster m) Reg.CLU_QSTALE.STALE + 1) (2 ^ Reg.CLU_QSTALE.STALE.width - 1) := by
  have hfld : risingFrom 0 (s.takeStream m).fld = true := State.canonical_fld hs
  have hcount : ((s.takeStream m).qbump (s.destCluster m) Reg.CLU_QSTALE.STALE).qget (s.destCluster m) Reg.CLU_QSTALE.STALE
      = min (s.qget (s.destCluster m) Reg.CLU_QSTALE.STALE + 1) (2 ^ Reg.CLU_QSTALE.STALE.width - 1) :=
    State.cget_cbump_same hfld ⟨(s.destCluster m).site, (s.destCluster m).clu⟩ _
  have hw : ((s.takeStream m).qbump (s.destCluster m) Reg.CLU_QSTALE.STALE).WritesAndNotes (s.discarded m) _ :=
    staleToken_writes (State.put_rising _ _ _ _ hfld) 0 m.epoch
  exact ⟨hw.sameMemory, hw.queues_eq, (hw.get_eq (e := cluFld _ _) (apart_stale hclu)).trans hcount⟩

/-! ### The sweep -/

theorem setQueue_rising (h : risingFrom 0 s.fld = true) (q : CluRef) (n : Nat) (x : QueueSt) : risingFrom 0 (s.setQueue q n x).fld = true := h

/-- Credits that return write the credits of the producer's port, or leave in a message. -/
theorem returnCredits_leaves (h : risingFrom 0 s.fld = true) (q : CluRef) (n k : Nat) : ∃ so,
    { s with streamOut := so }.Writes (s.returnCredits q n k) [cluFld q (Reg.CLU_QPSTATE.CREDITS (s.qget q (Reg.CLU_QSRC.PPORT n)))] := by
  unfold State.returnCredits
  split
  · exact ⟨s.streamOut, (State.Writes.refl h).mono (List.nil_subset _)⟩
  · dsimp only
    split
    · exact ⟨s.streamOut, (State.Writes.refl h).put (cluFld q _) _⟩
    · exact ⟨_, (State.Writes.refl (show risingFrom 0 (s.sendStream _).fld = true from h)).mono (List.nil_subset _)⟩

/-- The cells of a queue are free, and it is empty. -/
def State.emptied (s : State) (q : CluRef) (n : Nat) : State :=
  (s.setQueue q n QueueSt.empty).qput q Reg.CLU_QPOOL.FREE (s.qget q Reg.CLU_QPOOL.FREE + (s.queue q n).held)

/-- Its credits have returned, the reset is counted, and it is active again. -/
def State.swept (s : State) (q : CluRef) (n : Nat) : State :=
  (((s.emptied q n).returnCredits q n (s.queue q n).held).qbump q (Reg.CLU_QSTATE.RESETS n)).qput q (Reg.CLU_QSTATE.STATE n) 1

/-- The cells that a sweep has lost (R196). -/
def QueueSt.lost (x : QueueSt) : Nat := x.sweepDrops + x.pendDrops + (x.cells.map fun k => if k.kind = 2 then k.len else 1).sum

theorem sweepDone_eq (hst : s.qget q (Reg.CLU_QSTATE.STATE n) = 2) : s.sweepDone q n =
    if (s.swept q n).qget q (Reg.CLU_QCFG.MODE n) = 1 then (s.swept q n).linkMarker q n (s.queue q n).lost true else s.swept q n := by
  unfold State.sweepDone
  rw [if_neg (not_not.2 hst)]
  rfl

/-- What the return of credits, the count and the mark write. -/
def State.sweepFs (s : State) (q : CluRef) (n : Nat) : List Fld :=
  [Reg.CLU_QPSTATE.CREDITS ((s.emptied q n).qget q (Reg.CLU_QSRC.PPORT n)), Reg.CLU_QSTATE.RESETS n, Reg.CLU_QSTATE.STATE n]

section
variable (hs : s.canonical = true) (q : CluRef) (n : Nat)
include hs

theorem emptied_rising : risingFrom 0 (s.emptied q n).fld = true :=
  State.put_rising (s.setQueue q n QueueSt.empty) q.site _ _ (setQueue_rising (State.canonical_fld hs) q n _)

theorem swept_leaves : ∃ so, { s.emptied q n with streamOut := so }.Writes (s.swept q n) ((s.sweepFs q n).map (cluFld q)) := by
  obtain ⟨so, hw⟩ := returnCredits_leaves (emptied_rising hs q n) q n (s.queue q n).held
  exact ⟨so, (hw.put (cluFld q _) _).put (cluFld q _) 1⟩

theorem swept_rising : risingFrom 0 (s.swept q n).fld = true :=
  let ⟨_, hw⟩ := swept_leaves hs q n
  hw.ordered

theorem swept_queues : (s.swept q n).queues = mapSet QueueSt.empty s.queues (queueKey q n) QueueSt.empty :=
  let ⟨_, hw⟩ := swept_leaves hs q n
  hw.queues_eq

theorem swept_sameMemory : s.sameMemory (s.swept q n) :=
  let ⟨_, hw⟩ := swept_leaves hs q n
  hw.sameMemory

theorem qget_swept_emptied (hf : ∀ g ∈ s.sweepFs q n, f.pos ≠ g.pos) : (s.swept q n).qget q f = (s.emptied q n).qget q f :=
  let ⟨_, hw⟩ := swept_leaves hs q n
  hw.get_eq (e := cluFld q f) (apart_clu hf)

theorem qget_emptied (hf : f.pos ≠ Reg.CLU_QPOOL.FREE.pos) : (s.emptied q n).qget q f = s.qget q f :=
  get_clu_put (setQueue_rising (State.canonical_fld hs) q n QueueSt.empty) q hf _

theorem swept_mode : (s.swept q n).qget q (Reg.CLU_QCFG.MODE n) = s.qget q (Reg.CLU_QCFG.MODE n) := by
  have hport := producerPort_lt (s.emptied q n) q n
  refine (qget_swept_emptied hs q n ?_).trans (qget_emptied hs q n (entry_pos_ne_free (by decide)))
  simp only [State.sweepFs, List.forall_mem_cons, List.not_mem_nil, false_imp_iff, implies_true, and_true, Reg.CLU_QCFG.MODE,
    Reg.CLU_QPSTATE.CREDITS, Reg.CLU_QSTATE.RESETS, Reg.CLU_QSTATE.STATE, Fld.pos]
  omega

theorem swept_state : (s.swept q n).qget q (Reg.CLU_QSTATE.STATE n) = 1 := by
  obtain ⟨so, hw⟩ := returnCredits_leaves (emptied_rising hs q n) q n (s.queue q n).held
  exact State.cget_cput_of_lt (hw.put (cluFld q (Reg.CLU_QSTATE.RESETS n)) _).ordered ⟨q.site, q.clu⟩ (Reg.CLU_QSTATE.STATE n) (show 1 < 2 ^ 2 by decide)

theorem swept_resets : (s.swept q n).qget q (Reg.CLU_QSTATE.RESETS n) = min (s.qget q (Reg.CLU_QSTATE.RESETS n) + 1) 255 := by
  have hport := producerPort_lt (s.emptied q n) q n
  obtain ⟨so, hw⟩ := returnCredits_leaves (emptied_rising hs q n) q n (s.queue q n).held
  have hne : (Reg.CLU_QSTATE.RESETS n).pos ≠ (Reg.CLU_QSTATE.STATE n).pos := by
    simp only [Reg.CLU_QSTATE.RESETS, Reg.CLU_QSTATE.STATE, Fld.pos]
    omega
  have hcredits : (Reg.CLU_QSTATE.RESETS n).pos ≠ (Reg.CLU_QPSTATE.CREDITS ((s.emptied q n).qget q (Reg.CLU_QSRC.PPORT n))).pos := by
    simp only [Reg.CLU_QSTATE.RESETS, Reg.CLU_QPSTATE.CREDITS, Fld.pos]
    omega
  have hbefore : ((s.emptied q n).returnCredits q n (s.queue q n).held).qget q (Reg.CLU_QSTATE.RESETS n) = s.qget q (Reg.CLU_QSTATE.RESETS n) :=
    (hw.get_eq (e := cluFld q (Reg.CLU_QSTATE.RESETS n)) (apart_clu (fs := [_]) (by simpa using hcredits))).trans
      (qget_emptied hs q n (entry_pos_ne_free (by decide)))
  have hcount := State.cget_cbump_same hw.ordered ⟨q.site, q.clu⟩ (Reg.CLU_QSTATE.RESETS n)
  exact ((get_clu_put (hw.put (cluFld q (Reg.CLU_QSTATE.RESETS n)) _).ordered q hne 1).trans hcount).trans (hbefore ▸ rfl)

theorem swept_free : (s.swept q n).qget q Reg.CLU_QPOOL.FREE = (s.qget q Reg.CLU_QPOOL.FREE + (s.queue q n).held) % 2 ^ 16 := by
  refine (qget_swept_emptied hs q n ?_).trans (State.get_put_same (s.setQueue q n QueueSt.empty) q.site _ _ (setQueue_rising (State.canonical_fld hs) q n _))
  simp only [State.sweepFs, List.forall_mem_cons, List.not_mem_nil, false_imp_iff, implies_true, and_true]
  exact ⟨(entry_pos_ne_free (by decide)).symm, (entry_pos_ne_free (by decide)).symm, (entry_pos_ne_free (by decide)).symm⟩

end

/-! ### The gap marker of a LOSSY queue -/

/-- The fields of a core that a schedule fault or a count of arrivals writes. -/
def counterFs (ctr : Nat) : List Fld := [Reg.CORE_CCOUNT.VALUE ctr, Reg.CORE_CCOUNT.SATURATED ctr] ++ faultFs

/-- A schedule fault writes its core's status, the notices of its die and the line of a squad at most. -/
theorem schedFault_leaves (h : risingFrom 0 s.fld = true) (c : CoreRef) (code addr : Nat) : ∃ l < 16,
    s.WritesAndNotes (s.schedFault c code addr) (faultFs.map (coreFld c) ++ noticeFlds c.site ++ lineFlds l) := by
  unfold State.schedFault
  split
  · exact ⟨0, by decide, (State.WritesAndNotes.of_writes (.refl h)).mono (List.nil_subset _)⟩
  · have w1 : s.Writes _ (faultFs.map (coreFld c)) := State.writes_cputs h c (faultWrites code addr)
    have w2 := notify_writes w1.ordered c.site c.core 0x0102 3 code addr
    exact ⟨_, State.get_lt _ c.site Reg.DIE_SIDEBAND.SQUAD,
      ((State.WritesAndNotes.of_writes w1).trans w2).trans (.of_writes (whistle_writes w2.ordered c.site Cause.SCHED_FAULT).1)⟩

/-- So does a count of arrivals, beside its counter. -/
theorem addCounter_leaves (h : risingFrom 0 s.fld = true) (c : CoreRef) (ctr k : Nat) : ∃ l < 16,
    s.WritesAndNotes (s.addCounter c ctr k) ((counterFs ctr).map (coreFld c) ++ noticeFlds c.site ++ lineFlds l) := by
  unfold State.addCounter
  dsimp only
  split
  · exact ⟨0, by decide, (State.WritesAndNotes.of_writes ((State.Writes.refl h).cput c (Reg.CORE_CCOUNT.VALUE ctr) _)).mono (by simp [counterFs])⟩
  · have w1 := ((State.Writes.refl h).cput c (Reg.CORE_CCOUNT.VALUE ctr) 0xFFFFFF).cset c (Reg.CORE_CCOUNT.SATURATED ctr) true
    obtain ⟨l, hl, w2⟩ := schedFault_leaves w1.ordered c 0x08 (s.cget c Reg.CORE_SCHED_STATUS.ADDR)
    exact ⟨l, hl, (State.WritesAndNotes.of_writes w1).trans w2⟩

theorem countArrivals_leaves (h : risingFrom 0 s.fld = true) (q : CluRef) (n : Nat) (x : QueueSt) : ∃ l < 16, ∃ c ctr, c.site = q.site ∧ ctr < 16
    ∧ s.WritesAndNotes (s.countArrivals q n x) ((counterFs ctr).map (coreFld c) ++ noticeFlds q.site ++ lineFlds l) := by
  unfold State.countArrivals
  dsimp only
  split
  · obtain ⟨l, hl, hw⟩ := addCounter_leaves h (s.consumer q n) (s.qget q (Reg.CLU_QCFG.ARR_CTR n))
      ((s.queue q n).readableEnd (s.qget q (Reg.CLU_QCFG.CUT n)) - x.readableEnd (s.qget q (Reg.CLU_QCFG.CUT n)))
    exact ⟨l, hl, s.consumer q n, _, rfl, s.get_lt q.site ((Reg.CLU_QCFG.ARR_CTR n).nth q.clu), hw⟩
  · exact ⟨0, by decide, ⟨q.site, 0⟩, 0, rfl, by decide, (State.WritesAndNotes.of_writes (.refl h)).mono (List.nil_subset _)⟩

/-- A field stands where the state of the queues of cluster 0 does. -/
abbrev Fld.AtQueueState (f : Fld) : Prop := 0x40A000 * 64 ≤ f.pos ∧ f.pos < 0x40C000 * 64

/-- The state of a queue stands apart from what a count of arrivals writes, for no field of a core stands so far on among its core's. -/
theorem apart_queueState (hq : q.wf = true) (hf : f.AtQueueState) (hc : c.site = q.site) {ctr l : Nat} (hctr : ctr < 16) (hl : l < 16) :
    Apart (cluFld q f) ((counterFs ctr).map (coreFld c) ++ noticeFlds q.site ++ lineFlds l) := by
  obtain ⟨hsite, hclu⟩ : q.site < 256 ∧ q.clu < 2 := by simpa [CluRef.wf] using hq
  refine (apart_append ..).2 ⟨(apart_append ..).2 ⟨fun a ha => ?_, apart_die (f := f.nth q.clu) (fs := noticeFs) fun g hg => ?_⟩, ?_⟩
  · obtain ⟨g, hg, rfl⟩ := List.mem_map.1 ha
    have hpos : 0x100000 * 64 ≤ g.pos ∧ g.pos < 0x100100 * 64 :=
      (by decide : ∀ ctr < 16, ∀ g ∈ counterFs ctr, 0x100000 * 64 ≤ g.pos ∧ g.pos < 0x100100 * 64) ctr hctr g hg
    simp only [cluFld, coreFld, fldKey_eq_pos, Fld.pos_nth, hc]
    omega
  · have hpos : g.pos < 0x400000 * 64 ∨ 0x1000000 * 64 ≤ g.pos :=
      (by decide : ∀ g ∈ noticeFs, g.pos < 0x400000 * 64 ∨ 0x1000000 * 64 ≤ g.pos) g hg
    rw [Fld.pos_nth]
    omega
  · rw [lineFlds_squad hl]
    refine apart_sites (f := f.nth q.clu) (show q.site ≠ 256 by omega) ?_ (lineFlds_pos hl)
    rw [Fld.pos_nth]
    omega

/-- A gap marker in the lowest free cell (R181). -/
def State.gapMarker (s : State) (q : CluRef) (drops : Nat) (reset : Bool) : QCell :=
  ⟨s.freeCell q, 2, min drops lenMax, s.qget q Reg.CLU_QPOOL.EPOCH, false, reset⟩

/-- A queue with one more cell, which starts no packet. -/
def QueueSt.withCell (x : QueueSt) (y : QCell) : QueueSt := { x with cells := x.cells ++ [y], openPkt := x.openPkt.map (· + 1) }

/-- The marker is linked and counted; arrivals are not yet. -/
def State.markerLinked (s : State) (q : CluRef) (n drops : Nat) (reset : Bool) : State :=
  (((s.wrP (cellKey q (s.freeCell q)) zeroCell).qput q Reg.CLU_QPOOL.FREE (s.qget q Reg.CLU_QPOOL.FREE - 1)).setQueue q n
    ((s.queue q n).withCell (s.gapMarker q drops reset))).qbump q (Reg.CLU_QSTATE.GAPS n)

theorem linkMarker_eq (s : State) (q : CluRef) (n drops : Nat) (reset : Bool) :
    s.linkMarker q n drops reset = (s.markerLinked q n drops reset).countArrivals q n (s.queue q n) := rfl

section
variable (h : risingFrom 0 s.fld = true)
include h

theorem wrP_rising (k : Nat) (bs : List (Byte × Bool)) : risingFrom 0 (s.wrP k bs).fld = true := by
  rw [wrP_eq]
  exact h

/-- Beside the count of gaps, the state of the queues reads as before. -/
theorem qget_markerLinked (hf : f.AtQueueState) (hg : f.pos ≠ (Reg.CLU_QSTATE.GAPS n).pos) (drops : Nat) (reset : Bool) :
    (s.markerLinked q n drops reset).qget q f = s.qget q f := by
  have hfree : f.pos ≠ Reg.CLU_QPOOL.FREE.pos := ne_of_gt (lt_of_lt_of_le (by decide) hf.1)
  have h1 := wrP_rising h (cellKey q (s.freeCell q)) zeroCell
  exact (get_clu_put (setQueue_rising (State.put_rising _ _ _ _ h1) q n _) q hg _).trans ((get_clu_put h1 q hfree _).trans (get_wrP ..))

theorem markerLinked_rising (drops : Nat) (reset : Bool) : risingFrom 0 (s.markerLinked q n drops reset).fld = true := by
  exact State.put_rising _ _ _ _ (setQueue_rising (State.put_rising _ _ _ _ (wrP_rising h _ _)) q n _)

end

theorem markerLinked_queue (h : risingFrom 0 s.queues = true) (drops : Nat) (reset : Bool) :
    (s.markerLinked q n drops reset).queue q n = (s.queue q n).withCell (s.gapMarker q drops reset) := by
  unfold State.markerLinked
  rw [wrP_eq]
  exact queue_setQueue h q n _

/-- A linked marker is the last cell of its queue, whatever its arrival counts. -/
theorem linkMarker_leaves (hf : risingFrom 0 s.fld = true) (hr : risingFrom 0 s.queues = true) (hq : q.wf = true) (drops : Nat) (reset : Bool) :
    (s.linkMarker q n drops reset).queue q n = (s.queue q n).withCell (s.gapMarker q drops reset)
      ∧ ∀ f : Fld, f.AtQueueState → f.pos ≠ (Reg.CLU_QSTATE.GAPS n).pos → (s.linkMarker q n drops reset).qget q f = s.qget q f := by
  obtain ⟨l, hl, c, ctr, hc, hctr, hw⟩ := countArrivals_leaves (markerLinked_rising hf (q := q) (n := n) drops reset) q n (s.queue q n)
  rw [linkMarker_eq]
  refine ⟨?_, fun f hat hg => (hw.get_eq (e := cluFld q f) (apart_queueState hq hat hc hctr hl)).trans (qget_markerLinked hf hat hg drops reset)⟩
  rw [State.queue, hw.queues_eq]
  exact markerLinked_queue hr drops reset

/-- The states and the reset counts of the queues. -/
theorem atQueueState (hn : n < 1024) {lo : Nat} (hlo : lo < 64) {width reset : Nat} {acc : Acc} :
    (⟨0x40A000 + 8 * n, lo, width, reset, acc⟩ : Fld).AtQueueState := by
  simp only [Fld.AtQueueState, Fld.pos]
  omega

theorem ne_gaps {lo : Nat} (hlo : lo ≠ 35) {width reset : Nat} {acc : Acc} :
    (⟨0x40A000 + 8 * n, lo, width, reset, acc⟩ : Fld).pos ≠ (Reg.CLU_QSTATE.GAPS n).pos := by
  simp only [Reg.CLU_QSTATE.GAPS, Fld.pos]
  omega

/-- Settles O28: stale messages by `exec_stale`; the sweep leaves `swept`, and a LOSSY queue its gap marker (`linkMarker_leaves`). -/
theorem staleMessagesAndSweeps : Obligations.StaleMessagesAndSweeps := by
  unfold Obligations.StaleMessagesAndSweeps
  refine ⟨fun s m hs hm _ hring => ?_, fun s q n hs hq hn hst => ?_⟩
  · intro q he i hi
    have hclu : m.dclu < 2 := by
      simp only [StreamMsg.wf, Bool.and_eq_true, decide_eq_true_eq] at hm
      omega
    exact ⟨_, exec_stale hring he i hi, discarded_counts hs hclu⟩
  · intro x resets
    have hdone := sweepDone_eq hst
    rw [swept_mode hs] at hdone
    refine ⟨fun hmode => ?_, fun hmode => ?_⟩
    · rw [if_neg (by omega)] at hdone
      exact ⟨_, congrArg Host.Outcome.next hdone, swept_queues hs q n, swept_state hs q n, swept_resets hs q n, swept_free hs q n,
        swept_sameMemory hs q n⟩
    · rw [if_pos hmode] at hdone
      obtain ⟨-, hrise, -⟩ := State.canonical_maps hs
      have hempty : (s.swept q n).queue q n = QueueSt.empty := by
        rw [State.queue, swept_queues hs]
        exact mapGet_set_same _ _ _ hrise
      obtain ⟨hqueue, hget⟩ := linkMarker_leaves (n := n) (swept_rising hs q n) (by rw [swept_queues hs]; exact rising_set _ _ _ hrise) hq x.lost true
      rw [hempty] at hqueue
      exact ⟨_, (s.swept q n).gapMarker q x.lost true, congrArg Host.Outcome.next hdone, congrArg QueueSt.cells hqueue, rfl, rfl, rfl,
        (hget _ (atQueueState hn (by decide)) (ne_gaps (by decide))).trans (swept_state hs q n),
        (hget _ (atQueueState hn (by decide)) (ne_gaps (by decide))).trans (swept_resets hs q n)⟩

end Sys2Proof.Machine
end
